-- ==== Sys2Proof/Word.lean ====
section
/-! DEFINITION. The words of the machine and their plainest arithmetic: bytes, 32-bit registers, 64-bit values, the
128-bit instruction word, bit fields of a natural number, two's complement. -/

namespace Sys2Proof

/-- One byte. -/
abbrev Byte := BitVec 8
/-- A register of register space (R10), a vector element, an accumulator slot. -/
abbrev Word32 := BitVec 32
/-- A general register (R173). -/
abbrev Word64 := BitVec 64
/-- An instruction word (R175). -/
abbrev IWord := BitVec 128

/-- Bits [lo + n - 1 : lo] of `v`. -/
def field (v lo n : Nat) : Nat := v / 2 ^ lo % 2 ^ n

/-- Bit `i` of `v`. -/
def tbit (v i : Nat) : Bool := v / 2 ^ i % 2 == 1

/-- The value of an `n`-bit two's-complement pattern. -/
def signedOf (n v : Nat) : Int := if v % 2 ^ n < 2 ^ (n - 1) then (v % 2 ^ n : Nat) else (v % 2 ^ n : Nat) - (2 ^ n : Nat)

/-- The `n`-bit two's-complement pattern of `i`. -/
def patternOf (n : Nat) (i : Int) : Nat := (i % (2 ^ n : Nat)).toNat

/-- One as a natural number where `b` holds, zero elsewhere. -/
def bit (b : Bool) : Nat := if b then 1 else 0

/-- `a / b` rounded up. -/
def ceilDiv (a b : Nat) : Nat := if a % b = 0 ∨ b = 0 then a / b else a / b + 1

/-- `a` rounded up to a multiple of `b`. -/
def roundUp (a b : Nat) : Nat := ceilDiv a b * b

/-- `x` held to at most `hi`. -/
def capAt (hi x : Nat) : Nat := if x ≤ hi then x else hi

/-- `i` held to `lo .. hi`. -/
def clampInt (lo hi i : Int) : Int := if i < lo then lo else if hi < i then hi else i

end Sys2Proof
end

