-- ==== Sys2Proof/Machine/Store.lean ====
section
/-! DEFINITION. Sparse storage: a list of key and value pairs in one canonical form (keys strictly rising, no entry
equal to what an unlisted key reads as). Every table, register file and memory of the machine is one of these. -/

namespace Sys2Proof

/-- A sparse table. An unlisted key reads as a value that the reader names. -/
abbrev Tab (α : Type) := List (Nat × α)

/-- What key `k` reads as, `d` where it is not listed. -/
def Tab.get {α : Type} (d : α) : Tab α → Nat → α
  | [], _ => d
  | (j, v) :: rest, k => if j = k then v else Tab.get d rest k

/-- The table without key `k`. -/
def Tab.drop {α : Type} : Tab α → Nat → Tab α
  | [], _ => []
  | (j, v) :: rest, k => if j = k then Tab.drop rest k else (j, v) :: Tab.drop rest k

/-- Insert before the first larger key. -/
def Tab.put {α : Type} : Tab α → Nat → α → Tab α
  | [], k, v => [(k, v)]
  | (j, u) :: rest, k, v => if k < j then (k, v) :: (j, u) :: rest else (j, u) :: Tab.put rest k v

/-- Write `v` at `k`. The value that an unlisted key reads as removes the entry. -/
def Tab.set {α : Type} [DecidableEq α] (d : α) (t : Tab α) (k : Nat) (v : α) : Tab α :=
  if v = d then t.drop k else (t.drop k).put k v

/-- Every listed key lies above `lo`, keys rise, and no value is the default. -/
def Tab.wfFrom {α : Type} [DecidableEq α] (d : α) : Nat → Tab α → Bool
  | _, [] => true
  | lo, (j, v) :: rest => decide (lo ≤ j) && decide (v ≠ d) && Tab.wfFrom d (j + 1) rest

/-- The canonical form. -/
def Tab.wf {α : Type} [DecidableEq α] (d : α) (t : Tab α) : Bool := Tab.wfFrom d 0 t

/-- The keys listed. -/
def Tab.keys {α : Type} (t : Tab α) : List Nat := t.map Prod.fst

/-- The entry of key `k`, if it is listed. -/
def Tab.find? {α : Type} : Tab α → Nat → Option α
  | [], _ => none
  | (j, v) :: rest, k => if j = k then some v else Tab.find? rest k

/-- Write an entry of a table whose unlisted keys hold nothing. -/
def Tab.setSome {α : Type} (t : Tab α) (k : Nat) (v : α) : Tab α := (t.drop k).put k v

/-- Memory: bytes by address (Host.Cell). Nothing listed reads as zero. -/
abbrev Memory := List Host.Cell

/-- A byte that nothing has written reads as zero (DESIGN CHOICE, log entry 2). -/
def Memory.unwritten : Byte := 0#8

/-- The canonical form of a memory. -/
def Memory.wf (m : Memory) : Bool := Tab.wf Memory.unwritten m

/-- One byte. -/
def Memory.read (m : Memory) (a : Nat) : Byte := Tab.get Memory.unwritten m a

/-- Store one byte. -/
def Memory.write (m : Memory) (a : Nat) (b : Byte) : Memory := Tab.set Memory.unwritten m a b

/-- `n` bytes from address `a` upward. -/
def Memory.readN (m : Memory) (a : Nat) : Nat → List Byte
  | 0 => []
  | n + 1 => m.read a :: Memory.readN m (a + 1) n

/-- Store bytes from address `a` upward. -/
def Memory.writeN (m : Memory) (a : Nat) : List Byte → Memory
  | [] => m
  | b :: bs => Memory.writeN (m.write a b) (a + 1) bs

/-- Little-endian value of bytes (R44). -/
def leNat : List Byte → Nat
  | [] => 0
  | b :: bs => b.toNat + 256 * leNat bs

/-- `n` little-endian bytes of a value. -/
def leBytes : Nat → Nat → List Byte
  | 0, _ => []
  | n + 1, v => BitVec.ofNat 8 v :: leBytes n (v / 256)

/-- The bytes `bs[o .. o+n)`, zero beyond the end. -/
def sliceBytes (bs : List Byte) (o n : Nat) : List Byte :=
  ((bs.drop o).take n) ++ List.replicate (n - (bs.drop o).length) 0#8

/-- The little-endian field of `n` bytes at offset `o` of a byte image. -/
def fieldAt (bs : List Byte) (o n : Nat) : Nat := leNat (sliceBytes bs o n)

/-- Put bytes into a byte image at an offset, without changing its length. -/
def putBytes (bs : List Byte) (o : Nat) (v : List Byte) : List Byte :=
  (bs.take o) ++ (v.take (bs.length - o)) ++ bs.drop (o + v.length)

/-- `n` zero bytes. -/
def zeros (n : Nat) : List Byte := List.replicate n 0#8

/-- Pad with zero bytes up to a multiple of `k` bytes. -/
def padTo (k : Nat) (bs : List Byte) : List Byte := bs ++ zeros (roundUp bs.length k - bs.length)

/-- Do all bytes equal zero. -/
def allZero (bs : List Byte) : Bool := bs.all (· == 0#8)

/-- Replace element `i` of a list by `f` of it. -/
def modifyAt {α : Type} (f : α → α) : Nat → List α → List α
  | _, [] => []
  | 0, x :: xs => f x :: xs
  | i + 1, x :: xs => x :: modifyAt f i xs

/-- Cut a list into pieces of `k`, `fuel` pieces at most. -/
def chunksOf {α : Type} (k : Nat) : Nat → List α → List (List α)
  | 0, _ => []
  | _, [] => []
  | fuel + 1, x :: xs => (x :: xs).take k :: chunksOf k fuel ((x :: xs).drop k)

/-- Insert a number into a rising list without repeats. -/
def insertNat (k : Nat) : List Nat → List Nat
  | [] => [k]
  | j :: rest => if k < j then k :: j :: rest else if k = j then j :: rest else j :: insertNat k rest

end Sys2Proof
end

