-- ==== Sys2Proof/Machine/FabState.lean ====
section
/-! DEFINITION. The state of the Bexica fabric (chapter 13): frames, flows, operations in flight, paths, rates, peers,
link states. -/

namespace Sys2Proof.Machine

/-- A Bexica frame (R377): its header fields, type area and payload. -/
structure Frame where
  type    : Nat
  flags   : Nat := 0
  cls     : Nat
  src     : Nat
  dst     : Nat
  tenant  : Nat := 0
  plane   : Nat := 0
  psn     : Nat := 0
  fepoch  : Nat := 0
  area    : List Byte := []
  payload : List Byte := []
  deriving DecidableEq, Repr

/-- What arrives on a fabric port: port, whether MACsec verifies, UDP destination port, IPv6 source, CE mark, the Bexica header with its
payload, and the codewords that the port corrected, and could not correct, since the last arrival (R403). -/
structure Arrival where
  port   : Nat
  macsec : Bool
  udp    : Nat
  ipsrc  : Nat
  ce     : Bool
  bytes  : List Byte
  corr   : Nat := 0
  uncorr : Nat := 0
  deriving DecidableEq, Repr

/-- A packet that arrives on a host port: port, queue pair, whether its MACsec protection verifies, CE mark (R245). -/
structure HostPkt where
  port   : Nat
  qpn    : Nat
  macsec : Bool
  ce     : Bool
  deriving DecidableEq, Repr

/-- A sequenced frame that no ACK covers: the plane it last used, none before it is sent, when it was issued and when last
sent, and whether a range of an ACK names it. -/
structure SentFrame where
  frame : Frame
  plane : Option Nat := none
  issued : Nat
  at_   : Nat
  seen  : Bool := false
  deriving DecidableEq, Repr

/-- A flow at its sender (R382). Keyed (source role * 8192 + destination) * 8 + class. -/
structure OutFlow where
  next    : Nat := 1
  fepoch  : Nat := 0
  unacked : List SentFrame := []
  /-- A RESYNC awaits its RESYNC_ACK (R399). -/
  syncing : Bool := false
  /-- The plane that the last frame of this class and destination used. -/
  last    : Nat := 31
  deriving DecidableEq, Repr

/-- A flow at its destination (R383, R391). Keyed like OutFlow, by source and destination role. -/
structure InFlow where
  /-- The lowest psn not yet applied. -/
  expect  : Nat := 1
  fepoch  : Nat := 0
  held    : Tab Frame := []
  /-- Frames since the last ACK, when the first of them came, CE marks and frames since then, plane of the last one. -/
  since   : Nat := 0
  firstAt : Option Nat := none
  ce      : Nat := 0
  rx      : Nat := 0
  plane   : Nat := 0
  /-- The class-6 psn on whose acknowledgement the frame `expect` waits (R383). -/
  mir     : Option Nat := none
  deriving DecidableEq, Repr

/-- A READ range of a load move that is not fully received (R386). -/
structure ReadRun where
  cls    : Nat
  dst    : Nat
  tenant : Nat
  /-- Address and length of the range, and the address of the newest READ. -/
  addr   : Nat
  len    : Nat
  base   : Nat
  got    : List (Nat × Nat) := []
  at_    : Nat
  /-- The READ has been acknowledged, or a response has come: the time-out runs. -/
  timed  : Bool := false
  psn    : Nat
  core   : Nat
  part   : Nat
  /-- Local address of the stage bytes that receive the range. -/
  stage  : Nat
  va     : Nat
  /-- The KV block that is fetched (R235): slot, position, group; `stage` is then the offset within it. -/
  sink   : Option (Nat × Nat × Nat) := none
  deriving DecidableEq, Repr

/-- An atomic whose ATOMIC_RESP has not come (R387). -/
structure AtomRun where
  /-- The destination, with 8192 added where the atomic goes out for the partner's role. -/
  dst   : Nat
  cls   : Nat
  psn   : Nat
  core  : Nat
  part  : Nat
  stage : Nat
  width : Nat
  va    : Nat
  deriving DecidableEq, Repr

/-- An atomic that this module applied for a source (R387). -/
structure AtomRec where
  cls    : Nat
  psn    : Nat
  old    : Nat
  poison : Bool
  deriving DecidableEq, Repr

/-- A path (R393), keyed 32 * module + plane: consecutive losses, end of its hold, when its PROBE was sent. -/
structure PathSt where
  losses : Nat := 0
  hold   : Option Nat := none
  probe  : Option Nat := none
  deriving DecidableEq, Repr

/-- The rate toward a destination (R394), FP32. -/
structure RateSt where
  rate  : Word32
  alpha : Word32
  cutAt : Option Nat
  incAt : Nat
  deriving DecidableEq, Repr

/-- What is kept of a peer beside FAB_PEER: when it was last heard, when it was declared lost, when it was probed. -/
structure PeerSt where
  heard  : Nat := 0
  lostAt : Nat := 0
  probed : Option Nat := none
  deriving DecidableEq, Repr

/-- A TAKEOVER that a member has not acknowledged (R397). -/
structure TakeRep where
  member : Nat
  failed : Nat
  epoch  : Nat
  since  : Nat
  last   : Nat
  deriving DecidableEq, Repr

/-- The fabric. -/
structure FabSt where
  flows   : Tab OutFlow := []
  inn     : Tab InFlow := []
  reads   : Tab ReadRun := []
  rtag    : Nat := 0
  opid    : Nat := 0
  atoms   : List AtomRun := []
  recs    : Tab (List AtomRec) := []
  paths   : Tab PathSt := []
  rates   : Tab RateSt := []
  peers   : Tab PeerSt := []
  repeats : List TakeRep := []
  /-- The domain's CAK (R373), ports with a live MKA peer and key, and the number of keys installed by port. -/
  cak     : Option (List Byte) := none
  keyed   : List Nat := []
  keys    : Tab Nat := []
  /-- When a port entered its link state (R400). -/
  since   : Tab Nat := []
  /-- Link-layer addresses of next hops (R370), keyed port * 2^128 + address. -/
  hops    : Tab (List Byte) := []
  deriving DecidableEq, Repr

end Sys2Proof.Machine
end

