-- ==== Sys2Proof/Machine/Numeric.lean ====
section
/-! DEFINITION. Exact numbers and one rounding: every value that a format of chapter 02 can hold is a sign, an integer
and a power of two; arithmetic on them is exact, and a result is rounded once into its format (R36 to R40, R128). -/

namespace Sys2Proof

/-- A value: NaN, an infinity, or (-1)^neg * m * 2^e. A zero keeps its sign (R39). -/
inductive Num where
  | nan
  | inf (neg : Bool)
  | fin (neg : Bool) (m : Nat) (e : Int)
  deriving DecidableEq, Repr

/-- The parameters of a floating-point format (R37). `top` is the code of the largest finite magnitude. -/
structure FpFmt where
  ebits : Nat
  mbits : Nat
  bias  : Nat
  top   : Nat
  infs  : Bool
  nans  : Bool
  deriving DecidableEq, Repr

def fp32 : FpFmt := { ebits := 8, mbits := 23, bias := 127, top := 0x7F7FFFFF, infs := true, nans := true }
def bf16 : FpFmt := { ebits := 8, mbits := 7, bias := 127, top := 0x7F7F, infs := true, nans := true }
def fp16 : FpFmt := { ebits := 5, mbits := 10, bias := 15, top := 0x7BFF, infs := true, nans := true }
def e4m3 : FpFmt := { ebits := 4, mbits := 3, bias := 7, top := 0x7E, infs := false, nans := true }
def e5m2 : FpFmt := { ebits := 5, mbits := 2, bias := 15, top := 0x7B, infs := true, nans := true }
def e3m2 : FpFmt := { ebits := 3, mbits := 2, bias := 3, top := 0x1F, infs := false, nans := false }
def e2m3 : FpFmt := { ebits := 2, mbits := 3, bias := 1, top := 0x1F, infs := false, nans := false }
def e2m1 : FpFmt := { ebits := 2, mbits := 1, bias := 1, top := 0x7, infs := false, nans := false }

namespace FpFmt

/-- Width of an element. -/
def width (f : FpFmt) : Nat := f.ebits + f.mbits + 1
/-- Code of +Infinity, where the format has it. -/
def infCode (f : FpFmt) : Nat := (2 ^ f.ebits - 1) * 2 ^ f.mbits
/-- The canonical NaN (R40). -/
def nanCode (f : FpFmt) : Nat := if f.infs then f.infCode + 2 ^ (f.mbits - 1) else 2 ^ (f.ebits + f.mbits) - 1
/-- The sign bit. -/
def signBit (f : FpFmt) : Nat := 2 ^ (f.ebits + f.mbits)

end FpFmt

/-- R36, R37: the value of an element code. -/
def decodeFp (f : FpFmt) (c : Nat) : Num :=
  let s := tbit c (f.ebits + f.mbits)
  let e := field c f.mbits f.ebits
  let m := field c 0 f.mbits
  if f.infs && e == 2 ^ f.ebits - 1 then (if m == 0 then .inf s else .nan)
  else if f.nans && !f.infs && e == 2 ^ f.ebits - 1 && m == 2 ^ f.mbits - 1 then .nan
  else if e == 0 then .fin s m (1 - (f.bias : Int) - f.mbits)
  else .fin s (2 ^ f.mbits + m) ((e : Int) - f.bias - f.mbits)

/-- How a magnitude is rounded (R52). -/
inductive RMode where
  | rne
  | rtz
  /-- SR with the source quantum's exponent and the 32-bit draw (R58). -/
  | sr (qsrc : Int) (u : Nat)
  deriving DecidableEq, Repr

/-- The integer count of quanta `2^q` to which the magnitude `m * 2^e` rounds (R52, R58). -/
def roundQ (r : RMode) (m : Nat) (e q : Int) : Nat :=
  if q ≤ e then m * 2 ^ (e - q).toNat
  else
    let s := (q - e).toNat
    let k := m / 2 ^ s
    let rem := m % 2 ^ s
    match r with
    | .rtz => k
    | .rne => if 2 * rem > 2 ^ s || (2 * rem == 2 ^ s && k % 2 == 1) then k + 1 else k
    | .sr qsrc u =>
      let n := q - qsrc
      if n ≤ 0 || rem == 0 then k
      else
        let mb := (min n 32).toNat
        let f := rem * 2 ^ mb / 2 ^ s
        if u % 2 ^ mb < f then k + 1 else k

/-- The exponent of the leading bit of `m * 2^e` (for `m` not 0). -/
def topExp (m : Nat) (e : Int) : Int := (Nat.log2 m : Int) + e

/-- The quantum's exponent of format `f` at magnitude `m * 2^e` (R58.1). -/
def quantumExp (f : FpFmt) (m : Nat) (e : Int) : Int := max (topExp m e) (1 - (f.bias : Int)) - f.mbits

/-- The magnitude code to which `m * 2^e` rounds. It may lie above `f.top`: the caller settles overflow. -/
def roundMag (f : FpFmt) (r : RMode) (m : Nat) (e : Int) : Nat :=
  if m = 0 then 0
  else
    let q := quantumExp f m e
    let k := roundQ r m e q
    if k < 2 ^ f.mbits then k else (q + f.mbits + f.bias).toNat * 2 ^ f.mbits + (k - 2 ^ f.mbits)

/-- A code with its sign. -/
def withSign (f : FpFmt) (neg : Bool) (mag : Nat) : Nat := if neg then f.signBit + mag else mag

/-- An FP32 result with the events that flags record. -/
structure F32Res where
  bits : Word32
  sat  : Bool
  nan  : Bool
  inf  : Bool
  deriving DecidableEq, Repr

def F32.nan : Word32 := 0x7FC00000#32
def F32.one : Word32 := 0x3F800000#32
def F32.zero : Word32 := 0x00000000#32
def F32.negInf : Word32 := 0xFF800000#32
def F32.posInf : Word32 := 0x7F800000#32

/-- One rounding to FP32 under RNE (R128). `hold` keeps a finite overflow at the largest finite value and marks it
(R106, R109, R114, R123); without it a finite overflow becomes an infinity. -/
def toF32 (hold : Bool) : Num → F32Res
  | .nan => { bits := F32.nan, sat := false, nan := true, inf := false }
  | .inf s => { bits := if s then F32.negInf else F32.posInf, sat := false, nan := false, inf := true }
  | .fin s m e =>
    let c := roundMag fp32 .rne m e
    if c ≤ fp32.top then { bits := BitVec.ofNat 32 (withSign fp32 s c), sat := false, nan := false, inf := false }
    else if hold then { bits := BitVec.ofNat 32 (withSign fp32 s fp32.top), sat := true, nan := false, inf := false }
    else { bits := if s then F32.negInf else F32.posInf, sat := false, nan := false, inf := true }

/-- FP32 bits of a value by one RNE rounding. -/
def f32 (x : Num) : Word32 := (toF32 false x).bits

/-- The value of FP32 bits. -/
def f32Val (w : Word32) : Num := decodeFp fp32 w.toNat

def isNan32 (w : Word32) : Bool := f32Val w == .nan
def isInf32 (w : Word32) : Bool := w == F32.negInf || w == F32.posInf
def isNonfin32 (w : Word32) : Bool := isNan32 w || isInf32 w
def isZero32 (w : Word32) : Bool := w.toNat % 2 ^ 31 == 0
def neg32 (w : Word32) : Word32 := w ^^^ 0x80000000#32
def abs32 (w : Word32) : Word32 := w &&& 0x7FFFFFFF#32

namespace Num

/-- The signed integer of a finite value at exponent `e`, which must not exceed its own. -/
def atExp (neg : Bool) (m : Nat) (e0 e : Int) : Int :=
  let v : Int := (m * 2 ^ (e0 - e).toNat : Nat)
  if neg then -v else v

/-- Exact sum. An exact zero is -0 only when both operands are -0 (IEEE 754 under RNE, R107). -/
def add : Num → Num → Num
  | .nan, _ => .nan
  | _, .nan => .nan
  | .inf s, .inf t => if s == t then .inf s else .nan
  | .inf s, .fin _ _ _ => .inf s
  | .fin _ _ _, .inf t => .inf t
  | .fin s1 m1 e1, .fin s2 m2 e2 =>
    let e := min e1 e2
    let i := atExp s1 m1 e1 e + atExp s2 m2 e2 e
    if i = 0 then .fin (s1 && s2 && m1 == 0 && m2 == 0) 0 0 else .fin (decide (i < 0)) i.natAbs e

def neg : Num → Num
  | .nan => .nan
  | .inf s => .inf (!s)
  | .fin s m e => .fin (!s) m e

def sub (a b : Num) : Num := add a (neg b)

/-- Exact product; infinity times zero is NaN (R108). -/
def mul : Num → Num → Num
  | .nan, _ => .nan
  | _, .nan => .nan
  | .inf s, .inf t => .inf (s != t)
  | .inf s, .fin t m _ => if m = 0 then .nan else .inf (s != t)
  | .fin s m _, .inf t => if m = 0 then .nan else .inf (s != t)
  | .fin s m e, .fin t n f => .fin (s != t) (m * n) (e + f)

/-- Times a power of two. -/
def scale (k : Int) : Num → Num
  | .fin s m e => .fin s m (e + k)
  | x => x

/-- a * b + c, exact. -/
def fma (a b c : Num) : Num := add (mul a b) c

/-- A quotient with a last bit that records a nonzero remainder, so that one later rounding is correct. -/
def div : Num → Num → Num
  | .nan, _ => .nan
  | _, .nan => .nan
  | .inf _, .inf _ => .nan
  | .inf s, .fin t _ _ => .inf (s != t)
  | .fin s _ _, .inf t => .fin (s != t) 0 0
  | .fin s m e, .fin t n f =>
    if n = 0 then (if m = 0 then .nan else .inf (s != t))
    else
      let k : Nat := 64
      let q := m * 2 ^ k / n
      .fin (s != t) (2 * q + bit (m * 2 ^ k % n != 0)) (e - f - k - 1)

/-- The largest `r` with `r * r ≤ n`, found bit by bit from bit `b - 1` down. -/
def isqrtFrom (n : Nat) : Nat → Nat → Nat
  | 0, r => r
  | b + 1, r => if (r + 2 ^ b) * (r + 2 ^ b) ≤ n then isqrtFrom n b (r + 2 ^ b) else isqrtFrom n b r

def isqrt (n : Nat) : Nat := isqrtFrom n (Nat.log2 n / 2 + 1) 0

/-- Square root, with a last bit that records inexactness. The root of -0 is -0 (IEEE 754). -/
def sqrt : Num → Num
  | .nan => .nan
  | .inf s => if s then .nan else .inf false
  | .fin s m e =>
    if m = 0 then .fin s 0 0
    else if s then .nan
    else
      let odd := e % 2 != 0
      let m1 := (if odd then 2 * m else m) * 2 ^ 80
      let e1 := (if odd then e - 1 else e) - 80
      let r := isqrt m1
      .fin false (2 * r + bit (r * r != m1)) (e1 / 2 - 1)

/-- Reciprocal square root. That of a zero is an infinity of its sign (IEEE 754 rSqrt). -/
def rsqrt : Num → Num
  | .nan => .nan
  | .inf s => if s then .nan else .fin false 0 0
  | .fin s m e =>
    if m = 0 then .inf s
    else if s then .nan
    else
      let odd := e % 2 != 0
      let m1 := if odd then 2 * m else m
      let e1 := if odd then e - 1 else e
      let r := isqrt (2 ^ 160 / m1)
      .fin false (2 * r + bit (m1 * r * r != 2 ^ 160)) (-(e1 / 2) - 81)

/-- ln 2 in units of 2^-256, rounded down. -/
def ln2Fix : Int := 80260960185991308862233904206310070533990667611589946606122867505419956976171

/-- Horner's rule for the Taylor series of the exponential, in units of 2^-256. -/
def expSeries (r : Int) : Nat → Int → Int
  | 0, t => t
  | j + 1, t => expSeries r j ((2 ^ 256 : Nat) + r * t / (((j + 1) * 2 ^ 256 : Nat) : Int))

/-- The exponential. Outside zero the exact value is irrational, so a last bit of 1 stands for the rest; 256
fractional bits place every FP32 result on one side of its rounding boundary. -/
def exp : Num → Num
  | .nan => .nan
  | .inf s => if s then .fin false 0 0 else .inf false
  | .fin s m e =>
    if m = 0 then .fin false 1 0
    else if topExp m e ≥ 9 then (if s then .fin false 1 (-400) else .fin false 1 400)
    else
      let x := atExp s m e (-256)
      let n := x / ln2Fix
      let t := expSeries (x - n * ln2Fix) 64 (2 ^ 256 : Nat)
      .fin false (2 * t.toNat + 1) (n - 257)

/-- Twice the sum of s^(2i+1) / (2i+1), in units of 2^-256, from term `i = k` on. -/
def atanhSum (s2 : Int) : Nat → Nat → Int → Int
  | 0, _, _ => 0
  | fuel + 1, k, p => 2 * (p / ((2 * k + 1 : Nat) : Int)) + atanhSum s2 fuel (k + 1) (p * s2 / (2 ^ 256 : Nat))

/-- ln of a positive `m * 2^e` in units of 2^-256. -/
def lnFix (m : Nat) (e : Int) : Int :=
  let l := Nat.log2 m
  let s : Int := (((m - 2 ^ l) * 2 ^ 256 / (m + 2 ^ l) : Nat) : Int)
  topExp m e * ln2Fix + atanhSum (s * s / (2 ^ 256 : Nat)) 90 0 s

/-- The natural logarithm. That of a zero is -Infinity (R209), of a negative number NaN. -/
def log : Num → Num
  | .nan => .nan
  | .inf s => if s then .nan else .inf false
  | .fin s m e =>
    if m = 0 then .inf true
    else if s then .nan
    else if m = 2 ^ Nat.log2 m && topExp m e = 0 then .fin false 0 0
    else
      let l := lnFix m e
      .fin (decide (l < 0)) (2 * l.natAbs + 1) (-257)

/-- Truncation to an integer count of 2^q. -/
def truncQ (neg : Bool) (m : Nat) (e q : Int) : Int :=
  let k : Int := (roundQ .rtz m e q : Nat)
  if neg then -k else k

end Num

/-- One FP32 operation under RNE. -/
def fadd (a b : Word32) : Word32 := f32 (Num.add (f32Val a) (f32Val b))
def fsub (a b : Word32) : Word32 := f32 (Num.sub (f32Val a) (f32Val b))
def fmul (a b : Word32) : Word32 := f32 (Num.mul (f32Val a) (f32Val b))
def ffma (a b c : Word32) : Word32 := f32 (Num.fma (f32Val a) (f32Val b) (f32Val c))
def fdiv (a b : Word32) : Word32 := f32 (Num.div (f32Val a) (f32Val b))
def fsqrt (a : Word32) : Word32 := f32 (Num.sqrt (f32Val a))
def frsqrt (a : Word32) : Word32 := f32 (Num.rsqrt (f32Val a))
def fexp (a : Word32) : Word32 := f32 (Num.exp (f32Val a))
def flog (a : Word32) : Word32 := f32 (Num.log (f32Val a))

/-- The order of VX.MAX on values that are not NaN: -0 lies below +0 (R128). -/
def ordKey (w : Word32) : Int :=
  if tbit w.toNat 31 then -1 - ((w.toNat % 2 ^ 31 : Nat) : Int) else (w.toNat : Int)

/-- IEEE comparison key: both zeros compare equal (R141). -/
def cmpKey (w : Word32) : Int :=
  if tbit w.toNat 31 then -((w.toNat % 2 ^ 31 : Nat) : Int) else (w.toNat : Int)

def fmax (a b : Word32) : Word32 := if isNan32 a || isNan32 b then F32.nan else if ordKey a < ordKey b then b else a
def fmin (a b : Word32) : Word32 := if isNan32 a || isNan32 b then F32.nan else if ordKey b < ordKey a then b else a

/-- a < b by IEEE 754. -/
def flt (a b : Word32) : Bool := !isNan32 a && !isNan32 b && decide (cmpKey a < cmpKey b)
def fle (a b : Word32) : Bool := !isNan32 a && !isNan32 b && decide (cmpKey a ≤ cmpKey b)
def feq (a b : Word32) : Bool := !isNan32 a && !isNan32 b && decide (cmpKey a = cmpKey b)

/-- One FP32 addition that holds a finite overflow at the largest finite value (R109, R114). -/
def faddHold (a b : Word32) : F32Res := toF32 true (Num.add (f32Val a) (f32Val b))

/-- The largest magnitude on the exact grid (R121). -/
def gridMax : Int := 2 ^ 63 - 1

/-- R121: a term on the grid of anchor `A`: its count of 2^(A - 62), and the SAT and NAN events. -/
def toGrid (anchor : Int) : Num → Int × Bool × Bool
  | .nan => (0, false, true)
  | .inf s => (if s then -gridMax else gridMax, true, false)
  | .fin s m e =>
    let q := Num.truncQ s m e (anchor - 62)
    (clampInt (-gridMax) gridMax q, decide (clampInt (-gridMax) gridMax q ≠ q), false)

/-- R123: an exact value as FP32 with one RNE rounding. -/
def fromGrid (anchor : Int) (v : Int) : F32Res := toF32 true (.fin (decide (v < 0)) v.natAbs (anchor - 62))

end Sys2Proof
end

