-- ==== Sys2Proof/Machine/Formats.lean ====
section
/-! DEFINITION. The format codes (R33), element values and packing (R41 to R46), the family mask (R47), the single
rounding of VX.CVT with its events (R51 to R59), block scales (R55), ERF blocks (R60 to R65). -/

namespace Sys2Proof

/-- R33: a code that names a format. -/
def fmtValid (f : Nat) : Bool := decide (f ≤ 0xC)
/-- R33: the formats with a block scale. -/
def fmtMx (f : Nat) : Bool := decide (3 ≤ f ∧ f ≤ 8)
/-- R33: INT8 and INT4. -/
def fmtInt84 (f : Nat) : Bool := f == 9 || f == 0xA
/-- R33: multiplication inputs. -/
def fmtMul (f : Nat) : Bool := decide (1 ≤ f ∧ f ≤ 0xA)
/-- R66: the integer kind. -/
def fmtIntKind (f : Nat) : Bool := fmtInt84 f
/-- R33: bits of one element. An ERF destination is held as 32-bit words (R132). -/
def fmtBits (f : Nat) : Nat :=
  if f == 0 || f == 0xB || f == 0xC then 32
  else if f == 1 || f == 2 then 16
  else if f == 3 || f == 4 || f == 8 || f == 9 then 8
  else if f == 5 || f == 6 then 6
  else 4
/-- R66: the group size of a format's own rate class. -/
def fmtG (f : Nat) : Nat :=
  if f == 1 || f == 2 then 1 else if f == 3 || f == 4 || f == 8 || f == 9 then 2 else 4
/-- R33: the floating-point format of a code. -/
def fmtFp (f : Nat) : Option FpFmt :=
  if f == 0 then some fp32 else if f == 1 then some bf16 else if f == 2 then some fp16
  else if f == 3 then some e4m3 else if f == 4 then some e5m2 else if f == 5 then some e3m2
  else if f == 6 then some e2m3 else if f == 7 then some e2m1 else none
/-- R47: is a format's family enabled by the mask (bit 0 B, bit 1 M, bit 2 I). -/
def fmtAllowed (mask f : Nat) : Bool :=
  if f == 1 || f == 2 then tbit mask 0 else if fmtMx f then tbit mask 1 else if fmtInt84 f then tbit mask 2 else true

/-- R36, R42, R45: the value of an element before any block scale. -/
def elemVal (fmt : Nat) (signed : Bool) (c : Nat) : Num :=
  match fmtFp fmt with
  | some f => decodeFp f (c % 2 ^ f.width)
  | none =>
    let bits := fmtBits fmt
    let sgn := signed || fmt == 8 || fmt == 0xB
    let v : Int := if sgn then signedOf bits c else ((c % 2 ^ bits : Nat) : Int)
    .fin (decide (v < 0)) v.natAbs (if fmt == 8 then -6 else 0)

/-- R41: an element times the E8M0 scale `x`. The scale 0xFF makes it NaN. -/
def mxVal (fmt : Nat) (c x : Nat) : Num :=
  if x = 255 then .nan else (elemVal fmt true c).scale ((x : Int) - 127)

/-- R58.2: the exponent of the spacing of source values at an element, block scale included. -/
def srcQuantum (fmt : Nat) (c x : Nat) : Int :=
  let sc : Int := if fmtMx fmt then (x : Int) - 127 else 0
  match fmtFp fmt with
  | some f =>
    match decodeFp f (c % 2 ^ f.width) with
    | .fin _ m e => (if m = 0 then 1 - (f.bias : Int) - f.mbits else quantumExp f m e) + sc
    | _ => sc
  | none => (if fmt == 8 then -6 else 0) + sc

/-! ### Packing -/

/-- R44: bytes of a packed row of `count` elements. -/
def packedLen (bits count : Nat) : Nat :=
  if bits == 4 then ceilDiv count 2 else if bits == 6 then 3 * ceilDiv count 4 else count * (bits / 8)

/-- R44: element `i` of a packed row. -/
def unpackAt (bits : Nat) (row : List Byte) (i : Nat) : Nat :=
  if bits == 4 then field (fieldAt row (i / 2) 1) (4 * (i % 2)) 4
  else if bits == 6 then field (fieldAt row (3 * (i / 4)) 3) (6 * (i % 4)) 6
  else fieldAt row (i * (bits / 8)) (bits / 8)

/-- R44: the first `n` elements of a packed row. -/
def unpackN (bits : Nat) (row : List Byte) (n : Nat) : List Nat := (List.range n).map (unpackAt bits row)

/-- The number whose base-2^w digits are the codes. -/
def digits (w : Nat) : List Nat → Nat
  | [] => 0
  | c :: cs => c % 2 ^ w + 2 ^ w * digits w cs

/-- R44: a packed row, padded with zero bits to its end. -/
def packRow (bits : Nat) (codes : List Nat) : List Byte := leBytes (packedLen bits codes.length) (digits bits codes)

/-! ### One conversion -/

/-- A converted element and the events that R53 counts. -/
structure CvtElem where
  code : Nat
  sat  : Bool
  nan  : Bool
  inf  : Bool
  deriving DecidableEq, Repr

/-- Range of an integer destination (R42, R45), as counts of its quantum. -/
def intRange (fmt : Nat) (signed : Bool) : Int × Int :=
  if fmt == 8 then (-127, 127)
  else
    let bits := fmtBits fmt
    if signed || fmt == 0xB then (-(2 ^ (bits - 1) : Nat), (2 ^ (bits - 1) : Nat) - 1) else (0, (2 ^ bits : Nat) - 1)

/-- R53: an integer destination (INT8, INT4, INT32; the MXINT8 element against its scale). -/
def cvtInt (fmt : Nat) (signed : Bool) (r : RMode) (v : Num) : CvtElem :=
  let lo := (intRange fmt signed).1
  let hi := (intRange fmt signed).2
  let q : Int := if fmt == 8 then -6 else 0
  match v with
  | .nan => { code := 0, sat := false, nan := true, inf := false }
  | .inf s => { code := patternOf (fmtBits fmt) (if s then lo else hi), sat := true, nan := false, inf := false }
  | .fin s m e =>
    let k : Int := (roundQ r m e q : Nat)
    let i := if s then -k else k
    let h := clampInt lo hi i
    { code := patternOf (fmtBits fmt) h, sat := decide (h ≠ i), nan := false, inf := false }

/-- R53: a floating-point destination. `satFlag` is the saturate flag; `blockElem` marks an element of an MX block,
whose finite overflow always saturates (R55, R56). -/
def cvtFp (f : FpFmt) (r : RMode) (satFlag blockElem : Bool) (v : Num) : CvtElem :=
  match v with
  | .nan => { code := f.nanCode, sat := false, nan := true, inf := false }
  | .inf s =>
    if f.infs && !satFlag then { code := withSign f s f.infCode, sat := false, nan := false, inf := true }
    else { code := withSign f s f.top, sat := true, nan := false, inf := false }
  | .fin s m e =>
    let c := roundMag f r m e
    if c ≤ f.top then { code := withSign f s c, sat := false, nan := false, inf := false }
    else if f.infs && !satFlag && !blockElem && r != .rtz then
      { code := withSign f s f.infCode, sat := false, nan := false, inf := true }
    else { code := withSign f s f.top, sat := true, nan := false, inf := false }

/-- R51: one element to an unscaled destination. -/
def cvtElem (fmt : Nat) (signed : Bool) (r : RMode) (satFlag : Bool) (v : Num) : CvtElem :=
  match fmtFp fmt with
  | some f => cvtFp f r satFlag false v
  | none => cvtInt fmt signed r v

/-- R55: emax of an MX element format. -/
def mxEmax (fmt : Nat) : Int :=
  if fmt == 3 then 8 else if fmt == 4 then 15 else if fmt == 5 then 4 else if fmt == 6 || fmt == 7 then 2 else 0

/-- floor(log2) of the largest finite magnitude, none where no finite element is nonzero. -/
def amaxExp : List Num → Option Int
  | [] => none
  | .fin _ m e :: xs =>
    if m = 0 then amaxExp xs
    else match amaxExp xs with
      | none => some (topExp m e)
      | some t => some (max t (topExp m e))
  | _ :: xs => amaxExp xs

/-- R55: the exponent of the block scale. -/
def mxExp (fmt : Nat) (vs : List Num) : Int :=
  match amaxExp vs with
  | none => -127
  | some t => clampInt (-127) 127 (t - mxEmax fmt)

/-- A source element with what stochastic rounding needs of it: the exponent of its spacing and its draw. -/
structure SrcElem where
  val  : Num
  qsrc : Int
  draw : Nat
  deriving DecidableEq, Repr

/-- R52: the rounding of one element whose value was divided by `2^x`. -/
def elemMode (rmode : Nat) (x : Int) (s : SrcElem) : RMode :=
  if rmode == 0 then .rne else if rmode == 1 then .rtz else .sr (s.qsrc - x) s.draw

/-- R55: one destination block: its scale byte and its elements. -/
def cvtBlock (fmt rmode : Nat) (satFlag : Bool) (xs : List SrcElem) : Nat × List CvtElem :=
  if xs.any (fun s => s.val == .nan) then
    (255, xs.map fun s => { code := 0, sat := false, nan := s.val == .nan, inf := false })
  else
    let x := mxExp fmt (xs.map SrcElem.val)
    ((x + 127).toNat, xs.map fun s =>
      match fmtFp fmt with
      | some f => cvtFp f (elemMode rmode x s) satFlag true (s.val.scale (-x))
      | none => cvtInt fmt true (elemMode rmode x s) (s.val.scale (-x)))

/-! ### ERF blocks -/

/-- R60: an ERF block. -/
structure Erf where
  anchor : Int
  sat    : Bool := false
  nan    : Bool := false
  excl   : Bool := false
  resv   : Nat := 0
  count  : Nat
  vals   : List Int
  deriving DecidableEq, Repr

/-- R61: a block that a module adds none of. -/
def Erf.malformed (b : Erf) : Bool :=
  decide (b.anchor < -512) || decide (511 < b.anchor) || b.resv != 0 ||
  b.vals.any (fun v => decide (v = -(2 ^ 63 : Nat))) || (b.excl && b.count != 0)

/-- The flags field of a block. -/
def Erf.flags (b : Erf) : Nat := bit b.sat + 2 * bit b.nan + 4 * bit b.excl + 8 * b.resv

/-- The values padded with zeros to 32. -/
def erfVals (vs : List Int) : List Int := vs.take 32 ++ List.replicate (32 - vs.length) 0

/-- R60: the 66 words of a block. -/
def Erf.words (b : Erf) : List Word32 :=
  BitVec.ofNat 32 (patternOf 16 b.anchor + 65536 * b.flags) :: BitVec.ofNat 32 b.count ::
    (erfVals b.vals).flatMap (fun v => [BitVec.ofNat 32 (patternOf 64 v), BitVec.ofNat 32 (patternOf 64 v / 2 ^ 32)])

/-- Word `i` of a list of words, +0 beyond its end (R131). -/
def wordAt (ws : List Word32) (i : Nat) : Word32 := ws.getD i 0#32

/-- R60: block `b` of a register's words. -/
def Erf.ofWords (ws : List Word32) (b : Nat) : Erf :=
  let w := fun i => (wordAt ws (66 * b + i)).toNat
  let fl := w 0 / 65536
  { anchor := signedOf 16 (w 0), sat := tbit fl 0, nan := tbit fl 1, excl := tbit fl 2, resv := fl / 8, count := w 1
    vals := (List.range 32).map fun i => signedOf 64 (w (2 + 2 * i) + 2 ^ 32 * w (3 + 2 * i)) }

/-- The bytes of 32-bit words. -/
def wordBytes (ws : List Word32) : List Byte := ws.flatMap fun w => leBytes 4 w.toNat

/-- The 32-bit words of bytes. -/
def bytesWords (bs : List Byte) : List Word32 :=
  (List.range (ceilDiv bs.length 4)).map fun i => BitVec.ofNat 32 (fieldAt bs (4 * i) 4)

/-- ERF blocks of a payload. -/
def erfBlocks (b : List Byte) : List Erf := (List.range (b.length / 264)).map fun i => Erf.ofWords (bytesWords (sliceBytes b (264 * i) 264)) 0

/-- R62: a sum of values, saturated, pairwise. -/
def addSat (a b : Int) : Int := clampInt (-gridMax) gridMax (a + b)

/-- R62: two blocks of one anchor combined. -/
def Erf.add (a b : Erf) : Erf :=
  { anchor := a.anchor
    sat := a.sat || b.sat || (List.zipWith (fun x y => decide (addSat x y ≠ x + y)) a.vals b.vals).any id
    nan := a.nan || b.nan, excl := a.excl || b.excl, resv := 0
    count := capAt (2 ^ 32 - 1) (a.count + b.count)
    vals := List.zipWith addSat a.vals b.vals }

/-- R62: the values that the combination saturated. -/
def Erf.addSats (a b : Erf) : Nat := (List.zipWith (fun x y => decide (addSat x y ≠ x + y)) a.vals b.vals).countP id

/-- R60: a block of zeros. -/
def Erf.zero (anchor : Int) : Erf := { anchor := anchor, count := 0, vals := List.replicate 32 0 }

/-- R62: the placeholder of an excluded contributor. -/
def Erf.excluded (anchor : Int) : Erf := { Erf.zero anchor with excl := true }

/-- R64: 32 FP32 values as one block, with the number of saturated and NaN elements. -/
def Erf.encode (anchor : Int) (vs : List Num) : Erf :=
  let gs := vs.map (toGrid anchor)
  { anchor := anchor, sat := gs.any (fun g => g.2.1), nan := gs.any (fun g => g.2.2), count := 1, vals := erfVals (gs.map (·.1)) }

/-- R65: value `i` of a well-formed block as an exact number; NaN for a block whose NAN is set. -/
def Erf.val (b : Erf) (i : Nat) : Num :=
  if b.nan || b.malformed then .nan
  else let v := b.vals.getD i 0; .fin (decide (v < 0)) v.natAbs (b.anchor - 62)

end Sys2Proof
end

