-- ==== Sys2Proof/Machine/CollState.lean ====
section
/-! DEFINITION. The state of collectives (chapter 14): plans (R406) and what a member holds of each. -/

namespace Sys2Proof.Machine

/-- What a collective is for: nothing that this module follows up, the ready mask of a curtain (R299), the reduction of a
layer chunk (R356), the sum of squares and the exponent maxima of NORM (R361, R357), the end of a step (R364). -/
inductive CollUse where
  | plain
  | curtain (num : Nat)
  | rscat (job lchunk tensor : Nat)
  | normSum (job : Nat)
  | normMax (job : Nat)
  | done (job : Nat)
  deriving DecidableEq, Repr

/-- A plan (R406), as the stage manager sends it. `algo`: 1 conductor exchange, 2 direct exchange, 3 ring,
4 halving-doubling, 5 switch aggregation; `gather`: the algorithm of the GATHER phase, 6 recursive doubling, 7 chain. -/
structure CollPlan where
  cid    : Nat
  op     : Nat
  /-- All-reduce form of a sum (R404). -/
  all    : Bool
  anchor : Int
  /-- MAX of INT32 values. -/
  int    : Bool
  group  : List Nat
  conductor : Nat
  /-- E values, the block length in bytes, or the number of records of an ALLTOALL. -/
  count  : Nat
  /-- Owner ranges of the ranks, in ERF blocks or elements: first and one past the last. Empty for the default. -/
  owners : List (Nat × Nat)
  src    : Nat
  dst    : Nat
  algo   : Nat
  gather : Nat
  /-- Open time and length of the slot of each step of the first phase, then of the redo of a ring that has a tolerance, then
  of each step of the GATHER phase. -/
  slots  : List (Nat × Nat)
  tol    : Option Nat
  /-- When the report slot closes. -/
  report : Nat
  root   : Nat
  /-- ALLTOALL: capacity K, record size z, local addresses of the routing array and of the report area. -/
  cap    : Nat
  recSize : Nat
  routing : Nat
  area   : Nat
  /-- Data-parallel replica of each rank, for a training reduction (R359). -/
  reps   : List Nat
  /-- Contexts to signal: core, partition, counter. -/
  signals : List (Nat × Nat × Nat)
  use    : CollUse
  deriving DecidableEq, Repr

/-- A block that arrives in frames: step, chunk, sender's rank, bytes by offset. -/
structure CollBlock where
  step  : Nat
  chunk : Nat
  rank  : Nat
  parts : Tab (List Byte)
  /-- Length of the block, once its last frame is here. -/
  total : Option Nat := none
  deriving DecidableEq, Repr

/-- A REPORT that the conductor holds (R411). -/
structure CollReport where
  status : Nat
  bit    : Bool
  wdone  : Bool
  excl   : List Nat
  deriving DecidableEq, Repr

/-- A unit of switch aggregation at its owner: contributions counted and the sum (R418). -/
structure AggUnit where
  nmem   : Nat
  blocks : List Erf
  deriving DecidableEq, Repr

/-- A collective in which this module takes part. -/
structure CollRun where
  plan   : CollPlan
  /-- The role that takes part: this module, or the partner that it serves. -/
  role   : Nat
  /-- The retained contribution, once it is complete. -/
  own    : Option (List Byte) := none
  /-- Slots opened, and steps whose data have been sent. -/
  opened : Nat := 0
  sent   : List Nat := []
  /-- The step that this member sent after its deadline (R415). -/
  tardy  : Option Nat := none
  got    : List CollBlock := []
  /-- Ring: this member bypassed its predecessor at this step; its successor was bypassed at this step (R415). -/
  bypass : Option Nat := none
  skip   : Option Nat := none
  /-- Blocks of the predecessor's predecessor, by step. -/
  copies : List CollBlock := []
  /-- Steps of the bypassed rank that were withdrawn, and the frames (flow key, psn). -/
  withdrew : List Nat := []
  wframes  : List (Nat × Nat) := []
  /-- Owner: blocks to be subtracted (R416): offset and blocks. -/
  minus  : List (Nat × List Erf) := []
  /-- Ranks that this member excludes, and whether its REPORT is sent. -/
  excl   : List Nat := []
  reported : Bool := false
  /-- Conductor: REPORT frames by rank. -/
  reports : Tab CollReport := []
  mask   : Option (List Bool) := none
  redo   : Bool := false
  agg    : Tab AggUnit := []
  /-- Units, by offset, asked again from every included rank (R420). -/
  repair : List Nat := []
  /-- The reduced chunk of this owner. -/
  result : Option (List Byte) := none
  done   : Bool := false
  fault  : Bool := false
  deriving DecidableEq, Repr

/-- Collectives by role and cid: role * 2^64 + cid. -/
structure CollSt where
  runs : Tab CollRun := []
  /-- Frames between the two roles of a pair that this module serves. -/
  loop : List Frame := []
  deriving DecidableEq, Repr

end Sys2Proof.Machine
end

