-- ==== Sys2Proof/Machine/CoreState.lean ====
section
/-! DEFINITION. The state of one Nalden core: partitions, stationary registers, accumulator, tile status words, tile
queue, contexts with their streams, registers, counters, engine queues and moves (chapters 03 to 07). -/

namespace Sys2Proof.Machine

/-- One register of a cell: operand group, block scale and the parity bit over both (R72). -/
structure CellReg where
  group  : BitVec 24 := 0#24
  scale  : BitVec 8 := 0#8
  parity : Bool := false
  deriving DecidableEq, Repr

/-- What the matrix engine tracks of a stationary register set (R521, R106): format, signedness, group size and the rows
that the load filled from memory. -/
structure Held where
  fmt    : Nat
  signed : Bool
  g      : Nat
  rows   : Nat
  deriving DecidableEq, Repr

/-- The active or the shadow registers of a partition. Cell (r, c) has key 64 r + c. -/
structure StatSet where
  cells : Tab CellReg := []
  held  : Option Held := none
  deriving DecidableEq, Repr

/-- The slice sum of one column on its way to the accumulator (R106, R122). -/
structure SliceRes where
  v   : Int
  sat : Bool
  nan : Bool
  inf : Bool
  deriving DecidableEq, Repr

/-- An activation row in flight: its entry, its slice sums by column, and how they reach the entry (R118). `late`: its
stream started after the drain in progress (R79). -/
structure Row where
  entry : Nat
  accum : Bool
  mode  : Nat
  sums  : List SliceRes
  late  : Bool := false
  deriving DecidableEq, Repr

/-- A matrix instruction that has started and not retired. -/
structure MxRun where
  word   : IWord
  pc     : BitVec 48
  stream : Nat
  /-- Rows that have not reached the accumulator (MX.MAC) or the shadow registers (MX.LDS). -/
  rows   : Nat
  done   : Bool
  /-- The next row to issue (MX.MAC) or to write (MX.LDS). -/
  next   : Nat := 0
  /-- Window mode: the injected rows that later output rows meet again (R81). -/
  inj    : List (List Byte) := []
  /-- MX.MAC: it started after the drain in progress (R79). -/
  late   : Bool := false
  deriving DecidableEq, Repr

/-- A tile of the tile queue (R136): its status word and its words in entry order. -/
structure Tile where
  status : Word32
  words  : List Word32
  deriving DecidableEq, Repr

/-- A drain that is reading entries (R119). -/
structure Drain where
  word   : IWord
  pc     : BitVec 48
  stream : Nat
  next   : Nat
  status : Nat
  erf    : List Int
  erfFl  : Nat
  erfOut : Nat
  anchor : Int
  tile   : List Word32
  tileSt : Nat
  /-- A clearing drain: what the words of its tiles become when it zeroes them, where a later stream has opened them
  (R79, R104). -/
  reopen : Tab Word32 := []
  deriving DecidableEq, Repr

/-- Ghost-light state of a partition (R89 to R92). -/
structure Ghost where
  pred    : Option Nat := none
  /-- The gap in progress: when it began (module clock) and the horizon in force then (R32). -/
  gap     : Option (Nat × Nat) := none
  running : Bool := false
  /-- Ghost-light operations have ended in this gap (R92). -/
  spent   : Bool := false
  duty    : Nat := 0
  fmt     : Nat := 0
  deriving DecidableEq, Repr

/-- A vector register: element width tag and the valid elements (R131, R132). -/
structure VReg where
  tag   : Nat := 32
  elems : List Word32 := []
  deriving DecidableEq, Repr

/-- The eight words of a summary slot (R149). -/
structure Summary where
  max    : Word32 := 0#32
  min    : Word32 := 0#32
  sum    : Word32 := 0#32
  arg    : Word32 := 0#32
  nonfin : Word32 := 0#32
  satcnt : Word32 := 0#32
  flags  : Word32 := 0#32
  seq    : Word32 := 0#32
  deriving DecidableEq, Repr

/-- An instruction in an engine queue. -/
structure QEnt where
  word : IWord
  pc   : BitVec 48
  deriving DecidableEq, Repr

/-- A register that a vector instruction writes: its tag and elements, and how much of it `k` completed elements of the
instruction make up: `base` elements that it keeps, then `k / den * num` (R160). -/
structure VecReg where
  tag   : Nat
  elems : List Word32
  base  : Nat := 0
  num   : Nat := 1
  den   : Nat := 1
  deriving DecidableEq, Repr

/-- What a vector instruction writes when it retires: registers, stage bytes at context-relative addresses, and its
summary (R149, R150) without SEQ. `pop`: it reads the tile at the queue's head, which has not been popped. -/
structure VecOut where
  regs  : List (Nat × VecReg) := []
  stage : List (Nat × List Byte) := []
  /-- Stage bytes that were written before the instruction was suspended. -/
  skip  : Nat := 0
  summ  : Summary := {}
  tsw   : Nat := 0
  pop   : Bool := false
  /-- It took open values (log entry 10). -/
  drew  : Bool := false
  deriving DecidableEq, Repr

/-- The vector instruction in execution. `done` counts the elements completed, in multiples of 64 (R160); `popped`: the
tile that it read has been popped (R137). -/
structure VecFly where
  word   : IWord
  pc     : BitVec 48
  stream : Nat
  done   : Nat
  out    : VecOut
  popped : Bool := false
  deriving DecidableEq, Repr

/-- A suspended vector instruction of a restored context that has not resumed (R160, R191). -/
structure Susp where
  word   : IWord
  stream : Nat
  done   : Nat
  deriving DecidableEq, Repr

/-- A piece of a move: where its bytes lie in stage memory and on the other side. `kind` 0 is this module, 1 another
module (a global address), 2 a host region (`host` its index, `addr` the offset within it). -/
structure Seg where
  stage : Nat
  kind  : Nat
  host  : Nat := 0
  addr  : Nat
  len   : Nat
  deriving DecidableEq, Repr

/-- What a move or an atomic still waits for: frames of a flow by destination and psn, a READ range, an ATOMIC_RESP, an
answer of a host, the partner's acknowledgement of a mirrored write. Each with the virtual address it serves. -/
inductive Await where
  | frame (cls dst psn va : Nat)
  | read (rtag va : Nat)
  | atom (cls dst psn va : Nat)
  | host (id va : Nat)
  | mirror (psn : Nat)
  deriving DecidableEq, Repr

/-- A move or an atomic in flight on the load or store engine. `awaits` is what is not yet answered. -/
structure Move where
  eng    : Nat
  word   : IWord
  pc     : BitVec 48
  stream : Nat
  segs   : List Seg
  awaits : List Await
  isAtom : Bool
  deriving DecidableEq, Repr

/-- A generator register (R173). -/
structure GenReg where
  seed   : BitVec 64 := 0#64
  stream : BitVec 32 := 0#32
  deriving DecidableEq, Repr

/-- The fault record (R184). -/
structure FaultRec where
  status : Nat
  cause  : Nat
  eng    : Nat
  stream : Nat
  part   : Nat
  shape  : Nat
  word   : Word32
  pc     : BitVec 48
  vaddr  : BitVec 48
  time   : Nat
  deriving DecidableEq, Repr

/-- One instruction stream (R170). `st`: 0 idle, 1 running, 2 waiting, 3 parked, 4 ended, 5 stopped. -/
structure Strm where
  st    : Nat := 0
  pc    : BitVec 48 := 0#48
  share : Nat := 0
  deriving DecidableEq, Repr

/-- A save that the scheduler requested (R187): deadline and destination. -/
structure SaveReq where
  deadline : Nat
  addr     : Nat
  deriving DecidableEq, Repr

/-- A resident context (R173). Queues are keyed 4 * stream + engine code. -/
structure Ctx where
  tenant  : Nat
  ctxid   : Nat
  /-- Request slot or training job that the context works for, as its dispatch entry names it. -/
  slot    : Option Nat
  /-- Stage allocation: offset in the core's stage memory, and bytes. -/
  base    : Nat
  len     : Nat
  g       : Tab Word64 := []
  strm    : Tab Strm := []
  gen     : Tab GenReg := []
  sc      : Tab (BitVec 16) := []
  ss      : Tab Summary := []
  v       : Tab VReg := []
  queues  : Tab (List QEnt) := []
  qsh     : Option (Nat × Nat × Nat) := none
  fly     : Option VecFly := none
  susp    : Option Susp := none
  moves   : List Move := []
  nmv     : Nat := 0
  save    : Option SaveReq := none
  fault   : Option FaultRec := none
  more    : Bool := false
  told    : Bool := false
  /-- The stream that the control processor considers first when it issues next (R171). -/
  turn    : Nat := 0
  deriving DecidableEq, Repr

/-- One array partition (R83). Accumulator slot s of column c has key 64 s + c. -/
structure Part where
  active  : StatSet := {}
  shadow  : StatSet := {}
  acc     : Tab Word32 := []
  tsw     : Tab Word32 := []
  tq      : List Tile := []
  rows    : List Row := []
  runs    : List MxRun := []
  drain   : Option Drain := none
  ghost   : Ghost := {}
  zeroing : Bool := false
  stopped : Bool := false
  ctx     : Option Ctx := none
  deriving DecidableEq, Repr

/-- What the fetch of an instruction gets from a page that lies in another module or in a host: its bytes, bytes marked
with poison, or no data (R174, R224, R225). -/
inductive FetchExt where
  | bytes (bs : List Byte)
  | poison
  | fail
  deriving DecidableEq, Repr

/-- What a scheduler writes into a core's dispatch queue (R29). -/
inductive Dispatch where
  /-- Start a context: partition, tenant, identifier, entry address, stage base and length. -/
  | start (part tenant ctxid : Nat) (slot : Option Nat) (entry : BitVec 48) (base len : Nat)
  /-- Predict a gap for a partition, in ns (R89). -/
  | gap (part ns : Nat)
  /-- Change the shape (R84). -/
  | shape (code : Nat)
  /-- Save with a deadline (ns from now; none for the default of 1 ms) to a local address (R187). -/
  | save (part : Nat) (deadline : Option Nat) (addr : Nat)
  /-- Restore the image at a local address for a tenant; stage base on this core (R191). -/
  | restore (addr tenant ctxid : Nat) (slot : Option Nat) (base : Nat)
  /-- Release a stopped context (R88). -/
  | release (part : Nat)
  deriving DecidableEq, Repr

/-- A dispatch entry that its core has not acted on: the scheduler processor that wrote it and the time at which it
arrived (R29). -/
structure Waiting where
  sched : Nat
  since : Nat
  entry : Dispatch
  deriving DecidableEq, Repr

/-- A core (R161). -/
structure CoreSt where
  shape    : Nat := 0
  retired  : Bool := false
  parity   : Word32 := 0#32
  parts    : Tab Part := []
  reshape  : Option Nat := none
  waiting  : List Waiting := []
  testing  : Option (Nat × Nat) := none
  gated    : Bool := false
  /-- Times (module clock, ns) of the core's parity errors, newest first (R516). -/
  parityAt : List Nat := []
  /-- The stream queue that the vector engine considers first when it starts next, 3 × partition + stream (R139). -/
  turn     : Nat := 0
  deriving DecidableEq, Repr

/-- An NMV work item as its unit holds it (R95). -/
structure NmvItem where
  /-- Local address of the item. -/
  item   : Nat
  /-- Where Y goes and its bytes as far as they were computed. -/
  yaddr  : Nat
  y      : List Byte
  status : Nat
  sflags : Nat
  /-- Counter to signal: core, partition, context-relative counter, and the context it was issued for. -/
  signal : Option (Nat × Nat × Nat × Nat)
  /-- The tenant of the item and the request that owns it. -/
  tenant : Nat
  slot   : Option Nat
  /-- What it reads: local addresses and lengths of W, scales and X. -/
  reads  : List (Nat × Nat) := []
  /-- Where Y lies in stage memory: the context that it belongs to, as core, partition and identity (R217). -/
  yctx   : Option (Nat × Nat × Nat) := none
  deriving DecidableEq, Repr

end Sys2Proof.Machine
end

