-- ==== Sys2Proof/Machine/CurtainState.lean ====
section
/-! DEFINITION. The state of models, epochs, adapters, curtains and rigging (chapter 10). -/

namespace Sys2Proof.Machine

/-- A tensor record (R276). -/
structure TensorRec where
  id     : Nat
  rows   : Nat
  cols   : Nat
  tfmt   : Nat
  gfmt   : Nat
  path   : Nat
  group  : Nat
  alloc  : Nat
  gorder : Nat
  tfirst : Nat
  tcount : Nat
  gfirst : Nat
  gcount : Nat
  pfirst : Nat
  deriving DecidableEq, Repr

/-- A shard record (R277). -/
structure ShardRec where
  module : Nat
  layout : Nat
  bdie   : Nat
  row0   : Nat
  nrows  : Nat
  col0   : Nat
  ncols  : Nat
  vaddr  : Nat
  deriving DecidableEq, Repr

/-- A live epoch of a model on this module, with its granules in the order of the generation shards (R281, R285). -/
structure EpochRec where
  number : Nat
  grans  : List Nat
  /-- Other modules of the model that have freed it (R282). -/
  freedOn : List Nat := []
  deriving DecidableEq, Repr

/-- A registered model (R275 to R284). -/
structure Model where
  tenant   : Nat
  kind     : Nat
  pinscope : Nat
  gmir     : Bool
  kvfmt    : Nat
  lgroup   : Nat
  loft     : Nat
  kvheads  : Nat
  dh       : Nat
  drain    : Nat
  params   : Nat
  tensors  : List TensorRec
  shards   : List ShardRec
  desc     : List Byte
  /-- Phase GENERATE (R279). -/
  gen      : Bool := false
  current  : Nat := 0
  live     : List EpochRec := []
  /-- From t_A of a curtain toward learning to its RELEASE (R279); from t_A toward generation TRAIN_STEP is held (R297). -/
  holdGen  : Bool := false
  holdTrain : Bool := false
  /-- Running requests pause at the next step boundary (R297). -/
  pausing  : Bool := false
  /-- Fenced without a mask (R301). -/
  fenced   : Bool := false
  /-- UNLOAD refuses new admissions (R294), and its item where this module submitted it: tenant, queue, seq. -/
  unloading : Bool := false
  unload   : Option (Nat × Nat × Nat) := none
  deriving DecidableEq, Repr

/-- An adapter slot (R307, R308): one version of an adapter of a model. -/
structure AdapterSlot where
  tenant  : Nat
  adapter : Nat
  version : Nat
  model   : Nat
  grans   : List Nat
  length  : Nat
  committed : Bool := false
  revoked : Bool := false
  /-- No pin is left on a version that is revoked or superseded: its slot is freed (R309, R310). -/
  freed : Bool := false
  deriving DecidableEq, Repr

/-- A manifest entry (R292). -/
structure Piece where
  piece  : Nat
  tensor : Nat
  src    : Nat
  srcu   : Nat
  dst    : Nat
  tfmt   : Nat
  gfmt   : Nat
  row0   : Nat
  nrows  : Nat
  col0   : Nat
  ncols  : Nat
  saddr  : Nat
  length : Nat
  chunks : Nat
  order  : Nat
  daddr  : Nat
  digest : List Byte
  deriving DecidableEq, Repr

/-- A chunk that a destination pulls (R304): failures, where the request went, which fragments have arrived. -/
structure ChunkRun where
  done   : Bool := false
  asked  : Option Nat := none
  /-- When it was asked for. -/
  at_    : Nat := 0
  fails  : Nat := 0
  frags  : Tab (List Byte) := []
  poison : Bool := false
  /-- Written, and waiting for the partner's acknowledgement of these class-6 frames (R286). -/
  acks   : List Nat := []
  /-- Complete and checked, and held back by the repair of a word under it (R230). -/
  parked : Option (List Byte) := none
  deriving DecidableEq, Repr

/-- A piece on its way into the wings: keyed by piece number. -/
structure PieceRun where
  chunks   : Tab ChunkRun := []
  verified : Bool := false
  /-- Digest mismatches (R304): the piece is then requested whole from the understudy first. -/
  redone   : Nat := 0
  deriving DecidableEq, Repr

/-- A curtain on a member (R292 to R306). `phase` as CUR_STATE.PHASE. -/
structure Curtain where
  num     : Nat
  dir     : Nat
  model   : Nat
  epoch   : Nat
  aver    : Nat
  adapter : Nat := 0
  tenant  : Nat := 0
  cues    : List Nat
  entries : List Piece
  members : List Nat
  malformed : Bool := false
  phase   : Nat := 1
  /-- Leaves made read-only by SEAL (R298): virtual address and page shift. -/
  sealed  : List (Nat × Nat) := []
  drained : Bool := true
  wings   : List Nat := []
  nomem   : Bool := false
  /-- Its wings wait for freed granules to be zeroed (R271). -/
  waits   : Bool := false
  pieces  : Tab PieceRun := []
  /-- Reason that this member reported, a status code. -/
  reason  : Nat := 0
  mask    : Option (List Nat) := none
  aborted : Bool := false
  /-- t_C passed without a mask. -/
  fenced  : Bool := false
  /-- CUR_CHUNKTO as it stood when the curtain was announced (R313). -/
  chunkTo : Nat := 0
  /-- Submitting item on this module: tenant, queue, seq. -/
  submit  : Option (Nat × Nat × Nat) := none
  deriving DecidableEq, Repr

/-- An adapter blob that this module submitted and serves (R308). -/
structure Blob where
  model   : Nat
  adapter : Nat
  version : Nat
  bytes   : List Byte
  deriving DecidableEq, Repr

/-- A request that the stage manager holds (R293). -/
structure CurtainReq where
  origin   : Nat
  submit   : Option (Nat × Nat × Nat)
  dir      : Nat
  model    : Nat
  adapter  : Nat
  aver     : Nat
  earliest : Nat
  records  : List Byte
  /-- Length of an adapter's blob. -/
  length   : Nat := 0
  deriving DecidableEq, Repr

/-- A revocation that waits for its cue t_X (R310). -/
structure Revoke where
  model   : Nat
  adapter : Nat
  version : Nat
  at_     : Nat
  submit  : Option (Nat × Nat × Nat)
  deriving DecidableEq, Repr

/-- How a descriptor of a model reaches a member (R293): as the next item of a queue of its own; from another module through
the stage manager's firmware, as descriptor and payload with the tenant; or as the stage manager's BUSY for an item. -/
inductive Via where
  | own
  | sent (module tenant : Nat) (bytes : List Byte)
  | busy (seq : Nat)
  deriving DecidableEq, Repr

/-- Models, adapters, curtains. -/
structure CurtainSt where
  models   : Tab Model := []
  adapters : Tab AdapterSlot := []
  blobs    : List Blob := []
  /-- Curtains on this member by curtain number. -/
  runs     : Tab Curtain := []
  /-- Stage manager: waiting requests, running weight curtain, next curtain number, not-ready reasons by member. -/
  queue    : List CurtainReq := []
  running  : Option Nat := none
  number   : Nat := 0
  reasons  : Tab Nat := []
  /-- Versions being revoked. -/
  revokes  : List Revoke := []
  deriving DecidableEq, Repr

end Sys2Proof.Machine
end

