-- ==== Sys2Proof/Machine/TrainState.lean ====
section
/-! DEFINITION. The state of training (chapter 12): jobs with their anchor tables and late credit (R346, R360), the step
that runs, the pipeline table (R354). -/

namespace Sys2Proof.Machine

/-- What a replica keeps as late credit of one collective (R360): its ERF blocks on anchor `a0`, and for
each step that it comes from how many steps back that is and which micro-batches it holds. -/
structure Credit where
  lchunk : Nat
  tensor : Nat
  a0     : Int
  blocks : List Erf
  parts  : List (Nat × List Nat)
  deriving DecidableEq, Repr

/-- An entry of the pipeline table (R354). -/
structure PipeEnt where
  offset : Nat
  action : Nat
  vstage : Nat
  chunk  : Nat
  mb     : Nat
  lchunk : Nat
  slot   : Nat
  deriving DecidableEq, Repr

/-- R351: the part of a matrix product of a tensor that a module of a stage does: of the columns of the stationary operand, or of K. -/
structure TensorPart where
  tensor : Nat
  byK    : Bool
  lo     : Nat
  n      : Nat
  deriving DecidableEq, Repr

/-- A micro-batch of a step (R347): the sequences in it, its tokens, and whether it is long. -/
structure Micro where
  seqs   : List Nat
  tokens : Nat
  long   : Bool
  deriving DecidableEq, Repr

/-- What the scheduler starts on the cores for an entry of the pipeline table. -/
structure TrainWork where
  job    : Nat
  ent    : PipeEnt
  /-- R351: the first layer of the layer chunk and how many there are; this module's parts of the products. -/
  layer  : Nat
  layers : Nat
  parts  : List TensorPart
  /-- R348, R349: the first global token index of the unit and its tokens. -/
  first  : Nat
  tokens : Nat
  /-- R210: the seed of the job, and the stream of its dropout site 0 or, for UPDATE, of the working copies. -/
  seed   : Nat
  stream : Nat
  /-- R350: the outputs of attention. -/
  att    : List (List Word32) := []
  /-- R353: the loss routine that stream B runs after the unit, on the last layer chunk. -/
  routine : Option Nat := none
  /-- R356: the anchors of the weight-gradient products, by tensor; none in normal mode. -/
  anchors : List Int := []
  /-- R362: the parameter block of VX.ADAM; R363: elements with a non-finite gradient keep their values. -/
  block  : List Word32 := []
  keep   : Bool := false
  deriving DecidableEq, Repr

/-- R356: the reduced gradient of a chunk that this owner holds, as FP32, with the flags of its blocks. -/
structure Grad where
  lchunk : Nat
  tensor : Nat
  vals   : List Word32
  sat    : Bool := false
  nan    : Bool := false
  deriving DecidableEq, Repr

/-- A step of a job (R344). -/
structure StepItem where
  /-- The item, where it was submitted to this module: tenant, queue, seq. -/
  submit : Option (Nat × Nat × Nat) := none
  p      : Nat
  body   : List Byte
  seed   : Nat := 0
  micros : List Micro
  total  : Nat
  /-- Domain time t0 of the PIPELINE cue, once it is taken. -/
  t0     : Option Nat := none
  table  : List PipeEnt := []
  /-- This member's parts of the products (R351). -/
  parts  : List TensorPart := []
  /-- Entries started, newest first. -/
  begun  : List PipeEnt := []
  /-- Reduced result of NORM: sum of squares n2, scale s, flags SAT (1) and NAN (2). -/
  norm   : Option (Word32 × Word32 × Nat) := none
  /-- Inclusion mask of each layer chunk whose reduction has closed, one bit per micro-batch. -/
  masks  : Tab (List Bool) := []
  /-- Credit applied: layer chunk, steps back, micro-batches. -/
  used   : List (Nat × Nat × List Bool) := []
  /-- Exclusion and credit entries that other members report: layer chunk, steps back, mask. -/
  others : List (Nat × Nat × List Bool) := []
  /-- Exponent maxima by tensor, none for an all-zero gradient (R357), and the token count of the next step. -/
  maxima : Option (List (Option Int)) := none
  tnext  : Option Nat := none
  skipped : Bool := false
  done   : Bool := false
  /-- R356: the reduced gradients that this member owns. -/
  grads  : List Grad := []
  /-- R364: F or B work of this replica has faulted: it is absent from the reductions that follow. -/
  absent : Bool := false
  deriving DecidableEq, Repr

/-- A job (R346). -/
structure Job where
  tenant  : Nat
  model   : Nat
  /-- flags bits 1 to 4, tol, headroom, pstages, vstages, twidth as START fixed them. -/
  fixed   : List Nat
  last    : Nat
  anchors : List Int
  credit  : List Credit := []
  broken  : Bool := false
  run     : Option StepItem := none
  /-- R362: the step before, whose updates overlap the forward of `run`. -/
  tail    : Option StepItem := none
  /-- Items accepted on this module that wait for their turn, oldest first. -/
  waiting : List StepItem := []
  deriving DecidableEq, Repr

/-- Training. -/
structure TrainSt where
  jobs : Tab Job := []
  deriving DecidableEq, Repr

end Sys2Proof.Machine
end

