-- ==== Sys2Proof/Machine/OutState.lean ====
section
/-! DEFINITION. What the module puts on its ports and pins: the record that the outside world sees. -/

namespace Sys2Proof.Machine

/-- One thing sent or signalled. -/
inductive Out where
  /-- An event delivered to an internal target (R508): target, source, count, data. -/
  | deliver (target source count data : Nat)
  /-- A report to the scheduler: a context is complete (R170). -/
  | contextDone (core part ctxid : Nat)
  /-- A scheduler operation on a core ended with a status (R190). -/
  | schedDone (core part status : Nat)
  /-- An RDMA WRITE to a host (R247): request number, port, queue pair, remote key, address, bytes. -/
  | hostWrite (id port qpn key addr : Nat) (bytes : List Byte)
  /-- An RDMA READ of a host: request number, port, queue pair, remote key, address, length. -/
  | hostRead (id port qpn key addr len : Nat)
  /-- A SEND to a host (R265). -/
  | hostSend (id port qpn : Nat) (bytes : List Byte)
  /-- RoCE acknowledgement, RNR NAK with the timer code of the configuration (R255, R487), remote access error NAK (R247), congestion notification (R245). -/
  | hostAck (port qpn : Nat)
  | hostRnr (port qpn timer : Nat)
  | hostNak (port qpn : Nat)
  | hostCnp (port qpn : Nat)
  /-- Connection management (R252): a reply with the nonce, a rejection, a disconnection. -/
  | hostReply (port qpn : Nat) (nonce : List Byte)
  | hostReject (port qpn : Nat)
  | hostClose (port qpn : Nat)
  /-- A descriptor or report that firmware forwards to the stage manager (R293), with the sender's module number. -/
  | toManager (module : Nat) (bytes : List Byte)
  /-- What the stage manager hands on to a member: a descriptor with its payload, or a report, and the module it came from
  (R293, R306). -/
  | toMember (member origin : Nat) (bytes : List Byte)
  /-- The stage manager's BUSY for a forwarded request (R293). -/
  | busyTo (module : Nat) (bytes : List Byte)
  /-- A manifest with its cue times and the curtain's member set sent to a member (R292, R295). -/
  | manifest (member : Nat) (bytes : List Byte) (release : Nat) (members : List Nat)
  /-- Cue entry that the stage manager writes into a member's sheet (R302, R310). -/
  | cueTo (member action sub arg time : Nat)
  /-- A ready mask resent to a fenced member (R301): curtain and the members whose bit is set. -/
  | maskTo (member curtain : Nat) (mask : List Nat)
  /-- The digest of a piece for its destination (R290). -/
  | digest (module curtain piece : Nat) (bytes : List Byte)
  /-- The ready bit of a member with its reason (R299). -/
  | ready (role curtain : Nat) (ok : Bool) (reason : Nat)
  /-- A frame on a fabric port (R370, R371): port, IPv6 destination, UDP source port, DSCP, Bexica header and payload. -/
  | frame (port ipdst udpsrc dscp : Nat) (bytes : List Byte)
  /-- Neighbour discovery on a fabric port (R370): an advertisement for an own address. -/
  | neighbour (port addr : Nat)
  /-- Work of a training step that the scheduler starts on the cores (R351 to R353, R362). -/
  | work (w : TrainWork)
  /-- A neighbour solicitation on a fabric port for the next hop of a frame (R370). -/
  | solicit (port addr : Nat)
  /-- Host addresses of a role announced or withdrawn on the host ports (R436, R445). -/
  | hostAddr (role : Nat) (here : Bool)
  /-- The management controller asks home scheduler processor `home` to migrate the context of a partition (R31). -/
  | migrate (core part home : Nat)
  /-- MKA starts on a host port or on a fabric port: key name and key-server priority (R246, R373). -/
  | mka (host : Bool) (port : Nat) (name : List Byte) (priority : Nat)
  /-- The in-service test asks the scheduler to vacate a partition of a core (R515). -/
  | vacate (core : Nat)
  deriving DecidableEq, Repr

/-- The host port that a thing goes out on, if it is one of a host port. -/
def Out.hostPort : Out → Option Nat
  | .hostWrite _ p _ _ _ _ => some p
  | .hostRead _ p _ _ _ _ => some p
  | .hostSend _ p _ _ => some p
  | .hostAck p _ => some p
  | .hostRnr p _ _ => some p
  | .hostNak p _ => some p
  | .hostCnp p _ => some p
  | .hostReply p _ _ => some p
  | .hostReject p _ => some p
  | .hostClose p _ => some p
  | _ => none

end Sys2Proof.Machine
end

