-- ==== Sys2Proof/Machine/HostState.lean ====
section
/-! DEFINITION. The state of the host ports (chapter 09): queue pairs, tenant queues with their rings and items, fault
logs, outstanding requests to hosts, tenant resets in progress. -/

namespace Sys2Proof.Machine

/-- A connected queue pair (R252, R253), keyed port * 2^24 + number. -/
structure Qp where
  tenant : Nat
  queue  : Nat
  nonce  : List Byte
  bound  : Bool := false
  /-- The bind failed: the pair is disconnected once its bind-result message is acknowledged (R253). -/
  doomed : Bool := false
  /-- An event message awaits a host receive; notices since then (R265). -/
  await  : Bool := false
  merged : Option (List Byte) := none
  /-- Send rate of the queue pair, an open value after congestion notifications (R245). -/
  cuts   : Nat := 0
  deriving DecidableEq, Repr

/-- The result of an item, as its completion record carries it (R261). -/
structure Done where
  status : Nat
  flt    : Bool := false
  retry  : Nat := 0
  detail : Nat := 0
  deriving DecidableEq, Repr

/-- An accepted item without a completion record, or a refused descriptor whose record is not yet written. -/
structure Item where
  seq     : Nat
  tag     : Nat
  kind    : Nat
  flags   : Nat
  /-- Acceptance: module clock and domain time in ns. -/
  at_     : Nat
  atDom   : Nat
  desc    : List Byte
  payload : Option (List Byte) := none
  started : Bool := false
  done    : Option Done := none
  /-- The descriptor was not accepted under R254: its record is written, but it is no outstanding item. -/
  refused : Bool := false
  deriving DecidableEq, Repr

/-- A completion ring (R260 to R265). References are (host region, offset). -/
structure Ring where
  entries  : Nat
  region   : Nat
  off      : Nat
  cregion  : Nat
  coff     : Nat
  evqp     : Nat
  modCount : Nat
  modTime  : Nat
  written  : Nat := 0
  consumed : Nat := 0
  since    : Nat := 0
  firstAt  : Nat := 0
  deriving DecidableEq, Repr

/-- A tenant's receive queue, keyed 16 * tenant + queue. Its last accepted number a is in TNT_RQSEQ, its queue pair in
TNT_RQST. -/
structure HostQ where
  /-- Messages taken and not yet parsed: queue pair and message. -/
  unparsed : List (Nat × List Byte) := []
  /-- Messages at the receive path that wait for a read of the consumer word (R262): queue pair and message. -/
  asking   : List (Nat × List Byte) := []
  items    : List Item := []
  ring     : Option Ring := none
  closed   : Bool := false
  /-- Results that the host had not acknowledged when the role was taken up (R438): seq, host region, offset, bytes. -/
  owed     : List (Nat × Nat × Nat × List Byte) := []
  /-- Recovery epoch at which the queue was last marked (R441). -/
  mark     : Nat := 1
  deriving DecidableEq, Repr

/-- A fault log (R260, R264) and the count f of its records. -/
structure FaultLog where
  region  : Nat
  off     : Nat
  entries : Nat
  next    : Nat := 0
  deriving DecidableEq, Repr

/-- What a request to a host is for. -/
inductive Post where
  /-- Results of an item (R263): tenant, queue, seq. -/
  | results (t q seq : Nat)
  /-- A completion record: tenant, queue, host region, offset, bytes (R440). -/
  | record (t q region off : Nat) (bytes : List Byte)
  /-- A record of a fault log or another write that no item waits for. -/
  | plain
  /-- The copy of a KV block on its way out or back (R235): slot, position, group. -/
  | kv (slot pos group : Nat)
  /-- A piece of a loft image (R239). -/
  | loft
  /-- An event message on a queue pair (its key). -/
  | event (qp : Nat)
  /-- RDMA READ of a consumer word. -/
  | consumer (t q : Nat)
  /-- RDMA READ of a referenced payload. -/
  | payload (t q seq : Nat)
  /-- A store to, or a load from, a host page (R225): core, partition, virtual address; for a load the local address of
  the stage bytes that receive the data. -/
  | moveOut (core part va : Nat)
  | moveIn (core part va stage : Nat)
  deriving DecidableEq, Repr

/-- A tenant reset in progress (R271): its start, whether the tenant then becomes ABSENT (R249), and whether the tenant itself
asked for it. -/
structure ResetRun where
  t0     : Nat
  absent : Bool
  own    : Bool
  deriving DecidableEq, Repr

/-- A CAK load or clear of the port that carries its REG_WRITE (R274): the item, the port, load or clear. -/
structure CakWait where
  tenant : Nat
  queue  : Nat
  seq    : Nat
  port   : Nat
  load   : Bool
  deriving DecidableEq, Repr

/-- What writes of registers bring from outside: the partner's update state, new image's digest and cue time (R496). -/
structure RegExt where
  mate : Option (Nat × List Byte × Nat) := none
  deriving DecidableEq, Repr

/-- Host ports. -/
structure HostSt where
  qps    : Tab Qp := []
  queues : Tab HostQ := []
  flogs  : Tab FaultLog := []
  /-- Requests to hosts not yet answered, by number, and the next number. -/
  posts  : Tab Post := []
  nextId : Nat := 0
  resets : Tab ResetRun := []
  /-- CAK in force of a port with MKA started (R246); its MACsec and link condition. -/
  caks   : Tab (List Byte) := []
  /-- Ports whose link is up, and ports with a live MKA peer. -/
  links  : List Nat := []
  mka    : List Nat := []
  /-- What waits, oldest first, for a host port that carries no frame now (R246, R274). -/
  stalled : List Out := []
  /-- CAK loads and clears that wait for their own REG_WRITE's completion (R274). -/
  cakWait : List CakWait := []
  deriving DecidableEq, Repr

end Sys2Proof.Machine
end

