-- ==== Sys2Proof/Machine/IstState.lean ====
section
/-! DEFINITION. The state of the in-service test (chapter 18) beside its registers. -/

namespace Sys2Proof.Machine

/-- What an SMARCH slice takes (R513): a MiB of stage memory, or the accumulator slots or vector registers of a partition. -/
inductive MarchArea where
  | stage (mib : Nat)
  | acc (part : Nat)
  | vregs (part : Nat)
  deriving DecidableEq, Repr

/-- The in-service test. -/
structure IstSt where
  /-- Granules that running BMARCH (4) and HPAT (5) slices hold: kind and granule. -/
  grans   : List (Nat × Nat) := []
  /-- Passed parts of a core's cover with the module clock of the pass, keyed 32 * core + part: 0 to 3 AKAT by 16 columns,
  4 VKAT, 8 to 13 stage memory by MiB, 16 to 19 accumulator and 24 to 27 vector registers by 16 columns. -/
  passed  : Tab Nat := []
  /-- When a core was last covered; 0 for power-up. -/
  cover   : Tab Nat := []
  /-- Failed slices that wait for their rerun: core, and the resource as 64 * kind + its number. -/
  failed  : List (Nat × Nat) := []
  /-- Retirements decided and not finished (R517): core and time. -/
  retiring : Tab Nat := []
  deriving DecidableEq, Repr

end Sys2Proof.Machine
end

