-- ==== Sys2Proof/Machine/ServeState.lean ====
section
/-! DEFINITION. The state of serving (chapter 11): requests, the admission queue, steps, KV blocks (R234), variants,
buckets, predictions; and of the loft and memory scrub (chapter 08). -/

namespace Sys2Proof.Machine

/-- A delivered token and the natural logarithm of its probability (R319). -/
structure Token where
  id : Word32
  lp : Word32
  deriving DecidableEq, Repr

/-- Sampling settings of a request (R316). -/
structure Sampling where
  beta   : Word32
  topk   : Nat
  topp   : Word32
  draft  : Nat
  depth  : Nat
  gflags : Nat
  stops  : List Nat
  deriving DecidableEq, Repr

/-- A segment of a request: what its item named and what R319 reports. -/
structure Segm where
  q        : Nat
  seq      : Nat
  maxnew   : Nat
  region   : Nat
  off      : Nat
  outlen   : Nat
  deadline : Nat
  prio     : Nat
  gttft    : Nat
  gtbt     : Nat
  accept   : Nat
  admitAt    : Nat := 0
  first    : Nat := 0
  last     : Nat := 0
  tbtmax   : Nat := 0
  tbtsum   : Nat := 0
  tbtn     : Nat := 0
  proposed : Nat := 0
  accepted : Nat := 0
  tokens   : List Token := []
  /-- Tokens already written under STREAM. -/
  sent     : Nat := 0
  deriving DecidableEq, Repr

/-- A request in a slot (R321). -/
structure Req where
  tenant  : Nat
  /-- Queue and seq of the original GENERATE (R315). -/
  q0      : Nat
  seq0    : Nat
  model   : Nat
  adapter : Nat
  aver    : Nat
  epoch   : Nat
  seed    : Nat
  samp    : Sampling
  /-- 1 ADMITTED, 2 PREFILL, 3 DECODE, 4 PAUSED (host), 5 PAUSED (curtain). -/
  st      : Nat
  /-- The state that a curtain pause left. -/
  left    : Nat := 0
  /-- The token record: context tokens, of which `filled` have keys and values. -/
  context : List Nat
  filled  : Nat := 0
  /-- Positions that have keys and values of the draft model (R332). -/
  drafted : Nat := 0
  seg     : Option Segm
  alpha   : Word32
  nextD   : Nat
  /-- PAUSE (3) and CANCEL (4) items accepted and not yet in effect, oldest first: kind, queue, seq. -/
  asked   : List (Nat × Nat × Nat) := []
  inStep  : Bool := false
  /-- How many of `asked` were accepted before the running step was formed (R335). -/
  armed   : Nat := 0
  /-- The end that waits for the step boundary: status, reason, FLT, fault-log index. -/
  ending  : Option (Nat × Nat × Bool × Nat) := none
  ttlAt   : Option Nat := none
  holdAt  : Option Nat := none
  work    : Rat := 0
  deriving DecidableEq, Repr

/-- A slot whose request ended with no item outstanding keeps its status (R322). -/
structure Ended where
  tenant : Nat
  q0     : Nat
  seq0   : Nat
  status : Nat
  order  : Nat
  deriving DecidableEq, Repr

/-- An item in the admission queue (R323, R325). -/
structure QItem where
  tenant : Nat
  q      : Nat
  seq    : Nat
  prio   : Nat
  order  : Nat
  deriving DecidableEq, Repr

/-- A KV block's index entry (R234). -/
structure KvBlock where
  slot   : Nat
  pos    : Nat
  group  : Nat
  valid  : Nat
  fmt    : Nat
  epoch  : Nat
  state  : Nat
  tier   : Nat
  vaddr  : Nat
  copy   : Nat
  crc    : Nat
  ttl    : Nat
  length : Nat
  /-- Local addresses of its 4 KiB frames while it is resident. -/
  frames : List Nat
  /-- Address of its index entry in reserved HBM. -/
  entry  : Nat := 0
  /-- Class-5 frames of its spill that the target has not acknowledged, and reads of its copy so far (R235). -/
  psns   : List Nat := []
  asked  : Nat := 0
  deriving DecidableEq, Repr

/-- The coefficients of R327 of a model on this module. -/
structure Coef where
  a0 : Rat := 0
  a1 : Rat := 0
  a2 : Rat := 0
  b0 : Rat := 0
  b1 : Rat := 0
  b2 : Rat := 0
  lhat : Rat := 0
  deriving DecidableEq, Repr

/-- A variant in HBM (R336): granules by rising loft page, when it was last pinned. -/
structure Variant where
  model  : Nat
  tenant : Nat
  grans  : List Nat
  idleAt : Nat
  deriving DecidableEq, Repr

/-- R99: an NMV item of a step, but for where its activations and results lie: tensor, unit, rows of W, addresses of elements and
scales, K, format, group code, activation columns. -/
structure NmvShare where
  tensor : Nat
  unit   : Nat
  row0   : Nat
  n      : Nat
  w      : Nat
  sc     : Nat
  k      : Nat
  fmt    : Nat
  group  : Nat
  col0   : Nat
  cols   : Nat
  deriving DecidableEq, Repr

/-- R98: the route of a matrix product of a step: rows of a tensor on the array, or an NMV item. -/
inductive Product where
  | array (tensor row0 n : Nat)
  | nmv (share : NmvShare)
  /-- R320: an adapter record is applied to the columns of a request: slot, tensor, rank, scale, where A and B begin in the adapter
  slot, first column and count. -/
  | adapter (slot tensor rank : Nat) (scale : Word32) (matA matB col0 cols : Nat)
  deriving DecidableEq, Repr

/-- A step formed for a replica group (R329, R283): model, epoch, its requests, when it was formed, predicted time, its
products (R98, R99). -/
structure StepRun where
  model  : Nat
  epoch  : Nat
  slots  : List Nat
  chunks : List (Nat × Nat)
  formed : Nat
  /-- Predicted prefill and decode time, us. -/
  predP  : Rat
  predD  : Rat
  products : List Product := []
  deriving DecidableEq, Repr

/-- What the models computed for one token position (R208, R209): by vocabulary entry, the large model's scores and probabilities,
and in a round the draft model's, after temperature and masks. -/
structure PosRow where
  scores  : List Word32
  probs   : List Word32
  dscores : List Word32 := []
  dprobs  : List Word32 := []
  deriving DecidableEq, Repr

/-- What a step computed for a request in a slot, position by position. -/
structure StepRow where
  slot : Nat
  pos  : List PosRow
  deriving DecidableEq, Repr

/-- Serving. -/
structure ServeSt where
  reqs    : Tab Req := []
  ended   : Tab Ended := []
  order   : Nat := 0
  queue   : List QItem := []
  /-- Bucket levels in millionths: requests and prompt tokens by tenant; none before the bucket is full (R324). -/
  rq      : Tab Int := []
  tk      : Tab Int := []
  deficit : Tab Int := []
  coef    : Tab Coef := []
  quota   : Tab Nat := []
  steps   : Tab StepRun := []
  kv      : List KvBlock := []
  /-- Reserved granules that hold the index entries of KV blocks (R234). -/
  kvTab   : List Nat := []
  /-- Granules of the understudy that spilled copies hold (R237): tenant, and the record that asked for the granule. -/
  pool    : Tab (Nat × Nat) := []
  variants : Tab Variant := []
  /-- Overload (R328): S, core time of the window, windows below 0.05 S, budget. -/
  sust    : Rat := 0
  spent   : Rat := 0
  calm    : Nat := 0
  budget  : Rat := 0
  budgetAt : Nat := 0
  /-- Work admitted in this window and in the last one, and tenants with work in the last one. -/
  workNow : Tab Rat := []
  workLast : Tab Rat := []
  deriving DecidableEq, Repr

/-- A model of the loft's table (R240). -/
structure LoftModel where
  id     : Nat
  kind   : Nat
  fmt    : Nat
  loff   : Nat
  len    : Nat
  mask   : List Byte
  digest : List Byte
  name   : List Byte
  deriving DecidableEq, Repr

/-- A running installation (R239): the host region of tenant 0 that holds the image, what was read of header and table, the
model whose data is being read and how far, bytes written so far, whether all data is written, an ABORT that waits for the next
1 MiB boundary. -/
structure LoftInst where
  region  : Nat
  head    : List Byte := []
  model   : Nat := 0
  off     : Nat := 0
  written : Nat := 0
  back    : Bool := false
  stop    : Bool := false
  deriving DecidableEq, Repr

/-- The loft (R238 to R243) and the scrub of memory (R231). -/
structure LoftSt where
  /-- The directory: header and table bytes with the signature, and whether it was written complete. -/
  dir      : List Byte := []
  complete : Bool := false
  models   : List LoftModel := []
  inst     : Option LoftInst := none
  wear     : Nat := 0
  /-- Tenants whose access was discarded when they became ABSENT, until the next installation completes (R249, R251). -/
  barred   : List Nat := []
  verified : Bool := false
  /-- Pages read in the current loft pass, granules read in the current patrol pass. -/
  lscrub   : List Nat := []
  mscrub   : List Nat := []
  /-- Words (address / 64) that wait for the partner's copy (R230). -/
  repairs  : List Nat := []
  /-- Granules with an uncorrectable error that was not repaired (R232). -/
  unfixed  : List Nat := []
  /-- Corrected-error counts of granules over the last 24 h: times per granule (R232). -/
  errors   : Tab (List Nat) := []
  /-- Leaf entries changed and not yet quiesced (R227): tenant, virtual address, old entry, page shift. -/
  changes  : List (Nat × Nat × Nat × Nat) := []
  /-- Freed granules to be zeroed (R221), each with the tenant whose reset freed it, or 0. -/
  dirty    : List (Nat × Nat) := []
  /-- The reserved granule from which table pages are taken, and its next page (R222). -/
  tabs     : Option (Nat × Nat) := none
  deriving DecidableEq, Repr

end Sys2Proof.Machine
end

