-- ==== Sys2Proof/Machine/PairState.lean ====
section
/-! DEFINITION. The state of the understudy pair (chapter 15). -/

namespace Sys2Proof.Machine

/-- A mirrored record (R428, R432): role, recovery epoch, record kind, bytes. -/
structure MirrorRec where
  role   : Nat
  repoch : Nat
  skind  : Nat
  bytes  : List Byte
  deriving DecidableEq, Repr

/-- A role's mirrored state (R428) as the firmware's records give it to the module that is to serve the role next, in the role's
own numbers and local addresses. The manual leaves the form of most records to the firmware, so that a takeover and a split bring
the state itself (log entry 88). -/
structure Handed where
  /-- Unit identity (R437). -/
  unit    : List Byte := []
  /-- Registers of the tenant windows, by offset. -/
  regs    : List (Nat × Nat) := []
  /-- Ownership table; leaves as tenant, virtual address, page shift, entry. -/
  grans   : Tab Word64 := []
  leaves  : List (Nat × Nat × Nat × Nat) := []
  /-- Queues with their items, fault logs, tenant resets; committed completions without a mirrored acknowledgement as tenant, queue,
  host region, offset, record (R440). -/
  queues  : Tab HostQ := []
  flogs   : Tab FaultLog := []
  resets  : Tab ResetRun := []
  commits : List (Nat × Nat × Nat × Nat × List Byte) := []
  /-- Requests (a segment's tokens up to `sent` are those that the host acknowledged), kept ends, admission queue, KV blocks, bucket levels, prediction coefficients; requests whose KV pages without `MIR`
  another member lost (R438). -/
  reqs    : Tab Req := []
  ended   : Tab Ended := []
  waiting : List QItem := []
  kv      : List KvBlock := []
  rq      : Tab Int := []
  tk      : Tab Int := []
  coef    : Tab Coef := []
  lost    : List Nat := []
  /-- Models with their epochs, adapters, curtains, what the stage manager holds. -/
  models   : Tab Model := []
  adapters : Tab AdapterSlot := []
  blobs    : List Blob := []
  runs     : Tab Curtain := []
  asks     : List CurtainReq := []
  running  : Option Nat := none
  number   : Nat := 0
  revokes  : List Revoke := []
  jobs     : Tab Job := []
  /-- Pending cue-sheet entries as time, action, owner, sub, arg. -/
  cues    : List (Nat × Nat × Nat × Nat × Nat) := []
  /-- Collective masks held (R428): cid, REDO, mask. -/
  masks   : List (Nat × Bool × List Bool) := []
  /-- Atomics that the role applied for its peers, by source * 8192 + role (R387). -/
  atoms   : Tab (List AtomRec) := []
  deriving DecidableEq, Repr

/-- The pair. -/
structure PairSt where
  /-- Module clock of the last heartbeat, and of the entry into the pair state. -/
  beatAt  : Nat := 0
  since   : Nat := 0
  /-- Probes that a silent pair link caused: when they were sent (R433). -/
  probeAt : Option Nat := none
  /-- A FENCE was sent before a takeover on a loss report; its class-6 psn (R434). -/
  fencing : Option Nat := none
  /-- What waits for the partner's acknowledgement of a STATE record, oldest first: the record's psn, what goes out (R428). -/
  gates   : List (Nat × Out) := []
  /-- What is held back in SEVERED, oldest first (R435). -/
  held    : List Out := []
  /-- Records of the partner's role (R428). -/
  recs    : List MirrorRec := []
  /-- The partner's ownership table, once this module serves its role (R436). -/
  grans   : Tab Word64 := []
  /-- Pages of MIR granules still to be copied in RESYNCING, and how many there were. -/
  todo    : Nat := 0
  total   : Nat := 0
  /-- The unit identity of the partner's role while this module serves it (R437). -/
  unit    : List Byte := []
  /-- This member copies to the other one and writes the split cue (R444, R445). -/
  lead    : Bool := false
  /-- The split cue is written (R445). -/
  split   : Option Nat := none
  deriving DecidableEq, Repr

end Sys2Proof.Machine
end

