-- ==== Sys2Proof/Syntax.lean ====
section
/-! DEFINITION. The commands of the block: one constructor per row of spec/opcode_table.json, with the operands that the
step takes from outside. -/

namespace Sys2Proof

open Machine

/-- Where a core instruction runs: core, partition, stream. -/
structure Loc where
  core   : Nat
  part   : Nat
  stream : Nat
  deriving DecidableEq, Repr

/-- The commands. -/
inductive Instr where
  /-- INSTRUCTION_ISSUE (R171). -/
  | instructionIssue (l : Loc) (ext : FetchExt)
  /-- INSTRUCTION_RETIRE (R169). -/
  | instructionRetire (core part eng : Nat)
  /-- LD_T (R163). -/
  | ldT (l : Loc)
  /-- ST_T (R163). -/
  | stT (l : Loc)
  /-- ST_AT (R177). -/
  | stAt (l : Loc)
  /-- MOVE_COMPLETE (R161). -/
  | moveComplete (core part k : Nat)
  /-- MX_LDS (R72). -/
  | mxLds (l : Loc)
  /-- MX_SWAP (R73). -/
  | mxSwap (l : Loc)
  /-- MX_MAC (R75). -/
  | mxMac (l : Loc)
  /-- SLICE_ACCUMULATE (R118). -/
  | sliceAccumulate (core part : Nat)
  /-- MX_DRAIN (R78). -/
  | mxDrain (l : Loc)
  /-- DRAIN_ENTRY_READ (R119). -/
  | drainEntryRead (core part : Nat)
  /-- TILE_QUEUE_PUSH (R137). -/
  | tileQueuePush (core part : Nat)
  /-- MX_GHOST (R89). -/
  | mxGhost (l : Loc)
  /-- GHOST_LIGHT_START (R89). -/
  | ghostLightStart (core part rows : Nat)
  /-- GHOST_LIGHT_END (R92). -/
  | ghostLightEnd (core part : Nat)
  /-- VX_LDV (R133). -/
  | vxLdv (l : Loc)
  /-- VX_STV (R133). -/
  | vxStv (l : Loc)
  /-- VX_ADD (R128). -/
  | vxAdd (l : Loc)
  /-- VX_SUB (R128). -/
  | vxSub (l : Loc)
  /-- VX_MUL (R128). -/
  | vxMul (l : Loc)
  /-- VX_FMA (R128). -/
  | vxFma (l : Loc)
  /-- VX_MAX (R128). -/
  | vxMax (l : Loc)
  /-- VX_MIN (R128). -/
  | vxMin (l : Loc)
  /-- VX_ABS (R128). -/
  | vxAbs (l : Loc)
  /-- VX_NEG (R128). -/
  | vxNeg (l : Loc)
  /-- VX_DIV (R128). -/
  | vxDiv (l : Loc)
  /-- VX_SQRT (R128). -/
  | vxSqrt (l : Loc)
  /-- VX_RSQRT (R128). -/
  | vxRsqrt (l : Loc)
  /-- VX_EXP (R128). -/
  | vxExp (l : Loc)
  /-- VX_LOG (R128). -/
  | vxLog (l : Loc)
  /-- VX_CMP (R141). -/
  | vxCmp (l : Loc)
  /-- VX_SEL (R140). -/
  | vxSel (l : Loc)
  /-- VX_CVT (R51). -/
  | vxCvt (l : Loc)
  /-- VX_RSUM (R144). -/
  | vxRsum (l : Loc)
  /-- VX_RMAX (R144). -/
  | vxRmax (l : Loc)
  /-- VX_RMIN (R144). -/
  | vxRmin (l : Loc)
  /-- VX_RARG (R144). -/
  | vxRarg (l : Loc)
  /-- VX_RCNT (R145). -/
  | vxRcnt (l : Loc)
  /-- VX_RDOT (R144). -/
  | vxRdot (l : Loc)
  /-- VX_EADD (R148). -/
  | vxEadd (l : Loc)
  /-- VX_ADAM (R153). -/
  | vxAdam (l : Loc)
  /-- VX_TOPK (R154). -/
  | vxTopk (l : Loc)
  /-- VX_TOPP (R155). -/
  | vxTopp (l : Loc)
  /-- VX_GMAX (R156). -/
  | vxGmax (l : Loc)
  /-- VX_RND (R202). -/
  | vxRnd (l : Loc)
  /-- TILE_QUEUE_POP (R137). -/
  | tileQueuePop (core part : Nat)
  /-- CP_LI (R181). -/
  | cpLi (l : Loc) (w : IWord)
  /-- CP_LIH (R181). -/
  | cpLih (l : Loc) (w : IWord)
  /-- CP_ADD (R181). -/
  | cpAdd (l : Loc) (w : IWord)
  /-- CP_SUB (R181). -/
  | cpSub (l : Loc) (w : IWord)
  /-- CP_MUL (R181). -/
  | cpMul (l : Loc) (w : IWord)
  /-- CP_AND (R181). -/
  | cpAnd (l : Loc) (w : IWord)
  /-- CP_OR (R181). -/
  | cpOr (l : Loc) (w : IWord)
  /-- CP_XOR (R181). -/
  | cpXor (l : Loc) (w : IWord)
  /-- CP_SHL (R181). -/
  | cpShl (l : Loc) (w : IWord)
  /-- CP_SHR (R181). -/
  | cpShr (l : Loc) (w : IWord)
  /-- CP_SRA (R181). -/
  | cpSra (l : Loc) (w : IWord)
  /-- CP_CMP (R181). -/
  | cpCmp (l : Loc) (w : IWord)
  /-- CP_LD (R181). -/
  | cpLd (l : Loc) (w : IWord)
  /-- CP_ST (R181). -/
  | cpSt (l : Loc) (w : IWord)
  /-- CP_BR (R181). -/
  | cpBr (l : Loc) (w : IWord)
  /-- CP_J (R181). -/
  | cpJ (l : Loc) (w : IWord)
  /-- CP_RSS (R181). -/
  | cpRss (l : Loc) (w : IWord)
  /-- CP_SCR (R181). -/
  | cpScr (l : Loc) (w : IWord)
  /-- CP_SCW (R169). -/
  | cpScw (l : Loc) (w : IWord)
  /-- CP_GSET (R199). -/
  | cpGset (l : Loc) (w : IWord)
  /-- CP_FORK (R181). -/
  | cpFork (l : Loc) (w : IWord)
  /-- CP_END (R181). -/
  | cpEnd (l : Loc) (w : IWord)
  /-- CP_PARK (R187). -/
  | cpPark (l : Loc) (w : IWord)
  /-- CP_QSH (R172). -/
  | cpQsh (l : Loc) (w : IWord)
  /-- CP_EVT (R181). -/
  | cpEvt (l : Loc) (w : IWord)
  /-- CP_NOP (R181). -/
  | cpNop (l : Loc) (w : IWord)
  /-- CONTEXT_STOP (R183). -/
  | contextStop (l : Loc) (eng cause : Nat) (word : IWord) (pc : BitVec 48) (va : Nat)
  /-- PARTITION_FAULT (R86). -/
  | partitionFault (l : Loc) (cause : Nat) (word : IWord) (pc : BitVec 48)
  /-- PARITY_ERROR (R85). -/
  | parityError (l : Loc) (word : IWord) (pc : BitVec 48)
  /-- POISON_CONSUMPTION (R166). -/
  | poisonConsumption (l : Loc) (eng : Nat) (word : IWord) (pc : BitVec 48)
  /-- CONTEXT_COMPLETE (R170). -/
  | contextComplete (core part : Nat)
  /-- DISPATCH_ENTRY (R29). -/
  | dispatchEntry (core sched : Nat) (d : Dispatch)
  /-- SHAPE_CHANGE (R84). -/
  | shapeChange (core sched code : Nat)
  /-- SAVE_REQUEST (R187). -/
  | saveRequest (core sched part : Nat) (deadline : Option Nat) (addr : Nat)
  /-- CONTEXT_SAVE (R187). -/
  | contextSave (core part : Nat)
  /-- SAVE_TIMEOUT (R187). -/
  | saveTimeout (core part : Nat)
  /-- RESTORE (R191). -/
  | restore (core sched addr tenant ctxid : Nat) (slot : Option Nat) (base : Nat)
  /-- CONTEXT_RELEASE (R88). -/
  | contextRelease (core sched part : Nat)
  /-- PARTITION_ZEROED (R88). -/
  | partitionZeroed (core part : Nat)
  /-- NMV_WORK_ITEM (R95). -/
  | nmvWorkItem (unit item : Nat) (slot : Option Nat)
  /-- NMV_COMPLETE (R96). -/
  | nmvComplete (unit : Nat)
  /-- TRANSLATION_CHANGE (R227). -/
  | translationChange (tenant va shift entry : Nat)
  /-- TRANSLATION_QUIESCE (R227). -/
  | translationQuiesce (tenant va : Nat)
  /-- GRANULE_ZEROING (R221). -/
  | granuleZeroing (gran : Nat)
  /-- MIRROR_REPAIR (R230). -/
  | mirrorRepair (addr : Nat) (fixed : Bool)
  /-- PATROL_SCRUB (R231). -/
  | patrolScrub (gran : Nat) (fixed bad : List Nat)
  /-- GRANULE_RETIREMENT (R232). -/
  | granuleRetirement (gran : Nat)
  /-- KV_SPILL (R235). -/
  | kvSpill (slot pos group : Nat) (copy : Option Nat)
  /-- KV_SPILL_RETRY (R237). -/
  | kvSpillRetry (slot : Nat)
  /-- KV_FETCH (R235). -/
  | kvFetch (slot pos group : Nat)
  /-- KV_HOLD_EXPIRY (R332). -/
  | kvHoldExpiry (slot : Nat)
  /-- TTL_EXPIRY (R332). -/
  | ttlExpiry (slot : Nat)
  /-- LFT_START (R239). -/
  | lftStart
  /-- LFT_ABORT (R239). -/
  | lftAbort
  /-- LOFT_INSTALL_COMPLETE (R239). -/
  | loftInstallComplete (backOk : Bool)
  /-- LOFT_VERIFICATION (R241). -/
  | loftVerification
  /-- LOFT_SCRUB (R243). -/
  | loftScrub (off fixed : Nat) (bad : Bool)
  /-- SEND (R255). -/
  | send (k : HostPkt) (msg : List Byte)
  /-- CONNECTION_REQUEST (R252). -/
  | connectionRequest (k : HostPkt) (role service : Nat)
  /-- CNP (R245). -/
  | cnp (k : HostPkt)
  /-- BIND (R253). -/
  | bind (k : HostPkt) (msg : List Byte)
  /-- GENERATE (R316). -/
  | generate (t q : Nat)
  /-- RESUME (R317). -/
  | resume (t q : Nat)
  /-- PAUSE (R335). -/
  | pause (t q : Nat)
  /-- CANCEL (R335). -/
  | cancel (t q : Nat)
  /-- TRAIN_STEP (R344). -/
  | trainStep (t q : Nat) (fits : Bool)
  /-- MODEL_LOAD (R294). -/
  | modelLoad (t q : Nat) (via : Via)
  /-- CURTAIN (R294). -/
  | curtain (t q : Nat) (via : Via)
  /-- UNLOAD (R294). -/
  | unload (t q : Nat) (via : Via)
  /-- ADAPTER_LOAD (R308). -/
  | adapterLoad (t q : Nat) (via : Via)
  /-- ADAPTER_REVOKE (R310). -/
  | adapterRevoke (t q : Nat) (via : Via)
  /-- REGION_SET (R260). -/
  | regionSet (t q : Nat)
  /-- RING_SET (R260). -/
  | ringSet (t q : Nat)
  /-- FAULTLOG_SET (R260). -/
  | faultlogSet (t q : Nat)
  /-- RESET (R270). -/
  | resetDesc (t q : Nat)
  /-- REG_READ (R267). -/
  | regRead (t q : Nat)
  /-- REG_WRITE (R267). -/
  | regWrite (t q : Nat) (x : RegExt)
  /-- CONFIGURATION_IMAGE (R491). -/
  | configurationImage (t q : Nat)
  /-- DELTA (R491). -/
  | delta (t q : Nat)
  /-- FIRMWARE_IMAGE (R495). -/
  | firmwareImage (t q : Nat)
  /-- FIRMWARE_WRITTEN (R495). -/
  | firmwareWritten (ok : Bool)
  /-- REGISTER_WRITE (R11). -/
  | registerWrite (off : Nat) (v : BitVec 32) (x : RegExt)
  /-- HOST_WRITE_ACK (R263). -/
  | hostWriteAck (k : HostPkt) (id : Nat) (ok : Bool)
  /-- COMPLETION_WRITE (R262). -/
  | completionWrite (t q : Nat)
  /-- COMPLETION_NOTICE (R265). -/
  | completionNotice (t q : Nat)
  /-- TNT_CTRL_RESET (R270). -/
  | tntCtrlReset (t : Nat)
  /-- TENANT_RESET_COMPLETE (R271). -/
  | tenantResetComplete (t : Nat)
  /-- HST_CAK_LOAD (R246). -/
  | hstCakLoad (port : Nat)
  /-- HST_CAK_CLEAR (R274). -/
  | hstCakClear (port : Nat)
  /-- BUCKET_REFILL (R324). -/
  | bucketRefill
  /-- PLACEMENT_PASS (R325). -/
  | placementPass
  /-- OVERLOAD_WINDOW (R328). -/
  | overloadWindow (waited : Bool) (quotas : List (Nat × Nat))
  /-- STEP_FORMATION (R329). -/
  | stepFormation (model epoch batch : Nat)
  /-- STEP_BOUNDARY (R329). -/
  | stepBoundary (model : Nat) (rows : List StepRow) (preNs decNs : Nat)
  /-- DEADLINE_EXPIRY (R331). -/
  | deadlineExpiry (slot : Nat)
  /-- VARIANT_SWAP_IN (R336). -/
  | variantSwapIn (model : Nat)
  /-- VARIANT_EVICT (R336). -/
  | variantEvict (model : Nat)
  /-- EPOCH_FREE (R284). -/
  | epochFree (module model epoch : Nat)
  /-- CURTAIN_DEQUEUE (R295). -/
  | curtainDequeue
  /-- CURTAIN_MANIFEST (R292). -/
  | curtainManifest (bytes : List Byte) (release adapter tenant : Nat) (members : List Nat) (desc : Option (List Byte))
  /-- ANNOUNCE (R296). -/
  | announce (num : Nat)
  /-- SEAL (R298). -/
  | seal (num : Nat)
  /-- CHUNK_TIMEOUT (R304). -/
  | chunkTimeout (num piece chunk : Nat)
  /-- PIECE_VERIFY (R290). -/
  | pieceVerify (num piece : Nat) (digest : Option (List Byte))
  /-- VERIFY (R299). -/
  | verify (num : Nat)
  /-- COMMIT (R300). -/
  | commit (num : Nat) (mask : Option (List Nat))
  /-- RELEASE (R296). -/
  | release (num : Nat)
  /-- CURTAIN_ABORT (R303). -/
  | curtainAbort (num : Nat) (time : Option Nat)
  /-- REVOKE (R310). -/
  | revoke (model adapter version : Nat) (time : Option Nat)
  /-- MASK_RESEND (R301). -/
  | maskResend (num member : Nat) (mask : List Nat)
  /-- STAGE_MANAGER_RECOVERY (R312). -/
  | stageManagerRecovery (num : Nat) (masks : List (List Nat)) (fenced : List Nat)
  /-- PIPELINE (R354). -/
  | pipeline (job tenant model t0 addr : Nat) (desc tbl table : List Byte) (parts : List TensorPart)
  /-- GATHER (R353). -/
  | gather (job : Nat)
  /-- FWD (R352). -/
  | fwd (job : Nat) (att : List (List (Word32 × List Word32)))
  /-- BWD (R352). -/
  | bwd (job : Nat)
  /-- RSCAT (R356). -/
  | rscat (job : Nat) (plans : List CollPlan) (ready : Bool)
  /-- UPDATE (R362). -/
  | updateEntry (job : Nat)
  /-- NORM (R361). -/
  | norm (job : Nat) (plans : List CollPlan) (ready : Bool) (tnext : Option Nat)
  /-- DONE (R364). -/
  | doneEntry (job : Nat) (plans : List CollPlan) (ready : Bool) (others : List (Nat × Nat × List Bool))
  /-- WRITE (R383). -/
  | writeFrame (a : Arrival)
  /-- READ (R386). -/
  | readFrame (a : Arrival)
  /-- READ_RESP (R386). -/
  | readResp (a : Arrival)
  /-- READ_TIMEOUT (R386). -/
  | readTimeout (rtag : Nat)
  /-- ATOMIC (R387). -/
  | atomic (a : Arrival)
  /-- ATOMIC_RESP (R387). -/
  | atomicResp (a : Arrival)
  /-- REJECT (R388). -/
  | reject (a : Arrival)
  /-- ACK (R391). -/
  | ack (a : Arrival)
  /-- ACK_TIMER (R391). -/
  | ackTimer (src dst cls : Nat)
  /-- RETRANSMIT (R392). -/
  | retransmit (src dst cls psn : Nat)
  /-- PATH_HOLD_EXPIRY (R393). -/
  | pathHoldExpiry (m p : Nat)
  /-- RATE_INCREASE (R394). -/
  | rateIncrease (m : Nat)
  /-- CHUNK_REQ (R390). -/
  | chunkReq (a : Arrival) (raw : Option (List Byte))
  /-- CHUNK (R390). -/
  | chunk (a : Arrival)
  /-- PROBE (R396). -/
  | probe (a : Arrival)
  /-- PROBE_REPLY (R393). -/
  | probeReply (a : Arrival)
  /-- LOSS_TIMEOUT (R396). -/
  | lossTimeout (m : Nat)
  /-- LOSS_REPORT (R396). -/
  | lossReport (a : Arrival)
  /-- UNREACHABLE_TIMEOUT (R397). -/
  | unreachableTimeout (m : Nat)
  /-- TAKEOVER (R397). -/
  | takeover (a : Arrival)
  /-- TAKEOVER_ACK (R397). -/
  | takeoverAck (a : Arrival)
  /-- TAKEOVER_REPEAT (R397). -/
  | takeoverRepeat (member : Nat)
  /-- RESYNC (R399). -/
  | resync (a : Arrival)
  /-- RESYNC_ACK (R399). -/
  | resyncAck (a : Arrival)
  /-- NEIGHBOUR_SOLICITATION (R370). -/
  | neighbourSolicitation (port addr : Nat)
  /-- FAB_CAK_LOAD (R373). -/
  | fabCakLoad
  /-- FAB_CAK_CLEAR (R400). -/
  | fabCakClear
  /-- SIGNAL_DETECTED (R400). -/
  | signalDetected (port : Nat)
  /-- LOCK_ACHIEVED (R400). -/
  | lockAchieved (port : Nat)
  /-- TRAINING_TIMEOUT (R400). -/
  | trainingTimeout (port : Nat)
  /-- MKA_PEER_LIVE (R400). -/
  | mkaPeerLive (port : Nat)
  /-- SECURING_TIMEOUT (R400). -/
  | securingTimeout (port : Nat)
  /-- LINK_LOSS (R400). -/
  | linkLoss (port uncorr : Nat)
  /-- SAK_INSTALL (R373). -/
  | sakInstall (port : Nat)
  /-- SLOT (R410). -/
  | slot (role cid : Nat) (plan : Option CollPlan) (ready : Bool)
  /-- COLL_DATA (R410). -/
  | collData (a : Arrival)
  /-- AGG_UP (R418). -/
  | aggUp (a : Arrival)
  /-- COLL_REPORT (R412). -/
  | collReport (a : Arrival)
  /-- COLL_MASK (R413). -/
  | collMask (a : Arrival)
  /-- BYPASS_REQ (R415). -/
  | bypassReq (a : Arrival)
  /-- COLL_COPY (R415). -/
  | collCopy (a : Arrival)
  /-- WITHDRAW (R416). -/
  | withdraw (a : Arrival)
  /-- COLL_REPAIR_REQ (R420). -/
  | collRepairReq (a : Arrival)
  /-- QUERY (R414). -/
  | query (a : Arrival)
  /-- COLL_STEP_DEADLINE (R415). -/
  | collStepDeadline (role cid step : Nat)
  /-- COLL_REPORT_CLOSE (R412). -/
  | collReportClose (role cid : Nat)
  /-- COLL_DATA_DEADLINE (R420). -/
  | collDataDeadline (role cid : Nat)
  /-- HELLO (R427). -/
  | hello (a : Arrival) (mirs : List (Nat × Nat))
  /-- HELLO_TICK (R432). -/
  | helloTick
  /-- BEAT_TICK (R433). -/
  | beatTick
  /-- HEARTBEAT_SILENCE (R433). -/
  | heartbeatSilence
  /-- FAILURE_DECLARED (R436). -/
  | failureDeclared (h own : Handed) (plans : List CollPlan) (missing : List Nat)
  /-- MIRROR_DATA (R431). -/
  | mirrorData (a : Arrival)
  /-- MIRROR_STATE (R428). -/
  | mirrorState (a : Arrival)
  /-- MIRROR_REPAIR_REQ (R230). -/
  | mirrorRepairReq (a : Arrival)
  /-- REPAIR_DATA (R230). -/
  | repairData (a : Arrival)
  /-- FENCE (R434). -/
  | fence (a : Arrival)
  /-- MIRROR_COPY (R444). -/
  | mirrorCopy (a : Arrival)
  /-- COPY_DONE (R444). -/
  | copyDone (a : Option Arrival)
  /-- FORMTO_EXPIRY (R427). -/
  | formtoExpiry
  /-- SEVERTO_EXPIRY (R435). -/
  | severtoExpiry (h : Handed) (plans : List CollPlan)
  /-- SPLIT (R445). -/
  | split (time : Nat) (h : Handed)
  /-- HOLD (R445). -/
  | holdClear
  /-- PWR_EN_RISE (R455). -/
  | pwrEnRise
  /-- PWR_EN_FALL (R454). -/
  | pwrEnFall
  /-- INPUT_VOLTAGE_STOP (R452). -/
  | inputVoltageStop (cv : Nat)
  /-- INPUT_VALID (R452). -/
  | inputValid (cv : Nat)
  /-- RESET_N (R464). -/
  | resetN
  /-- CLOCK_LOSS (R464). -/
  | clockLoss (cause pll : Nat)
  /-- PLL_FIXED_COUNT (R462). -/
  | pllFixedCount (pll : Nat)
  /-- PLL_COMPARISON (R462). -/
  | pllComparison (pll count : Nat)
  /-- FM_START (R465). -/
  | fmStart
  /-- FM_DONE (R465). -/
  | fmDone (count : Nat)
  /-- HDOFF (R455). -/
  | hdoff (mask : BitVec 16)
  /-- LOFTOFF (R455). -/
  | loftoff (off : Bool)
  /-- DOMAIN_SWITCHED (R455). -/
  | domainSwitched (domain : Nat)
  /-- REEF_TIGHTEN (R458). -/
  | reefTighten (cause : Nat)
  /-- REEF_RELAX (R458). -/
  | reefRelax (pin pvar : Nat)
  /-- DIVIDER_STEP (R463). -/
  | dividerStep (half : Nat)
  /-- IDLE_RAMP (R463). -/
  | idleRamp (half : Nat)
  /-- TEMPERATURE_READ (R459). -/
  | temperatureRead (temps : List (BitVec 16)) (cv avg peak sec : BitVec 16)
  /-- SYNC (R469). -/
  | sync (src time : Nat) (macsec : Bool)
  /-- PPS_PULSE (R469). -/
  | ppsPulse
  /-- SOURCE_QUALIFIED (R467). -/
  | sourceQualified (src : Nat) (ptp : Option Nat)
  /-- SOURCE_LOST (R469). -/
  | sourceLost (src : Nat) (ref10 : Bool)
  /-- HOLDOVER_EXPIRY (R469). -/
  | holdoverExpiry
  /-- TIM_TOD (R467). -/
  | timTod (sec : BitVec 64)
  /-- TIM_CCUE_ARM (R472). -/
  | timCcueArm
  /-- TIM_CCUE_CANCEL (R472). -/
  | timCcueCancel
  /-- CONFIG (R492). -/
  | configCue (handle : Nat)
  /-- HANDOVER (R498). -/
  | handover (accepted : Bool)
  /-- IDENTITY (R482). -/
  | identity (ok : Bool)
  /-- CONFIG_VERIFY (R489). -/
  | configVerify (img : List Byte) (deltas : List (List Byte))
  /-- FIRMWARE_VERIFY (R494). -/
  | firmwareVerify (active fallback : List Byte) (mate : Option (List Byte))
  /-- HBM_TRAINED (R244). -/
  | hbmTrained
  /-- ADMISSION_OPEN (R341). -/
  | admissionOpen
  /-- MAINTENANCE_RESET (R479). -/
  | maintenanceReset
  /-- ATT_START (R484). -/
  | attStart
  /-- UPD_ARM (R496). -/
  | updArm (mate : Option (Nat × List Byte × Nat))
  /-- UPD_DISCARD (R495). -/
  | updDiscard
  /-- UPD_FALLBACK (R498). -/
  | updFallback
  /-- UPDATE_CONFIRMED (R498). -/
  | updateConfirmed
  /-- UPDATE_WINDOW_EXPIRY (R498). -/
  | updateWindowExpiry
  /-- LOG_EXPORT (R502). -/
  | logExport (mark : BitVec 64)
  /-- AUDIT_FLUSH (R501). -/
  | auditFlush
  /-- EVENT_ARRIVAL (R506). -/
  | eventArrival (src data : Nat)
  /-- EVC_SETPEND (R507). -/
  | evcSetpend (src data : Nat)
  /-- EVENT_DELIVERY (R508). -/
  | eventDelivery (target : Nat)
  /-- EVENT_ACK (R511). -/
  | eventAck (target : Nat)
  /-- EVC_MASK_EFFECT (R509). -/
  | evcMaskEffect (src : Nat)
  /-- PEND (R510). -/
  | pend (src : Nat) (arrival : Option Nat)
  /-- AKAT (R513). -/
  | akat (core part : Nat) (result : Option Bool)
  /-- VKAT (R513). -/
  | vkat (core part : Nat) (result : Option Bool)
  /-- SMARCH (R513). -/
  | smarch (core : Nat) (area : MarchArea) (result : Option Bool)
  /-- BMARCH (R513). -/
  | bmarch (gran : Nat) (result : Option Bool)
  /-- HPAT (R513). -/
  | hpat (gran : Nat) (result : Option Bool)
  /-- EYE (R513). -/
  | eye (port : Nat) (widths : List (BitVec 8))
  /-- COVERAGE_OVERDUE (R515). -/
  | coverageOverdue (core : Nat)
  /-- IST_RETIRE (R516). -/
  | istRetire (core : Nat)
  /-- CORE_RETIREMENT (R517). -/
  | coreRetirement (core : Nat) (saves : List (Nat × Nat))
  /-- BEAT (R433). -/
  | beat (a : Arrival)
  /-- PATH_PROBE_TIMEOUT (R393). -/
  | pathProbeTimeout (m p : Nat)
  /-- NEIGHBOUR_ADVERTISEMENT (R370). -/
  | neighbourAdvertisement (port addr : Nat) (hop : List Byte)
  /-- REF100_RETURN (R464). -/
  | ref100Return
  /-- TIME_BASE_RETRY (R462). -/
  | timeBaseRetry (count : Nat)
  /-- HOST_RDMA_REQUEST (R247). -/
  | hostRdmaRequest (k : HostPkt)
  /-- RDMA_READ_RESPONSE (R262). -/
  | rdmaReadResponse (k : HostPkt) (id : Nat) (resp : Option (List Byte))
  /-- HOST_LINK_CHANGE (R274). -/
  | hostLinkChange (port : Nat) (link mka : Bool)
  /-- FIRMWARE_FAULT (R495). -/
  | firmwareFault
  /-- ATTESTATION_DONE (R484). -/
  | attestationDone
  /-- NOT_READY_REPORT (R302). -/
  | notReadyReport (num member reason abortAt : Nat)
  /-- NON_BEXICA_FRAME (R368). -/
  | nonBexicaFrame (port : Nat)
  deriving DecidableEq, Repr

end Sys2Proof
end

