-- ==== Sys2Proof/Decode.lean ====
section
/-! DEFINITION. The command that a word spells by the table's bits. Every row of spec/opcode_table.json has an empty
list of fields, so the table gives no row any bits and no word spells a command. -/

namespace Sys2Proof

/-- No row gives bits: none. -/
def decodeTableWord (_nbits _w : Nat) : Option Instr := none

end Sys2Proof
end

