-- ==== Sys2Proof/Machine/RegMap.lean ====
section
/-! DEFINITION. Register space (R10 to R15): for every block of R14 its registers, the access type of each bit and the
value after module reset, written from the register tables of the owning chapters. Fields whose reset reads "image" and
whose table names no default, and fields "per unit" or "from boot flash", reset as log entry 3 says. -/

namespace Sys2Proof.Machine

/-- The value after reset: a constant, or one that the register's index fixes. -/
inductive RegReset where
  | val (v : Word32)
  /-- EVC_CFG of sources 128 to 255: priority 8, target the control processor of core n (R505). -/
  | core
  /-- FAB_PEER of module m: NONMEMBER, served by itself (R403). -/
  | peer
  /-- COR_ID of core n (R185). -/
  | corId
  deriving DecidableEq, Repr

/-- A family of registers at base + i * stride + j * stride2, with the bits of each access type (R11). Bits in none of
the three masks are RO or reserved. -/
structure RegRow where
  base    : Nat
  stride  : Nat
  count   : Nat
  stride2 : Nat
  count2  : Nat
  rw      : Word32
  w1c     : Word32
  wo      : Word32
  reset   : RegReset
  deriving DecidableEq, Repr

/-- The indices (i, j) of an offset within a row. -/
def RegRow.index (r : RegRow) (off : Nat) : Option (Nat × Nat) :=
  if off < r.base then none
  else
    let d := off - r.base
    let i := d / r.stride
    let rem := d % r.stride
    if r.count ≤ i then none
    else if r.count2 ≤ 1 then (if rem = 0 then some (i, 0) else none)
    else if rem % r.stride2 = 0 && rem / r.stride2 < r.count2 then some (i, rem / r.stride2) else none

/-- Block MGT. -/
def regsMGT : List RegRow :=
  [ ⟨0x0, 0x4, 1, 0x0, 1, 0x0#32, 0x0#32, 0x0#32, (.val 0x84000001#32)⟩ -- MGT_TYPE
  , ⟨0x4, 0x4, 1, 0x0, 1, 0x0#32, 0x0#32, 0x0#32, (.val 0x10000#32)⟩ -- MGT_CAPS
  , ⟨0x10, 0x4, 4, 0x0, 1, 0x0#32, 0x0#32, 0x0#32, (.val 0x0#32)⟩ -- MGT_UNIT
  , ⟨0x20, 0x4, 8, 0x0, 1, 0x0#32, 0x0#32, 0x0#32, (.val 0x0#32)⟩ -- MGT_FWDIG
  , ⟨0x40, 0x4, 8, 0x0, 1, 0x0#32, 0x0#32, 0x0#32, (.val 0x0#32)⟩ -- MGT_CFGDIG
  , ⟨0x60, 0x4, 4, 0x0, 1, 0x0#32, 0x0#32, 0x0#32, (.val 0x0#32)⟩ -- MGT_OWNER
  , ⟨0x70, 0x4, 1, 0x0, 1, 0x0#32, 0x0#32, 0x0#32, (.val 0x0#32)⟩ -- MGT_BOOT
  , ⟨0x74, 0x4, 1, 0x0, 1, 0x0#32, 0x0#32, 0x0#32, (.val 0x0#32)⟩ -- MGT_SVN
  , ⟨0x78, 0x4, 1, 0x0, 1, 0x0#32, 0x0#32, 0x0#32, (.val 0x0#32)⟩ -- MGT_CFGSEQ
  , ⟨0x7C, 0x4, 1, 0x0, 1, 0x0#32, 0x0#32, 0x0#32, (.val 0x0#32)⟩ -- MGT_CFGPEND
  , ⟨0x80, 0x4, 1, 0x0, 1, 0x0#32, 0x0#32, 0x0#32, (.val 0x0#32)⟩ -- MGT_UPD
  , ⟨0x84, 0x4, 1, 0x0, 1, 0xFFFFFFFF#32, 0x0#32, 0x0#32, (.val 0x78003C#32)⟩ -- MGT_UPDCFG
  , ⟨0x88, 0x4, 1, 0x0, 1, 0xFFFFFFFF#32, 0x0#32, 0x0#32, (.val 0x0#32)⟩ -- MGT_UPDCUEL
  , ⟨0x8C, 0x4, 1, 0x0, 1, 0xFFFFFFFF#32, 0x0#32, 0x0#32, (.val 0x0#32)⟩ -- MGT_UPDCUEH
  , ⟨0x90, 0x4, 1, 0x0, 1, 0x0#32, 0x0#32, 0x7#32, (.val 0x0#32)⟩ -- MGT_UPDCTL
  , ⟨0x94, 0x4, 1, 0x0, 1, 0x0#32, 0x0#32, 0x0#32, (.val 0x0#32)⟩ -- MGT_UPDTIME
  , ⟨0xA0, 0x4, 8, 0x0, 1, 0xFFFFFFFF#32, 0x0#32, 0x0#32, (.val 0x0#32)⟩ -- MGT_ATTNONCE
  , ⟨0xC0, 0x4, 1, 0x0, 1, 0x0#32, 0x0#32, 0x1#32, (.val 0x0#32)⟩ -- MGT_ATTCTL
  , ⟨0xD0, 0x4, 1, 0x0, 1, 0x0#32, 0x0#32, 0x0#32, (.val 0x40000#32)⟩ -- MGT_LOGSTAT
  , ⟨0xD4, 0x4, 1, 0x0, 1, 0x0#32, 0x0#32, 0x0#32, (.val 0x0#32)⟩ -- MGT_LOGHEADL
  , ⟨0xD8, 0x4, 1, 0x0, 1, 0x0#32, 0x0#32, 0x0#32, (.val 0x0#32)⟩ -- MGT_LOGHEADH
  , ⟨0xDC, 0x4, 1, 0x0, 1, 0xFFFFFFFF#32, 0x0#32, 0x0#32, (.val 0x0#32)⟩ -- MGT_LOGEXPL
  , ⟨0xE0, 0x4, 1, 0x0, 1, 0xFFFFFFFF#32, 0x0#32, 0x0#32, (.val 0x0#32)⟩ -- MGT_LOGEXPH
  , ⟨0xE4, 0x4, 1, 0x0, 1, 0xFFFFFFFF#32, 0x0#32, 0x0#32, (.val 0x0#32)⟩ -- MGT_LOGSELL
  , ⟨0xE8, 0x4, 1, 0x0, 1, 0xFFFFFFFF#32, 0x0#32, 0x0#32, (.val 0x0#32)⟩ -- MGT_LOGSELH
  , ⟨0xEC, 0x4, 1, 0x0, 1, 0x0#32, 0x0#32, 0x0#32, (.val 0x0#32)⟩ -- MGT_LOGDROP
  , ⟨0x100, 0x4, 64, 0x0, 1, 0x0#32, 0x0#32, 0x0#32, (.val 0x0#32)⟩ -- MGT_LOGWIN
  , ⟨0x1000, 0x4, 1024, 0x0, 1, 0x0#32, 0x0#32, 0x0#32, (.val 0x0#32)⟩ -- MGT_ATTREP
  ]

/-- Block CLK. -/
def regsCLK : List RegRow :=
  [ ⟨0x10000, 0x4, 1, 0x0, 1, 0x0#32, 0x0#32, 0x0#32, (.val 0x0#32)⟩ -- CLK_STATUS
  , ⟨0x10004, 0x4, 1, 0x0, 1, 0x0#32, 0x0#32, 0x0#32, (.val 0x0#32)⟩ -- CLK_LASTRST
  , ⟨0x10008, 0x4, 1, 0x0, 1, 0x0#32, 0x0#32, 0x0#32, (.val 0x0#32)⟩ -- CLK_PORTBAD
  , ⟨0x10010, 0x4, 16, 0x0, 1, 0x0#32, 0x0#32, 0x0#32, (.val 0x11010#32)⟩ -- CLK_RATIO
  , ⟨0x10080, 0x4, 1, 0x0, 1, 0x1F0300FF#32, 0x0#32, 0x0#32, (.val 0x10000000#32)⟩ -- CLK_FMSEL
  , ⟨0x10084, 0x4, 1, 0x0, 1, 0x0#32, 0x0#32, 0x1#32, (.val 0x0#32)⟩ -- CLK_FMCTL
  , ⟨0x10088, 0x4, 1, 0x0, 1, 0x0#32, 0x0#32, 0x0#32, (.val 0x0#32)⟩ -- CLK_FMCNT
  ]

/-- Block PWR. -/
def regsPWR : List RegRow :=
  [ ⟨0x20000, 0x4, 1, 0x0, 1, 0x0#32, 0x0#32, 0x0#32, (.val 0x80000000#32)⟩ -- PWR_STATUS
  , ⟨0x20004, 0x4, 1, 0x0, 1, 0xFFFF#32, 0x0#32, 0x0#32, (.val 0x7D0#32)⟩ -- PWR_LIMIT
  , ⟨0x20008, 0x4, 1, 0x0, 1, 0x7#32, 0x0#32, 0x0#32, (.val 0x0#32)⟩ -- PWR_REEFMIN
  , ⟨0x2000C, 0x4, 1, 0x0, 1, 0xFFFF#32, 0x0#32, 0x0#32, (.val 0x14#32)⟩ -- PWR_GHOST
  , ⟨0x20010, 0x4, 1, 0x0, 1, 0x0#32, 0x0#32, 0x0#32, (.val 0x0#32)⟩ -- PWR_VIN
  , ⟨0x20014, 0x4, 1, 0x0, 1, 0x0#32, 0x0#32, 0x0#32, (.val 0x0#32)⟩ -- PWR_PIN
  , ⟨0x20018, 0x4, 1, 0x0, 1, 0x0#32, 0x0#32, 0x0#32, (.val 0x0#32)⟩ -- PWR_PAVG
  , ⟨0x2001C, 0x4, 1, 0x0, 1, 0x0#32, 0x0#32, 0x0#32, (.val 0x0#32)⟩ -- PWR_DOMST
  , ⟨0x20020, 0x4, 1, 0x0, 1, 0x10FFFF#32, 0x0#32, 0x0#32, (.val 0x0#32)⟩ -- PWR_DOMREQ
  , ⟨0x20040, 0x4, 26, 0x0, 1, 0x0#32, 0x0#32, 0x0#32, (.val 0x0#32)⟩ -- PWR_TEMP
  , ⟨0x20100, 0x4, 1, 0x0, 1, 0x0#32, 0x0#32, 0x0#32, (.val 0x0#32)⟩ -- PWR_TIGHTEN
  , ⟨0x20104, 0x4, 1, 0x0, 1, 0x0#32, 0x0#32, 0x0#32, (.val 0x0#32)⟩ -- PWR_RELAX
  , ⟨0x20108, 0x4, 1, 0x0, 1, 0x0#32, 0x0#32, 0x0#32, (.val 0x0#32)⟩ -- PWR_EXCUR
  , ⟨0x2010C, 0x4, 1, 0x0, 1, 0x0#32, 0x0#32, 0x0#32, (.val 0x0#32)⟩ -- PWR_REEFMS
  , ⟨0x20110, 0x4, 1, 0x0, 1, 0x0#32, 0x0#32, 0x0#32, (.val 0x0#32)⟩ -- PWR_THERM
  ]

/-- Block TIM. -/
def regsTIM : List RegRow :=
  [ ⟨0x30000, 0x4, 1, 0x0, 1, 0x0#32, 0x0#32, 0x0#32, (.val 0x0#32)⟩ -- TIM_NOWL
  , ⟨0x30004, 0x4, 1, 0x0, 1, 0x0#32, 0x0#32, 0x0#32, (.val 0x0#32)⟩ -- TIM_NOWH
  , ⟨0x30008, 0x4, 1, 0x0, 1, 0x0#32, 0x0#32, 0x0#32, (.val 0x38000000#32)⟩ -- TIM_STATUS
  , ⟨0x3000C, 0x4, 1, 0x0, 1, 0x0#32, 0x0#32, 0x0#32, (.val 0x0#32)⟩ -- TIM_OFFSET
  , ⟨0x30010, 0x4, 1, 0x0, 1, 0x0#32, 0x0#32, 0x0#32, (.val 0x0#32)⟩ -- TIM_FREQ
  , ⟨0x30014, 0x4, 1, 0x0, 1, 0x0#32, 0x0#32, 0x0#32, (.val 0x0#32)⟩ -- TIM_SRCCFG
  , ⟨0x30018, 0x4, 1, 0x0, 1, 0xFFFF#32, 0x0#32, 0x0#32, (.val 0x3E8#32)⟩ -- TIM_HOLD
  , ⟨0x3001C, 0x4, 1, 0x0, 1, 0x0#32, 0x0#32, 0xFFFFFFFF#32, (.val 0x0#32)⟩ -- TIM_TODL
  , ⟨0x30020, 0x4, 1, 0x0, 1, 0x0#32, 0x0#32, 0xFFFFFFFF#32, (.val 0x0#32)⟩ -- TIM_TODH
  , ⟨0x30030, 0x4, 1, 0x0, 1, 0xFFFFFFFF#32, 0x0#32, 0x0#32, (.val 0x0#32)⟩ -- TIM_CCUEL
  , ⟨0x30034, 0x4, 1, 0x0, 1, 0xFFFFFFFF#32, 0x0#32, 0x0#32, (.val 0x0#32)⟩ -- TIM_CCUEH
  , ⟨0x30038, 0x4, 1, 0x0, 1, 0x0#32, 0x0#32, 0xC0000000#32, (.val 0x0#32)⟩ -- TIM_CCUECTL
  , ⟨0x3003C, 0x4, 1, 0x0, 1, 0xFFFFFFFF#32, 0x0#32, 0x0#32, (.val 0x0#32)⟩ -- TIM_CCUEARG
  , ⟨0x30040, 0x4, 1, 0x0, 1, 0x0#32, 0x0#32, 0x0#32, (.val 0x0#32)⟩ -- TIM_CUELATE
  , ⟨0x30044, 0x4, 1, 0x0, 1, 0x0#32, 0x0#32, 0x0#32, (.val 0x0#32)⟩ -- TIM_UNLOCKS
  , ⟨0x30048, 0x4, 1, 0x0, 1, 0x0#32, 0x0#32, 0x0#32, (.val 0x0#32)⟩ -- TIM_STEPS
  , ⟨0x34000, 0x4, 4096, 0x0, 1, 0x0#32, 0x0#32, 0x0#32, (.val 0x0#32)⟩ -- TIM_CUE
  ]

/-- Block EVC. -/
def regsEVC : List RegRow :=
  [ ⟨0x40000, 0x4, 1, 0x0, 1, 0x0#32, 0x0#32, 0x0#32, (.val 0x0#32)⟩ -- EVC_STATUS
  , ⟨0x40004, 0x4, 1, 0x0, 1, 0x0#32, 0x0#32, 0xFFFF03FF#32, (.val 0x0#32)⟩ -- EVC_SETPEND
  , ⟨0x40008, 0x4, 1, 0x0, 1, 0xF#32, 0x0#32, 0x0#32, (.val 0x0#32)⟩ -- EVC_HOSTQ
  , ⟨0x4000C, 0x4, 1, 0x0, 1, 0x0#32, 0x0#32, 0x0#32, (.val 0x0#32)⟩ -- EVC_DELIV
  , ⟨0x41000, 0x4, 32, 0x0, 1, 0x8F0000FF#32, 0x0#32, 0x0#32, (.val 0x4000080#32)⟩ -- EVC_CFG
  , ⟨0x41080, 0x4, 32, 0x0, 1, 0x8F0000FF#32, 0x0#32, 0x0#32, (.val 0x4000081#32)⟩ -- EVC_CFG
  , ⟨0x41100, 0x4, 32, 0x0, 1, 0x8F0000FF#32, 0x0#32, 0x0#32, (.val 0x4000082#32)⟩ -- EVC_CFG
  , ⟨0x41180, 0x4, 32, 0x0, 1, 0x8F0000FF#32, 0x0#32, 0x0#32, (.val 0x4000083#32)⟩ -- EVC_CFG
  , ⟨0x41200, 0x4, 128, 0x0, 1, 0x8F0000FF#32, 0x0#32, 0x0#32, (.core)⟩ -- EVC_CFG
  , ⟨0x41400, 0x4, 128, 0x0, 1, 0x8F0000FF#32, 0x0#32, 0x0#32, (.val 0x6000084#32)⟩ -- EVC_CFG
  , ⟨0x41600, 0x4, 128, 0x0, 1, 0x8F0000FF#32, 0x0#32, 0x0#32, (.val 0x2000084#32)⟩ -- EVC_CFG
  , ⟨0x41800, 0x4, 256, 0x0, 1, 0x8F0000FF#32, 0x0#32, 0x0#32, (.val 0x3000085#32)⟩ -- EVC_CFG
  , ⟨0x41C00, 0x4, 32, 0x0, 1, 0x8F0000FF#32, 0x0#32, 0x0#32, (.val 0x5000084#32)⟩ -- EVC_CFG
  , ⟨0x41C80, 0x4, 4, 0x0, 1, 0x8F0000FF#32, 0x0#32, 0x0#32, (.val 0x5000084#32)⟩ -- EVC_CFG
  , ⟨0x41C90, 0x4, 1, 0x0, 1, 0x8F0000FF#32, 0x0#32, 0x0#32, (.val 0x9000085#32)⟩ -- EVC_CFG
  , ⟨0x41C94, 0x4, 1, 0x0, 1, 0x8F0000FF#32, 0x0#32, 0x0#32, (.val 0xA000084#32)⟩ -- EVC_CFG
  , ⟨0x41C98, 0x4, 1, 0x0, 1, 0x8F0000FF#32, 0x0#32, 0x0#32, (.val 0x6000085#32)⟩ -- EVC_CFG
  , ⟨0x41C9C, 0x4, 1, 0x0, 1, 0x8F0000FF#32, 0x0#32, 0x0#32, (.val 0x1000084#32)⟩ -- EVC_CFG
  , ⟨0x41CA0, 0x4, 1, 0x0, 1, 0x8F0000FF#32, 0x0#32, 0x0#32, (.val 0xB000085#32)⟩ -- EVC_CFG
  , ⟨0x41CA4, 0x4, 1, 0x0, 1, 0x8F0000FF#32, 0x0#32, 0x0#32, (.val 0x7000085#32)⟩ -- EVC_CFG
  , ⟨0x41CA8, 0x4, 1, 0x0, 1, 0x8F0000FF#32, 0x0#32, 0x0#32, (.val 0xC000085#32)⟩ -- EVC_CFG
  , ⟨0x41CAC, 0x4, 1, 0x0, 1, 0x8F0000FF#32, 0x0#32, 0x0#32, (.val 0x6000080#32)⟩ -- EVC_CFG
  , ⟨0x41CB0, 0x4, 1, 0x0, 1, 0x8F0000FF#32, 0x0#32, 0x0#32, (.val 0x4000085#32)⟩ -- EVC_CFG
  , ⟨0x41CB4, 0x4, 1, 0x0, 1, 0x8F0000FF#32, 0x0#32, 0x0#32, (.val 0x6000085#32)⟩ -- EVC_CFG
  , ⟨0x41CB8, 0x4, 1, 0x0, 1, 0x8F0000FF#32, 0x0#32, 0x0#32, (.val 0xD000085#32)⟩ -- EVC_CFG
  , ⟨0x41CBC, 0x4, 1, 0x0, 1, 0x8F0000FF#32, 0x0#32, 0x0#32, (.val 0x9000085#32)⟩ -- EVC_CFG
  , ⟨0x41CC0, 0x4, 1, 0x0, 1, 0x8F0000FF#32, 0x0#32, 0x0#32, (.val 0x3000085#32)⟩ -- EVC_CFG
  , ⟨0x41CC4, 0x4, 1, 0x0, 1, 0x8F0000FF#32, 0x0#32, 0x0#32, (.val 0x3000085#32)⟩ -- EVC_CFG
  , ⟨0x41CC8, 0x4, 1, 0x0, 1, 0x8F0000FF#32, 0x0#32, 0x0#32, (.val 0x8000085#32)⟩ -- EVC_CFG
  , ⟨0x41CCC, 0x4, 1, 0x0, 1, 0x8F0000FF#32, 0x0#32, 0x0#32, (.val 0x84#32)⟩ -- EVC_CFG
  , ⟨0x41CD0, 0x4, 1, 0x0, 1, 0x8F0000FF#32, 0x0#32, 0x0#32, (.val 0x2000085#32)⟩ -- EVC_CFG
  , ⟨0x41CD4, 0x4, 203, 0x0, 1, 0x0#32, 0x0#32, 0x0#32, (.val 0x0#32)⟩ -- EVC_CFG_RSV
  , ⟨0x42000, 0x4, 821, 0x0, 1, 0x0#32, 0x80000000#32, 0x0#32, (.val 0x0#32)⟩ -- EVC_STAT
  , ⟨0x42CD4, 0x4, 203, 0x0, 1, 0x0#32, 0x0#32, 0x0#32, (.val 0x0#32)⟩ -- EVC_STAT_RSV
  ]

/-- Block IST. -/
def regsIST : List RegRow :=
  [ ⟨0x50000, 0x4, 1, 0x0, 1, 0x0#32, 0x0#32, 0x0#32, (.val 0x0#32)⟩ -- IST_STATUS
  , ⟨0x50004, 0x4, 1, 0x0, 1, 0xFFFFFF3F#32, 0x0#32, 0x0#32, (.val 0x1801083F#32)⟩ -- IST_CFG
  , ⟨0x50008, 0x4, 1, 0x0, 1, 0xFF#32, 0x0#32, 0x0#32, (.val 0x14#32)⟩ -- IST_EYETHR
  , ⟨0x5000C, 0x4, 1, 0x0, 1, 0x0#32, 0x0#32, 0x7F#32, (.val 0x0#32)⟩ -- IST_RETIRE
  , ⟨0x50010, 0x4, 1, 0x0, 1, 0x0#32, 0x0#32, 0x0#32, (.val 0x0#32)⟩ -- IST_SLICES
  , ⟨0x50014, 0x4, 1, 0x0, 1, 0x0#32, 0x0#32, 0x0#32, (.val 0x0#32)⟩ -- IST_YIELDS
  , ⟨0x50018, 0x4, 1, 0x0, 1, 0x0#32, 0x0#32, 0x0#32, (.val 0x0#32)⟩ -- IST_FAILS
  , ⟨0x5001C, 0x4, 1, 0x0, 1, 0x0#32, 0x0#32, 0x0#32, (.val 0x0#32)⟩ -- IST_COVERS
  , ⟨0x51000, 0x4, 128, 0x0, 1, 0x0#32, 0x0#32, 0x0#32, (.val 0x0#32)⟩ -- IST_CORE
  , ⟨0x52000, 0x4, 36, 0x0, 1, 0x0#32, 0x0#32, 0x0#32, (.val 0x0#32)⟩ -- IST_EYE
  ]

/-- Block PAI. -/
def regsPAI : List RegRow :=
  [ ⟨0x60000, 0x4, 1, 0x0, 1, 0x0#32, 0x0#32, 0x0#32, (.val 0x0#32)⟩ -- PAI_STATUS
  , ⟨0x60004, 0x4, 1, 0x0, 1, 0xFFFFFFFF#32, 0x0#32, 0x0#32, (.val 0xA001E#32)⟩ -- PAI_CFG
  , ⟨0x60008, 0x4, 1, 0x0, 1, 0x1#32, 0x0#32, 0x0#32, (.val 0x0#32)⟩ -- PAI_CTRL
  , ⟨0x6000C, 0x4, 1, 0x0, 1, 0x0#32, 0x0#32, 0x0#32, (.val 0x10001#32)⟩ -- PAI_REPOCH
  , ⟨0x60010, 0x4, 1, 0x0, 1, 0x0#32, 0x0#32, 0x0#32, (.val 0x0#32)⟩ -- PAI_RESYNC
  , ⟨0x60014, 0x4, 1, 0x0, 1, 0x0#32, 0x0#32, 0x0#32, (.val 0x0#32)⟩ -- PAI_SPLITL
  , ⟨0x60018, 0x4, 1, 0x0, 1, 0x0#32, 0x0#32, 0x0#32, (.val 0x0#32)⟩ -- PAI_SPLITH
  , ⟨0x60020, 0x4, 1, 0x0, 1, 0x0#32, 0x0#32, 0x0#32, (.val 0x0#32)⟩ -- PAI_MIRGRAN
  , ⟨0x60024, 0x4, 1, 0x0, 1, 0x0#32, 0x0#32, 0x0#32, (.val 0x0#32)⟩ -- PAI_MIRBYTESL
  , ⟨0x60028, 0x4, 1, 0x0, 1, 0x0#32, 0x0#32, 0x0#32, (.val 0x0#32)⟩ -- PAI_MIRBYTESH
  , ⟨0x60040, 0x4, 1, 0x0, 1, 0x0#32, 0x0#32, 0x0#32, (.val 0x0#32)⟩ -- PAI_HBMISS
  , ⟨0x60044, 0x4, 1, 0x0, 1, 0x0#32, 0x0#32, 0x0#32, (.val 0x0#32)⟩ -- PAI_TAKEOVERS
  , ⟨0x60048, 0x4, 1, 0x0, 1, 0x0#32, 0x0#32, 0x0#32, (.val 0x0#32)⟩ -- PAI_FENCES
  , ⟨0x6004C, 0x4, 1, 0x0, 1, 0x0#32, 0x0#32, 0x0#32, (.val 0x0#32)⟩ -- PAI_SEVERS
  , ⟨0x60050, 0x4, 1, 0x0, 1, 0x0#32, 0x0#32, 0x0#32, (.val 0x0#32)⟩ -- PAI_REPAIRS
  , ⟨0x60054, 0x4, 1, 0x0, 1, 0x0#32, 0x0#32, 0x0#32, (.val 0x0#32)⟩ -- PAI_RECOVERED
  ]

/-- Block ADM. -/
def regsADM : List RegRow :=
  [ ⟨0x80000, 0x4, 1, 0x0, 1, 0x0#32, 0x0#32, 0x0#32, (.val 0x0#32)⟩ -- ADM_STATUS
  , ⟨0x80004, 0x4, 1, 0x0, 1, 0xFFFF#32, 0x0#32, 0x0#32, (.val 0x800#32)⟩ -- ADM_QDEPTH
  , ⟨0x80008, 0x4, 1, 0x0, 1, 0x0#32, 0x0#32, 0x0#32, (.val 0x0#32)⟩ -- ADM_QLEN
  , ⟨0x8000C, 0x4, 1, 0x0, 1, 0x0#32, 0x0#32, 0x0#32, (.val 0x0#32)⟩ -- ADM_SUST
  , ⟨0x80010, 0x4, 1, 0x0, 1, 0x0#32, 0x0#32, 0x0#32, (.val 0x0#32)⟩ -- ADM_BACKLOG
  , ⟨0x80020, 0x4, 1, 0x0, 1, 0x0#32, 0x0#32, 0x0#32, (.val 0x0#32)⟩ -- ADM_ADMITTED
  , ⟨0x80024, 0x4, 1, 0x0, 1, 0x0#32, 0x0#32, 0x0#32, (.val 0x0#32)⟩ -- ADM_BUSY
  , ⟨0x80028, 0x4, 1, 0x0, 1, 0x0#32, 0x0#32, 0x0#32, (.val 0x0#32)⟩ -- ADM_NOMEM
  , ⟨0x8002C, 0x4, 1, 0x0, 1, 0x0#32, 0x0#32, 0x0#32, (.val 0x0#32)⟩ -- ADM_INFEAS
  , ⟨0x80030, 0x4, 1, 0x0, 1, 0x0#32, 0x0#32, 0x0#32, (.val 0x0#32)⟩ -- ADM_CAPREF
  , ⟨0x81000, 0x10, 256, 0x0, 1, 0xFFFFFFFF#32, 0x0#32, 0x0#32, (.val 0x0#32)⟩ -- ADM_RQRATE
  , ⟨0x81004, 0x10, 256, 0x0, 1, 0xFFFF#32, 0x0#32, 0x0#32, (.val 0x0#32)⟩ -- ADM_RQBURST
  , ⟨0x81008, 0x10, 256, 0x0, 1, 0xFFFFFFFF#32, 0x0#32, 0x0#32, (.val 0x0#32)⟩ -- ADM_TKRATE
  , ⟨0x8100C, 0x10, 256, 0x0, 1, 0xFFFFFFFF#32, 0x0#32, 0x0#32, (.val 0x0#32)⟩ -- ADM_TKBURST
  ]

/-- Block SRV. -/
def regsSRV : List RegRow :=
  [ ⟨0x90000, 0x4, 1, 0x0, 1, 0x0#32, 0x0#32, 0x0#32, (.val 0x0#32)⟩ -- SRV_SLOTS
  , ⟨0x90004, 0x4, 1, 0x0, 1, 0x0#32, 0x0#32, 0x0#32, (.val 0x0#32)⟩ -- SRV_PAUSED
  , ⟨0x90008, 0x4, 1, 0x0, 1, 0xFFFFFFFF#32, 0x0#32, 0x0#32, (.val 0x8000032#32)⟩ -- SRV_KVCFG
  , ⟨0x9000C, 0x4, 1, 0x0, 1, 0xFFFF#32, 0x0#32, 0x0#32, (.val 0x800#32)⟩ -- SRV_STEPCFG
  , ⟨0x90010, 0x4, 1, 0x0, 1, 0x0#32, 0x0#32, 0x0#32, (.val 0x2666B340#32)⟩ -- SRV_SPEC
  , ⟨0x90014, 0x4, 1, 0x0, 1, 0xFFFF0000#32, 0x0#32, 0x0#32, (.val 0xA0000#32)⟩ -- SRV_VARCFG
  , ⟨0x90018, 0x4, 1, 0x0, 1, 0x7FFFF#32, 0x0#32, 0x0#32, (.val 0x10000#32)⟩ -- SRV_VARGRAN
  , ⟨0x9001C, 0x4, 1, 0x0, 1, 0x0#32, 0x0#32, 0x0#32, (.val 0x0#32)⟩ -- SRV_VARST
  , ⟨0x90020, 0x4, 1, 0x0, 1, 0x0#32, 0x0#32, 0x0#32, (.val 0x0#32)⟩ -- SRV_PRIOR
  , ⟨0x90040, 0x4, 1, 0x0, 1, 0x0#32, 0x0#32, 0x0#32, (.val 0x0#32)⟩ -- SRV_DONE
  , ⟨0x90044, 0x4, 1, 0x0, 1, 0x0#32, 0x0#32, 0x0#32, (.val 0x0#32)⟩ -- SRV_DLEXP
  , ⟨0x90048, 0x4, 1, 0x0, 1, 0x0#32, 0x0#32, 0x0#32, (.val 0x0#32)⟩ -- SRV_TTLEXP
  , ⟨0x9004C, 0x4, 1, 0x0, 1, 0x0#32, 0x0#32, 0x0#32, (.val 0x0#32)⟩ -- SRV_REVOKED
  , ⟨0x90050, 0x4, 1, 0x0, 1, 0x0#32, 0x0#32, 0x0#32, (.val 0x0#32)⟩ -- SRV_FAILED
  , ⟨0x90054, 0x4, 1, 0x0, 1, 0x0#32, 0x0#32, 0x0#32, (.val 0x0#32)⟩ -- SRV_TTFTMISS
  , ⟨0x90058, 0x4, 1, 0x0, 1, 0x0#32, 0x0#32, 0x0#32, (.val 0x0#32)⟩ -- SRV_TBTMISS
  , ⟨0x9005C, 0x4, 1, 0x0, 1, 0x0#32, 0x0#32, 0x0#32, (.val 0x0#32)⟩ -- SRV_PROPOSED
  , ⟨0x90060, 0x4, 1, 0x0, 1, 0x0#32, 0x0#32, 0x0#32, (.val 0x0#32)⟩ -- SRV_ACCEPTED
  , ⟨0x90064, 0x4, 1, 0x0, 1, 0x0#32, 0x0#32, 0x0#32, (.val 0x0#32)⟩ -- SRV_SWAPS
  , ⟨0x91000, 0x4, 256, 0x0, 1, 0x0#32, 0x0#32, 0x0#32, (.val 0x78#32)⟩ -- SRV_TTL
  , ⟨0x91400, 0x4, 256, 0x0, 1, 0x0#32, 0x0#32, 0x0#32, (.val 0x0#32)⟩ -- SRV_POOL
  ]

/-- Block CUR. -/
def regsCUR : List RegRow :=
  [ ⟨0xA0000, 0x4, 1, 0x0, 1, 0x0#32, 0x0#32, 0x0#32, (.val 0x0#32)⟩ -- CUR_STATE
  , ⟨0xA0004, 0x4, 1, 0x0, 1, 0x0#32, 0x0#32, 0x0#32, (.val 0x0#32)⟩ -- CUR_MODEL
  , ⟨0xA0008, 0x4, 1, 0x0, 1, 0x0#32, 0x0#32, 0x0#32, (.val 0x0#32)⟩ -- CUR_NUM
  , ⟨0xA000C, 0x4, 1, 0x0, 1, 0x0#32, 0x0#32, 0x0#32, (.val 0x0#32)⟩ -- CUR_EPOCH
  , ⟨0xA0010, 0x4, 1, 0x0, 1, 0x0#32, 0x0#32, 0x0#32, (.val 0x0#32)⟩ -- CUR_RESULT
  , ⟨0xA0014, 0x4, 1, 0x0, 1, 0x0#32, 0x0#32, 0x0#32, (.val 0x0#32)⟩ -- CUR_MGR
  , ⟨0xA0020, 0x8, 5, 0x0, 1, 0x0#32, 0x0#32, 0x0#32, (.val 0x0#32)⟩ -- CUR_CUEL
  , ⟨0xA0024, 0x8, 5, 0x0, 1, 0x0#32, 0x0#32, 0x0#32, (.val 0x0#32)⟩ -- CUR_CUEH
  , ⟨0xA0050, 0x4, 1, 0x0, 1, 0x0#32, 0x0#32, 0x0#32, (.val 0x0#32)⟩ -- CUR_COMMITS
  , ⟨0xA0054, 0x4, 1, 0x0, 1, 0x0#32, 0x0#32, 0x0#32, (.val 0x0#32)⟩ -- CUR_ABORTS
  , ⟨0xA0058, 0x4, 1, 0x0, 1, 0x0#32, 0x0#32, 0x0#32, (.val 0x0#32)⟩ -- CUR_FENCES
  , ⟨0xA0060, 0x4, 1, 0x0, 1, 0xFFFFFFFF#32, 0x0#32, 0x0#32, (.val 0x6401F4#32)⟩ -- CUR_CFG
  , ⟨0xA0064, 0x4, 1, 0x0, 1, 0xFFFF#32, 0x0#32, 0x0#32, (.val 0xC8#32)⟩ -- CUR_CHUNKTO
  ]

/-- Block RIG. -/
def regsRIG : List RegRow :=
  [ ⟨0xB0000, 0x4, 1, 0x0, 1, 0x0#32, 0x0#32, 0x0#32, (.val 0x0#32)⟩ -- RIG_STATUS
  , ⟨0xB0004, 0x4, 1, 0x0, 1, 0x0#32, 0x0#32, 0x0#32, (.val 0x0#32)⟩ -- RIG_PIECES
  , ⟨0xB0008, 0x4, 1, 0x0, 1, 0x0#32, 0x0#32, 0x0#32, (.val 0x0#32)⟩ -- RIG_VERIFIED
  , ⟨0xB000C, 0x4, 1, 0x0, 1, 0x0#32, 0x0#32, 0x0#32, (.val 0x0#32)⟩ -- RIG_BYTESL
  , ⟨0xB0010, 0x4, 1, 0x0, 1, 0x0#32, 0x0#32, 0x0#32, (.val 0x0#32)⟩ -- RIG_BYTESH
  , ⟨0xB0014, 0x4, 1, 0x0, 1, 0x0#32, 0x0#32, 0x0#32, (.val 0x0#32)⟩ -- RIG_CRCERR
  , ⟨0xB0018, 0x4, 1, 0x0, 1, 0x0#32, 0x0#32, 0x0#32, (.val 0x0#32)⟩ -- RIG_RETRY
  , ⟨0xB001C, 0x4, 1, 0x0, 1, 0x0#32, 0x0#32, 0x0#32, (.val 0x0#32)⟩ -- RIG_UNDER
  , ⟨0xB0020, 0x4, 1, 0x0, 1, 0x0#32, 0x0#32, 0x0#32, (.val 0x0#32)⟩ -- RIG_TIMEOUT
  , ⟨0xB0024, 0x4, 1, 0x0, 1, 0x0#32, 0x0#32, 0x0#32, (.val 0x0#32)⟩ -- RIG_DIGERR
  , ⟨0xB0028, 0x4, 1, 0x0, 1, 0x0#32, 0x0#32, 0x0#32, (.val 0x0#32)⟩ -- RIG_SAT
  , ⟨0xB002C, 0x4, 1, 0x0, 1, 0x0#32, 0x0#32, 0x0#32, (.val 0x0#32)⟩ -- RIG_NAN
  , ⟨0xB0030, 0x4, 1, 0x0, 1, 0x0#32, 0x0#32, 0x0#32, (.val 0x0#32)⟩ -- RIG_SERVED
  , ⟨0xB0034, 0x4, 1, 0x0, 1, 0x0#32, 0x0#32, 0x0#32, (.val 0x0#32)⟩ -- RIG_WINGS
  ]

/-- Block MEM. -/
def regsMEM : List RegRow :=
  [ ⟨0xC0000, 0x4, 1, 0x0, 1, 0x0#32, 0x0#32, 0x0#32, (.val 0x0#32)⟩ -- MEM_HBMST
  , ⟨0xC0004, 0x4, 1, 0x0, 1, 0x0#32, 0x0#32, 0x0#32, (.val 0x0#32)⟩ -- MEM_RESV
  , ⟨0xC0008, 0x4, 1, 0x0, 1, 0x0#32, 0x0#32, 0x0#32, (.val 0x0#32)⟩ -- MEM_FREE
  , ⟨0xC000C, 0x4, 1, 0x0, 1, 0x0#32, 0x0#32, 0x0#32, (.val 0x0#32)⟩ -- MEM_RETIRED
  , ⟨0xC0010, 0x4, 1, 0x0, 1, 0x0#32, 0x0#32, 0x0#32, (.val 0x0#32)⟩ -- MEM_POISON
  , ⟨0xC0014, 0x4, 1, 0x0, 1, 0x0#32, 0x0#32, 0x0#32, (.val 0x0#32)⟩ -- MEM_REPAIRED
  , ⟨0xC0018, 0x4, 1, 0x0, 1, 0x0#32, 0x0#32, 0x0#32, (.val 0x0#32)⟩ -- MEM_SCRUBST
  , ⟨0xC001C, 0x4, 1, 0x0, 1, 0xFF#32, 0x0#32, 0x0#32, (.val 0x18#32)⟩ -- MEM_SCRUBCFG
  , ⟨0xC0020, 0x4, 1, 0x0, 1, 0xFF#32, 0x0#32, 0x0#32, (.val 0x10#32)⟩ -- MEM_RETTHR
  , ⟨0xC0040, 0x4, 12, 0x0, 1, 0x0#32, 0x0#32, 0x0#32, (.val 0x0#32)⟩ -- MEM_CE
  , ⟨0xC0080, 0x4, 12, 0x0, 1, 0x0#32, 0x0#32, 0x0#32, (.val 0x0#32)⟩ -- MEM_UE
  , ⟨0xC00C0, 0x4, 1, 0x0, 1, 0x0#32, 0x0#32, 0x0#32, (.val 0x0#32)⟩ -- MEM_UEADL
  , ⟨0xC00C4, 0x4, 1, 0x0, 1, 0x0#32, 0x0#32, 0x0#32, (.val 0x0#32)⟩ -- MEM_UEADH
  , ⟨0xC00C8, 0x4, 1, 0x0, 1, 0x0#32, 0x0#32, 0x0#32, (.val 0x0#32)⟩ -- MEM_UETML
  , ⟨0xC00CC, 0x4, 1, 0x0, 1, 0x0#32, 0x0#32, 0x0#32, (.val 0x0#32)⟩ -- MEM_UETMH
  , ⟨0xC00D0, 0x4, 1, 0x0, 1, 0x0#32, 0x0#32, 0x0#32, (.val 0x0#32)⟩ -- MEM_SRAMCE
  , ⟨0xC00D4, 0x4, 1, 0x0, 1, 0x0#32, 0x0#32, 0x0#32, (.val 0x0#32)⟩ -- MEM_SRAMUE
  ]

/-- Block LFT. -/
def regsLFT : List RegRow :=
  [ ⟨0xD0000, 0x4, 1, 0x0, 1, 0x0#32, 0x0#32, 0x0#32, (.val 0x0#32)⟩ -- LFT_STATUS
  , ⟨0xD0004, 0x4, 1, 0x0, 1, 0x0#32, 0x0#32, 0x3#32, (.val 0x0#32)⟩ -- LFT_CTRL
  , ⟨0xD0008, 0x4, 1, 0x0, 1, 0x3F#32, 0x0#32, 0x0#32, (.val 0x0#32)⟩ -- LFT_SRCREG
  , ⟨0xD0010, 0x4, 1, 0x0, 1, 0x0#32, 0x0#32, 0x0#32, (.val 0x0#32)⟩ -- LFT_PROG
  , ⟨0xD0014, 0x4, 1, 0x0, 1, 0x0#32, 0x0#32, 0x0#32, (.val 0x0#32)⟩ -- LFT_RESULT
  , ⟨0xD0018, 0x4, 1, 0x0, 1, 0x0#32, 0x0#32, 0x0#32, (.val 0x0#32)⟩ -- LFT_WEAR
  , ⟨0xD001C, 0x4, 1, 0x0, 1, 0x0#32, 0x0#32, 0x0#32, (.val 0x0#32)⟩ -- LFT_CE
  , ⟨0xD0020, 0x4, 1, 0x0, 1, 0x0#32, 0x0#32, 0x0#32, (.val 0x0#32)⟩ -- LFT_UE
  , ⟨0xD0024, 0x4, 1, 0x0, 1, 0x0#32, 0x0#32, 0x0#32, (.val 0x0#32)⟩ -- LFT_WEAK
  , ⟨0xD0028, 0x4, 1, 0x0, 1, 0xFF#32, 0x0#32, 0x0#32, (.val 0x18#32)⟩ -- LFT_SCRUBCFG
  , ⟨0xD002C, 0x4, 1, 0x0, 1, 0x0#32, 0x0#32, 0x0#32, (.val 0x0#32)⟩ -- LFT_SCRUBST
  , ⟨0xD0100, 0x4, 64, 0x0, 1, 0x0#32, 0x0#32, 0x0#32, (.val 0x0#32)⟩ -- LFT_MDL
  ]

/-- Block FAB. -/
def regsFAB : List RegRow :=
  [ ⟨0x100000, 0x4, 1, 0x0, 1, 0x0#32, 0x0#32, 0x0#32, (.val 0x0#32)⟩ -- FAB_STATUS
  , ⟨0x100004, 0x4, 1, 0x0, 1, 0x0#32, 0x0#32, 0x0#32, (.val 0x0#32)⟩ -- FAB_SELF
  , ⟨0x100008, 0x4, 1, 0x0, 1, 0x0#32, 0x0#32, 0x0#32, (.val 0x0#32)⟩ -- FAB_DOMAIN
  , ⟨0x10000C, 0x4, 1, 0x0, 1, 0x0#32, 0x0#32, 0x0#32, (.val 0xB7AC0200#32)⟩ -- FAB_CFG
  , ⟨0x100010, 0x4, 1, 0x0, 1, 0xFF#32, 0x0#32, 0x0#32, (.val 0x28#32)⟩ -- FAB_ACKTO
  , ⟨0x100014, 0x4, 1, 0x0, 1, 0xFFFF#32, 0x0#32, 0x0#32, (.val 0xC8#32)⟩ -- FAB_LOSSTO
  , ⟨0x100018, 0x4, 1, 0x0, 1, 0xFFFF#32, 0x0#32, 0x0#32, (.val 0xA#32)⟩ -- FAB_PATHHOLD
  , ⟨0x10001C, 0x4, 1, 0x0, 1, 0xFFFFFFFF#32, 0x0#32, 0x0#32, (.val 0x5080104#32)⟩ -- FAB_RATE
  , ⟨0x100020, 0x4, 1, 0x0, 1, 0x0#32, 0x0#32, 0x3#32, (.val 0x0#32)⟩ -- FAB_CAKCTL
  , ⟨0x100028, 0x4, 1, 0x0, 1, 0x0#32, 0x0#32, 0x0#32, (.val 0x0#32)⟩ -- FAB_DSCP0
  , ⟨0x10002C, 0x4, 1, 0x0, 1, 0x0#32, 0x0#32, 0x0#32, (.val 0x0#32)⟩ -- FAB_DSCP1
  , ⟨0x100030, 0x4, 1, 0x0, 1, 0x0#32, 0x0#32, 0x0#32, (.val 0x0#32)⟩ -- FAB_PFX0
  , ⟨0x100034, 0x4, 1, 0x0, 1, 0x0#32, 0x0#32, 0x0#32, (.val 0x0#32)⟩ -- FAB_PFX1
  , ⟨0x100040, 0x4, 8, 0x0, 1, 0x0#32, 0x0#32, 0xFFFFFFFF#32, (.val 0x0#32)⟩ -- FAB_CAK
  , ⟨0x100100, 0x4, 1, 0x0, 1, 0x0#32, 0x0#32, 0x0#32, (.val 0x0#32)⟩ -- FAB_STRANGER
  , ⟨0x100104, 0x4, 1, 0x0, 1, 0x0#32, 0x0#32, 0x0#32, (.val 0x0#32)⟩ -- FAB_MACSECDROP
  , ⟨0x100108, 0x4, 1, 0x0, 1, 0x0#32, 0x0#32, 0x0#32, (.val 0x0#32)⟩ -- FAB_MALF
  , ⟨0x10010C, 0x4, 1, 0x0, 1, 0x0#32, 0x0#32, 0x0#32, (.val 0x0#32)⟩ -- FAB_MALERF
  , ⟨0x100110, 0x4, 1, 0x0, 1, 0x0#32, 0x0#32, 0x0#32, (.val 0x0#32)⟩ -- FAB_REJTX
  , ⟨0x100114, 0x4, 1, 0x0, 1, 0x0#32, 0x0#32, 0x0#32, (.val 0x0#32)⟩ -- FAB_REJRX
  , ⟨0x100118, 0x4, 1, 0x0, 1, 0x0#32, 0x0#32, 0x0#32, (.val 0x0#32)⟩ -- FAB_RETX
  , ⟨0x10011C, 0x4, 1, 0x0, 1, 0x0#32, 0x0#32, 0x0#32, (.val 0x0#32)⟩ -- FAB_PATHDOWN
  , ⟨0x100120, 0x4, 1, 0x0, 1, 0x0#32, 0x0#32, 0x0#32, (.val 0x0#32)⟩ -- FAB_LOST
  , ⟨0x100124, 0x4, 1, 0x0, 1, 0x0#32, 0x0#32, 0x0#32, (.val 0x0#32)⟩ -- FAB_TAKEOVER
  , ⟨0x100128, 0x4, 1, 0x0, 1, 0x0#32, 0x0#32, 0x0#32, (.val 0x0#32)⟩ -- FAB_DUPATOM
  , ⟨0x10012C, 0x4, 1, 0x0, 1, 0x0#32, 0x0#32, 0x0#32, (.val 0x0#32)⟩ -- FAB_ECNRX
  , ⟨0x100130, 0x4, 1, 0x0, 1, 0x0#32, 0x0#32, 0x0#32, (.val 0x0#32)⟩ -- FAB_OOW
  , ⟨0x101000, 0x40, 32, 0x0, 1, 0x0#32, 0x0#32, 0x0#32, (.val 0x0#32)⟩ -- FAB_PST
  , ⟨0x101004, 0x40, 32, 0x0, 1, 0x0#32, 0x0#32, 0x0#32, (.val 0x0#32)⟩ -- FAB_PCORR
  , ⟨0x101008, 0x40, 32, 0x0, 1, 0x0#32, 0x0#32, 0x0#32, (.val 0x0#32)⟩ -- FAB_PUNCORR
  , ⟨0x10100C, 0x40, 32, 0x0, 1, 0x0#32, 0x0#32, 0x0#32, (.val 0x0#32)⟩ -- FAB_PTX
  , ⟨0x101010, 0x40, 32, 0x0, 1, 0x0#32, 0x0#32, 0x0#32, (.val 0x0#32)⟩ -- FAB_PRX
  , ⟨0x101014, 0x40, 32, 0x0, 1, 0x0#32, 0x0#32, 0x0#32, (.val 0x0#32)⟩ -- FAB_PDROP
  , ⟨0x102000, 0x4, 256, 0x0, 1, 0x0#32, 0x0#32, 0x0#32, (.val 0x0#32)⟩ -- FAB_MEMB
  , ⟨0x104000, 0x4, 8192, 0x0, 1, 0x0#32, 0x0#32, 0x0#32, (.peer)⟩ -- FAB_PEER
  , ⟨0x10C000, 0x4, 8192, 0x0, 1, 0x0#32, 0x0#32, 0x0#32, (.val 0x0#32)⟩ -- FAB_PATHS
  ]

/-- Block COL. -/
def regsCOL : List RegRow :=
  [ ⟨0x140000, 0x4, 1, 0x0, 1, 0x0#32, 0x0#32, 0x0#32, (.val 0x0#32)⟩ -- COL_STATUS
  , ⟨0x140004, 0x4, 1, 0x0, 1, 0x0#32, 0x0#32, 0x0#32, (.val 0x0#32)⟩ -- COL_AGGCFG
  , ⟨0x140008, 0x4, 1, 0x0, 1, 0x0#32, 0x0#32, 0x0#32, (.val 0x100#32)⟩ -- COL_AGGTHR
  , ⟨0x14000C, 0x4, 1, 0x0, 1, 0xFFFF#32, 0x0#32, 0x0#32, (.val 0x14#32)⟩ -- COL_RPTWIN
  , ⟨0x140100, 0x4, 1, 0x0, 1, 0x0#32, 0x0#32, 0x0#32, (.val 0x0#32)⟩ -- COL_DONE
  , ⟨0x140104, 0x4, 1, 0x0, 1, 0x0#32, 0x0#32, 0x0#32, (.val 0x0#32)⟩ -- COL_EXCL
  , ⟨0x140108, 0x4, 1, 0x0, 1, 0x0#32, 0x0#32, 0x0#32, (.val 0x0#32)⟩ -- COL_BYPASS
  , ⟨0x14010C, 0x4, 1, 0x0, 1, 0x0#32, 0x0#32, 0x0#32, (.val 0x0#32)⟩ -- COL_WITHDRAW
  , ⟨0x140110, 0x4, 1, 0x0, 1, 0x0#32, 0x0#32, 0x0#32, (.val 0x0#32)⟩ -- COL_REDO
  , ⟨0x140114, 0x4, 1, 0x0, 1, 0x0#32, 0x0#32, 0x0#32, (.val 0x0#32)⟩ -- COL_REPAIR
  , ⟨0x140118, 0x4, 1, 0x0, 1, 0x0#32, 0x0#32, 0x0#32, (.val 0x0#32)⟩ -- COL_LATE
  , ⟨0x14011C, 0x4, 1, 0x0, 1, 0x0#32, 0x0#32, 0x0#32, (.val 0x0#32)⟩ -- COL_ANCHREJ
  , ⟨0x140120, 0x4, 1, 0x0, 1, 0x0#32, 0x0#32, 0x0#32, (.val 0x0#32)⟩ -- COL_A2ADROP
  , ⟨0x140124, 0x4, 1, 0x0, 1, 0x0#32, 0x0#32, 0x0#32, (.val 0x0#32)⟩ -- COL_FAULT
  ]

/-- Block HST. -/
def regsHST : List RegRow :=
  [ ⟨0x180000, 0x100, 4, 0x0, 1, 0x0#32, 0x0#32, 0x0#32, (.val 0x0#32)⟩ -- HST_PST
  , ⟨0x180004, 0x100, 4, 0x0, 1, 0x0#32, 0x0#32, 0x0#32, (.val 0x0#32)⟩ -- HST_RXMSG
  , ⟨0x180008, 0x100, 4, 0x0, 1, 0x0#32, 0x0#32, 0x0#32, (.val 0x0#32)⟩ -- HST_TXMSG
  , ⟨0x18000C, 0x100, 4, 0x0, 1, 0x0#32, 0x0#32, 0x0#32, (.val 0x0#32)⟩ -- HST_RNR
  , ⟨0x180010, 0x100, 4, 0x0, 1, 0x0#32, 0x0#32, 0x0#32, (.val 0x0#32)⟩ -- HST_BINDF
  , ⟨0x180014, 0x100, 4, 0x0, 1, 0x0#32, 0x0#32, 0x0#32, (.val 0x0#32)⟩ -- HST_CNPRX
  , ⟨0x180018, 0x100, 4, 0x0, 1, 0x0#32, 0x0#32, 0x0#32, (.val 0x0#32)⟩ -- HST_DROP
  , ⟨0x180020, 0x100, 4, 0x0, 1, 0x0#32, 0x0#32, 0x3#32, (.val 0x0#32)⟩ -- HST_CAKCTL
  , ⟨0x180040, 0x100, 4, 0x4, 8, 0x0#32, 0x0#32, 0xFFFFFFFF#32, (.val 0x0#32)⟩ -- HST_CAK
  ]

/-- Block TNT. -/
def regsTNT : List RegRow :=
  [ ⟨0x200000, 0x1000, 256, 0x0, 1, 0x0#32, 0x0#32, 0x0#32, (.val 0x0#32)⟩ -- TNT_STATE
  , ⟨0x200004, 0x1000, 256, 0x0, 1, 0x0#32, 0x0#32, 0x1#32, (.val 0x0#32)⟩ -- TNT_CTRL
  , ⟨0x200008, 0x1000, 256, 0x0, 1, 0x0#32, 0x0#32, 0x0#32, (.val 0x0#32)⟩ -- TNT_POLICY
  , ⟨0x20000C, 0x1000, 256, 0x0, 1, 0x0#32, 0x0#32, 0x0#32, (.val 0x0#32)⟩ -- TNT_SLOTS
  , ⟨0x200010, 0x1000, 256, 0x0, 1, 0x0#32, 0x0#32, 0x0#32, (.val 0x0#32)⟩ -- TNT_GRANLIM
  , ⟨0x200014, 0x1000, 256, 0x0, 1, 0x0#32, 0x0#32, 0x0#32, (.val 0x0#32)⟩ -- TNT_GRANUSE
  , ⟨0x200018, 0x1000, 256, 0x0, 1, 0x0#32, 0x0#32, 0x0#32, (.val 0x0#32)⟩ -- TNT_SCRUB
  , ⟨0x20001C, 0x1000, 256, 0x0, 1, 0x0#32, 0x0#32, 0x0#32, (.val 0x0#32)⟩ -- TNT_ROOTL
  , ⟨0x200020, 0x1000, 256, 0x0, 1, 0x0#32, 0x0#32, 0x0#32, (.val 0x0#32)⟩ -- TNT_ROOTH
  , ⟨0x200024, 0x1000, 256, 0x0, 1, 0x0#32, 0x0#32, 0x0#32, (.val 0x0#32)⟩ -- TNT_LOFTL
  , ⟨0x200028, 0x1000, 256, 0x0, 1, 0x0#32, 0x0#32, 0x0#32, (.val 0x0#32)⟩ -- TNT_LOFTH
  , ⟨0x20002C, 0x1000, 256, 0x0, 1, 0x0#32, 0x0#32, 0x0#32, (.val 0x0#32)⟩ -- TNT_RESETS
  , ⟨0x200030, 0x1000, 256, 0x0, 1, 0x0#32, 0x0#32, 0x0#32, (.val 0x0#32)⟩ -- TNT_FAULTS
  , ⟨0x200034, 0x1000, 256, 0x0, 1, 0x0#32, 0x0#32, 0x0#32, (.val 0x0#32)⟩ -- TNT_DUPS
  , ⟨0x200040, 0x1000, 256, 0x4, 8, 0x0#32, 0x0#32, 0x0#32, (.val 0x0#32)⟩ -- TNT_LASTFLT
  , ⟨0x200100, 0x1000, 256, 0x20, 16, 0x0#32, 0x0#32, 0x0#32, (.val 0x0#32)⟩ -- TNT_RQST
  , ⟨0x200104, 0x1000, 256, 0x20, 16, 0x0#32, 0x0#32, 0x0#32, (.val 0x0#32)⟩ -- TNT_RQSEQL
  , ⟨0x200108, 0x1000, 256, 0x20, 16, 0x0#32, 0x0#32, 0x0#32, (.val 0x0#32)⟩ -- TNT_RQSEQH
  , ⟨0x20010C, 0x1000, 256, 0x20, 16, 0x0#32, 0x0#32, 0x0#32, (.val 0x0#32)⟩ -- TNT_RQOUT
  , ⟨0x200110, 0x1000, 256, 0x20, 16, 0x0#32, 0x0#32, 0x0#32, (.val 0x0#32)⟩ -- TNT_RQRING
  , ⟨0x200400, 0x1000, 256, 0x20, 64, 0x0#32, 0x0#32, 0x0#32, (.val 0x0#32)⟩ -- TNT_HRCFG
  , ⟨0x200404, 0x1000, 256, 0x20, 64, 0x0#32, 0x0#32, 0x0#32, (.val 0x0#32)⟩ -- TNT_HRKEY
  , ⟨0x200408, 0x1000, 256, 0x20, 64, 0x0#32, 0x0#32, 0x0#32, (.val 0x0#32)⟩ -- TNT_HRBASEL
  , ⟨0x20040C, 0x1000, 256, 0x20, 64, 0x0#32, 0x0#32, 0x0#32, (.val 0x0#32)⟩ -- TNT_HRBASEH
  , ⟨0x200410, 0x1000, 256, 0x20, 64, 0x0#32, 0x0#32, 0x0#32, (.val 0x0#32)⟩ -- TNT_HRLENL
  , ⟨0x200414, 0x1000, 256, 0x20, 64, 0x0#32, 0x0#32, 0x0#32, (.val 0x0#32)⟩ -- TNT_HRLENH
  ]

/-- Block COR. -/
def regsCOR : List RegRow :=
  [ ⟨0x400000, 0x4000, 128, 0x0, 1, 0x0#32, 0x0#32, 0x0#32, (.corId)⟩ -- COR_ID
  , ⟨0x400004, 0x4000, 128, 0x0, 1, 0x0#32, 0x0#32, 0x0#32, (.val 0x0#32)⟩ -- COR_STATE
  , ⟨0x400008, 0x4000, 128, 0x0, 1, 0x0#32, 0x0#32, 0x0#32, (.val 0x0#32)⟩ -- COR_PARITY
  , ⟨0x400100, 0x4000, 128, 0x40, 4, 0x0#32, 0x0#32, 0x0#32, (.val 0x0#32)⟩ -- COR_CTX
  , ⟨0x400104, 0x4000, 128, 0x40, 4, 0x0#32, 0x0#32, 0x0#32, (.val 0x0#32)⟩ -- COR_STRM
  , ⟨0x400108, 0x4000, 128, 0x40, 4, 0x0#32, 0x0#32, 0x0#32, (.val 0x0#32)⟩ -- COR_PC0
  , ⟨0x40010C, 0x4000, 128, 0x40, 4, 0x0#32, 0x0#32, 0x0#32, (.val 0x0#32)⟩ -- COR_PC0H
  , ⟨0x400110, 0x4000, 128, 0x40, 4, 0x0#32, 0x0#32, 0x0#32, (.val 0x0#32)⟩ -- COR_PC1
  , ⟨0x400114, 0x4000, 128, 0x40, 4, 0x0#32, 0x0#32, 0x0#32, (.val 0x0#32)⟩ -- COR_PC1H
  , ⟨0x400118, 0x4000, 128, 0x40, 4, 0x0#32, 0x0#32, 0x0#32, (.val 0x0#32)⟩ -- COR_PC2
  , ⟨0x40011C, 0x4000, 128, 0x40, 4, 0x0#32, 0x0#32, 0x0#32, (.val 0x0#32)⟩ -- COR_PC2H
  , ⟨0x400120, 0x4000, 128, 0x40, 4, 0x0#32, 0x0#32, 0x0#32, (.val 0x0#32)⟩ -- COR_FAULT0
  , ⟨0x400124, 0x4000, 128, 0x40, 4, 0x0#32, 0x0#32, 0x0#32, (.val 0x0#32)⟩ -- COR_FAULT1
  , ⟨0x400128, 0x4000, 128, 0x40, 4, 0x0#32, 0x0#32, 0x0#32, (.val 0x0#32)⟩ -- COR_FAULT2
  , ⟨0x40012C, 0x4000, 128, 0x40, 4, 0x0#32, 0x0#32, 0x0#32, (.val 0x0#32)⟩ -- COR_FAULT3
  , ⟨0x400130, 0x4000, 128, 0x40, 4, 0x0#32, 0x0#32, 0x0#32, (.val 0x0#32)⟩ -- COR_FAULT4
  , ⟨0x400134, 0x4000, 128, 0x40, 4, 0x0#32, 0x0#32, 0x0#32, (.val 0x0#32)⟩ -- COR_FAULT5
  , ⟨0x400138, 0x4000, 128, 0x40, 4, 0x0#32, 0x0#32, 0x0#32, (.val 0x0#32)⟩ -- COR_FAULT6
  , ⟨0x40013C, 0x4000, 128, 0x40, 4, 0x0#32, 0x0#32, 0x0#32, (.val 0x0#32)⟩ -- COR_FAULT7
  , ⟨0x401000, 0x4000, 128, 0x4, 128, 0x0#32, 0x0#32, 0x0#32, (.val 0x0#32)⟩ -- COR_TSW
  , ⟨0x401400, 0x4000, 128, 0x4, 256, 0x0#32, 0x0#32, 0x0#32, (.val 0x0#32)⟩ -- COR_SS
  , ⟨0x402000, 0x4000, 128, 0x0, 1, 0x737FF#32, 0x0#32, 0x0#32, (.val 0x0#32)⟩ -- COR_APSEL
  , ⟨0x403000, 0x4000, 128, 0x4, 1024, 0x0#32, 0x0#32, 0x0#32, (.val 0x0#32)⟩ -- COR_AP
  ]

/-- R14: the rows of the block that an offset lies in. -/
def regBlock (off : Nat) : List RegRow :=
  if off < 0x10000 then regsMGT else if off < 0x20000 then regsCLK else if off < 0x30000 then regsPWR
  else if off < 0x40000 then regsTIM else if off < 0x50000 then regsEVC else if off < 0x60000 then regsIST
  else if off < 0x70000 then regsPAI else if off < 0x80000 then [] else if off < 0x90000 then regsADM
  else if off < 0xA0000 then regsSRV else if off < 0xB0000 then regsCUR else if off < 0xC0000 then regsRIG
  else if off < 0xD0000 then regsMEM else if off < 0xE0000 then regsLFT else if off < 0x100000 then []
  else if off < 0x140000 then regsFAB else if off < 0x180000 then regsCOL else if off < 0x200000 then regsHST
  else if off < 0x300000 then regsTNT else if off < 0x400000 then [] else if off < 0x600000 then regsCOR else []

/-- The row of an assigned offset, with the register's indices. -/
def findRow : List RegRow → Nat → Option (RegRow × Nat × Nat)
  | [], _ => none
  | r :: rs, off => match r.index off with
    | some (i, j) => some (r, i, j)
    | none => findRow rs off

/-- R15: the register at an offset, none where the offset is unassigned. -/
def regAt (off : Nat) : Option (RegRow × Nat × Nat) := if off % 4 = 0 then findRow (regBlock off) off else none

/-- The value after module reset of the register at an offset. -/
def regReset (off : Nat) : Word32 :=
  match regAt off with
  | none => 0#32
  | some (r, i, _) =>
    match r.reset with
    | .val v => v
    | .core => BitVec.ofNat 32 (8 * 2 ^ 24 + i)
    | .peer => BitVec.ofNat 32 (i * 2 ^ 16)
    | .corId => BitVec.ofNat 32 (1 * 2 ^ 16 + i / 8 * 2 ^ 8 + i)

/-! ### Offsets by name -/

namespace Reg

def MGT_TYPE : Nat := 0x0
def MGT_CAPS : Nat := 0x4
def MGT_UNIT (i : Nat) : Nat := 0x10 + 0x4 * i
def MGT_FWDIG (i : Nat) : Nat := 0x20 + 0x4 * i
def MGT_CFGDIG (i : Nat) : Nat := 0x40 + 0x4 * i
def MGT_OWNER (i : Nat) : Nat := 0x60 + 0x4 * i
def MGT_BOOT : Nat := 0x70
def MGT_SVN : Nat := 0x74
def MGT_CFGSEQ : Nat := 0x78
def MGT_CFGPEND : Nat := 0x7C
def MGT_UPD : Nat := 0x80
def MGT_UPDCFG : Nat := 0x84
def MGT_UPDCUEL : Nat := 0x88
def MGT_UPDCUEH : Nat := 0x8C
def MGT_UPDCTL : Nat := 0x90
def MGT_UPDTIME : Nat := 0x94
def MGT_ATTNONCE (i : Nat) : Nat := 0xA0 + 0x4 * i
def MGT_ATTCTL : Nat := 0xC0
def MGT_LOGSTAT : Nat := 0xD0
def MGT_LOGHEADL : Nat := 0xD4
def MGT_LOGHEADH : Nat := 0xD8
def MGT_LOGEXPL : Nat := 0xDC
def MGT_LOGEXPH : Nat := 0xE0
def MGT_LOGSELL : Nat := 0xE4
def MGT_LOGSELH : Nat := 0xE8
def MGT_LOGDROP : Nat := 0xEC
def MGT_LOGWIN (i : Nat) : Nat := 0x100 + 0x4 * i
def MGT_ATTREP (i : Nat) : Nat := 0x1000 + 0x4 * i
def CLK_STATUS : Nat := 0x10000
def CLK_LASTRST : Nat := 0x10004
def CLK_PORTBAD : Nat := 0x10008
def CLK_RATIO (i : Nat) : Nat := 0x10010 + 0x4 * i
def CLK_FMSEL : Nat := 0x10080
def CLK_FMCTL : Nat := 0x10084
def CLK_FMCNT : Nat := 0x10088
def PWR_STATUS : Nat := 0x20000
def PWR_LIMIT : Nat := 0x20004
def PWR_REEFMIN : Nat := 0x20008
def PWR_GHOST : Nat := 0x2000C
def PWR_VIN : Nat := 0x20010
def PWR_PIN : Nat := 0x20014
def PWR_PAVG : Nat := 0x20018
def PWR_DOMST : Nat := 0x2001C
def PWR_DOMREQ : Nat := 0x20020
def PWR_TEMP (i : Nat) : Nat := 0x20040 + 0x4 * i
def PWR_TIGHTEN : Nat := 0x20100
def PWR_RELAX : Nat := 0x20104
def PWR_EXCUR : Nat := 0x20108
def PWR_REEFMS : Nat := 0x2010C
def PWR_THERM : Nat := 0x20110
def TIM_NOWL : Nat := 0x30000
def TIM_NOWH : Nat := 0x30004
def TIM_STATUS : Nat := 0x30008
def TIM_OFFSET : Nat := 0x3000C
def TIM_FREQ : Nat := 0x30010
def TIM_SRCCFG : Nat := 0x30014
def TIM_HOLD : Nat := 0x30018
def TIM_TODL : Nat := 0x3001C
def TIM_TODH : Nat := 0x30020
def TIM_CCUEL : Nat := 0x30030
def TIM_CCUEH : Nat := 0x30034
def TIM_CCUECTL : Nat := 0x30038
def TIM_CCUEARG : Nat := 0x3003C
def TIM_CUELATE : Nat := 0x30040
def TIM_UNLOCKS : Nat := 0x30044
def TIM_STEPS : Nat := 0x30048
def TIM_CUE (i : Nat) : Nat := 0x34000 + 0x4 * i
def EVC_STATUS : Nat := 0x40000
def EVC_SETPEND : Nat := 0x40004
def EVC_HOSTQ : Nat := 0x40008
def EVC_DELIV : Nat := 0x4000C
def EVC_STAT (i : Nat) : Nat := 0x42000 + 0x4 * i
def IST_STATUS : Nat := 0x50000
def IST_CFG : Nat := 0x50004
def IST_EYETHR : Nat := 0x50008
def IST_RETIRE : Nat := 0x5000C
def IST_SLICES : Nat := 0x50010
def IST_YIELDS : Nat := 0x50014
def IST_FAILS : Nat := 0x50018
def IST_COVERS : Nat := 0x5001C
def IST_CORE (i : Nat) : Nat := 0x51000 + 0x4 * i
def IST_EYE (i : Nat) : Nat := 0x52000 + 0x4 * i
def PAI_STATUS : Nat := 0x60000
def PAI_CFG : Nat := 0x60004
def PAI_CTRL : Nat := 0x60008
def PAI_REPOCH : Nat := 0x6000C
def PAI_RESYNC : Nat := 0x60010
def PAI_SPLITL : Nat := 0x60014
def PAI_SPLITH : Nat := 0x60018
def PAI_MIRGRAN : Nat := 0x60020
def PAI_MIRBYTESL : Nat := 0x60024
def PAI_MIRBYTESH : Nat := 0x60028
def PAI_HBMISS : Nat := 0x60040
def PAI_TAKEOVERS : Nat := 0x60044
def PAI_FENCES : Nat := 0x60048
def PAI_SEVERS : Nat := 0x6004C
def PAI_REPAIRS : Nat := 0x60050
def PAI_RECOVERED : Nat := 0x60054
def ADM_STATUS : Nat := 0x80000
def ADM_QDEPTH : Nat := 0x80004
def ADM_QLEN : Nat := 0x80008
def ADM_SUST : Nat := 0x8000C
def ADM_BACKLOG : Nat := 0x80010
def ADM_ADMITTED : Nat := 0x80020
def ADM_BUSY : Nat := 0x80024
def ADM_NOMEM : Nat := 0x80028
def ADM_INFEAS : Nat := 0x8002C
def ADM_CAPREF : Nat := 0x80030
def ADM_RQRATE (i : Nat) : Nat := 0x81000 + 0x10 * i
def ADM_RQBURST (i : Nat) : Nat := 0x81004 + 0x10 * i
def ADM_TKRATE (i : Nat) : Nat := 0x81008 + 0x10 * i
def ADM_TKBURST (i : Nat) : Nat := 0x8100C + 0x10 * i
def SRV_SLOTS : Nat := 0x90000
def SRV_PAUSED : Nat := 0x90004
def SRV_KVCFG : Nat := 0x90008
def SRV_STEPCFG : Nat := 0x9000C
def SRV_SPEC : Nat := 0x90010
def SRV_VARCFG : Nat := 0x90014
def SRV_VARGRAN : Nat := 0x90018
def SRV_VARST : Nat := 0x9001C
def SRV_PRIOR : Nat := 0x90020
def SRV_DONE : Nat := 0x90040
def SRV_DLEXP : Nat := 0x90044
def SRV_TTLEXP : Nat := 0x90048
def SRV_REVOKED : Nat := 0x9004C
def SRV_FAILED : Nat := 0x90050
def SRV_TTFTMISS : Nat := 0x90054
def SRV_TBTMISS : Nat := 0x90058
def SRV_PROPOSED : Nat := 0x9005C
def SRV_ACCEPTED : Nat := 0x90060
def SRV_SWAPS : Nat := 0x90064
def SRV_TTL (i : Nat) : Nat := 0x91000 + 0x4 * i
def SRV_POOL (i : Nat) : Nat := 0x91400 + 0x4 * i
def CUR_STATE : Nat := 0xA0000
def CUR_MODEL : Nat := 0xA0004
def CUR_NUM : Nat := 0xA0008
def CUR_EPOCH : Nat := 0xA000C
def CUR_RESULT : Nat := 0xA0010
def CUR_MGR : Nat := 0xA0014
def CUR_CUEL (i : Nat) : Nat := 0xA0020 + 0x8 * i
def CUR_CUEH (i : Nat) : Nat := 0xA0024 + 0x8 * i
def CUR_COMMITS : Nat := 0xA0050
def CUR_ABORTS : Nat := 0xA0054
def CUR_FENCES : Nat := 0xA0058
def CUR_CFG : Nat := 0xA0060
def CUR_CHUNKTO : Nat := 0xA0064
def RIG_STATUS : Nat := 0xB0000
def RIG_PIECES : Nat := 0xB0004
def RIG_VERIFIED : Nat := 0xB0008
def RIG_BYTESL : Nat := 0xB000C
def RIG_BYTESH : Nat := 0xB0010
def RIG_CRCERR : Nat := 0xB0014
def RIG_RETRY : Nat := 0xB0018
def RIG_UNDER : Nat := 0xB001C
def RIG_TIMEOUT : Nat := 0xB0020
def RIG_DIGERR : Nat := 0xB0024
def RIG_SAT : Nat := 0xB0028
def RIG_NAN : Nat := 0xB002C
def RIG_SERVED : Nat := 0xB0030
def RIG_WINGS : Nat := 0xB0034
def MEM_HBMST : Nat := 0xC0000
def MEM_RESV : Nat := 0xC0004
def MEM_FREE : Nat := 0xC0008
def MEM_RETIRED : Nat := 0xC000C
def MEM_POISON : Nat := 0xC0010
def MEM_REPAIRED : Nat := 0xC0014
def MEM_SCRUBST : Nat := 0xC0018
def MEM_SCRUBCFG : Nat := 0xC001C
def MEM_RETTHR : Nat := 0xC0020
def MEM_CE (i : Nat) : Nat := 0xC0040 + 0x4 * i
def MEM_UE (i : Nat) : Nat := 0xC0080 + 0x4 * i
def MEM_UEADL : Nat := 0xC00C0
def MEM_UEADH : Nat := 0xC00C4
def MEM_UETML : Nat := 0xC00C8
def MEM_UETMH : Nat := 0xC00CC
def MEM_SRAMCE : Nat := 0xC00D0
def MEM_SRAMUE : Nat := 0xC00D4
def LFT_STATUS : Nat := 0xD0000
def LFT_CTRL : Nat := 0xD0004
def LFT_SRCREG : Nat := 0xD0008
def LFT_PROG : Nat := 0xD0010
def LFT_RESULT : Nat := 0xD0014
def LFT_WEAR : Nat := 0xD0018
def LFT_CE : Nat := 0xD001C
def LFT_UE : Nat := 0xD0020
def LFT_WEAK : Nat := 0xD0024
def LFT_SCRUBCFG : Nat := 0xD0028
def LFT_SCRUBST : Nat := 0xD002C
def LFT_MDL (i : Nat) : Nat := 0xD0100 + 0x4 * i
def FAB_STATUS : Nat := 0x100000
def FAB_SELF : Nat := 0x100004
def FAB_DOMAIN : Nat := 0x100008
def FAB_CFG : Nat := 0x10000C
def FAB_ACKTO : Nat := 0x100010
def FAB_LOSSTO : Nat := 0x100014
def FAB_PATHHOLD : Nat := 0x100018
def FAB_RATE : Nat := 0x10001C
def FAB_CAKCTL : Nat := 0x100020
def FAB_DSCP0 : Nat := 0x100028
def FAB_DSCP1 : Nat := 0x10002C
def FAB_PFX0 : Nat := 0x100030
def FAB_PFX1 : Nat := 0x100034
def FAB_CAK (i : Nat) : Nat := 0x100040 + 0x4 * i
def FAB_STRANGER : Nat := 0x100100
def FAB_MACSECDROP : Nat := 0x100104
def FAB_MALF : Nat := 0x100108
def FAB_MALERF : Nat := 0x10010C
def FAB_REJTX : Nat := 0x100110
def FAB_REJRX : Nat := 0x100114
def FAB_RETX : Nat := 0x100118
def FAB_PATHDOWN : Nat := 0x10011C
def FAB_LOST : Nat := 0x100120
def FAB_TAKEOVER : Nat := 0x100124
def FAB_DUPATOM : Nat := 0x100128
def FAB_ECNRX : Nat := 0x10012C
def FAB_OOW : Nat := 0x100130
def FAB_PST (i : Nat) : Nat := 0x101000 + 0x40 * i
def FAB_PCORR (i : Nat) : Nat := 0x101004 + 0x40 * i
def FAB_PUNCORR (i : Nat) : Nat := 0x101008 + 0x40 * i
def FAB_PTX (i : Nat) : Nat := 0x10100C + 0x40 * i
def FAB_PRX (i : Nat) : Nat := 0x101010 + 0x40 * i
def FAB_PDROP (i : Nat) : Nat := 0x101014 + 0x40 * i
def FAB_MEMB (i : Nat) : Nat := 0x102000 + 0x4 * i
def FAB_PEER (i : Nat) : Nat := 0x104000 + 0x4 * i
def FAB_PATHS (i : Nat) : Nat := 0x10C000 + 0x4 * i
def COL_STATUS : Nat := 0x140000
def COL_AGGCFG : Nat := 0x140004
def COL_AGGTHR : Nat := 0x140008
def COL_RPTWIN : Nat := 0x14000C
def COL_DONE : Nat := 0x140100
def COL_EXCL : Nat := 0x140104
def COL_BYPASS : Nat := 0x140108
def COL_WITHDRAW : Nat := 0x14010C
def COL_REDO : Nat := 0x140110
def COL_REPAIR : Nat := 0x140114
def COL_LATE : Nat := 0x140118
def COL_ANCHREJ : Nat := 0x14011C
def COL_A2ADROP : Nat := 0x140120
def COL_FAULT : Nat := 0x140124
def HST_PST (i : Nat) : Nat := 0x180000 + 0x100 * i
def HST_RXMSG (i : Nat) : Nat := 0x180004 + 0x100 * i
def HST_TXMSG (i : Nat) : Nat := 0x180008 + 0x100 * i
def HST_RNR (i : Nat) : Nat := 0x18000C + 0x100 * i
def HST_BINDF (i : Nat) : Nat := 0x180010 + 0x100 * i
def HST_CNPRX (i : Nat) : Nat := 0x180014 + 0x100 * i
def HST_DROP (i : Nat) : Nat := 0x180018 + 0x100 * i
def HST_CAKCTL (i : Nat) : Nat := 0x180020 + 0x100 * i
def HST_CAK (i j : Nat) : Nat := 0x180040 + 0x100 * i + 0x4 * j
def TNT_STATE (i : Nat) : Nat := 0x200000 + 0x1000 * i
def TNT_CTRL (i : Nat) : Nat := 0x200004 + 0x1000 * i
def TNT_POLICY (i : Nat) : Nat := 0x200008 + 0x1000 * i
def TNT_SLOTS (i : Nat) : Nat := 0x20000C + 0x1000 * i
def TNT_GRANLIM (i : Nat) : Nat := 0x200010 + 0x1000 * i
def TNT_GRANUSE (i : Nat) : Nat := 0x200014 + 0x1000 * i
def TNT_SCRUB (i : Nat) : Nat := 0x200018 + 0x1000 * i
def TNT_ROOTL (i : Nat) : Nat := 0x20001C + 0x1000 * i
def TNT_ROOTH (i : Nat) : Nat := 0x200020 + 0x1000 * i
def TNT_LOFTL (i : Nat) : Nat := 0x200024 + 0x1000 * i
def TNT_LOFTH (i : Nat) : Nat := 0x200028 + 0x1000 * i
def TNT_RESETS (i : Nat) : Nat := 0x20002C + 0x1000 * i
def TNT_FAULTS (i : Nat) : Nat := 0x200030 + 0x1000 * i
def TNT_DUPS (i : Nat) : Nat := 0x200034 + 0x1000 * i
def TNT_LASTFLT (i j : Nat) : Nat := 0x200040 + 0x1000 * i + 0x4 * j
def TNT_RQST (i j : Nat) : Nat := 0x200100 + 0x1000 * i + 0x20 * j
def TNT_RQSEQL (i j : Nat) : Nat := 0x200104 + 0x1000 * i + 0x20 * j
def TNT_RQSEQH (i j : Nat) : Nat := 0x200108 + 0x1000 * i + 0x20 * j
def TNT_RQOUT (i j : Nat) : Nat := 0x20010C + 0x1000 * i + 0x20 * j
def TNT_RQRING (i j : Nat) : Nat := 0x200110 + 0x1000 * i + 0x20 * j
def TNT_HRCFG (i j : Nat) : Nat := 0x200400 + 0x1000 * i + 0x20 * j
def TNT_HRKEY (i j : Nat) : Nat := 0x200404 + 0x1000 * i + 0x20 * j
def TNT_HRBASEL (i j : Nat) : Nat := 0x200408 + 0x1000 * i + 0x20 * j
def TNT_HRBASEH (i j : Nat) : Nat := 0x20040C + 0x1000 * i + 0x20 * j
def TNT_HRLENL (i j : Nat) : Nat := 0x200410 + 0x1000 * i + 0x20 * j
def TNT_HRLENH (i j : Nat) : Nat := 0x200414 + 0x1000 * i + 0x20 * j
def EVC_CFG (i : Nat) : Nat := 0x41000 + 0x4 * i
def COR_APSEL (i : Nat) : Nat := 0x402000 + 0x4000 * i

end Reg

end Sys2Proof.Machine
end

