-- ==== Sys2Proof/Config.lean ====
section
/-! DEFINITION. What an implementation fixes and what the manual leaves open. The constants without a body are free
values: nothing in Lean can evaluate them, so a statement about one holds whatever it is. -/

namespace Sys2Proof.Config

/-- A fresh open value. The step applies it to the counter `free` of State and advances the counter (log entry 5). -/
opaque freeValue : Nat → BitVec 64

/-- R132, R133: what element `i` below the offset of a VX.LDV holds where the load changes the register's width tag, for the
open value of number `k` (log entry 10). -/
opaque keptElem : Nat → Nat → BitVec 32

/-- R163: whether byte `i` of a move that met a translation fault had been written when the context stopped, for the
open value of number `k` (log entry 6). -/
opaque moveWrote : Nat → Nat → Bool

/-- Verification of an ML-DSA-44 signature: public key, message, signature (R240, R253 and others; an external standard,
log entry 7). -/
opaque mldsaVerify : List Byte → List Byte → List Byte → Bool

/-- ML-DSA-44 signing: private seed, randomness, message (R483, log entry 7). -/
opaque mldsaSign : List Byte → BitVec 64 → List Byte → List Byte

/-- The ML-DSA-44 public key of a seed (R482, log entry 7). -/
opaque mldsaPublic : List Byte → List Byte

/-- The seed that the PUF of this unit yields at every power-up (R482, log entry 25). -/
opaque pufSeed : List Byte

/-- Key identifiers of the four firmware keys in the mask ROM (R493, log entry 25). -/
opaque romKey : Nat → List Byte

/-- The public key of a key identifier, where MAINTENANCE checks a binding against the recovery key identifier (R481): the
manual does not say where the key itself comes from (log entry 25). -/
opaque keyById : List Byte → List Byte

/-- The number of layers of a model, for its descriptor (R344, R351, R326): no field of R275 holds it (log entry 14). -/
opaque layerCount : List Byte → Nat

/-- The vocabulary length V of a model, for its descriptor (R210): no field of R275 holds it (log entry 14). -/
opaque vocabulary : List Byte → Nat

end Sys2Proof.Config
end

