-- ==== Sys2Proof/Machine/BootState.lean ====
section
/-! DEFINITION. The management controller's state (chapter 17): audit log, identity, configuration, firmware. -/

namespace Sys2Proof.Machine

/-- An audit entry (R500). -/
structure AuditEntry where
  seq    : Nat
  time   : Nat
  action : Nat
  okind  : Nat
  status : Nat
  role   : Nat
  origin : List Byte
  object : Nat
  old    : List Byte
  new    : List Byte
  prev   : List Byte
  detail : List Byte
  deriving DecidableEq, Repr

/-- An entry of the delta journal (R491). -/
structure DeltaEnt where
  seq     : Nat
  bytes   : List Byte
  applied : Bool := false
  deriving DecidableEq, Repr

/-- The policy snapshot of an orderly shutdown (R342): unit identity, configuration digest, what the scheduler learned. -/
structure Snapshot where
  unit   : List Byte
  cfgdig : List Byte
  coef   : Tab Coef
  sust   : Rat
  alpha0 : Nat
  deriving DecidableEq, Repr

/-- The boot flash (R478), audit ring and granule retirements apart. A slot or firmware area that the module has not
written and not read yet is not listed: its contents come with the flash (log entry 3). -/
structure FlashSt where
  /-- Configuration slots 0 and 1, and the active one (R485). -/
  slots    : Tab (List Byte) := []
  active   : Nat := 0
  /-- Handle of the image PENDING in the inactive slot, and the journal (R491). -/
  pending  : Option Nat := none
  journal  : List DeltaEnt := []
  lastSeq  : Nat := 0
  /-- Handle of the last change applied. -/
  applied  : Nat := 0
  /-- Key identifier of the last owner whose configuration verified (R481). -/
  recovery : List Byte := []
  /-- Firmware areas (R493) and the update record (R495): state, digests of the replaced and the new image. -/
  fwActive   : Option (List Byte) := none
  fwFallback : Option (List Byte) := none
  upd      : Nat := 0
  updOld   : List Byte := []
  updNew   : List Byte := []
  /-- Cores of the retirement record (R483) with the domain time of each; reset and thermal records (R464, R459), newest
  first. -/
  cores    : List (Nat × Nat) := []
  resets   : List (Nat × Nat × Nat) := []
  thermals : List (Nat × Nat) := []
  powerUps : Nat := 0
  /-- The policy snapshot (R342). -/
  snapshot : Option Snapshot := none
  deriving DecidableEq, Repr

/-- Management controller state. -/
structure BootSt where
  /-- Audit entries, newest first. -/
  audit   : List AuditEntry := []
  /-- Newest sequence number that the boot flash holds. -/
  flushed : Nat := 0
  /-- The configuration in force, section by section (R486): contents keyed by section type. -/
  conf    : Tab Memory := []
  /-- Granules of the retirement record (R232, R483), with the domain time of each. -/
  retired : List (Nat × Nat) := []
  flash   : FlashSt := {}
  /-- Seed and public key of the identity (R482), once they are derived. -/
  seed    : Option (List Byte) := none
  /-- The firmware image that runs, and the new one in reserved HBM (R495). -/
  fwRun   : List Byte := []
  fwNew   : List Byte := []
  /-- The copy of the replaced image in reserved HBM (R495). -/
  fwOld   : List Byte := []
  /-- Origin of the firmware IMAGE item being written: tenant, queue, seq. -/
  fwItem  : Option (Nat × Nat × Nat) := none
  /-- Module clock of the handover, of the last firmware start, and what confirmation asks for since then (R498). -/
  trialAt : Option Nat := none
  passed  : Bool := false
  cued    : Bool := false
  /-- WINDOW and MINRUN in seconds as the handover found them (R498). -/
  trialWin : Nat := 0
  trialMin : Nat := 0
  /-- The low word of an export mark that waits for its high word (R502). -/
  expLow  : Nat := 0
  /-- The nonce of the attestation in work (R484), and the last report. -/
  signing : Option (List Byte) := none
  report  : List Byte := []
  /-- MAINTENANCE: an IMAGE was accepted; the reset follows 1 s after this module clock. -/
  leaveAt : Option Nat := none
  /-- The partner's firmware digest as its last HELLO gave it. -/
  partnerFw : List Byte := []
  deriving DecidableEq, Repr

end Sys2Proof.Machine
end

