-- ==== Sys2Proof/Machine/TimeState.lean ====
section
/-! DEFINITION. The state of power, clocks and domain time (chapter 16). -/

namespace Sys2Proof.Machine

/-- An entry of the cue sheet (R471). -/
structure Cue where
  time   : Nat
  action : Nat
  owner  : Nat
  sub    : Nat
  late   : Bool
  role   : Nat
  arg    : Nat
  deriving DecidableEq, Repr

/-- Time and the cue sheet. -/
structure TimeSt where
  /-- Pending entries in the order in which they are taken (R473). -/
  cues    : List Cue := []
  /-- A time of day announced for the next pulse (R467). -/
  tod     : Option Nat := none
  /-- Offsets measured in succession within 20 ns, and beyond 25 ns (R469). -/
  good    : Nat := 0
  bad     : Nat := 0
  /-- Sources that are qualified (R467): places 0 to 2 of TIM_SRCCFG. -/
  qualified : List Nat := []
  /-- Module clock at which HOLDOVER began. -/
  holdAt  : Nat := 0
  /-- The correction that is still to be slewed, ns. -/
  slew    : Int := 0
  /-- LOCKED has been entered since power-up (R466). -/
  ever    : Bool := false
  deriving DecidableEq, Repr

/-- Power and clocks beside their registers. PLLs carry the codes of CLK_FMSEL. -/
structure PowSt where
  /-- Pins and input: PWR_EN, input valid for 10 ms (R452), the power-up sequence has run and PWR_GOOD is released. -/
  en      : Bool := false
  vin     : Bool := false
  on      : Bool := false
  /-- Stopped at a critical temperature: off until PWR_EN is cycled (R459). -/
  thermal : Bool := false
  /-- Reset under R464, until REF100 has returned with RESET_N high. -/
  held    : Bool := false
  /-- In reset because of a rejected time-base PLL: module clock of the last try (R462). -/
  tbHeld  : Option Nat := none
  /-- When a PLL was enabled, those judged stable, failed comparisons. -/
  enabled : Tab Nat := []
  stable  : List Nat := []
  fails   : Tab Nat := []
  /-- Start of a running frequency measurement (R465); a start that waits for a comparison; whether a ratio of the measured clock has
  changed during it. -/
  fm      : Option Nat := none
  fmWait  : Bool := false
  fmRamp  : Bool := false
  /-- Reef level that R458 and R459 chose, and when it last tightened or changed. -/
  chosen  : Nat := 4
  since   : Nat := 0
  /-- R458: 1 ms averages in succession above PWR_LIMIT, and when each cause last tightened. -/
  overs   : Nat := 0
  tightAt : Tab Nat := []
  /-- Half-dies in an idle ramp, and when a half-die last made a divider step or a source change (R463). -/
  idle    : List Nat := []
  stepped : Tab Nat := []
  deriving DecidableEq, Repr

end Sys2Proof.Machine
end

