-- ==== Sys2Proof/Machine/State.lean ====
section
/-! DEFINITION. The state of the module, why a step can stop, and the state right after reset. -/

namespace Sys2Proof.Machine

/-- The event controller beside its registers (R505 to R511). -/
structure EvcSt where
  /-- Sources whose mask is in force. -/
  mask  : List Nat := []
  /-- Mask writes that have landed and not taken effect (R509), oldest first: source, bit, when they landed. -/
  waits : List (Nat × Bool × Nat) := []
  /-- Internal targets that have not acknowledged their delivery. -/
  busy  : List Nat := []
  deriving DecidableEq, Repr

/-- The state of the block. -/
structure State where
  /-- Commands waiting, first in, first out. -/
  pending : List Instr := []
  /-- The model's own counter of open values drawn (log entry 5). -/
  free    : Nat := 0
  /-- Domain time TIM_NOW in ns (R466). -/
  now     : Nat := 0
  /-- The module's own clock: ns since power-up. -/
  clk     : Nat := 0
  /-- Register space by offset (R14). -/
  regs    : Tab Word32 := []
  /-- The local address space of R215, register space excepted. -/
  mem     : Memory := []
  /-- Poisoned 64-byte words, by address / 64, rising (R166, R228). -/
  poison  : List Nat := []
  /-- Granule ownership entries by granule index (R219). -/
  grans   : Tab Word64 := []
  /-- Cores by number (R161). -/
  cores   : Tab CoreSt := []
  /-- NMV items in work, by unit (R95). -/
  nmv     : Tab (List NmvItem) := []
  /-- The event controller. -/
  evc     : EvcSt := {}
  /-- The in-service test. -/
  ist     : IstSt := {}
  /-- Host ports and tenant queues (chapter 09). -/
  host    : HostSt := {}
  /-- Serving (chapter 11). -/
  serve   : ServeSt := {}
  /-- The loft, granules to be zeroed, translation changes (chapter 08). -/
  loft    : LoftSt := {}
  /-- Models, adapters, curtains, rigging (chapter 10). -/
  curtain : CurtainSt := {}
  /-- Domain time and the cue sheet (chapter 16). -/
  time    : TimeSt := {}
  /-- Power and clocks (chapter 16). -/
  pow     : PowSt := {}
  /-- The Bexica fabric (chapter 13). -/
  fab     : FabSt := {}
  /-- Collectives (chapter 14). -/
  coll    : CollSt := {}
  /-- The understudy pair (chapter 15). -/
  pair    : PairSt := {}
  /-- Training jobs (chapter 12). -/
  train   : TrainSt := {}
  /-- The management controller. -/
  boot    : BootSt := {}
  /-- What the module has put on its ports, oldest first. -/
  out     : List Out := []
  deriving DecidableEq, Repr

/-- Why the machine stops with a fault. -/
inductive Fault where
  /-- Raised by INPUT_VOLTAGE_STOP above 60 V: the module may be damaged (R452) and the manual says no more. Safe. -/
  | damaged
  deriving DecidableEq, Repr

/-- Why a command has no meaning. -/
inductive Refusal where
  /-- Raised by a command whose arm has no meaning yet. Safe. -/
  | notModelled (mnemonic : String)
  deriving DecidableEq, Repr

/-- The module right after module reset: every register at its reset value, nothing listed in any table. -/
def State.reset : State := {}

end Sys2Proof.Machine
end

