-- ==== Sys2Proof/Machine/Ops.lean ====
section
/-! DEFINITION. The named operations that every family uses: registers and their fields, counters, event arrivals
(R506), audit entries (R500 to R503), memory with its poison marks, the address map (R215), granules (R219) and
translation (R222 to R225). -/

namespace Sys2Proof.Machine

/-- The outcome of a command. -/
abbrev Result := Host.Outcome State Fault Refusal

/-- Put field [lo + n - 1 : lo] of `w` to `v`. -/
def putField (w lo n v : Nat) : Nat := w - field w lo n * 2 ^ lo + v % 2 ^ n * 2 ^ lo

namespace State

/-! ### Registers -/

/-- The register at an offset of register space. -/
def reg (s : State) (off : Nat) : Word32 := Tab.get (regReset off) s.regs off

/-- Give the register at an offset a value. Entries equal to the reset value are not listed. -/
def setReg (s : State) (off : Nat) (v : Word32) : State := { s with regs := Tab.set (regReset off) s.regs off v }

def regN (s : State) (off : Nat) : Nat := (s.reg off).toNat
def setRegN (s : State) (off v : Nat) : State := s.setReg off (BitVec.ofNat 32 v)

/-- Field [lo + n - 1 : lo] of a register. -/
def regField (s : State) (off lo n : Nat) : Nat := field (s.regN off) lo n

/-- Give a field of a register a value. -/
def setField (s : State) (off lo n v : Nat) : State := s.setRegN off (putField (s.regN off) lo n v)

/-- Add to a counter register, saturating at 2^32 - 1. -/
def bump (s : State) (off k : Nat) : State := s.setRegN off (capAt (2 ^ 32 - 1) (s.regN off + k))

/-- Bit `i` of a register. -/
def regBit (s : State) (off i : Nat) : Bool := tbit (s.regN off) i

/-- A 64-bit value held in a low and a high register. -/
def reg64 (s : State) (lo hi : Nat) : Nat := s.regN lo + 2 ^ 32 * s.regN hi
def setReg64 (s : State) (lo hi v : Nat) : State := (s.setRegN lo (v % 2 ^ 32)).setRegN hi (v / 2 ^ 32)

/-- PWR_STATUS.LEVEL: the reef level in force (R457). -/
def reefLevel (s : State) : Nat := s.regField Reg.PWR_STATUS 29 3

/-! ### Free values -/

/-- A fresh open value; the counter advances. -/
def fresh (s : State) : BitVec 64 × State := (Config.freeValue s.free, { s with free := s.free + 1 })

/-- Does something for the outside wait for mirrored changes before it (R428): what a host sees, what firmware tells other
members, cue entries, COLL frames. -/
def outward : Out → Bool
  | .hostWrite .. => true
  | .hostSend .. => true
  | .hostAck .. => true
  | .hostReply .. => true
  | .toManager .. => true
  | .toMember .. => true
  | .busyTo .. => true
  | .manifest .. => true
  | .cueTo .. => true
  | .maskTo .. => true
  | .digest .. => true
  | .ready .. => true
  | .frame _ _ _ _ bytes => fieldAt bytes 1 1 == 10
  | _ => false

/-- R428: the last STATE record that the partner has not acknowledged, while the pair is whole: PAIRED, RESYNCING or
SPLITTING. -/
def commitOpen (s : State) : Option Nat :=
  let st := s.regField Reg.PAI_STATUS 28 4
  if st = 1 || st = 5 || st = 6 then
    let k := (s.regField Reg.FAB_SELF 0 13 * 8192 + s.regField Reg.PAI_STATUS 0 13) * 8 + 6
    ((Tab.get {} s.fab.flows k).unacked.filter fun x => x.frame.type == 11 && fieldAt x.frame.area 0 1 == 4).getLast?.map fun x => x.frame.psn
  else none

/-- R274: does a host port carry frames. -/
def portUp (s : State) (h : Nat) : Bool := s.regBit (Reg.HST_PST h) 31

/-- Things go out, in order; what is for a host port that is not up waits for it (R246). -/
def sendOut (s : State) (l : List Out) : State :=
  let stuck := fun o : Out => o.hostPort.any fun h => !s.portUp h
  { s with out := s.out ++ l.filter (fun o => !stuck o), host := { s.host with stalled := s.host.stalled ++ l.filter stuck } }

/-- Record something put on a port or pin. What depends on mirrored state waits for the partner's acknowledgement of the
changes before it (R428), and is held back in SEVERED (R435). -/
def emit (s : State) (o : Out) : State :=
  if !outward o then s.sendOut [o]
  else if s.regField Reg.PAI_STATUS 28 4 = 2 then { s with pair := { s.pair with held := s.pair.held ++ [o] } }
  else match s.commitOpen with
    | some p => { s with pair := { s.pair with gates := s.pair.gates ++ [(p, o)] } }
    | none => s.sendOut [o]

/-! ### Events (R506) -/

/-- R506: an arrival of a source: pending, one more counted (saturating at 255), the data word replaced. A reserved
source never fires (R505). -/
def raise (s : State) (src data : Nat) : State :=
  if 820 < src then s
  else
    let old := s.regN (Reg.EVC_STAT src)
    let cnt := capAt 255 (field old 16 8 + 1)
    let s1 := s.setRegN (Reg.EVC_STAT src) (2 ^ 31 + cnt * 2 ^ 16 + data % 2 ^ 16)
    if tbit old 31 then s1 else s1.setRegN Reg.EVC_STATUS (s1.regN Reg.EVC_STATUS + 1)

/-! ### The address map (R215) -/

def hbmEnd : Nat := 0x0C000000000
def sramBase : Nat := 0x10000000000
def sramEnd : Nat := 0x10040000000
def stageBase : Nat := 0x20000000000
def stageEnd : Nat := 0x20040000000
def stageWindow : Nat := 0x800000
def stageLen : Nat := 0x600000
def loftBase : Nat := 0x80000000000
def loftEnd : Nat := 0xA0000000000

def isHbm (a : Nat) : Bool := decide (a < hbmEnd)
def isSram (a : Nat) : Bool := decide (sramBase ≤ a ∧ a < sramEnd)
def isStage (a : Nat) : Bool := decide (stageBase ≤ a ∧ a < stageEnd ∧ (a - stageBase) % stageWindow < stageLen)
def isLoft (a : Nat) : Bool := decide (loftBase ≤ a ∧ a < loftEnd)

/-- R215: the start of the stage memory of core `n`. -/
def stageOf (n : Nat) : Nat := stageBase + n * stageWindow

/-! ### Memory and poison (R166, R228) -/

def read8 (s : State) (a : Nat) : Byte := s.mem.read a
def readN (s : State) (a n : Nat) : List Byte := s.mem.readN a n
def readLe (s : State) (a n : Nat) : Nat := leNat (s.readN a n)

/-- Is the 64-byte word of an address marked. -/
def poisoned (s : State) (a : Nat) : Bool := s.poison.elem (a / 64)

/-- Is any 64-byte word of a range marked. -/
def poisonedIn (s : State) (a n : Nat) : Bool :=
  decide (0 < n) && s.poison.any (fun w => decide (a / 64 ≤ w ∧ w ≤ (a + n - 1) / 64))

/-- Mark the 64-byte words that a range touches. -/
def markPoison (s : State) (a n : Nat) : State :=
  if n = 0 then s
  else { s with poison := (List.range ((a + n - 1) / 64 - a / 64 + 1)).foldl (fun p i => insertNat (a / 64 + i) p) s.poison }

/-- A write that covers a whole 64-byte word clears its mark (R166, R228). -/
def clearPoison (s : State) (a n : Nat) : State :=
  { s with poison := s.poison.filter fun w => !decide (a ≤ 64 * w ∧ 64 * w + 64 ≤ a + n) }

/-- Store bytes at a local address. -/
def writeBytes (s : State) (a : Nat) (bs : List Byte) : State :=
  { s.clearPoison a bs.length with mem := s.mem.writeN a bs }

/-! ### Granules (R219) -/

/-- The index of the granule of a local address: HBM, then shared SRAM, then loft. -/
def granuleOf (a : Nat) : Option Nat :=
  if isHbm a then some (a / 2 ^ 21)
  else if isSram a then some (393216 + (a - sramBase) / 2 ^ 21)
  else if isLoft a then some (393216 + 512 + (a - loftBase) / 2 ^ 21)
  else none

/-- The local address at which a granule begins. -/
def granuleAddr (i : Nat) : Nat :=
  if i < 393216 then i * 2 ^ 21
  else if i < 393728 then sramBase + (i - 393216) * 2 ^ 21
  else loftBase + (i - 393728) * 2 ^ 21

/-- The ownership entry of a granule. -/
def gran (s : State) (i : Nat) : Word64 := Tab.get 0#64 s.grans i
def setGran (s : State) (i : Nat) (w : Word64) : State := { s with grans := Tab.set 0#64 s.grans i w }

def gOwner (w : Word64) : Nat := field w.toNat 56 8
def gState (w : Word64) : Nat := field w.toNat 54 2
def gFv (w : Word64) : Bool := tbit w.toNat 53
def gRo (w : Word64) : Bool := tbit w.toNat 52
def gMir (w : Word64) : Bool := tbit w.toNat 51
def gKv (w : Word64) : Bool := tbit w.toNat 50
def gShared (w : Word64) : Bool := tbit w.toNat 49
def gModel (w : Word64) : Nat := field w.toNat 43 6
def gMgran (w : Word64) : Nat := field w.toNat 0 19

/-- R219: an ownership entry from its fields. -/
def mkGran (owner state : Nat) (fv ro mir kv : Bool) (mgran : Nat) : Word64 :=
  BitVec.ofNat 64 (owner % 256 * 2 ^ 56 + state % 4 * 2 ^ 54 + bit fv * 2 ^ 53 + bit ro * 2 ^ 52 + bit mir * 2 ^ 51 +
    bit kv * 2 ^ 50 + mgran % 2 ^ 19)

/-! ### Translation (R222 to R225) -/

/-- Where a virtual address lies. -/
inductive Place where
  | here (a : Nat)
  | remote (g : Nat)
  | host (region off : Nat)
  deriving DecidableEq, Repr

/-- This module's number. -/
def self (s : State) : Nat := s.regField Reg.FAB_SELF 0 13

/-- The partner's module number (R448), and whether this module serves its role (R436). -/
def partner (s : State) : Nat := s.regField Reg.PAI_STATUS 0 13
def servesPartner (s : State) : Bool := s.regBit Reg.PAI_STATUS 27

/-- The role whose tenant `t` is: the tenants of a role that this module serves for its partner are numbered from 256 (log entry 88). -/
def roleOf (s : State) (t : Nat) : Nat := if t < 256 then s.self else s.partner

/-- R436: where the memory at a local address of the served role's module lies here: its mirror, with the entry of the role's
ownership table; none for a page without `MIR`. -/
def servedAt (s : State) (a : Nat) : Option (Nat × Word64) :=
  match granuleOf a with
  | none => none
  | some i =>
    let w := Tab.get 0#64 s.pair.grans i
    if gMir w then some (gMgran w * 2 ^ 21 + a % 2 ^ 21, w) else none

/-- R223: may a local address be a frame. -/
def frameTier (a : Nat) : Bool := isHbm a || isSram a || isLoft a

/-- Fields of a table entry (R222). -/
def teFrame (e : Nat) : Nat := field e 12 45 * 2 ^ 12

/-- R223: is a valid entry at a level (page size `2^sh`) consistent. Every clause but those on leaf frames is about pointers
too. -/
def teOk (e sh : Nat) : Bool :=
  let leaf := tbit e 1
  let host := tbit e 7
  let loc := field e 12 32 * 2 ^ 12
  !(tbit e 57 || field e 8 4 != 0 || (!host && field e 58 6 != 0)) &&
  (if sh == 39 then !leaf else if sh == 12 then leaf else true) &&
  (if leaf then teFrame e % 2 ^ sh == 0 else field e 44 13 == 0) &&
  (if host then !(tbit e 3 || tbit e 4 || tbit e 5 || tbit e 6) && (leaf || frameTier loc)
   else frameTier loc &&
    !(tbit e 4 && !(tbit e 2 && isLoft loc)) &&
    !((tbit e 3 || tbit e 5) && !isHbm loc) &&
    !(tbit e 5 && tbit e 6))

/-- The root table of a tenant (R273), zero where it has none. -/
def root (s : State) (t : Nat) : Nat := s.regN (Reg.TNT_ROOTL t) + 2 ^ 32 * s.regField (Reg.TNT_ROOTH t) 0 12

/-- R224: the leaf entry of a virtual address and its page size, none where the walk faults. `shs` are the shifts of
the levels still to walk. -/
def walk (s : State) (va : Nat) : List Nat → Nat → Option (Nat × Nat)
  | [], _ => none
  | sh :: rest, tbl =>
    let a := tbl + 8 * field va sh 9
    let e := s.readLe a 8
    if s.poisoned a || !tbit e 0 || !teOk e sh then none
    else if tbit e 1 then some (e, sh)
    else walk s va rest (teFrame e)

/-- R225: length of a tenant's host region, none where it is not set. -/
def hostLen (s : State) (t i : Nat) : Option Nat :=
  if s.regBit (Reg.TNT_HRCFG t i) 31 then some (s.reg64 (Reg.TNT_HRLENL t i) (Reg.TNT_HRLENH t i)) else none

/-- R222 to R225: where byte `va` of tenant `t` lies, none for a translation fault. Pages of a role that this module serves for its
partner lie in their mirrors; the others are not accessible (R436, R388). -/
def translate (s : State) (t va : Nat) (write : Bool) : Option Place :=
  if s.root t = 0 then none
  else match s.walk va [39, 30, 21, 12] (s.root t) with
    | none => none
    | some (e, sh) =>
      if write && tbit e 2 then none
      else
        let a := teFrame e + va % 2 ^ sh
        if tbit e 7 then
          match s.hostLen t (field e 58 6) with
          | none => none
          | some n => if a < n then some (.host (field e 58 6) a) else none
        else if field a 44 13 = s.self then some (.here (a % 2 ^ 44))
        else if s.servesPartner && field a 44 13 == s.partner then
          (match s.servedAt (a % 2 ^ 44) with
           | none => none
           | some (b, w) => if gState w = 1 && gOwner w = t % 256 && gFv w && !(write && gRo w) then some (.here b) else none)
        else some (.remote a)

/-! ### Cores -/

def core (s : State) (n : Nat) : CoreSt := Tab.get {} s.cores n
def setCore (s : State) (n : Nat) (c : CoreSt) : State := { s with cores := Tab.set {} s.cores n c }
def part (s : State) (n p : Nat) : Part := Tab.get {} (s.core n).parts p
def setPart (s : State) (n p : Nat) (x : Part) : State :=
  s.setCore n { s.core n with parts := Tab.set {} (s.core n).parts p x }
def ctx (s : State) (n p : Nat) : Option Ctx := (s.part n p).ctx
def setCtx (s : State) (n p : Nat) (c : Ctx) : State := s.setPart n p { s.part n p with ctx := some c }

/-- R162: the partitions of a shape code. -/
def nParts (code : Nat) : Nat := 2 ^ code
/-- P of a core. -/
def coreP (s : State) (n : Nat) : Nat := nParts (s.core n).shape
/-- Width of a partition in columns (R83). -/
def coreW (s : State) (n : Nat) : Nat := 64 / s.coreP n
/-- Elements of a vector register (R129). -/
def regLen (s : State) (n : Nat) : Nat := 16384 / s.coreP n

/-- R47: the family mask of a tenant. -/
def fmtMask (s : State) (t : Nat) : Nat := s.regField (Reg.TNT_POLICY t) 0 3

end State

namespace Ctx

/-- R173: G0 reads as zero. -/
def reg (c : Ctx) (i : Nat) : Word64 := if i = 0 then 0#64 else Tab.get 0#64 c.g i
/-- R173: a write of G0 is ignored. -/
def setReg (c : Ctx) (i : Nat) (v : Word64) : Ctx := if i = 0 then c else { c with g := Tab.set 0#64 c.g i v }
def stream (c : Ctx) (i : Nat) : Strm := Tab.get {} c.strm i
def setStream (c : Ctx) (i : Nat) (x : Strm) : Ctx := { c with strm := Tab.set {} c.strm i x }
def count (c : Ctx) (i : Nat) : BitVec 16 := Tab.get 0#16 c.sc i
def setCount (c : Ctx) (i : Nat) (v : BitVec 16) : Ctx := { c with sc := Tab.set 0#16 c.sc i v }
def summary (c : Ctx) (i : Nat) : Summary := Tab.get {} c.ss i
def setSummary (c : Ctx) (i : Nat) (x : Summary) : Ctx := { c with ss := Tab.set {} c.ss i x }
def vreg (c : Ctx) (i : Nat) : VReg := Tab.get {} c.v i
def setVreg (c : Ctx) (i : Nat) (x : VReg) : Ctx := { c with v := Tab.set {} c.v i x }
def genReg (c : Ctx) (i : Nat) : GenReg := Tab.get {} c.gen i
def setGen (c : Ctx) (i : Nat) (x : GenReg) : Ctx := { c with gen := Tab.set {} c.gen i x }
/-- The share of a stream on an engine. -/
def queue (c : Ctx) (stream eng : Nat) : List QEnt := Tab.get [] c.queues (4 * stream + eng)
def setQueue (c : Ctx) (stream eng : Nat) (q : List QEnt) : Ctx :=
  { c with queues := Tab.set [] c.queues (4 * stream + eng) q }

/-- R169: a signal adds 1 modulo 2^16. -/
def signal (c : Ctx) (i : Nat) : Ctx := c.setCount i (c.count i + 1#16)

/-- R168: is a wait on counter `i` for value `v` satisfied. -/
def waitOk (c : Ctx) (i : Nat) (v : BitVec 16) : Bool := decide ((c.count i - v).toNat < 2 ^ 15)

/-- Is every engine queue empty. -/
def queuesEmpty (c : Ctx) : Bool := c.queues.all fun q => q.2.isEmpty

/-- R151: OR status bits into SS7.FLAGS; SEQ does not change. -/
def orSS7 (c : Ctx) (fl : Nat) : Ctx :=
  let x := c.summary 7
  c.setSummary 7 { x with flags := x.flags ||| BitVec.ofNat 32 fl }

end Ctx

end Sys2Proof.Machine
end

