-- ==== Sys2Proof/Machine/FabOps.lean ====
section
/-! DEFINITION. Operations of the fabric that other families use (chapter 13): frames and addresses (R370, R377), peers
and paths, flows at the sender (R382, R384), acknowledgements (R391), operations toward other modules (R385, R386, R390),
mirroring (R431, R432). -/

namespace Sys2Proof.Machine

/-- Frame types (R378). -/
def frWrite : Nat := 1
def frRead : Nat := 2
def frReadResp : Nat := 3
def frAtomic : Nat := 4
def frAtomicResp : Nat := 5
def frReject : Nat := 6
def frAck : Nat := 7
def frChunkReq : Nat := 8
def frChunk : Nat := 9
def frColl : Nat := 10
def frMirror : Nat := 11
def frCtrl : Nat := 12

/-- R377: the bytes of a frame: header and payload. -/
def Frame.bytes (tag : Nat) (f : Frame) : List Byte :=
  leBytes 1 1 ++ leBytes 1 f.type ++ leBytes 1 f.flags ++ leBytes 1 f.cls ++ leBytes 4 tag ++ leBytes 2 f.src ++ leBytes 2 f.dst ++
  leBytes 1 f.tenant ++ leBytes 1 f.plane ++ leBytes 2 f.payload.length ++ leBytes 4 f.psn ++ leBytes 2 f.fepoch ++ zeros 2 ++
  sliceBytes f.area 0 24 ++ f.payload

/-- R377: a frame from its bytes. -/
def Frame.parse (b : List Byte) : Frame :=
  let f := fieldAt b
  { type := f 1 1, flags := f 2 1, cls := f 3 1, src := f 8 2, dst := f 10 2, tenant := f 12 1, plane := f 13 1, psn := f 16 4
    fepoch := f 20 2, area := sliceBytes b 24 24, payload := b.drop 48 }

/-- The psn after `p` (R382). -/
def nextPsn (p : Nat) : Nat := if p = 2 ^ 32 - 1 then 1 else p + 1

/-- How many numbers `b` lies after `a` in a flow's numbering, which has no 0. -/
def psnGap (a b : Nat) : Nat := (b + (2 ^ 32 - 1) - a) % (2 ^ 32 - 1)

/-- Does psn `a` come before `b` in a flow's numbering. -/
def psnBefore (a b : Nat) : Bool := let d := psnGap a b; decide (0 < d ∧ d < 2 ^ 31)

/-- The key of a flow: source role, destination, class. -/
def flowKey (src dst cls : Nat) : Nat := (src * 8192 + dst) * 8 + cls

/-- R270, R383: the operations of a tenant in a flow end. Numbers cannot be taken back: a frame that was not sent yet goes as a WRITE
without data, and a WRITE that was sent is repeated without its data (log entry 108). -/
def OutFlow.endTenant (x : OutFlow) (t : Nat) : OutFlow :=
  { x with unacked := x.unacked.map fun f =>
      if f.frame.tenant == t && t != 0 && (f.plane.isNone || f.frame.type == frWrite) then
        { f with frame := { f.frame with type := frWrite, flags := 2, area := zeros 24, payload := [] } }
      else f }

namespace State

/-- Is this module the stage manager, or acting as it (R293, CUR_MGR). -/
def isManager (s : State) : Bool := s.regBit Reg.CUR_MGR 31 || s.regBit Reg.CUR_MGR 30

def setFab (s : State) (x : FabSt) : State := { s with fab := x }
def setPair (s : State) (x : PairSt) : State := { s with pair := x }

/-- R376: the frame payload limit. -/
def payLimit (s : State) : Nat := 1024 * 2 ^ s.regField Reg.FAB_CFG 8 2

/-- FAB_ACKTO and FAB_LOSSTO in ns (R403). -/
def ackTo (s : State) : Nat := 100 * s.regField Reg.FAB_ACKTO 0 8
def lossTo (s : State) : Nat := 1000 * s.regField Reg.FAB_LOSSTO 0 16

/-! ### Peers (R397) -/

def member (s : State) (m : Nat) : Bool := decide (m < 8192) && s.regBit (Reg.FAB_MEMB (m / 32)) (m % 32)
def peerState (s : State) (m : Nat) : Nat := s.regField (Reg.FAB_PEER m) 29 3
def serving (s : State) (m : Nat) : Nat := s.regField (Reg.FAB_PEER m) 16 13
def understudyOf (s : State) (m : Nat) : Nat := s.regField (Reg.FAB_PEER m) 0 13
def setPeerState (s : State) (m st : Nat) : State := s.setField (Reg.FAB_PEER m) 29 3 st
def peer (s : State) (m : Nat) : PeerSt := Tab.get {} s.fab.peers m
def setPeer (s : State) (m : Nat) (x : PeerSt) : State := s.setFab { s.fab with peers := Tab.set {} s.fab.peers m x }

/-- R398: do operations to a module fail at once. -/
def peerFails (s : State) (m : Nat) : Bool := decide (8192 ≤ m) || s.peerState m == 0 || s.peerState m == 4

/-- R427: the pair enters a state; source 810 fires (R505). -/
def pairTo (s : State) (st : Nat) : State :=
  ((s.setField Reg.PAI_STATUS 28 4 st).setPair { s.pair with since := s.clk, probeAt := none }).raise 810 st

/-! ### Ports and paths -/

/-- R400: the link state of a port; 4 is UP. -/
def linkState (s : State) (p : Nat) : Nat := s.regField (Reg.FAB_PST p) 0 4
def isPairPort (s : State) (p : Nat) : Bool := s.regBit (Reg.FAB_PST p) 8

/-- The pair ports that are UP. -/
def pairPorts (s : State) : List Nat := (List.range 32).filter fun p => s.isPairPort p && s.linkState p == 4

/-- R393: the planes with an up path to the module that serves `m`. -/
def upPlanes (s : State) (m : Nat) : List Nat := (List.range 32).filter fun p => s.regBit (Reg.FAB_PATHS (s.serving m)) p

/-- R381: the ports that carry a class to a module. -/
def portsFor (s : State) (cls m : Nat) : List Nat :=
  if cls = 6 then s.pairPorts else if cls = 7 && m == s.partner then s.upPlanes m ++ s.pairPorts else s.upPlanes m

/-- R384: the next port after `last`, in increasing number, then from the first. -/
def nextPort (l : List Nat) (last : Nat) : Option Nat := match l.find? fun p => decide (last < p) with | some p => some p | none => l.head?

def path (s : State) (m p : Nat) : PathSt := Tab.get {} s.fab.paths (32 * m + p)
def setPath (s : State) (m p : Nat) (x : PathSt) : State := s.setFab { s.fab with paths := Tab.set {} s.fab.paths (32 * m + p) x }
def pathBit (s : State) (m p : Nat) (up : Bool) : State := s.setField (Reg.FAB_PATHS m) p 1 (bit up)

/-- R370: the fabric address of port `p` of module `m`. -/
def fabAddr (s : State) (m p : Nat) : Nat := s.reg64 Reg.FAB_PFX0 Reg.FAB_PFX1 * 2 ^ 64 + 32 * m + p

/-- Bytes of a section of the configuration in force (R486). -/
def confBytes (s : State) (sec off n : Nat) : List Byte := Memory.readN (Tab.get [] s.boot.conf sec) off n

/-- R370, R487: the next hop of a frame for an address: the one that the image gives for the port, most significant byte first (log entry
111), else the address itself; and the key of its resolution. -/
def nextHop (s : State) (p a : Nat) : Nat :=
  let h := leNat (s.confBytes 4 (1024 * s.self + 128 + 16 * p) 16).reverse
  if h = 0 then a else h
def hopKey (p hop : Nat) : Nat := p * 2 ^ 128 + hop

/-- R371: the DSCP of a class. -/
def dscp (s : State) (cls : Nat) : Nat :=
  if cls < 4 then s.regField Reg.FAB_DSCP0 (8 * cls) 6 else s.regField Reg.FAB_DSCP1 (8 * (cls - 4)) 6

/-- Solicit the next hop of an address on a port, unless it is resolved. -/
def resolve (s : State) (p a : Nat) : State :=
  if (Tab.find? s.fab.hops (hopKey p (s.nextHop p a))).isSome then s else s.emit (.solicit p (s.nextHop p a))

/-- Send a frame from port `p` to the module that serves its destination. -/
def sendOn (s : State) (p : Nat) (f : Frame) : State :=
  let a := s.fabAddr (s.serving f.dst) p
  ((s.resolve p a).bump (Reg.FAB_PTX p) 1).emit (.frame p a (49152 + 2048 * f.cls + f.dst % 2048) (s.dscp f.cls)
    (Frame.bytes (s.regN Reg.FAB_DOMAIN) { f with plane := p }))

/-! ### Flows at the sender -/

def flow (s : State) (k : Nat) : OutFlow := Tab.get {} s.fab.flows k
def setFlow (s : State) (k : Nat) (x : OutFlow) : State := s.setFab { s.fab with flows := Tab.set {} s.fab.flows k x }

/-- The destination and class of a flow's key. -/
def flowDst (k : Nat) : Nat := k / 8 % 8192
def flowCls (k : Nat) : Nat := k % 8

/-- R397, R399: may frames of a flow be sent. -/
def flowOpen (s : State) (k : Nat) : Bool :=
  !(s.flow k).syncing && (s.peerState (flowDst k) == 1 || s.peerState (flowDst k) == 3)

/-- Send those frames of a flow that were never sent, within the window of 16,384, in psn order (R382). -/
def pumpList (k : Nat) (ports : List Nat) (fep : Nat) : Nat → List SentFrame → List SentFrame → Nat → State → List SentFrame × Nat × State
  | _, [], done, last, s => (done, last, s)
  | 0, rest, done, last, s => (done ++ rest, last, s)
  | n + 1, x :: xs, done, last, s =>
    match x.plane, nextPort ports last with
    | none, some p =>
      pumpList k ports fep n xs (done ++ [{ x with plane := some p, at_ := s.clk }]) p (s.sendOn p { x.frame with fepoch := fep })
    | _, _ => pumpList k ports fep n xs (done ++ [x]) last s

def pump (s : State) (k : Nat) : State :=
  if !s.flowOpen k then s
  else
    let fl := s.flow k
    let r := pumpList k (s.portsFor (flowCls k) (flowDst k)) fl.fepoch 16384 fl.unacked [] fl.last s
    r.2.2.setFlow k { fl with unacked := r.1, last := r.2.1 }

/-- R394: the link rate of a destination's up paths, Gbit/s, and the rate on first traffic. -/
def linkRate (s : State) (m : Nat) : Nat := 800 * (s.upPlanes m).length

def startRate (s : State) (m : Nat) : State :=
  if (Tab.find? s.fab.rates m).isSome then s
  else
    let r := f32 (.fin false (s.linkRate m * s.regField Reg.FAB_RATE 16 8) (-6))
    s.setFab { s.fab with rates := Tab.setSome s.fab.rates m { rate := r, alpha := 0#32, cutAt := none, incAt := s.clk } }

/-- Send an unsequenced frame on the next port of its class and destination. -/
def sendPlain (s : State) (f : Frame) : State :=
  let k := flowKey f.src f.dst f.cls
  match nextPort (s.portsFor f.cls f.dst) (s.flow k).last with
  | none => s
  | some p => (s.setFlow k { s.flow k with last := p }).sendOn p f

/-- R379: a CTRL frame's type area. -/
def ctrlArea (sub a b c : Nat) : List Byte := leBytes 1 sub ++ zeros 3 ++ leBytes 4 a ++ leBytes 8 b ++ leBytes 8 c

/-- The recovery epoch of a role that this module knows (R426). -/
def roleEpoch (s : State) (role : Nat) : Nat :=
  if role = s.self then s.regField Reg.PAI_REPOCH 0 16 else s.regField Reg.PAI_REPOCH 16 16

/-- R399: a RESYNC of a flow: class, lowest unacknowledged psn, new epoch. -/
def sendResync (s : State) (src dst cls psn epoch : Nat) : State :=
  s.sendPlain { type := frCtrl, cls := 7, src := src, dst := dst, area := ctrlArea 6 cls psn epoch }

/-- Number a sequenced frame and send it as soon as it may go. Answers its psn. A flow of a role that this module took
over opens with a RESYNC at psn 1 and a new epoch (R399; the role's recovery epoch, log entry 19). -/
def issue (s : State) (f : Frame) : Nat × State :=
  let k := flowKey f.src f.dst f.cls
  let opens := f.src != s.self && (Tab.find? s.fab.flows k).isNone
  let s := if opens then s.sendResync f.src f.dst f.cls 1 (s.roleEpoch f.src) else s
  let fl := if opens then { fepoch := s.roleEpoch f.src, syncing := true } else s.flow k
  let x : SentFrame := { frame := { f with psn := fl.next }, issued := s.clk, at_ := s.clk }
  let s1 := s.setFlow k { fl with next := nextPsn fl.next, unacked := fl.unacked ++ [x] }
  (fl.next, (if f.cls ≤ 5 then s1.startRate f.dst else s1).pump k)

/-- A CTRL frame to a module, on a port of choice or the next one. -/
def sendCtrl (s : State) (dst sub a b c : Nat) (port : Option Nat) : State :=
  let f : Frame := { type := frCtrl, cls := 7, src := s.self, dst := dst, area := ctrlArea sub a b c }
  match port with
  | some p => s.sendOn p f
  | none => s.sendPlain f

/-! ### Acknowledgements (R391) -/

def inFlow (s : State) (k : Nat) : InFlow := Tab.get {} s.fab.inn k
def setIn (s : State) (k : Nat) (x : InFlow) : State := s.setFab { s.fab with inn := Tab.set {} s.fab.inn k x }

/-- The runs of consecutive psn of held frames, at most 8, the lowest first. -/
def heldRanges : List Nat → List (Nat × Nat) → List (Nat × Nat)
  | [], acc => acc
  | p :: ps, acc =>
    match acc.getLast? with
    | some r => if nextPsn r.2 = p then heldRanges ps (acc.dropLast ++ [(r.1, p)]) else heldRanges ps (acc ++ [(p, p)])
    | none => heldRanges ps [(p, p)]

/-- Send the ACK of a flow on the plane of its last frame; its counts start again. -/
def sendAck (s : State) (k : Nat) : State :=
  let x := s.inFlow k
  let ps := x.held.map Prod.fst
  let rs := (heldRanges (ps.filter (decide <| x.expect ≤ ·) ++ ps.filter (decide <| · < x.expect)) []).take 8
  let f : Frame :=
    { type := frAck, cls := 7, src := flowDst k, dst := k / 65536
      area := leBytes 4 x.expect ++ leBytes 1 (flowCls k) ++ leBytes 1 rs.length ++ zeros 2 ++ leBytes 4 x.ce ++ leBytes 4 x.rx
      payload := rs.flatMap fun r => leBytes 4 r.1 ++ leBytes 4 r.2 }
  (s.setIn k { x with since := 0, firstAt := none, ce := 0, rx := 0 }).sendOn x.plane f

/-! ### Operations of this module -/

/-- Cut `n` bytes at address `a` into pieces of at most `lim` bytes that do not cross a 4 KiB page: offset and length. -/
def cutPages (lim : Nat) : Nat → Nat → Nat → Nat → List (Nat × Nat)
  | 0, _, _, _ => []
  | fuel + 1, a, off, n =>
    if n = 0 then []
    else
      let k := min (min lim n) (4096 - a % 4096)
      (off, k) :: cutPages lim fuel (a + k) (off + k) (n - k)

/-- What names an operation toward `dst` that goes out for role `src`: the destination, with 8192 added for the partner's role. -/
def opDst (s : State) (src dst : Nat) : Nat := dst + (if src = s.self then 0 else 8192)

/-- R385: the WRITE frames of bytes for a global address. Answers their psn. -/
def sendWrite (s : State) (cls tenant g : Nat) (bs : List Byte) : List Nat × State :=
  let dst := g / 2 ^ 44
  let a := g % 2 ^ 44
  let op := s.fab.opid
  let cuts := cutPages s.payLimit (bs.length + 1) a 0 bs.length
  cuts.foldl (fun (r : List Nat × State) c =>
    let last := c.1 + c.2 = bs.length
    let x := r.2.issue { type := frWrite, flags := 2 * bit (decide last), cls := cls, src := s.roleOf tenant, dst := dst, tenant := tenant % 256
                         area := leBytes 8 a ++ leBytes 4 op ++ leBytes 4 c.1, payload := sliceBytes bs c.1 c.2 }
    (r.1 ++ [x.1], x.2)) ([], s.setFab { s.fab with opid := (op + 1) % 2 ^ 32 })

/-- R386: a READ of a range of a global address for a load move. Answers its rtag. -/
def sendRead (s : State) (cls tenant g len core part stage va : Nat) : Nat × State :=
  let dst := g / 2 ^ 44
  let a := g % 2 ^ 44
  let tag := s.fab.rtag
  let x := s.issue { type := frRead, flags := 2, cls := cls, src := s.roleOf tenant, dst := dst, tenant := tenant % 256
                     area := leBytes 8 a ++ leBytes 4 len ++ leBytes 4 tag }
  let r : ReadRun := { cls := cls, dst := dst, tenant := tenant, addr := a, len := len, base := a, at_ := s.clk, psn := x.1
                       core := core, part := part, stage := stage, va := va }
  (tag, x.2.setFab { x.2.fab with reads := Tab.setSome x.2.fab.reads tag r, rtag := (tag + 1) % 2 ^ 32 })

/-- R386, R235, R381: class-5 READs of the copy of a KV block, 1 MiB at most each. -/
def sendKvRead (s : State) (g len : Nat) (blk : Nat × Nat × Nat) : State :=
  (List.range (ceilDiv len (2 ^ 20))).foldl (fun s i =>
    let n := min (2 ^ 20) (len - i * 2 ^ 20)
    let x := s.sendRead 5 0 (g + i * 2 ^ 20) n 0 0 (i * 2 ^ 20) 0
    x.2.setFab { x.2.fab with reads := x.2.fab.reads.map fun r => if r.1 = x.1 then (r.1, { r.2 with sink := some blk }) else r }) s

/-- The role that a model, a job or a curtain is kept for by its number here: those of the role that this module serves for its
partner are numbered from 2^32 (log entry 88). -/
def roleAt (s : State) (k : Nat) : Nat := if k < 2 ^ 32 then s.self else s.partner

/-- The number here of what a tenant, or a role, names `k`. -/
def keyOf (t k : Nat) : Nat := if t < 256 then k else k + 2 ^ 32
def keyAt (s : State) (role k : Nat) : Nat := if role = s.self then k else k + 2 ^ 32

/-- R390: a CHUNK_REQ. -/
def sendChunkReq (s : State) (dst curtain piece chunk : Nat) : State :=
  (s.issue { type := frChunkReq, flags := 2, cls := 4, src := s.roleAt curtain, dst := dst
             area := leBytes 4 curtain ++ leBytes 4 piece ++ leBytes 4 chunk }).2

/-! ### Mirroring (R431, R432) -/

/-- R432: the type area of a MIRROR frame. -/
def mirrorArea (mk role repoch skind addr aux : Nat) : List Byte :=
  leBytes 1 mk ++ zeros 1 ++ leBytes 2 role ++ leBytes 2 repoch ++ leBytes 2 skind ++ leBytes 8 addr ++ leBytes 8 aux

/-- A sequenced MIRROR frame to the partner. Answers its psn. -/
def sendMirror (s : State) (mk role skind addr aux : Nat) (bs : List Byte) (poison : Bool) : Nat × State :=
  s.issue { type := frMirror, flags := 4 * bit poison, cls := 6, src := s.self, dst := s.partner
            area := mirrorArea mk role (s.roleEpoch role) skind addr aux, payload := bs }

/-- PAI_STATUS.STATE (R448). -/
def pairState (s : State) : Nat := s.regField Reg.PAI_STATUS 28 4

/-- R431: in FORMING, SOLO, ALONE and FENCED no partner holds mirrors; conditions that wait for it are met at once. -/
def mirrored (s : State) : Bool := s.pairState == 1 || s.pairState == 2 || s.pairState == 5 || s.pairState == 6

/-- The ownership entry of a local address. -/
def granAt (s : State) (a : Nat) : Word64 := match granuleOf a with | some i => s.gran i | none => 0#64

/-- Kinds of STATE records (R428, R432). Those of the images that R432 names, and the model's own numbers for the rest (DESIGN
CHOICE, log entry 104). -/
def recGran : Nat := 1
def recLeaf : Nat := 2
def recKv : Nat := 3
def recCommit : Nat := 4
def recAcked : Nat := 5
def recSeq : Nat := 6
def recTenant : Nat := 7
def recRequest : Nat := 8
def recCurtain : Nat := 9
def recTrain : Nat := 10
def recAudit : Nat := 11
def recPool : Nat := 12
def recModel : Nat := 13
def recCue : Nat := 14
def recAtom : Nat := 15
def recFw : Nat := 16
def recRetired : Nat := 17

/-- R428, R432, R444: a change of a role's mirrored state goes to the partner as a STATE record, in frames within the payload limit.
Nowhere while no partner mirrors (R431). -/
def roleRec (s : State) (role kind : Nat) (bs : List Byte) : State :=
  if !s.mirrored then s
  else (List.range (max 1 (ceilDiv bs.length s.payLimit))).foldl (fun s i =>
    (s.sendMirror 4 role kind 0 0 (sliceBytes bs (i * s.payLimit) (min s.payLimit (bs.length - i * s.payLimit))) false).2) s

/-- A record of this module's own role. -/
def mirrorRec (s : State) (kind : Nat) (bs : List Byte) : State := s.roleRec s.self kind bs

/-- R428: a record of what belongs to a tenant: binding (1), ring (2), host region (3), fault log (4), consumer count (5), state (6),
buckets (7). -/
def tenantRec (s : State) (t q what : Nat) (bs : List Byte) : State :=
  s.roleRec (s.roleOf t) recTenant (leBytes 2 (t % 256) ++ leBytes 1 q ++ leBytes 1 what ++ bs)

/-- R430: granule `j` of the partner mirrors granule `i`; both ownership entries go there as records. -/
def pairGran (s : State) (i j : Nat) : State :=
  let w := BitVec.ofNat 64 (putField (s.gran i).toNat 0 19 j)
  ((s.setGran i w).mirrorRec recGran (leBytes 8 w.toNat)).mirrorRec recGran (leBytes 8 (mkGran 0 2 false false true false i).toNat)

/-- R430: granule `i` gets its mirror on the partner, which names it (an open value, log entry 105). None where the partner has no free granule. -/
def mirrorGran (s : State) (i : Nat) : Option State :=
  if !s.mirrored then some s
  else
    let x := s.fresh
    let j := x.1.toNat % 2 ^ 19
    if 393216 ≤ j then none
    else some (x.2.pairGran i j)

/-- R430: mirrors for several granules, all or none. -/
def mirrorGrans : List Nat → State → Option State
  | [], s => some s
  | i :: is, s => (s.mirrorGran i).bind (mirrorGrans is)

/-- R428: what waited for STATE records that are acknowledged by now goes out, in order. -/
def openGates (s : State) : State :=
  let open_ := s.commitOpen
  let fl := s.flow (flowKey s.self s.partner 6)
  let waits := fun (p : Nat) => open_.isSome && fl.unacked.any fun x => x.frame.psn == p
  let go := s.pair.gates.takeWhile fun g => !waits g.1
  (s.setPair { s.pair with gates := s.pair.gates.drop go.length }).sendOut (go.map Prod.snd)

/-- Add to PAI_MIRBYTES. -/
def addMirBytes (s : State) (n : Nat) : State :=
  s.setReg64 Reg.PAI_MIRBYTESL Reg.PAI_MIRBYTESH (s.reg64 Reg.PAI_MIRBYTESL Reg.PAI_MIRBYTESH + n)

/-- R431: send what was written to a MIR page to the mirror as DATA. Answers the psn of the frames, none where nothing is
mirrored. -/
def mirrorWrite (s : State) (a : Nat) (bs : List Byte) : List Nat × State :=
  if !s.mirrored || !gMir (s.granAt a) || bs.isEmpty then ([], s)
  else
    let mir := gMgran (s.granAt a) * 2 ^ 21 + a % 2 ^ 21
    let r := (cutPages s.payLimit (bs.length + 1) a 0 bs.length).foldl (fun (r : List Nat × State) c =>
      let x := r.2.sendMirror 3 s.self 0 (mir + c.1) 0 (sliceBytes bs c.1 c.2) false
      (r.1 ++ [x.1], x.2)) ([], s)
    (r.1, r.2.addMirBytes bs.length)

/-- Has the partner acknowledged a class-6 frame. Met at once where no partner mirrors (R431). -/
def mirAcked (s : State) (psn : Nat) : Bool :=
  !s.mirrored || !(s.flow (flowKey s.self s.partner 6)).unacked.any fun x => x.frame.psn == psn

/-! ### What moves wait for -/

/-- Change every resident context. -/
def mapCtx (s : State) (f : Ctx → Ctx) : State :=
  { s with cores := s.cores.map fun c => (c.1, { c.2 with parts := c.2.parts.map fun p => (p.1, { p.2 with ctx := p.2.ctx.map f }) }) }

/-- Awaits that meet `p` are met. -/
def dropAwait (s : State) (p : Await → Bool) : State :=
  s.mapCtx fun c => if c.moves.isEmpty then c else { c with moves := c.moves.map fun m => { m with awaits := m.awaits.filter fun a => !p a } }

/-- The contexts with an await that meets `p`: core, partition, the move, the virtual address. -/
def awaiting (s : State) (p : Await → Bool) : List (Nat × Nat × Move × Nat) :=
  s.cores.flatMap fun c => c.2.parts.flatMap fun x => match x.2.ctx with
    | none => []
    | some k => k.moves.filterMap fun m => (m.awaits.find? p).map fun a => (c.1, x.1, m, match a with
        | .frame _ _ _ va => va
        | .read _ va => va
        | .atom _ _ _ va => va
        | .host _ va => va
        | .mirror _ => 0)

end State

end Sys2Proof.Machine
end

