-- ==== Sys2Proof/Machine/Operands.lean ====
section
/-! DEFINITION. The operand forms of core instructions: the fields of the 128-bit word (R175 to R181), the checks that
the control processor makes at issue (R182), the formats that a word names (R48). -/

namespace Sys2Proof.Machine

namespace Iw

/-! ### Common fields (R175) -/

def f (w : IWord) (lo n : Nat) : Nat := field w.toNat lo n
def b (w : IWord) (i : Nat) : Bool := tbit w.toNat i

def opcode (w : IWord) : Nat := f w 0 8
def engine (w : IWord) : Nat := f w 8 4
def stream (w : IWord) : Nat := f w 12 2
def waitEn (w : IWord) : Bool := b w 14
def sigEn (w : IWord) : Bool := b w 15
def waitCtr (w : IWord) : Nat := f w 16 6
def sigCtr (w : IWord) : Nat := f w 22 6
def sumSlot (w : IWord) : Nat := f w 28 3
def sumEn (w : IWord) : Bool := b w 31
def wval (w : IWord) : BitVec 16 := BitVec.ofNat 16 (f w 32 16)
def operands (w : IWord) : Nat := f w 48 80

/-! ### Vector fields (R179) -/

def n (w : IWord) : Nat := f w 48 14 + 1
def a (w : IWord) : Nat := f w 62 8
def bb (w : IWord) : Nat := f w 70 8
def c (w : IWord) : Nat := f w 78 8
def d (w : IWord) : Nat := f w 86 4
def p (w : IWord) : Nat := f w 90 6
def q (w : IWord) : Nat := f w 96 6
def u (w : IWord) : Nat := f w 102 6
def gen (w : IWord) : Nat := f w 108 2
def dslot (w : IWord) : Nat := f w 110 8
def x (w : IWord) : Nat := f w 118 10
/-- VX.CVT: source format, destination format, rounding mode. -/
def srcFmt (w : IWord) : Nat := f w 118 4
def dstFmt (w : IWord) : Nat := f w 122 4
def rmode (w : IWord) : Nat := f w 126 2
/-- INT bit of R145. -/
def int (w : IWord) : Bool := b w 127
/-- Exact flag of VX.RSUM and VX.RDOT. -/
def exact (w : IWord) : Bool := b w 118

/-! ### Control fields (R181) -/

def cd (w : IWord) : Nat := f w 48 6
def ca (w : IWord) : Nat := f w 54 6
def cb (w : IWord) : Nat := f w 60 6
def cf (w : IWord) : Nat := f w 66 4
/-- The signed 48-bit immediate as 64 bits. -/
def imm (w : IWord) : Word64 := BitVec.ofInt 64 (signedOf 48 (f w 80 48))
def immU (w : IWord) (lo k : Nat) : Nat := f w (80 + lo) k

/-! ### Matrix fields (R178) -/

/-- MX.LDS. -/
def ldsAddr (w : IWord) : Nat := f w 48 19 * 16
def ldsStride (w : IWord) : Nat := f w 67 16 * 16
def ldsRows (w : IWord) : Nat := f w 83 6 + 1
def ldsCols (w : IWord) : Nat := f w 89 6 + 1
def ldsFmt (w : IWord) : Nat := f w 95 4
def ldsSigned (w : IWord) : Bool := b w 99
def ldsTrans (w : IWord) : Bool := b w 100
def ldsScale (w : IWord) : Nat := f w 101 19 * 16
def ldsGroup (w : IWord) : Nat := f w 120 2
/-- R521: the group size that a load fixes. -/
def ldsG (w : IWord) : Nat := if ldsGroup w == 0 then fmtG (ldsFmt w) else ldsGroup w

/-- MX.MAC. -/
def macAddr (w : IWord) : Nat := f w 48 19 * 16
def macStride (w : IWord) : Nat := f w 67 16 * 16
def macM (w : IWord) : Nat := f w 83 11 + 1
def macFmt (w : IWord) : Nat := f w 94 4
def macSigned (w : IWord) : Bool := b w 98
def macE0 (w : IWord) : Nat := f w 99 11
def macAccum (w : IWord) : Bool := b w 110
def macExact (w : IWord) : Bool := b w 111
def macAnchor (w : IWord) : Int := signedOf 10 (f w 112 10)
def macDepth (w : IWord) : Nat := f w 122 4

/-- MX.DRAIN. -/
def drBase (w : IWord) : Nat := f w 48 11
def drCount (w : IWord) : Nat := f w 59 11 + 1
def drQueue (w : IWord) : Bool := b w 70
def drAddr (w : IWord) : Nat := f w 71 19 * 16
def drFmt (w : IWord) : Nat := f w 90 4
def drClear (w : IWord) : Bool := b w 94
def drExact (w : IWord) : Bool := b w 95

/-- MX.GHOST. -/
def ghGap (w : IWord) : Nat := f w 48 20

/-! ### Load and store fields (R177) -/

def mvReg (w : IWord) : Nat := f w 48 6
def mvAddr (w : IWord) : Nat := f w 54 19 * 16
def mvDesc (w : IWord) : Nat := f w 73 19 * 16
def atReg (w : IWord) : Nat := f w 54 6
def atCmp (w : IWord) : Nat := f w 60 6
def atAddr (w : IWord) : Nat := f w 66 19 * 16
def atOp (w : IWord) : Nat := f w 85 4
def atWide (w : IWord) : Bool := b w 89

/-- Are bits [127:lo] zero. -/
def zeroFrom (w : IWord) (lo : Nat) : Bool := w.toNat / 2 ^ lo == 0

end Iw

/-- A source of a vector instruction (R179). -/
inductive Src where
  | reg (i : Nat)
  | region (g : Nat)
  | head
  | bad
  deriving DecidableEq, Repr

/-- R179: the source that a specifier names. -/
def srcOf (v : Nat) : Src :=
  if v / 64 == 0 then (if v / 16 % 4 == 0 then .reg (v % 16) else .bad)
  else if v / 64 == 1 then .region (v % 64)
  else if v == 128 then .head
  else .bad

def Src.isReg : Src → Bool
  | .reg _ => true
  | _ => false

def Src.ok : Src → Bool
  | .bad => false
  | _ => true

/-- An accumulator region (R134, R179). -/
structure Region where
  base  : Nat
  count : Nat
  c0    : Nat
  c1    : Nat
  exact : Bool
  deriving DecidableEq, Repr

/-- R179: the region that a general register describes, none where a reserved bit is set. -/
def regionOf (g : Word64) : Option Region :=
  if g.toNat / 2 ^ 35 != 0 then none
  else some { base := field g.toNat 0 11, count := field g.toNat 11 11 + 1, c0 := field g.toNat 22 6
              c1 := field g.toNat 28 6, exact := tbit g.toNat 34 }

/-- R134: is a region within the entries and columns of a partition of width `w`. -/
def Region.fits (r : Region) (w : Nat) : Bool :=
  decide (r.base + r.count ≤ (if r.exact then 1024 else 2048)) && decide (r.c0 ≤ r.c1 ∧ r.c1 < w)

/-- Columns of a region. -/
def Region.width (r : Region) : Nat := r.c1 - r.c0 + 1

/-! ### Checks at issue (R182) -/

/-- R175: the common fields: unused ones zero, the stream the issuing one, counters within 64 / P (R167). -/
def commonOk (p stream : Nat) (w : IWord) : Bool :=
  Iw.stream w == stream &&
  (if Iw.waitEn w then decide (Iw.waitCtr w < 64 / p) else Iw.waitCtr w == 0 && Iw.wval w == 0#16) &&
  (if Iw.sigEn w then decide (Iw.sigCtr w < 64 / p) else Iw.sigCtr w == 0) &&
  (if Iw.sumEn w then Iw.engine w == 2 && Iw.opcode w != 1 && Iw.opcode w != 2 else Iw.sumSlot w == 0)

/-- R177: LD.T, ST.T and ST.AT. -/
def moveOk (w : IWord) : Bool := Iw.zeroFrom w 92
def atomOk (w : IWord) : Bool :=
  decide (Iw.atOp w ≤ 6) && (Iw.atOp w == 2 || Iw.atCmp w == 0) && Iw.zeroFrom w 90

/-- R67, R72, R178, R521: MX.LDS for a partition of width `wd`. -/
def ldsOk (wd : Nat) (w : IWord) : Bool :=
  let fm := Iw.ldsFmt w
  fmtMul fm && decide (Iw.ldsCols w ≤ wd) && (fmtInt84 fm || !Iw.ldsSigned w) &&
  (!fmtMx fm || Iw.ldsTrans w) && (fmtMx fm || Iw.ldsScale w == 0) &&
  Iw.ldsGroup w != 3 && decide (Iw.ldsG w ≤ fmtG fm) && (!fmtIntKind fm || Iw.ldsGroup w != 1) && Iw.zeroFrom w 122

/-- R67, R75, R80: MX.MAC. -/
def macOk (w : IWord) : Bool :=
  let fm := Iw.macFmt w
  let lim := if Iw.macExact w then 1024 else 2048
  fmtMul fm && (fmtInt84 fm || !Iw.macSigned w) && decide (Iw.macM w ≤ lim ∧ Iw.macE0 w + Iw.macM w ≤ lim) &&
  (Iw.macExact w || Iw.f w 112 10 == 0) && decide (1 ≤ Iw.macDepth w ∧ Iw.macDepth w ≤ 8) &&
  (Iw.macDepth w == 1 || !fmtMx fm) && Iw.zeroFrom w 126

/-- R78: MX.DRAIN. -/
def drainOk (w : IWord) : Bool :=
  let fm := Iw.drFmt w
  (if Iw.drExact w then fm == 0 || fm == 0xC else fm == 0 || fm == 0xB) &&
  decide (Iw.drBase w + Iw.drCount w ≤ (if Iw.drExact w then 1024 else 2048)) &&
  (!Iw.drQueue w || (fm != 0xC && Iw.drBase w % 64 == 0 && Iw.drCount w % 64 == 0 && Iw.f w 71 19 == 0)) &&
  Iw.zeroFrom w 96

/-- Which operand fields a vector instruction uses (R180). -/
structure VxUse where
  a : Bool := false
  b : Bool := false
  c : Bool := false
  d : Bool := true
  p : Bool := false
  q : Bool := false
  u : Bool := false
  gen : Bool := false
  slot : Bool := false
  /-- Bits of X that carry meaning. -/
  x : Nat := 0
  deriving DecidableEq, Repr

/-- R180: the fields of each vector opcode. -/
def vxUse (w : IWord) : Option VxUse :=
  let op := Iw.opcode w
  if op == 0x01 then some { p := true, q := true, x := 0xF }
  else if op == 0x02 then some { a := true, d := false, p := true, q := true, x := 0xF }
  else if op == 0x10 || op == 0x11 || op == 0x12 || op == 0x14 || op == 0x15 || op == 0x18 then some { a := true, b := true }
  else if op == 0x13 || op == 0x1E then some { a := true, b := true, c := true }
  else if op == 0x16 || op == 0x17 || (decide (0x19 ≤ op) && decide (op ≤ 0x1C)) then some { a := true }
  else if op == 0x1D then some { a := true, b := true, x := 7 }
  else if op == 0x20 then
    let sr := Iw.rmode w == 2
    some { a := true, b := fmtMx (Iw.srcFmt w), c := fmtMx (Iw.dstFmt w), p := true
           q := Iw.dstFmt w == 0xC && Iw.srcFmt w == 0, u := true, gen := sr, slot := sr, x := 0x3FF }
  else if op == 0x30 then some { a := true, p := true, q := Iw.exact w, x := 0x201 }
  else if op == 0x31 || op == 0x32 || op == 0x33 then some { a := true, p := true, x := 0x200 }
  else if op == 0x34 then some { a := true, p := true, q := true, x := 0x207 }
  else if op == 0x35 then some { a := true, b := true, p := true, q := Iw.exact w, x := 0x201 }
  else if op == 0x36 then some { a := true, b := true }
  else if op == 0x40 then some { a := true, b := true, c := true, p := true, q := true, gen := true, x := 0xF }
  else if op == 0x50 || op == 0x51 then some { a := true, p := true, q := true }
  else if op == 0x52 then some { a := true, p := true, q := true, u := true, gen := true, slot := true }
  else if op == 0x60 then some { p := true, q := true, u := true, gen := true, slot := true, x := 0xF }
  else none

/-- Are the fields that an instruction does not use zero. -/
def vxZeroOk (t : VxUse) (w : IWord) : Bool :=
  (t.a || Iw.a w == 0) && (t.b || Iw.bb w == 0) && (t.c || Iw.c w == 0) && (t.d || Iw.d w == 0) && (t.p || Iw.p w == 0) &&
  (t.q || Iw.q w == 0) && (t.u || Iw.u w == 0) && (t.gen || Iw.gen w == 0) && (t.slot || Iw.dslot w == 0) &&
  (Iw.x w &&& t.x) == Iw.x w

/-- R51, R52, R64, R65: format codes and rounding of VX.CVT, as far as the word shows them. A region or queue-head source goes
only with the source formats that R134 and R137 give one: FP32, INT32 and ERF; any other is illegal at issue (log entry 99). -/
def cvtOk (w : IWord) : Bool :=
  let sf := Iw.srcFmt w
  let df := Iw.dstFmt w
  let region := (srcOf (Iw.a w)) matches .region _
  fmtValid sf && fmtValid df && Iw.rmode w != 3 && decide (Iw.u w < 8) &&
  (!tbit (Iw.u w) 1 || fmtInt84 sf) && (!tbit (Iw.u w) 2 || fmtInt84 df) &&
  (srcOf (Iw.bb w)).isReg && (srcOf (Iw.c w)).isReg &&
  (df != 0xC || ((sf == 0 || (sf == 0xC && region)) && Iw.rmode w == 1)) &&
  (sf != 0xC || ((df == 0 && Iw.rmode w == 0) || df == 0xC)) &&
  ((srcOf (Iw.a w)).isReg || sf == 0 || sf == 0xB || (sf == 0xC && region))

/-- The registers that a vector instruction's blocks fill must hold them (R129). -/
def vxSizeOk (regLen : Nat) (w : IWord) : Bool :=
  let op := Iw.opcode w
  decide (Iw.n w ≤ regLen) &&
  (op != 0x36 || decide (66 * Iw.n w ≤ regLen)) &&
  (op != 0x20 || (decide (Iw.dstFmt w ≠ 0xC ∨ 66 * ceilDiv (Iw.n w) 32 ≤ regLen)))

/-- R179, R180: sources of the right kind. -/
def vxSrcOk (w : IWord) : Bool :=
  let op := Iw.opcode w
  let sa := srcOf (Iw.a w)
  let sb := srcOf (Iw.bb w)
  let sc := srcOf (Iw.c w)
  if op == 0x02 then sa.isReg
  else if op == 0x40 then sa.isReg && sb.isReg && sc.isReg
  else if op == 0x36 then sa.ok && sb.ok && sa != .head && sb != .head
  else sa.ok && sb.ok && sc.ok

/-- R202: draw kinds and the scalars that a kind uses. -/
def rndOk (w : IWord) : Bool :=
  let k := Iw.f w 118 4
  decide (k ≤ 5) && (k == 2 || k == 3 || k == 4 || Iw.p w == 0) && (k == 2 || k == 4 || Iw.u w == 0)

/-- The checks of a vector instruction at issue. -/
def vxOk (regLen : Nat) (w : IWord) : Bool :=
  match vxUse w with
  | none => false
  | some t =>
    let op := Iw.opcode w
    vxZeroOk t w && vxSizeOk regLen w && vxSrcOk w &&
    (decide (op ≠ 0x01 ∧ op ≠ 0x02) || fmtValid (Iw.srcFmt w)) &&
    (op != 0x1D || Iw.f w 118 3 != 7) && (op != 0x34 || Iw.f w 118 3 != 7) &&
    (op != 0x20 || cvtOk w) && (op != 0x60 || rndOk w)

/-- R181: which control opcodes use d, a, b, F, IMM. -/
def cpUse (op : Nat) : Option (Bool × Bool × Bool × Bool × Bool) :=
  if op == 0x01 || op == 0x02 then some (true, false, false, false, true)
  else if decide (0x03 ≤ op ∧ op ≤ 0x0B) then some (true, true, true, false, true)
  else if op == 0x0C then some (true, true, true, true, true)
  else if op == 0x10 then some (true, true, false, false, true)
  else if op == 0x11 then some (false, true, true, false, true)
  else if op == 0x20 then some (false, true, true, true, true)
  else if op == 0x21 then some (true, true, false, true, true)
  else if op == 0x30 || op == 0x31 then some (true, false, false, false, true)
  else if op == 0x32 then some (false, true, false, false, true)
  else if op == 0x33 then some (false, true, true, false, true)
  else if op == 0x40 then some (false, false, false, true, true)
  else if op == 0x41 || op == 0x42 || op == 0x45 then some (false, false, false, false, false)
  else if op == 0x43 then some (false, true, false, false, false)
  else if op == 0x44 then some (false, false, false, false, true)
  else none

/-- R181: the checks of a control instruction at issue. `IMM` is one field: an instruction that uses some of its bits
uses the field, and its other bits are not read (DEDUCED, log entry 35). -/
def cpOk (p : Nat) (w : IWord) : Bool :=
  let op := Iw.opcode w
  match cpUse op with
  | none => false
  | some (ud, ua, ub, uf, ui) =>
    (ud || Iw.cd w == 0) && (ua || Iw.ca w == 0) && (ub || Iw.cb w == 0) && (uf || Iw.cf w == 0) &&
    (ui || Iw.f w 80 48 == 0) && Iw.f w 70 10 == 0 &&
    (op != 0x0C || decide (Iw.cf w ≤ 5)) && (op != 0x20 || decide (Iw.cf w ≤ 5)) &&
    (op != 0x21 || (decide (Iw.cf w ≤ 1) && (Iw.cf w == 1 || Iw.ca w == 0))) &&
    (op != 0x30 || Iw.immU w 6 1 == 0 || Iw.immU w 0 3 == 6) &&
    (decide (op ≠ 0x31 ∧ op ≠ 0x32) || decide (Iw.immU w 0 6 < 64 / p)) &&
    (op != 0x40 || decide (Iw.cf w ≤ 2))

/-- R182: every check that the control processor makes at issue. -/
def issueOk (p stream : Nat) (w : IWord) : Bool :=
  commonOk p stream w &&
  (if Iw.engine w == 0 then Iw.opcode w == 1 && moveOk w
   else if Iw.engine w == 1 then
     if Iw.opcode w == 1 then ldsOk (64 / p) w
     else if Iw.opcode w == 2 then Iw.zeroFrom w 48
     else if Iw.opcode w == 3 then macOk w
     else if Iw.opcode w == 4 then drainOk w
     else Iw.opcode w == 5 && Iw.zeroFrom w 68
   else if Iw.engine w == 2 then vxOk (16384 / p) w
   else if Iw.engine w == 3 then (Iw.opcode w == 1 && moveOk w) || (Iw.opcode w == 2 && atomOk w)
   else Iw.engine w == 4 && cpOk p w)

/-- R48: the formats that an engine instruction names. -/
def namedFmts (w : IWord) : List Nat :=
  if Iw.engine w == 1 then
    if Iw.opcode w == 1 then [Iw.ldsFmt w] else if Iw.opcode w == 3 then [Iw.macFmt w]
    else if Iw.opcode w == 4 then [Iw.drFmt w] else []
  else if Iw.engine w == 2 then
    if Iw.opcode w == 1 || Iw.opcode w == 2 then [Iw.srcFmt w]
    else if Iw.opcode w == 0x20 then [Iw.srcFmt w, Iw.dstFmt w] else []
  else []

/-- R48: does the tenant's mask allow every format that the word names. -/
def fmtsAllowed (mask : Nat) (w : IWord) : Bool := (namedFmts w).all (fmtAllowed mask)

end Sys2Proof.Machine
end

