-- ==== Sys2Proof/Machine/Flags.lean ====
section
/-! DEFINITION. Conditions and predicates (R141, R181) and the scalar summary of a vector instruction with its flags
(R149, R150). -/

namespace Sys2Proof.Machine

/-- R181: the conditions of CP.CMP and CP.BR. -/
def condHolds (f : Nat) (a b : Word64) : Bool :=
  if f == 0 then a == b
  else if f == 1 then a != b
  else if f == 2 then decide (a.toInt < b.toInt)
  else if f == 3 then decide (b.toInt ≤ a.toInt)
  else if f == 4 then decide (a.toNat < b.toNat)
  else decide (b.toNat ≤ a.toNat)

/-- R141: the predicates on FP32 values. The manual does not say of which operand of VX.CMP the non-finite predicate is: it is
taken of the first (DESIGN CHOICE, log entry 96). -/
def predF (p : Nat) (a b : Word32) : Bool :=
  if p == 0 then flt a b
  else if p == 1 then fle a b
  else if p == 2 then feq a b
  else if p == 3 then !feq a b
  else if p == 4 then fle b a
  else if p == 5 then flt b a
  else isNonfin32 a

/-- R145: the predicates on INT32 values. The non-finite predicate never holds. -/
def predI (p : Nat) (a b : Word32) : Bool :=
  if p == 0 then decide (a.toInt < b.toInt)
  else if p == 1 then decide (a.toInt ≤ b.toInt)
  else if p == 2 then a == b
  else if p == 3 then a != b
  else if p == 4 then decide (b.toInt ≤ a.toInt)
  else if p == 5 then decide (b.toInt < a.toInt)
  else false

/-- R144: the pairwise tree over 2^h positions of a list; positions beyond its end are absent. -/
def tree (op : Word32 → Word32 → Word32) : Nat → List Word32 → Option Word32
  | 0, xs => xs.head?
  | h + 1, xs =>
    match tree op h (xs.take (2 ^ h)), tree op h (xs.drop (2 ^ h)) with
    | none, _ => none
    | some a, none => some a
    | some a, some b => some (op a b)

/-- R144: the canonical tree of width 64 over one segment, groups in increasing index. -/
def canonTree (op : Word32 → Word32 → Word32) (xs : List Word32) : Word32 :=
  match (chunksOf 64 (xs.length / 64 + 1) xs).filterMap (tree op 6) with
  | [] => 0#32
  | g :: gs => gs.foldl op g

/-- R144: is `b` (of higher index) kept over `a` by VX.RARG on FP32 values. A NaN counts as larger than every number;
the first of equals is kept. -/
def argBeats (a b : Word32) : Bool :=
  if isNan32 a then false else if isNan32 b then true else decide (ordKey a < ordKey b)

/-- R144: index of the largest element, from index `i` on, against the best so far. -/
def argFrom (beats : Word32 → Word32 → Bool) : List Word32 → Nat → Nat × Word32 → Nat
  | [], _, best => best.1
  | x :: xs, i, best => argFrom beats xs (i + 1) (if beats best.2 x then (i, x) else best)

/-- R144: VX.RARG over one segment. -/
def argMax (beats : Word32 → Word32 → Bool) : List Word32 → Nat
  | [] => 0
  | x :: xs => argFrom beats xs 1 (0, x)

/-- Signed comparison for the INT operand type. -/
def argBeatsI (a b : Word32) : Bool := decide (a.toInt < b.toInt)
def imax (a b : Word32) : Word32 := if a.toInt < b.toInt then b else a
def imin (a b : Word32) : Word32 := if b.toInt < a.toInt then b else a

/-- An exact sum held to INT32 once (R145, R150), and whether the clamp changed it. -/
def isum (xs : List Word32) : Word32 × Bool :=
  let t := (xs.map BitVec.toInt).foldl (· + ·) 0
  let h := clampInt (-(2 ^ 31 : Nat)) ((2 ^ 31 : Nat) - 1) t
  (BitVec.ofInt 32 h, decide (h ≠ t))

/-- Bits of FLAGS (R149). -/
def flSat : Nat := 1
def flNan : Nat := 2
def flInf : Nat := 4
def flExcl : Nat := 8
def flMalf : Nat := 16

/-- A count as a summary word, saturating. -/
def sat32 (n : Nat) : Word32 := BitVec.ofNat 32 (capAt (2 ^ 32 - 1) n)

/-- R149, R150: the summary of FP32 values, with the general NONFIN and flags. `satc` is the count of saturations. -/
def summF (vs : List Word32) (satc : Nat) (extra : Nat) : Summary :=
  let nonf := vs.countP isNonfin32
  { max := canonTree fmax vs, min := canonTree fmin vs, sum := canonTree fadd vs
    arg := BitVec.ofNat 32 (argMax argBeats vs), nonfin := sat32 nonf, satcnt := sat32 satc
    flags := BitVec.ofNat 32
      (extra ||| (bit (satc != 0) * flSat + bit (vs.any isNan32) * flNan + bit (vs.any isInf32) * flInf)) }

/-- R150: the summary of INT32 values. -/
def summI (vs : List Word32) (satc : Nat) (extra : Nat) : Summary :=
  { max := canonTree imax vs, min := canonTree imin vs, sum := (isum vs).1
    arg := BitVec.ofNat 32 (argMax argBeatsI vs), nonfin := 0#32, satcnt := sat32 satc
    flags := BitVec.ofNat 32 (extra ||| bit (satc != 0) * flSat) }

/-- R150: the same values with the counts and flags that VX.CVT and VX.EADD give themselves. -/
def summWith (s : Summary) (nonf satc flags : Nat) : Summary :=
  { s with nonfin := sat32 nonf, satcnt := sat32 satc, flags := BitVec.ofNat 32 flags }

end Sys2Proof.Machine
end

