-- ==== Sys2Proof/Machine/Digest.lean ====
section
/-! DEFINITION. The digests that the manual names: the CRC-64 with the ECMA-182 polynomial (R234, R289) and SHA3-256
(FIPS 202; R240, R290, R478 and others). -/

namespace Sys2Proof

/-- One bit of CRC-64, polynomial 0x42F0_E1EB_A9EA_3693, most significant bit first. -/
def crc64Bit (c : BitVec 64) : BitVec 64 :=
  if c.msb then (c <<< 1) ^^^ 0x42F0E1EBA9EA3693#64 else c <<< 1

/-- One byte of CRC-64. -/
def crc64Byte (c : BitVec 64) (b : Byte) : BitVec 64 :=
  let x := c ^^^ (b.setWidth 64 <<< 56)
  crc64Bit (crc64Bit (crc64Bit (crc64Bit (crc64Bit (crc64Bit (crc64Bit (crc64Bit x)))))))

/-- CRC-64, ECMA-182, initial value 0, no reflection, no final exclusive-or (R289). -/
def crc64 (bs : List Byte) : BitVec 64 := bs.foldl crc64Byte 0#64

/-- The 25 lanes of Keccak, lane (x, y) at index x + 5y. -/
abbrev Lanes := List (BitVec 64)

def lane (a : Lanes) (x y : Nat) : BitVec 64 := a.getD (x % 5 + 5 * (y % 5)) 0#64

def keccakRot : List Nat :=
  [0, 1, 62, 28, 27, 36, 44, 6, 55, 20, 3, 10, 43, 25, 39, 41, 45, 15, 21, 8, 18, 2, 61, 56, 14]

def keccakRC : List (BitVec 64) :=
  [0x0000000000000001#64, 0x0000000000008082#64, 0x800000000000808A#64, 0x8000000080008000#64,
   0x000000000000808B#64, 0x0000000080000001#64, 0x8000000080008081#64, 0x8000000000008009#64,
   0x000000000000008A#64, 0x0000000000000088#64, 0x0000000080008009#64, 0x000000008000000A#64,
   0x000000008000808B#64, 0x800000000000008B#64, 0x8000000000008089#64, 0x8000000000008003#64,
   0x8000000000008002#64, 0x8000000000000080#64, 0x000000000000800A#64, 0x800000008000000A#64,
   0x8000000080008081#64, 0x8000000000008080#64, 0x0000000080000001#64, 0x8000000080008008#64]

def keccakRound (rc : BitVec 64) (a : Lanes) : Lanes :=
  let c := (List.range 5).map fun x => lane a x 0 ^^^ lane a x 1 ^^^ lane a x 2 ^^^ lane a x 3 ^^^ lane a x 4
  let d := (List.range 5).map fun x => c.getD ((x + 4) % 5) 0#64 ^^^ (c.getD ((x + 1) % 5) 0#64).rotateLeft 1
  let t := (List.range 25).map fun i => (a.getD i 0#64 ^^^ d.getD (i % 5) 0#64).rotateLeft (keccakRot.getD i 0)
  -- rho and pi: lane (x, y) takes the rotated lane (x + 3y, x)
  let b := (List.range 25).map fun i => lane t (i % 5 + 3 * (i / 5)) (i % 5)
  (List.range 25).map fun i =>
    let v := lane b (i % 5) (i / 5) ^^^ ((~~~ lane b (i % 5 + 1) (i / 5)) &&& lane b (i % 5 + 2) (i / 5))
    if i == 0 then v ^^^ rc else v

def keccakF (a : Lanes) : Lanes := keccakRC.foldl (fun s rc => keccakRound rc s) a

/-- One 136-byte block absorbed. -/
def sha3Absorb (a : Lanes) (blk : List Byte) : Lanes :=
  keccakF ((List.range 25).map fun i =>
    if i < 17 then a.getD i 0#64 ^^^ BitVec.ofNat 64 (fieldAt blk (8 * i) 8) else a.getD i 0#64)

/-- The message with the padding of FIPS 202 for SHA3. -/
def sha3Pad (bs : List Byte) : List Byte :=
  let k := 136 - bs.length % 136
  if k == 1 then bs ++ [0x86#8] else bs ++ [0x06#8] ++ zeros (k - 2) ++ [0x80#8]

/-- SHA3-256 of a byte string. -/
def sha3 (bs : List Byte) : List Byte :=
  let p := sha3Pad bs
  let a := (chunksOf 136 (p.length / 136 + 1) p).foldl sha3Absorb (List.replicate 25 0#64)
  (a.take 4).flatMap fun w => leBytes 8 w.toNat

end Sys2Proof
end

