-- ==== Sys2Proof/Machine/MemOps.lean ====
section
/-! DEFINITION. The audit log (R500 to R503); granules: allocation, freeing, counts (R219 to R221, R244); translation tables
as the scheduler writes them (R222 to R227). -/

namespace Sys2Proof.Machine

/-- The cells of a memory outside a range. -/
def Memory.clear (m : Memory) (a n : Nat) : Memory := m.filter fun c => !decide (a ≤ c.1 ∧ c.1 < a + n)

/-- The `n` bytes at `b` become those at `a`. -/
def Memory.copy (m : Memory) (a b n : Nat) : Memory :=
  (m.filter fun c => decide (a ≤ c.1 ∧ c.1 < a + n)).foldl (fun m c => Memory.write m (c.1 - a + b) c.2) (Memory.clear m b n)

namespace State

/-! ### Audit log (R500 to R503) -/

/-- Slots that hold no unexported entry (R503). The ring holds 262,144 entries. -/
def logFree (s : State) : Nat :=
  262144 - (s.reg64 Reg.MGT_LOGHEADL Reg.MGT_LOGHEADH - s.reg64 Reg.MGT_LOGEXPL Reg.MGT_LOGEXPH)

/-- R504: MGT_LOGSTAT shows the free slots and FULL; source 814 fires when FULL becomes 1 (R505). -/
def logShow (s : State) : State :=
  let was := s.regBit Reg.MGT_LOGSTAT 31
  let full := decide (s.logFree ≤ 1024)
  let s1 := s.setRegN Reg.MGT_LOGSTAT (bit full * 2 ^ 31 + s.logFree)
  if full && !was then s1.raise 814 0 else s1

/-- R500: the bytes of an entry. -/
def auditBytes (e : AuditEntry) : List Byte :=
  leBytes 8 e.seq ++ leBytes 8 e.time ++ leBytes 2 e.action ++ leBytes 1 e.okind ++ leBytes 1 e.status ++
  leBytes 2 e.role ++ zeros 2 ++ sliceBytes e.origin 0 16 ++ leBytes 8 e.object ++ sliceBytes e.old 0 32 ++
  sliceBytes e.new 0 32 ++ sliceBytes e.prev 0 32 ++ sliceBytes e.detail 0 96 ++ zeros 16

/-- The unit identity (R482) as MGT_UNIT0 to MGT_UNIT3 show it. -/
def unitId (s : State) : List Byte := (List.range 4).flatMap fun i => leBytes 4 (s.regN (Reg.MGT_UNIT i))

/-- R501: the chain hash that the next entry carries in `prev`. -/
def auditPrev (s : State) : List Byte :=
  match s.boot.audit with
  | [] => sha3 s.unitId
  | e :: _ => sha3 (auditBytes e)

/-- What an entry says, beside its place in the chain. -/
structure AuditArg where
  action : Nat
  okind  : Nat
  status : Nat := 0
  origin : List Byte := []
  object : Nat := 0
  old    : List Byte := []
  new    : List Byte := []
  detail : List Byte := []
  deriving DecidableEq, Repr

/-- R500, R501: append an entry to the ring; it is mirrored (R428). -/
def auditPut (s : State) (a : AuditArg) : State :=
  let seq := s.reg64 Reg.MGT_LOGHEADL Reg.MGT_LOGHEADH + 1
  let e : AuditEntry :=
    { seq := seq, time := if s.time.ever then s.now else 0, action := a.action, okind := a.okind, status := a.status
      role := s.regField Reg.FAB_SELF 0 13, origin := a.origin, object := a.object, old := a.old, new := a.new
      prev := s.auditPrev, detail := a.detail }
  (({ s with boot := { s.boot with audit := e :: s.boot.audit } }.setReg64 Reg.MGT_LOGHEADL Reg.MGT_LOGHEADH seq).logShow).mirrorRec
    recAudit (auditBytes e)

/-- R503: write first the entry that counts the dropped ones, where there are any and a slot is free. -/
def auditDrops (s : State) : State :=
  let n := s.regN Reg.MGT_LOGDROP
  if n == 0 || s.logFree == 0 then s
  else (s.setRegN Reg.MGT_LOGDROP 0).auditPut { action := 0x91, okind := 2, origin := [1#8], object := n }

/-- R503: an internal agent's entry. Where no slot is free it is dropped and counted. -/
def auditInternal (s : State) (a : AuditArg) : State :=
  let s1 := s.auditDrops
  if s1.logFree == 0 then s1.bump Reg.MGT_LOGDROP 1 else s1.auditPut a

/-- R503: would an entry asked for by a principal or a tenant reach the reserve. -/
def logRefuses (s : State) : Bool := decide (s.logFree ≤ 1024)

/-- The internal agents of R500. -/
def agentMgmt : List Byte := [1#8]
def agentSched : List Byte := [2#8]
def agentIst : List Byte := [3#8]
def agentLoader : List Byte := [4#8]

/-! ### Granules -/

/-- Add to and take from a register that counts what is held. -/
def regAdd (s : State) (off k : Nat) : State := s.setRegN off (s.regN off + k)
def regSub (s : State) (off k : Nat) : State := s.setRegN off (s.regN off - k)

/-- The register that counts HBM granules of a state (R244). -/
def granReg (st : Nat) : Option Nat :=
  if st = 0 then some Reg.MEM_FREE else if st = 2 then some Reg.MEM_RESV else none

/-- Write an ownership entry, which is mirrored (R428), and keep the counts of MEM_FREE, MEM_RESV and TNT_GRANUSE of HBM granules. -/
def putGran (s : State) (i : Nat) (w : Word64) : State :=
  let old := s.gran i
  let s1 := (s.setGran i w).mirrorRec recGran (leBytes 8 w.toNat)
  if 393216 ≤ i then s1
  else
    let s2 := match granReg (gState old) with | some r => s1.regSub r 1 | none => s1
    let s3 := match granReg (gState w) with | some r => s2.regAdd r 1 | none => s2
    let s4 := if gState old = 1 && gOwner old != 0 then s3.regSub (Reg.TNT_GRANUSE (gOwner old)) 1 else s3
    if gState w = 1 && gOwner w != 0 then s4.regAdd (Reg.TNT_GRANUSE (gOwner w)) 1 else s4

/-- The local range that a leaf entry maps, none where its frame lies elsewhere. -/
def leafRange (s : State) (e sh : Nat) : Option (Nat × Nat) :=
  if tbit e 7 || field (teFrame e) 44 13 != s.self then none else some (teFrame e % 2 ^ 44, 2 ^ sh)

def overlaps (a n b m : Nat) : Bool := decide (a < b + m ∧ b < a + n)

/-- The granules of a local range that begins in one. -/
def granulesIn (a n : Nat) : List Nat := match granuleOf a with
  | none => []
  | some i => (List.range (ceilDiv n (2 ^ 21))).map (i + ·)

/-- R227: does a change of translation still hold back a granule. -/
def heldBack (s : State) (i : Nat) : Bool :=
  s.loft.changes.any fun (_, _, e, sh) =>
    match s.leafRange e sh with
    | none => false
    | some (a, n) => overlaps a n (granuleAddr i) (2 ^ 21)

/-- R221, R514: may a granule be allocated: free, zeroed, not held back, under no test. -/
def granFree (s : State) (i : Nat) : Bool :=
  gState (s.gran i) == 0 && !(s.loft.dirty.any fun d => d.1 == i) && !s.heldBack i && !(s.ist.grans.any fun g => g.2 == i)

/-- The lowest allocatable granule from `i` upward that meets `p`. -/
def findGran (s : State) (p : Nat → Bool) : Nat → Nat → Option Nat
  | 0, _ => none
  | fuel + 1, i => if p i && s.granFree i then some i else findGran s p fuel (i + 1)

/-- The base die of an HBM granule (R216). -/
def granDie (i : Nat) : Nat := i / 98304

/-- R219, R244: the granules that hold the ownership table: its 1,442,304 entries of 8 bytes. -/
def ownerGrans : Nat := ceilDiv (1442304 * 8) (2 ^ 21)

/-- Allocate the lowest free HBM granule that meets `p` (DESIGN CHOICE, log entry 13). Granule 0 is left out: it holds the
ownership table (R244), and address 0 names no table. -/
def allocGran (s : State) (w : Word64) (p : Nat → Bool) : Option (Nat × State) :=
  (s.findGran p 393215 1).map fun i => (i, s.putGran i w)

/-- Allocate a granule of shared SRAM. -/
def allocSram (s : State) (w : Word64) : Option (Nat × State) :=
  (s.findGran (fun _ => true) 512 393216).map fun i => (i, s.putGran i w)

/-- Allocate `n` granules. -/
def allocGrans (s : State) (w : Word64) (p : Nat → Bool) : Nat → Option (List Nat × State)
  | 0 => some ([], s)
  | n + 1 => match s.allocGran w p with
    | none => none
    | some (i, s1) => (allocGrans s1 w p n).map fun r => (i :: r.1, r.2)

/-- R221: a freed granule has owner 0 and is zeroed before reuse. `t` is the tenant whose reset frees it, or 0. -/
def freeGran (s : State) (t i : Nat) : State :=
  let s1 := s.putGran i 0#64
  let s2 := { s1 with loft := { s1.loft with dirty := s1.loft.dirty ++ [(i, t)] } }
  if t = 0 then s2 else s2.regAdd (Reg.TNT_SCRUB t) 1

/-- The tenants whose state this module keeps: its own role's and those of the role it serves for its partner. -/
def tenants (s : State) : List Nat := List.range 256 ++ (if s.servesPartner then (List.range 256).map (· + 256) else [])

/-! ### Granules of the served role (R430, R436) -/

/-- The granule of the served role whose mirror is granule `i` here. -/
def servedIndex (s : State) (i : Nat) : Option Nat := (List.find? (fun (g : Nat × Word64) => gMir g.2 && gMgran g.2 == i) s.pair.grans).map Prod.fst

/-- The ownership entry of granule `i` for the role of tenant `t`: its own table, or the served role's table over the mirrors. -/
def granOf (s : State) (t i : Nat) : Word64 :=
  if t < 256 then s.gran i else match s.servedIndex i with
    | none => 0#64
    | some k => Tab.get 0#64 s.pair.grans k

/-- Write an entry of the served role's table and keep TNT_GRANUSE of its tenants. -/
def putServed (s : State) (k : Nat) (w : Word64) : State :=
  let old := Tab.get 0#64 s.pair.grans k
  let s1 := (s.setPair { s.pair with grans := Tab.set 0#64 s.pair.grans k w }).roleRec s.partner recGran (leBytes 8 w.toNat)
  let s2 := if gState old = 1 && gOwner old != 0 then s1.regSub (Reg.TNT_GRANUSE (gOwner old + 256)) 1 else s1
  if gState w = 1 && gOwner w != 0 then s2.regAdd (Reg.TNT_GRANUSE (gOwner w + 256)) 1 else s2

/-- An entry of the served role for the mirror granule `i`. -/
def servedWord (w : Word64) (i : Nat) : Word64 :=
  BitVec.ofNat 64 (putField (putField w.toNat 51 1 1) 0 19 i)

/-- Write the ownership entry of granule `i` for the role of tenant `t`. -/
def putGranOf (s : State) (t i : Nat) (w : Word64) : State :=
  if t < 256 then s.putGran i w else match s.servedIndex i with
    | none => s
    | some k => s.putServed k (servedWord w i)

/-- The lowest granule of the served role that is free. -/
def servedFree (s : State) : Nat :=
  ((List.range (s.pair.grans.length + 2)).find? fun k => k != 0 && Tab.get 0#64 s.pair.grans k == 0#64).getD 0

/-- Allocate a granule for the role of tenant `t`. Each granule of the served role is a mirror here, so that it can be handed back
(R444; log entry 88). -/
def allocFor (s : State) (t : Nat) (w : Word64) (p : Nat → Bool) : Option (Nat × State) :=
  if t < 256 then s.allocGran w p
  else
    let k := s.servedFree
    (s.allocGran (mkGran 0 2 false false true false k) p).map fun (i, s1) => (i, s1.putServed k (servedWord w i))

/-- Allocate `n` granules for the role of tenant `t`. -/
def allocsFor (s : State) (t : Nat) (w : Word64) (p : Nat → Bool) : Nat → Option (List Nat × State)
  | 0 => some ([], s)
  | n + 1 => match s.allocFor t w p with
    | none => none
    | some (i, s1) => (allocsFor s1 t w p n).map fun r => (i :: r.1, r.2)

/-- Free a granule of the role of tenant `t`; `why` as for freeGran. -/
def freeFor (s : State) (t why i : Nat) : State :=
  if t < 256 then s.freeGran why i else match s.servedIndex i with
    | none => s
    | some k => (s.putServed k 0#64).freeGran why i

/-- R430: the mirror of a granule of the role of tenant `t`; a granule of the served role is one. -/
def mirrorFor (s : State) (t i : Nat) : Option State := if t < 256 then s.mirrorGran i else some s

/-- R430: mirrors for several granules of the role of tenant `t`, all or none. -/
def mirrorGransFor (t : Nat) (l : List Nat) (s : State) : Option State := if t < 256 then mirrorGrans l s else some s

/-- Memory of a role's module at its local addresses (R436): what this module serves for its partner lies in the mirrors. -/
def readRole (s : State) (role a n : Nat) : List Byte :=
  if role = s.self then s.readN a n else (List.range n).map fun j => (s.servedAt (a + j)).elim 0 fun x => s.read8 x.1

/-- Write there; R431: with the mirror's copy. -/
def writeRole (s : State) (role a : Nat) (bs : List Byte) : State :=
  if bs.isEmpty then s
  else if role = s.self then ((s.writeBytes a bs).mirrorWrite a bs).2
  else (cutPages 4096 (bs.length + 1) a 0 bs.length).foldl (fun s c =>
    match s.servedAt (a + c.1) with
    | none => s
    | some x => ((s.writeBytes x.1 (sliceBytes bs c.1 c.2)).mirrorWrite x.1 (sliceBytes bs c.1 c.2)).2) s

/-- The granules here that belong to tenant `t`, with their entries. -/
def gransOf (s : State) (t : Nat) : List (Nat × Word64) :=
  if t < 256 then s.grans.filter fun g => decide (g.1 < 393728) && gState g.2 == 1 && gOwner g.2 == t
  else (s.pair.grans.filter fun g => gMir g.2 && gState g.2 == 1 && gOwner g.2 == t % 256).map fun g => (gMgran g.2, g.2)

/-- R221: the zeroing of granule `i`, with its poison marks. -/
def zeroGran (s : State) (i : Nat) : State :=
  match s.loft.dirty.find? fun d => d.1 == i with
  | none => s
  | some (_, t) =>
    let a := granuleAddr i
    let s1 := { s.clearPoison a (2 ^ 21) with
      mem := Memory.clear s.mem a (2 ^ 21), loft := { s.loft with dirty := s.loft.dirty.filter fun d => d.1 != i } }
    if t = 0 then s1 else s1.regSub (Reg.TNT_SCRUB t) 1

/-! ### Tables -/

/-- A table entry that points to a table (R222). -/
def pointerTo (a : Nat) : Nat := a + 1

/-- A zeroed 4 KiB page for a table, from granules that the scheduler reserves (DESIGN CHOICE, log entry 13). -/
def allocTable (s : State) : Option (Nat × State) :=
  match s.loft.tabs with
  | some (g, k) =>
    if k < 512 then some (granuleAddr g + 4096 * k, { s with loft := { s.loft with tabs := some (g, k + 1) } })
    else (s.allocGran (mkGran 0 2 false false false false 0) (fun _ => true)).map fun (i, s1) =>
      (granuleAddr i, { s1 with loft := { s1.loft with tabs := some (i, 1) } })
  | none => (s.allocGran (mkGran 0 2 false false false false 0) (fun _ => true)).map fun (i, s1) =>
      (granuleAddr i, { s1 with loft := { s1.loft with tabs := some (i, 1) } })

/-- Write a table entry, which is mirrored (R428). -/
def putEntry (s : State) (a e : Nat) : State := (s.writeBytes a (leBytes 8 e)).mirrorRec recLeaf (leBytes 8 e)

/-- Write the entry of `va` at level `target` below table `tbl`, building tables on the way. Answers the entry that was
there. None where a larger page is in the way or no table page is free. -/
def putLeafIn (va target entry : Nat) : List Nat → Nat → State → Option (Nat × State)
  | [], _, _ => none
  | sh :: rest, tbl, s =>
    let a := tbl + 8 * field va sh 9
    let e := s.readLe a 8
    if sh = target then
      if tbit e 0 && !tbit e 1 then none else some (e, s.putEntry a entry)
    else if !tbit e 0 then
      match s.allocTable with
      | none => none
      | some (t, s1) => putLeafIn va target entry rest t (s1.putEntry a (pointerTo t))
    else if tbit e 1 then none
    else putLeafIn va target entry rest (teFrame e) s

/-- R222, R273: the tenant's root table, built when the tenant first needs one and shown in TNT_ROOT. -/
def ensureRoot (s : State) (t : Nat) : Option (Nat × State) :=
  if s.root t ≠ 0 then some (s.root t, s)
  else s.allocTable.map fun (a, s1) => (a, (s1.setRegN (Reg.TNT_ROOTL t) (a % 2 ^ 32)).setRegN (Reg.TNT_ROOTH t) (a / 2 ^ 32))

/-- R227: a change of a translation entry is under way: tenant, address, old entry, page shift. -/
def noteChange (s : State) (x : Nat × Nat × Nat × Nat) : State := { s with loft := { s.loft with changes := s.loft.changes ++ [x] } }

/-- R227 step 1: write a leaf entry of tenant `t` at page size `2^sh`. A valid old entry is noted until it is quiet. -/
def putLeaf (s : State) (t va sh entry : Nat) : Option State :=
  match s.ensureRoot t with
  | none => none
  | some (r, s1) => (putLeafIn va sh entry [39, 30, 21, 12] r s1).map fun (old, s2) =>
    if tbit old 0 then s2.noteChange (t, va / 2 ^ sh * 2 ^ sh, old, sh) else s2

/-- R222: a leaf entry to a local frame. -/
def leafTo (s : State) (a : Nat) (ro mir lft kv fv : Bool) : Nat :=
  s.self * 2 ^ 44 + a + bit fv * 64 + bit kv * 32 + bit lft * 16 + bit mir * 8 + bit ro * 4 + 3

/-- Map pages of size `2^sh` from `va` upward to frames. -/
def mapPages (t sh : Nat) (entry : Nat → Nat) : List Nat → Nat → State → Option State
  | [], _, s => some s
  | f :: fs, va, s => match s.putLeaf t va sh (entry f) with
    | none => none
    | some s1 => mapPages t sh entry fs (va + 2 ^ sh) s1

/-- R227 step 3: does a piece of a move lie in the page of `2^sh` bytes that a leaf entry maps. -/
def segUses (s : State) (e sh : Nat) (k : Seg) : Bool :=
  if tbit e 7 then k.kind == 2 && k.host == field e 58 6 && overlaps k.addr k.len (teFrame e) (2 ^ sh)
  else (k.kind == 0 && overlaps (s.self * 2 ^ 44 + k.addr) k.len (teFrame e) (2 ^ sh)) ||
    (k.kind == 1 && overlaps k.addr k.len (teFrame e) (2 ^ sh))

/-- R227 step 3: does an access in flight use the page of a leaf entry: a move or atomic of the tenant, or an NMV item that
reads W, scales or X there or writes its status or Y there. -/
def inUse (s : State) (t e sh : Nat) : Bool :=
  (s.cores.any fun c => c.2.parts.any fun p => match p.2.ctx with
    | none => false
    | some x => x.tenant == t && x.moves.any fun m => m.segs.any (s.segUses e sh)) ||
  (!tbit e 7 && s.nmv.any fun u => u.2.any fun w => ((w.item, 64) :: (w.yaddr, w.y.length) :: w.reads).any fun r =>
    overlaps (s.self * 2 ^ 44 + r.1) r.2 (teFrame e) (2 ^ sh))

/-- The leaves below a table: virtual address, page shift, entry. -/
def leavesIn (s : State) : List Nat → Nat → Nat → List (Nat × Nat × Nat)
  | [], _, _ => []
  | sh :: rest, tbl, va => (List.range 512).flatMap fun i =>
      let e := s.readLe (tbl + 8 * i) 8
      if !tbit e 0 then [] else if tbit e 1 then [(va + i * 2 ^ sh, sh, e)]
      else leavesIn s rest (teFrame e) (va + i * 2 ^ sh)

/-- Every leaf of a tenant's tables (R222). -/
def leaves (s : State) (t : Nat) : List (Nat × Nat × Nat) :=
  if s.root t = 0 then [] else s.leavesIn [39, 30, 21, 12] (s.root t) 0

/-- The leaves of a tenant that map into a granule. -/
def leavesOf (s : State) (t i : Nat) : List (Nat × Nat × Nat) :=
  (s.leaves t).filter fun (_, sh, e) => match s.leafRange e sh with
    | none => false
    | some (a, n) => overlaps a n (granuleAddr i) (2 ^ 21)

/-- R284, R309: free granules that a tenant has mapped: its leaves into them go first. -/
def freeMapped (s : State) (t : Nat) (l : List Nat) : State :=
  let hit := if l.isEmpty then [] else (s.leaves t).filter fun x => match s.leafRange x.2.2 x.2.1 with
    | none => false
    | some (a, _) => l.any fun g => granuleAddr g == a
  l.foldl (fun s g => s.freeFor t 0 g) (hit.foldl (fun s x => (s.putLeaf t x.1 x.2.1 0).getD s) s)

/-! ### Uncorrectable errors (R228 to R230) -/

/-- R216: the HBM stack of a local address, and the address within the stack. -/
def stackOf (a : Nat) : Nat := a / 0x03000000000 * 3 + a % 0x03000000000 / 256 % 3
def stackAddr (a : Nat) : Nat := a % 0x03000000000 / 256 / 3 * 256 + a % 256

/-- MEM_UEADH.TIER of a local address (R244). -/
def tierOf (a : Nat) : Nat := if isHbm a then 0 else if isSram a then 1 else if isLoft a then 3 else 2

/-- R244: record an uncorrectable error; source 805 fires. -/
def recordUe (s : State) (a : Nat) : State :=
  let s1 := if isHbm a then s.bump (Reg.MEM_UE (stackOf a)) 1 else if isLoft a then s else s.bump Reg.MEM_SRAMUE 1
  let s2 := (s1.setRegN Reg.MEM_UEADL (a % 2 ^ 32)).setRegN Reg.MEM_UEADH (tierOf a * 2 ^ 30 + a / 2 ^ 32 % 2 ^ 12)
  ((s2.setRegN Reg.MEM_UETML (s.now % 2 ^ 32)).setRegN Reg.MEM_UETMH (s.now / 2 ^ 32 % 2 ^ 32)).raise 805 (tierOf a)

/-- LFT_STATUS.STATE (R244); source 806 fires when it changes. -/
def loftState (s : State) (st : Nat) : State :=
  if s.regField Reg.LFT_STATUS 0 4 = st then s else (s.setField Reg.LFT_STATUS 0 4 st).raise 806 st

/-- R230: writes to a word wait until its repair has completed. -/
def repairHolds (s : State) (a n : Nat) : Bool := s.loft.repairs.any fun w => overlaps a n (64 * w) 64

end State

end Sys2Proof.Machine
end

