-- ==== Sys2Proof/Machine/HostOps.lean ====
section
/-! DEFINITION. Operations of the host ports (chapter 09) that other families use: requests to hosts, host regions,
event messages (R265), the life of an item (R256, R261 to R266), fault records in the fault log (R264). -/

namespace Sys2Proof.Machine

/-- Status codes (R16). -/
def stOk : Nat := 0
def stBusy : Nat := 1
def stNoMemory : Nat := 2
def stInfeasible : Nat := 3
def stDeadline : Nat := 4
def stTtl : Nat := 5
def stRevoked : Nat := 6
def stReset : Nat := 7
def stRecovered : Nat := 8
def stFormat : Nat := 9
def stMalformed : Nat := 10
def stRetired : Nat := 11
def stMissing : Nat := 12
def stAborted : Nat := 13
def stLogFull : Nat := 14
def stFault : Nat := 15

namespace Desc

/-- Header fields of a descriptor (R256). -/
def magic (d : List Byte) : Nat := fieldAt d 0 2
def version (d : List Byte) : Nat := fieldAt d 2 1
def kind (d : List Byte) : Nat := fieldAt d 3 1
def flags (d : List Byte) : Nat := fieldAt d 4 2
def length (d : List Byte) : Nat := fieldAt d 6 2
def seq (d : List Byte) : Nat := fieldAt d 8 8
def tag (d : List Byte) : Nat := fieldAt d 16 8
def seed (d : List Byte) : Nat := fieldAt d 24 8
def model (d : List Byte) : Nat := fieldAt d 32 4
def adapter (d : List Byte) : Nat := fieldAt d 36 2
def fmt (d : List Byte) : Nat := fieldAt d 38 1
def prio (d : List Byte) : Nat := fieldAt d 39 1
def deadline (d : List Byte) : Nat := fieldAt d 40 8
def goalTtft (d : List Byte) : Nat := fieldAt d 48 4
def goalTbt (d : List Byte) : Nat := fieldAt d 52 4
def epoch (d : List Byte) : Nat := fieldAt d 56 2
def bodyLen (d : List Byte) : Nat := fieldAt d 58 2
/-- The kind body and what follows it. -/
def body (d : List Byte) : List Byte := (d.drop 64).take (bodyLen d)
def rest (d : List Byte) : List Byte := d.drop (64 + bodyLen d)
def ordered (d : List Byte) : Bool := tbit (flags d) 0
def fence (d : List Byte) : Bool := tbit (flags d) 1
def event (d : List Byte) : Bool := tbit (flags d) 2
def hostPayload (d : List Byte) : Bool := tbit (flags d) 3
def fmtSet (d : List Byte) : Bool := tbit (flags d) 4

end Desc

/-- A reference (R256, bytes 0 to 7): host region and offset. -/
def refRegion (r : Nat) : Nat := field r 58 6
def refOff (r : Nat) : Nat := field r 0 58

namespace State

def qpKey (port qpn : Nat) : Nat := port * 2 ^ 24 + qpn % 2 ^ 24
def setHost (s : State) (h : HostSt) : State := { s with host := h }
def hq (s : State) (t q : Nat) : HostQ := Tab.get {} s.host.queues (16 * t + q)
def setHq (s : State) (t q : Nat) (x : HostQ) : State :=
  s.setHost { s.host with queues := Tab.set {} s.host.queues (16 * t + q) x }
def qp? (s : State) (key : Nat) : Option Qp := Tab.find? s.host.qps key
def setQp (s : State) (key : Nat) (x : Qp) : State := s.setHost { s.host with qps := Tab.setSome s.host.qps key x }

/-- R248, R273: TNT_STATE of a tenant. -/
def tntState (s : State) (t : Nat) : Nat := s.regField (Reg.TNT_STATE t) 0 2
def tntQueues (s : State) (t : Nat) : Nat := s.regField (Reg.TNT_POLICY t) 8 8

/-- Tenant 0 is always there (R248). -/
def present (s : State) (t : Nat) : Bool := t % 256 == 0 || s.tntState t != 0

/-- The binding public key of a tenant (R488). -/
def bindKey (s : State) (t : Nat) : List Byte := s.confBytes 5 (1376 * (t % 256) + 64) 1312

/-- The unit identity of the role whose tenant `t` is (R437). -/
def unitOf (s : State) (t : Nat) : List Byte := if t < 256 then s.unitId else s.pair.unit

/-- R500: the origin of a change that management software asked for: the key identifier of the management binding key. -/
def mgmtOrigin (s : State) : List Byte := (sha3 (s.bindKey 0)).take 16

/-! ### Requests to hosts -/

/-- Number a request to a host. -/
def post (s : State) (p : Post) (o : Nat → Out) : State :=
  (s.setHost { s.host with posts := Tab.setSome s.host.posts s.host.nextId p, nextId := s.host.nextId + 1 }).emit (o s.host.nextId)

/-- R225: a range of a host region, as port, queue pair, key and host address. -/
def hostRange (s : State) (t r off n : Nat) : Option (Nat × Nat × Nat × Nat) :=
  match s.hostLen t r with
  | none => none
  | some len =>
    if off + n ≤ len then
      some (s.regField (Reg.TNT_HRCFG t r) 24 2, s.regField (Reg.TNT_HRCFG t r) 0 24, s.regN (Reg.TNT_HRKEY t r),
        s.reg64 (Reg.TNT_HRBASEL t r) (Reg.TNT_HRBASEH t r) + off)
    else none

/-- An RDMA WRITE to a host region; nothing where the range does not lie in it. -/
def regionWrite (s : State) (t r off : Nat) (bs : List Byte) (p : Post) : State :=
  match s.hostRange t r off bs.length with
  | none => s
  | some (port, qpn, key, a) => s.post p fun id => .hostWrite id port qpn key a bs

/-- An RDMA READ of a host region. -/
def regionRead (s : State) (t r off n : Nat) (p : Post) : State :=
  match s.hostRange t r off n with
  | none => s
  | some (port, qpn, key, a) => s.post p fun id => .hostRead id port qpn key a n

/-- Are results of an item still unacknowledged (R263). -/
def resultsOpen (s : State) (t q seq : Nat) : Bool :=
  s.host.posts.any (fun p => p.2 == .results t q seq) || (s.hq t q).owed.any fun o => o.1 == seq

/-! ### Event messages (R265) -/

/-- The bytes of an event message. -/
def eventMsg (s : State) (kind t q status arg seq tag : Nat) : List Byte :=
  leBytes 1 kind ++ leBytes 1 t ++ leBytes 1 q ++ leBytes 1 status ++ leBytes 4 arg ++ leBytes 8 seq ++ leBytes 8 s.now ++ leBytes 8 tag

/-- R265: two messages that merge: the newer, with both counts of records where both are completion notices. -/
def mergeMsg (old new : List Byte) : List Byte :=
  if fieldAt old 0 1 = 0 && fieldAt new 0 1 = 0 then putBytes new 4 (leBytes 4 (fieldAt old 4 4 + fieldAt new 4 4)) else new

/-- Send an event message on a queue pair, or merge it while another awaits a host receive. -/
def sendMsg (s : State) (key : Nat) (m : List Byte) : State :=
  match s.qp? key with
  | none => s
  | some x =>
    if x.await then s.setQp key { x with merged := some (match x.merged with | none => m | some o => mergeMsg o m) }
    else ((s.setQp key { x with await := true }).bump (Reg.HST_TXMSG (key / 2 ^ 24)) 1).post (.event key)
      fun id => .hostSend id (key / 2 ^ 24) (key % 2 ^ 24) m

/-- The queue pair bound to a queue (R273). -/
def queueQp (s : State) (t q : Nat) : Option Nat :=
  if s.regBit (Reg.TNT_RQST t q) 31 then some (s.regField (Reg.TNT_RQST t q) 0 26) else none

/-- The ring's event queue pair: its number on the port of the queue's own pair. -/
def eventQp (s : State) (t q : Nat) : Option Nat :=
  match (s.hq t q).ring with
  | none => none
  | some r => if r.evqp = 0 then none else some (qpKey (s.regField (Reg.TNT_RQST t q) 24 2) r.evqp)

/-- Send on the ring's event queue pair. -/
def sendRing (s : State) (t q : Nat) (m : List Byte) : State := match s.eventQp t q with | none => s | some k => s.sendMsg k m

/-- Send on the queue's own queue pair. -/
def sendOwn (s : State) (t q : Nat) (m : List Byte) : State := match s.queueQp t q with | none => s | some k => s.sendMsg k m

/-! ### Items -/

def itemOf (s : State) (t q seq : Nat) : Option Item := (s.hq t q).items.find? fun i => i.seq == seq && !i.refused
def updItem (s : State) (t q seq : Nat) (f : Item → Item) : State :=
  let x := s.hq t q
  s.setHq t q { x with items := x.items.map fun i => if i.seq == seq && !i.refused then f i else i }

/-- The outstanding items (R262): accepted and not completed. -/
def outstanding (s : State) (t q : Nat) : Nat := ((s.hq t q).items.filter fun i => !i.refused).length

/-- TNT_RQOUT shows the outstanding items. -/
def showOut (s : State) (t q : Nat) : State := s.setRegN (Reg.TNT_RQOUT t q) (s.outstanding t q)

/-- Disconnect a queue pair. -/
def closeQp (s : State) (key : Nat) : State :=
  match s.qp? key with
  | none => s
  | some x =>
    let s1 := (s.setHost { s.host with qps := Tab.drop s.host.qps key }).regSub (Reg.HST_PST (key / 2 ^ 24)) 1
    let s2 := if x.bound && s1.queueQp x.tenant x.queue == some key then s1.setRegN (Reg.TNT_RQST x.tenant x.queue) 0 else s1
    s2.emit (.hostClose (key / 2 ^ 24) (key % 2 ^ 24))

/-- R249: discard what a queue holds: pair, ring, sequence number. -/
def dropQueue (s : State) (t q : Nat) : State :=
  let s1 := match s.queueQp t q with | none => s | some k => s.closeQp k
  ((((s1.setHq t q {}).setRegN (Reg.TNT_RQSEQL t q) 0).setRegN (Reg.TNT_RQSEQH t q) 0).setRegN (Reg.TNT_RQRING t q) 0).setRegN
    (Reg.TNT_RQOUT t q) 0

/-- R249: a closed queue goes when its outstanding count reaches 0. -/
def reapQueue (s : State) (t q : Nat) : State :=
  let x := s.hq t q
  if x.closed && x.items.isEmpty && x.unparsed.isEmpty then s.dropQueue t q else s

/-- The last accepted sequence number (R254). -/
def lastSeq (s : State) (t q : Nat) : Nat := s.reg64 (Reg.TNT_RQSEQL t q) (Reg.TNT_RQSEQH t q)

/-- R426: the recovery epoch of the role whose tenant `t` is. -/
def repochOf (s : State) (t : Nat) : Nat := s.regField Reg.PAI_REPOCH (if t < 256 then 0 else 16) 16

/-- R259: on a queue without a ring a result goes out as a completion-notice message, and the item is done with. -/
def settle (s : State) (t q : Nat) : State :=
  let x := s.hq t q
  if x.ring.isSome then s
  else
    let fin := x.items.filter fun i => i.done.isSome
    let s1 := s.setHq t q { x with items := x.items.filter fun i => i.done.isNone }
    ((fin.foldl (fun s i => s.sendOwn t q (s.eventMsg 0 t q ((i.done.map (·.status)).getD 0) 0 i.seq i.tag)) s1).showOut t q).reapQueue t q

/-- An item ends with a result; its record is written by COMPLETION_WRITE. Only the first end counts. -/
def finish (s : State) (t q seq : Nat) (d : Done) : State :=
  (s.updItem t q seq fun i => if i.done.isSome then i else { i with done := some d }).settle t q

/-- R272: items of a tenant in reset end with TENANT_RESET whatever else would have ended them. -/
def finishSt (s : State) (t q seq status : Nat) : State :=
  s.finish t q seq { status := if s.tntState t = 2 then stReset else status }

/-- R26x: BUSY with a hint in ns, rounded up to units of 100 us and saturating (R323). -/
def finishBusy (s : State) (t q seq hint : Nat) : State :=
  s.finish t q seq { status := stBusy, retry := capAt 65535 (ceilDiv hint 100000) }

/-- R264: write a fault record into the tenant's fault log; answers FLT and f. No record is written in a reset (R272). -/
def logFault (s : State) (t : Nat) (rec : List Byte) : (Bool × Nat) × State :=
  match Tab.find? s.host.flogs t with
  | none => ((false, 0), s)
  | some l =>
    let s1 := s.regionWrite t l.region (l.off + 32 * (l.next % l.entries)) rec .plain
    ((true, l.next), (s1.setHost { s1.host with flogs := Tab.setSome s1.host.flogs t { l with next := l.next + 1 } }).tenantRec t 0 4
      (leBytes 8 (l.next + 1)))

/-- What waited for a host port goes out. -/
def sendStalled (s : State) (h : Nat) : State :=
  let mine := fun o : Out => o.hostPort == some h
  (s.setHost { s.host with stalled := s.host.stalled.filter fun o => !mine o }).sendOut (s.host.stalled.filter mine)

/-- R246, R274: UP needs the link, and with MACsec a loaded CAK and a live MKA peer. -/
def showPort (s : State) (h : Nat) : State :=
  let up := s.host.links.elem h && (!s.regBit (Reg.HST_PST h) 30 || (s.regBit (Reg.HST_PST h) 28 && s.host.mka.elem h))
  if up = s.portUp h then s else ((s.setField (Reg.HST_PST h) 31 1 (bit up)).raise (800 + h) (bit up)).sendStalled h

/-- R245, R246, R274: a frame reaches a host port. Is it taken; a port without a link carries none, and one with MACsec drops and
counts what its MKA keys do not protect. A packet with the CE mark is answered on its queue pair by a congestion notification. -/
def hostIn (s : State) (k : HostPkt) : Bool × State :=
  if 4 ≤ k.port || !s.host.links.elem k.port then (false, s)
  else if !s.portUp k.port || (s.regBit (Reg.HST_PST k.port) 30 && !k.macsec) then (false, s.bump (Reg.HST_DROP k.port) 1)
  else (true, if k.ce && (s.qp? (qpKey k.port k.qpn)).isSome then s.emit (.hostCnp k.port k.qpn) else s)

/-- R246: the key name of a host port: unit identity and port number. -/
def cakName (s : State) (h : Nat) : List Byte := s.unitId ++ leBytes 1 h


end State

end Sys2Proof.Machine
end

