-- ==== Sys2Proof/Machine/ServeOps.lean ====
section
/-! DEFINITION. Operations on requests (chapter 11): slots and their counts, KV pages and blocks (R233, R237), the end of
a request with its trailer (R319, R321, R322), pins (R282, R309). -/

namespace Sys2Proof.Machine

/-- R233: segment size and block length of a model's KV blocks. -/
def Model.segment (m : Model) : Nat :=
  roundUp (64 * m.dh * fmtBits m.kvfmt / 8 + (if fmtMx m.kvfmt then 64 * m.dh / 32 else 0)) 64
def Model.blockLen (m : Model) : Nat := roundUp (m.lgroup * 2 * m.kvheads * m.segment) 4096
/-- R233: where segment (layer of the group, 0 keys or 1 values, head) begins in a block. -/
def Model.segmentAt (m : Model) (l k h : Nat) : Nat := ((l * 2 + k) * m.kvheads + h) * m.segment
/-- R233, R44: bytes of the elements of a row of a segment, and of its scales. -/
def Model.rowLen (m : Model) : Nat := m.dh * fmtBits m.kvfmt / 8
def Model.scaleLen (m : Model) : Nat := if fmtMx m.kvfmt then m.dh / 32 else 0
/-- R233: the ranges of a block that the rows from `v` on occupy: offset and length. -/
def Model.rowsFrom (m : Model) (v : Nat) : List (Nat × Nat) :=
  (List.range m.lgroup).flatMap fun l => (List.range 2).flatMap fun k => (List.range m.kvheads).flatMap fun h =>
    let a := m.segmentAt l k h
    [(a + v * m.rowLen, (64 - v) * m.rowLen), (a + 64 * m.rowLen + v * m.scaleLen, (64 - v) * m.scaleLen)]

/-- R236: a request goes on: the spill of a block stops, a spilled one is to be fetched. -/
def KvBlock.resumed (b : KvBlock) : KvBlock :=
  if b.state = 1 then { b with state := 0, tier := 0, copy := 0, crc := 0, psns := [] } else if b.state = 2 then { b with state := 3 } else b

/-- R234: the 64 bytes of a KV block's index entry. -/
def KvBlock.bytes (b : KvBlock) : List Byte :=
  leBytes 4 b.slot ++ leBytes 4 b.pos ++ leBytes 2 b.group ++ leBytes 1 b.valid ++ leBytes 1 b.fmt ++ leBytes 2 b.epoch ++
  leBytes 1 b.state ++ leBytes 1 b.tier ++ leBytes 8 b.vaddr ++ leBytes 8 b.copy ++ leBytes 8 b.crc ++ leBytes 8 b.ttl ++
  leBytes 4 b.length ++ zeros 12
/-- Layer groups of a model (R233). -/
def Model.groups (m : Model) : Nat := ceilDiv (Config.layerCount m.desc) m.lgroup

namespace State

def setServe (s : State) (x : ServeSt) : State := { s with serve := x }
def req? (s : State) (slot : Nat) : Option Req := Tab.find? s.serve.reqs slot

/-- Does a request count as paused (SRV_PAUSED). -/
def Req.paused (r : Req) : Bool := r.st == 4 || r.st == 5

/-- SRV_SLOTS, SRV_PAUSED and TNT_SLOTS.USED of tenant `t` show the slot table. -/
def showSlots (s : State) (t : Nat) : State :=
  ((s.setRegN Reg.SRV_SLOTS s.serve.reqs.length).setRegN Reg.SRV_PAUSED ((s.serve.reqs.filter fun r => Req.paused r.2).length)).setField
    (Reg.TNT_SLOTS t) 0 16 ((s.serve.reqs.filter fun r => r.2.tenant == t).length)

/-- R428, R282: the record of a request: its slot and state, its pins on an epoch and an adapter version, delivered tokens, items that
wait, the token record. -/
def reqBytes (slot : Nat) (r : Req) : List Byte :=
  leBytes 4 (slot % 32768) ++ leBytes 1 r.tenant ++ leBytes 1 r.st ++ leBytes 1 r.q0 ++ leBytes 1 r.asked.length ++ leBytes 8 r.seq0 ++
  leBytes 4 r.model ++ leBytes 2 r.epoch ++ leBytes 2 r.adapter ++ leBytes 2 r.aver ++ zeros 2 ++ leBytes 4 r.filled ++
  leBytes 4 (r.seg.elim 0 (·.tokens.length)) ++ leBytes 4 (r.seg.elim 0 (·.sent)) ++ r.context.flatMap (leBytes 4)

def putReq (s : State) (slot : Nat) (r : Req) : State :=
  ((s.setServe { s.serve with reqs := Tab.setSome s.serve.reqs slot r, ended := Tab.drop s.serve.ended slot }).showSlots r.tenant).roleRec
    (s.roleOf r.tenant) recRequest (reqBytes slot r)

def model? (s : State) (m : Nat) : Option Model := Tab.find? s.curtain.models m

/-- R428: the record of a model: its descriptor, phase, epoch pointers. -/
def modelBytes (m : Nat) (x : Model) : List Byte :=
  leBytes 4 m ++ leBytes 2 x.current ++ leBytes 1 (bit x.gen) ++ leBytes 1 x.live.length ++ (x.live.flatMap fun e => leBytes 2 e.number) ++ x.desc

def putModel (s : State) (m : Nat) (x : Model) : State :=
  ({ s with curtain := { s.curtain with models := Tab.setSome s.curtain.models m x } } : State).roleRec (s.roleAt m) recModel (modelBytes m x)

/-- R428: the adapter versions of a model are mirrored. -/
def adapterRec (s : State) (m : Nat) : State :=
  s.roleRec (s.roleAt m) recModel (leBytes 4 m ++ leBytes 2 0 ++ (s.curtain.adapters.filter fun a => a.2.model == m).flatMap fun a =>
    leBytes 2 a.2.adapter ++ leBytes 2 a.2.version ++ leBytes 1 (bit a.2.committed) ++ leBytes 1 (bit a.2.revoked) ++ leBytes 1 (bit a.2.freed) ++ zeros 1)

/-- R428: the prediction coefficients of a model change. -/
def putCoef (s : State) (m : Nat) (k : Coef) : State :=
  (s.setServe { s.serve with coef := Tab.setSome s.serve.coef m k }).roleRec (s.roleAt m) recRequest
    (leBytes 4 (2 ^ 31) ++ leBytes 4 m ++ [k.a0, k.a1, k.a2, k.b0, k.b1, k.b2, k.lhat].flatMap fun x => leBytes 8 (x.num % 2 ^ 64).toNat ++ leBytes 8 x.den)

/-- R428: the admission queue and the bucket levels of a tenant's role are mirrored. -/
def queueRec (s : State) (t : Nat) : State :=
  (s.roleRec (s.roleOf t) recRequest (leBytes 4 (2 ^ 31 + 1) ++ (s.serve.queue.filter fun x => s.roleOf x.tenant == s.roleOf t).flatMap fun x =>
    leBytes 1 x.tenant ++ leBytes 1 x.q ++ leBytes 1 x.prio ++ zeros 5 ++ leBytes 8 x.seq)).tenantRec t 0 7
    (leBytes 8 ((Tab.find? s.serve.rq t).getD 0).toNat ++ leBytes 8 (((Tab.find? s.serve.tk t).getD 0) % 2 ^ 64).toNat)

/-! ### KV blocks and their index (R234), the spill pool (R237) -/

/-- Does the spilled copy of a block lie in granule `g` of the understudy's pool. -/
def holdsCopy (s : State) (g : Nat) (b : KvBlock) : Bool :=
  b.copy != 0 && b.tier != 2 && b.copy / 2 ^ 44 == s.partner && overlaps (granuleAddr g) (2 ^ 21) (b.copy % 2 ^ 44) b.length

/-- R237: pool granules that hold no copy any more are freed on the understudy. -/
def sweepPool (s : State) : State :=
  let gone := s.serve.pool.filter fun g => !s.serve.kv.any (s.holdsCopy g.1)
  if gone.isEmpty then s
  else gone.foldl (fun s g => s.mirrorRec recPool (leBytes 2 g.2.1 ++ zeros 2 ++ leBytes 4 g.1))
    (s.setServe { s.serve with pool := s.serve.pool.filter fun g => s.serve.kv.any (s.holdsCopy g.1) })

/-- R234, R428: the KV index changes: every entry that is new, differs or is gone is written to reserved HBM and mirrored. -/
def setKv (s : State) (l : List KvBlock) : State :=
  let old := s.serve.kv
  let gone := old.filter fun b => !l.any fun c => c.entry == b.entry
  let new := l.filter fun b => !old.elem b
  let put := fun (s : State) (b : KvBlock) (bs : List Byte) => (s.writeBytes b.entry bs).mirrorRec recKv bs
  let s1 := gone.foldl (fun s b => put s b (leBytes 4 b.slot ++ leBytes 4 b.pos ++ leBytes 2 b.group ++ zeros 54)) (s.setServe { s.serve with kv := l })
  (new.foldl (fun s b => put s b b.bytes) s1).sweepPool

/-- The lowest place for an index entry that no block uses; a further reserved granule where there is none. -/
def kvEntry (s : State) : Option (Nat × State) :=
  let free := (s.serve.kvTab.flatMap fun g => (List.range 32768).map fun k => granuleAddr g + 64 * k).find? fun a =>
    !s.serve.kv.any fun b => b.entry == a
  match free with
  | some a => some (a, s)
  | none => (s.allocGran (mkGran 0 2 false false false false 0) (fun _ => true)).map fun (i, s1) =>
      (granuleAddr i, s1.setServe { s1.serve with kvTab := s1.serve.kvTab ++ [i] })

/-! ### KV pages -/

/-- Granules that hold KV blocks of a tenant. -/
def kvGrans (s : State) (t : Nat) : List Nat :=
  ((s.gransOf t).filter fun g => decide (g.1 < 393216) && gKv g.2).map Prod.fst

/-- Is a 4 KiB frame used by a block. -/
def frameUsed (s : State) (a : Nat) : Bool := s.serve.kv.any fun b => b.frames.elem a

/-- Does a change of translation still hold back a frame (R227). -/
def frameHeld (s : State) (a : Nat) : Bool := s.loft.changes.any fun (_, _, e, sh) =>
  match s.leafRange e sh with | none => false | some (b, n) => overlaps a 4096 b n

/-- The free KV frames of a tenant. -/
def freeFrames (s : State) (t : Nat) : List Nat :=
  ((s.kvGrans t).flatMap fun g => (List.range 512).map fun k => granuleAddr g + 4096 * k).filter fun a =>
    !s.frameUsed a && !s.frameHeld a

/-- R250, R326: granules that `n` more pages need. -/
def granulesFor (s : State) (t n : Nat) : Nat := ceilDiv (n - (s.freeFrames t).length) 512

/-- `n` frames for KV blocks of a tenant, from its KV granules and then from free granules within its limit. -/
def kvFrames (s : State) (t n : Nat) : Option (List Nat × State) :=
  let need := s.granulesFor t n
  if s.regField (Reg.TNT_GRANLIM t) 0 19 < s.regField (Reg.TNT_GRANUSE t) 0 19 + need && need != 0 then none
  else match s.allocsFor t (mkGran t 1 false false false true 0) (fun _ => true) need with
    | none => none
    | some (_, s1) => some ((s1.freeFrames t).take n, s1)

/-- The next free virtual address for KV blocks of a tenant (log entry 13). -/
def kvVa (s : State) (t : Nat) : Nat :=
  s.serve.kv.foldl (fun m b =>
    if (s.req? b.slot).any (fun r => r.tenant == t) then max m (b.vaddr + b.length) else m) (2 ^ 47)

/-- A 4 KiB KV leaf (R233). -/
def kvLeaf (s : State) (a : Nat) : Nat := s.leafTo a false false false true false

/-- Unmap the pages of a block. -/
def unmapPages (t va : Nat) : List Nat → State → State
  | [], s => s
  | _ :: fs, s => unmapPages t (va + 4096) fs ((s.putLeaf t va 12 0).getD s)

/-- Free the KV granules of a tenant that hold no frame of a block. -/
def trimKv (s : State) (t : Nat) : State :=
  (s.kvGrans t).foldl (fun s g =>
    if s.serve.kv.any fun b => b.frames.any fun a => a / 2 ^ 21 == g then s else s.freeFor t 0 g) s

/-- R235, R221: a block gives up its pages. -/
def dropPages (s : State) (t : Nat) (b : KvBlock) : State := unmapPages t b.vaddr b.frames s

/-- Free every copy of a request's blocks. -/
def freeKv (s : State) (slot : Nat) : State :=
  match s.req? slot with
  | none => s
  | some r =>
    let mine := s.serve.kv.filter fun b => b.slot == slot
    let s1 := mine.foldl (fun s b => s.dropPages r.tenant b) s
    (s1.setKv (s1.serve.kv.filter fun b => b.slot != slot)).trimKv r.tenant

/-- Blocks that cover positions `lo .. hi` of a request, to be created with no valid position. -/
def newBlocks (m : Model) (slot epoch lo hi : Nat) : List KvBlock :=
  (List.range m.groups).flatMap fun g => ((List.range (ceilDiv hi 64)).drop (ceilDiv lo 64)).map fun k =>
    { slot := slot, pos := 64 * k, group := g, valid := 0, fmt := m.kvfmt, epoch := epoch, state := 0, tier := 0
      vaddr := 0, copy := 0, crc := 0, ttl := 0, length := m.blockLen, frames := [] }

/-- R233: the bytes of a 4 KiB frame from `o` on, `n` of them, become zero. -/
def zeroFrame (s : State) (a o n : Nat) : State := { s.clearPoison (a + o) n with mem := Memory.clear s.mem (a + o) n }

/-- R233, R234: give a block zeroed frames and an index entry, and map it. -/
def placeBlock (s : State) (t : Nat) (b : KvBlock) : Option State :=
  (s.kvFrames t (b.length / 4096)).bind fun (fs, s1) =>
    s1.kvEntry.bind fun (e, s2) =>
      let va := s2.kvVa t
      (mapPages t 12 s2.kvLeaf fs va s2).map fun s3 =>
        (fs.foldl (fun s a => s.zeroFrame a 0 4096) s3).setKv
          (s3.serve.kv ++ [{ b with vaddr := va, frames := fs, entry := e, state := 0, tier := 0 }])

/-- R233: the rows of a block from `v` on become zero. -/
def zeroRows (s : State) (m : Model) (b : KvBlock) (v : Nat) : State :=
  (m.rowsFrom v).foldl (fun s r => (List.range b.frames.length).foldl (fun s k =>
    let lo := max r.1 (4096 * k)
    let hi := min (r.1 + r.2) (4096 * k + 4096)
    if lo < hi then s.zeroFrame (b.frames.getD k 0) (lo - 4096 * k) (hi - lo) else s) s) s

/-- Place blocks in turn, all or none. -/
def placeBlocks (t : Nat) : List KvBlock → State → Option State
  | [], s => some s
  | b :: bs, s => match s.placeBlock t b with | none => none | some s1 => placeBlocks t bs s1

/-! ### Loft models and variants (R251, R336) -/

/-- Where a loft model lies in its tenant's virtual space (log entry 13). -/
def loftVa (l : LoftModel) : Nat := 2 ^ 45 + l.loff

/-- The loft frames of a model, page by page of 2 MiB. -/
def loftFrames (l : LoftModel) : List Nat := (List.range (ceilDiv l.len (2 ^ 21))).map fun i => loftBase + l.loff + i * 2 ^ 21

/-- The loft entry of a model of kind 3. -/
def loftEntry (s : State) (id : Nat) : Option LoftModel :=
  match s.model? id with
  | none => none
  | some m => if m.kind = 3 then s.loft.models[m.loft]? else none

/-- Map a loft model read-only in place into a tenant's tables. -/
def mapLoft (s : State) (t : Nat) (l : LoftModel) : Option State :=
  mapPages t 21 (fun a => s.leafTo a true false true false false) (loftFrames l) (loftVa l) s

/-- Unmap a loft model. -/
def unmapLoft (s : State) (t : Nat) (l : LoftModel) : State := (mapPages t 21 (fun _ => 0) (loftFrames l) (loftVa l) s).getD s

/-- SRV_VARST shows the resident variants. -/
def showVariants (s : State) : State :=
  (s.setField Reg.SRV_VARST 0 7 s.serve.variants.length).setField Reg.SRV_VARST 8 19
    ((s.serve.variants.map fun v => v.2.grans.length).sum)

/-- Is a variant pinned: does a live request name it. -/
def variantPinned (s : State) (id : Nat) : Bool := s.serve.reqs.any fun r => r.2.model == id

/-- R336: evict a variant: its range maps the loft frames again and its granules are freed. -/
def evictVariant (s : State) (id : Nat) : State :=
  match Tab.find? s.serve.variants id, s.loftEntry id with
  | some v, some l =>
    let s1 := (s.mapLoft v.tenant l).getD s
    let s2 := s1.setServe { s1.serve with variants := Tab.drop s1.serve.variants id }
    (v.grans.foldl (fun s g => s.freeFor v.tenant 0 g) s2).showVariants
  | _, _ => s

/-- A variant that loses its last pin starts to be idle. -/
def touchVariant (s : State) (id : Nat) : State :=
  match Tab.find? s.serve.variants id with
  | none => s
  | some v => if s.variantPinned id then s else s.setServe { s.serve with variants := Tab.setSome s.serve.variants id { v with idleAt := s.clk } }

/-! ### Adapter slots -/

/-- R309: pins on an adapter version of a model. -/
def adapterPins (s : State) (m a v : Nat) : Nat :=
  (s.serve.reqs.filter fun r => r.2.model == m && r.2.adapter == a && r.2.aver == v).length

/-- R309, R310: the slots of versions that are revoked or superseded are freed once no request pins them. -/
def sweepSlots (s : State) (id : Nat) : State :=
  let gone := fun (a : AdapterSlot) => a.model == id && s.adapterPins id a.adapter a.version == 0 && (a.revoked ||
    s.curtain.adapters.any fun x => x.2.model == id && x.2.adapter == a.adapter && x.2.committed && decide (a.version < x.2.version))
  let swept := s.curtain.adapters.map fun a => if gone a.2 then (a.1, { a.2 with grans := [], freed := true }) else a
  let s1 := (s.curtain.adapters.filter fun a => gone a.2).foldl (fun s a => s.freeMapped a.2.tenant a.2.grans) s
  let s2 : State := { s1 with curtain := { s1.curtain with adapters := swept } }
  if s.curtain.adapters.any fun a => gone a.2 then s2.adapterRec id else s2

/-! ### The end of a request -/

/-- R319: the trailer. -/
def trailer (sg : Segm) (reason epoch aver now : Nat) : List Byte :=
  leBytes 4 sg.tokens.length ++ leBytes 1 reason ++ zeros 1 ++ leBytes 2 epoch ++ leBytes 2 aver ++ zeros 2 ++
  leBytes 4 (if sg.first = 0 then 0 else (sg.first - sg.accept) / 1000) ++ leBytes 4 sg.tbtmax ++ leBytes 4 sg.tbtsum ++
  leBytes 4 sg.tbtn ++ leBytes 4 sg.proposed ++ leBytes 4 sg.accepted ++ zeros 4 ++ leBytes 8 sg.admitAt ++
  leBytes 8 sg.first ++ leBytes 8 now

/-- R319: the bytes of tokens in the output area. -/
def tokenBytes (logprob : Bool) (ts : List Token) : List Byte :=
  ts.flatMap fun k => leBytes 4 k.id.toNat ++ if logprob then leBytes 4 k.lp.toNat else []

/-- Write the tokens not yet written, each at its place. -/
def sendTokens (s : State) (r : Req) (sg : Segm) : State :=
  let lp := tbit r.samp.gflags 2
  let new := sg.tokens.drop sg.sent
  if new.isEmpty then s
  else s.regionWrite r.tenant sg.region (sg.off + sg.sent * (if lp then 8 else 4)) (tokenBytes lp new) (.results r.tenant sg.q sg.seq)

/-- R319: close the running segment of a request: tokens, trailer, completion. -/
def closeSegment (s : State) (r : Req) (d : Nat → Done) (reason : Nat) : State :=
  match r.seg with
  | none => s
  | some sg =>
    let s1 := s.sendTokens r sg
    let s2 := s1.regionWrite r.tenant sg.region (sg.off + sg.outlen - 64) (trailer sg reason r.epoch r.aver s1.now)
      (.results r.tenant sg.q sg.seq)
    s2.finish r.tenant sg.q sg.seq (d sg.tokens.length)

/-- The counter of an end status (R343). -/
def endReg (status : Nat) : Nat :=
  if status = stOk then Reg.SRV_DONE else if status = stDeadline then Reg.SRV_DLEXP else if status = stTtl then Reg.SRV_TTLEXP
  else if status = stRevoked then Reg.SRV_REVOKED else Reg.SRV_FAILED

/-- R321, R322: end a request. Its slot returns to FREE, its blocks are freed, its pins go with it; PAUSE and CANCEL items
that wait complete with the end's status. -/
def endReq (s : State) (slot status reason : Nat) (flt : Bool) (f : Nat) : State :=
  match s.req? slot with
  | none => s
  | some r =>
    let s1 := s.closeSegment r (fun n => { status := status, flt := flt, detail := if flt then f else n }) reason
    let s2 := r.asked.foldl (fun s a => s.finish r.tenant a.2.1 a.2.2 { status := status }) s1
    let s3 := s2.freeKv slot
    let e : Ended := { tenant := r.tenant, q0 := r.q0, seq0 := r.seq0, status := status
                       order := if r.seg.isSome then 0 else s.serve.order + 1 }
    let s4 := s3.setServe { s3.serve with
      reqs := Tab.drop s3.serve.reqs slot, ended := Tab.setSome s3.serve.ended slot e, order := s3.serve.order + 1 }
    let s5 := (if status = stReset then s4 else s4.bump (endReg status) 1).roleRec (s.roleOf r.tenant) recRequest
      (leBytes 4 (slot % 32768) ++ leBytes 1 r.tenant ++ leBytes 1 0 ++ leBytes 1 r.q0 ++ leBytes 1 status ++ leBytes 8 r.seq0)
    ((s5.showSlots r.tenant).touchVariant r.model).sweepSlots r.model

/-- The number here of the first slot of a tenant's role (log entry 88). -/
def slotBase (t : Nat) : Nat := if t < 256 then 0 else 2 ^ 40

/-- R322: the slot that a new request of a tenant takes: the lowest of its role without a kept status, else the one kept longest. -/
def freeSlot (s : State) (t : Nat) : Option Nat :=
  let kept := s.serve.ended.filter fun e => e.2.order != 0 && slotBase e.2.tenant == slotBase t
  let rec go : Nat → Nat → Option Nat
    | 0, _ => none
    | n + 1, i => if (s.req? i).isNone && !kept.any (fun e => e.1 == i) then some i else go n (i + 1)
  match go (s.serve.reqs.length + kept.length + 1) (slotBase t) with
  | some i => if i < slotBase t + 32768 then some i else (kept.head?.map fun e =>
      (kept.foldl (fun b x => if x.2.order < b.2.order then x else b) e).1)
  | none => none

/-! ### Movement of KV blocks (R235 to R237) -/

/-- The block of a request, position and group. -/
def kvBlock (s : State) (slot pos group : Nat) : Option KvBlock :=
  s.serve.kv.find? fun k => k.slot == slot && k.pos == pos && k.group == group

/-- Replace a block. -/
def putBlock (s : State) (b : KvBlock) : State :=
  s.setKv (s.serve.kv.map fun k => if k.slot == b.slot && k.pos == b.pos && k.group == b.group then b else k)

/-- The bytes of a resident block. -/
def blockBytes (s : State) (b : KvBlock) : List Byte := b.frames.flatMap fun a => s.readN a 4096

/-- Write bytes into the frames of a block from offset `o` on. -/
def blockWrite (s : State) (b : KvBlock) (o : Nat) (bs : List Byte) : State :=
  (List.range b.frames.length).foldl (fun s k =>
    let lo := max o (4096 * k)
    let hi := min (o + bs.length) (4096 * k + 4096)
    if lo < hi then s.writeBytes (b.frames.getD k 0 + (lo - 4096 * k)) (sliceBytes bs (lo - o) (hi - lo)) else s) s

/-- R235: a block is lost: its request proceeds as on expiry of its time to live. -/
def loseBlock (s : State) (slot : Nat) : State := s.endReq slot stTtl 6 false 0

/-- R237: a block whose spill finds no room stays resident; its spill is tried again after a further HOLD. -/
def spillLater (s : State) (r : Req) (b : KvBlock) : State :=
  (s.putBlock { b with state := 0, tier := 0, copy := 0 }).putReq b.slot { r with holdAt := some (s.clk + s.regField Reg.SRV_KVCFG 0 16 * 1000000) }

/-- R235 steps 3 and 4: the target has acknowledged the last byte. -/
def spillDone (s : State) (slot pos group : Nat) : State :=
  match s.req? slot, s.kvBlock slot pos group with
  | some r, some b =>
    if b.state = 1 && b.tier != 0 then ((s.dropPages r.tenant b).putBlock { b with state := 2, frames := [], psns := [] }).trimKv r.tenant else s
  | _, _ => s

/-- R235: frames of this module to `m` in class 5 are acknowledged: the spills that have no other are done. -/
def spillAcked (s : State) (m : Nat) (psns : List Nat) : State :=
  (s.serve.kv.filter fun b => b.state == 1 && b.copy / 2 ^ 44 == m && b.psns.any psns.elem).foldl (fun s b =>
    let b1 := { b with psns := b.psns.filter fun p => !psns.elem p }
    if b1.psns.isEmpty then s.spillDone b.slot b.pos b.group else s.putBlock b1) s

/-- R235: ask for the copy of a block that has its frames: from the host, from another module, or from this module's own HBM
where it serves the role now (R237). A target out of reach loses the block. -/
def fetchAsk (s : State) (r : Req) (b : KvBlock) : State :=
  let b1 := { b with asked := b.asked + 1 }
  let blk := (b.slot, b.pos, b.group)
  if b.tier = 2 then
    (if (s.hostRange r.tenant (b.copy / 2 ^ 58) (b.copy % 2 ^ 58) b.length).isNone then s.loseBlock b.slot
     else (s.putBlock b1).regionRead r.tenant (b.copy / 2 ^ 58) (b.copy % 2 ^ 58) b.length (.kv b.slot b.pos b.group))
  else if s.peerFails (b.copy / 2 ^ 44) then s.loseBlock b.slot
  else (s.putBlock b1).sendKvRead b.copy b.length blk

/-- R235: the copy is back in the frames: checked against `crc`, mapped, resident; a mismatch is read again, 3 times at most. -/
def fetchDone (s : State) (slot pos group : Nat) : State :=
  match s.req? slot, s.kvBlock slot pos group with
  | some r, some b =>
    if b.state ≠ 3 then s
    else if (crc64 (s.blockBytes b)).toNat = b.crc && !b.frames.any fun a => s.poisonedIn a 4096 then
      (match mapPages r.tenant 12 s.kvLeaf b.frames b.vaddr s with
       | none => s
       | some s1 => s1.putBlock { b with state := 0, tier := 0, copy := 0, crc := 0, asked := 0 })
    else if b.asked ≤ 3 then s.fetchAsk r b
    else s.loseBlock slot
  | _, _ => s

/-- R235 step 1 of a fetch: frames for a block, then the read of its copy. -/
def fetchBegin (s : State) (r : Req) (b : KvBlock) : State :=
  match s.kvFrames r.tenant (b.length / 4096) with
  | none => s
  | some (fs, s1) =>
    let b1 := { b with frames := fs, asked := 0 }
    let s2 := s1.putBlock b1
    if b.tier = 1 && b.copy / 2 ^ 44 = s.self then
      let a := b.copy % 2 ^ 44
      let bad := s2.poisonedIn a b.length
      if bad then s2.loseBlock b.slot
      else ((s2.putBlock { b1 with asked := 4 }).blockWrite b1 0 (s2.readN a b.length)).fetchDone b.slot b.pos b.group
    else s2.fetchAsk r b1

/-- R235: the target of spills and fetches in class 5 rejects the frame `psn`, or fails: their blocks are lost. -/
def kvTargetFails (s : State) (p : KvBlock → Bool) (sinks : List (Nat × Nat × Nat)) : State :=
  let slots := ((s.serve.kv.filter fun b => b.state == 1 && !b.psns.isEmpty && p b).map (·.slot)) ++ sinks.map Prod.fst
  slots.foldl (fun s i => s.loseBlock i) s

/-- R237: the understudy fails or is replaced: the copies in its pool are lost. -/
def poolLost (s : State) : State :=
  let slots := (s.serve.kv.filter fun b => s.serve.pool.any fun g => s.holdsCopy g.1 b).map (·.slot)
  slots.foldl (fun s i => s.loseBlock i) (s.setServe { s.serve with pool := [] })

/-! ### Pins -/

/-- R282: pins on an epoch of a model: requests (`pinscope` 0) and steps. -/
def epochPins (s : State) (m e : Nat) : Nat :=
  (s.serve.reqs.filter fun r => r.2.model == m && r.2.epoch == e && (s.model? m).any (fun x => x.pinscope == 0)).length +
  (s.serve.steps.filter fun x => x.2.model == m && x.2.epoch == e).length

end State

end Sys2Proof.Machine
end

