-- ==== Sys2Proof/Machine/ItemOps.lean ====
section
/-! DEFINITION. What a fault does to the tenant's item: the fault record in the tenant's window and log, the fault count,
the end of the item (R264, R269). -/

namespace Sys2Proof.Machine

/-- R184: the 32 bytes of a fault record. -/
def FaultRec.bytes (r : FaultRec) : List Byte :=
  leBytes 1 r.status ++ leBytes 1 r.cause ++ leBytes 1 (r.eng % 16 + 16 * (r.stream % 4)) ++
  leBytes 1 (r.part % 4 + 4 * (r.shape % 4)) ++ leBytes 4 r.word.toNat ++ leBytes 8 r.pc.toNat ++
  leBytes 8 r.vaddr.toNat ++ leBytes 8 r.time

namespace State

/-- R264: the record is held in TNT_LASTFLT0 to TNT_LASTFLT7. -/
def setLastFault (s : State) (t : Nat) (rec : List Byte) : State :=
  (List.range 8).foldl (fun s i => s.setRegN (Reg.TNT_LASTFLT t i) (fieldAt rec (4 * i) 4)) s

def setTrain (s : State) (x : TrainSt) : State := { s with train := x }

/-- R428: the record of a job: what START fixed, the last step, anchors and credit, whether it is broken, its items. -/
def jobBytes (k : Nat) (j : Job) : List Byte :=
  leBytes 4 k ++ leBytes 4 j.last ++ leBytes 4 j.model ++ leBytes 1 j.tenant ++ leBytes 1 (bit j.broken) ++ leBytes 1 (bit j.run.isSome + 2 * bit j.tail.isSome) ++
  leBytes 1 j.waiting.length ++ j.fixed.flatMap (leBytes 4) ++ j.anchors.flatMap (fun a => leBytes 4 (a % 2 ^ 32).toNat) ++ leBytes 4 j.credit.length

def setJob (s : State) (k : Nat) (j : Job) : State :=
  (s.setTrain { s.train with jobs := Tab.setSome s.train.jobs k j }).roleRec (s.roleAt k) recTrain (jobBytes k j)

/-- End an item that may be another module's. -/
def endRef (s : State) (r : Option (Nat × Nat × Nat)) (d : Done) : State :=
  match r with
  | none => s
  | some (t, q, seq) => s.finish t q seq (if s.tntState t = 2 then { d with status := stReset } else d)

/-- R264, R364: a step ends as a fault says, and its job is broken; items that wait end with FAULT. -/
def jobFault (s : State) (k : Nat) (j : Job) (d : Done) : State :=
  let s1 := (j.tail.toList ++ j.run.toList).foldl (fun s x => s.endRef x.submit d)
    (s.setJob k { j with broken := true, run := none, tail := none, waiting := [] })
  j.waiting.foldl (fun s x => s.endRef x.submit { status := stFault }) s1

/-- R364: a fault of an UPDATE context (stream U) marks its job broken; in F or B it counts as absence (R359). -/
def breakJob (s : State) (job stream : Nat) (d : Done) : State :=
  match Tab.find? s.train.jobs job with
  | none => s
  | some j => if stream = 2 then s.jobFault job j d else s.setJob job { j with run := j.run.map fun x => { x with absent := true } }

/-- R279: at RELEASE of a curtain toward generation the items of a model that were accepted and not started end BUSY. -/
def busySteps (s : State) (id hint : Nat) : State :=
  (s.train.jobs.filter fun j => j.2.model == id).foldl (fun s j =>
    j.2.waiting.foldl (fun s x => s.endRef x.submit { status := stBusy, retry := capAt 65535 (ceilDiv hint 100000) })
      (s.setJob j.1 { j.2 with waiting := [] })) s

/-- R264, R269: a fault of tenant `t`: counted and recorded, and the item that the context works for ends. `slot` below
32768, or from 2^40 on, is a request slot, otherwise 32768 + a job number. In a tenant reset nothing is recorded (R272). -/
def itemFault (s : State) (t : Nat) (slot : Option Nat) (stream status : Nat) (rec : List Byte) : State :=
  if s.tntState t = 2 then s
  else
    let s1 := (s.setLastFault t rec).bump (Reg.TNT_FAULTS t) 1
    let r := s1.logFault t rec
    match slot with
    | none => r.2
    | some n =>
      if n < 32768 || 2 ^ 40 ≤ n then (if (s1.req? n).any (fun x => x.tenant == t) then r.2.endReq n status 6 r.1.1 r.1.2 else r.2)
      else r.2.breakJob (n - 32768) stream { status := status, flt := r.1.1, detail := if r.1.1 then r.1.2 else 0 }

end State

end Sys2Proof.Machine
end

