-- ==== Sys2Proof/Machine/CoreOps.lean ====
section
/-! DEFINITION. Operations on a core that several families share: stage access (R165, R166), the stop of a context with
its fault record (R183, R184), the fault of a partition (R86), zeroing (R88), starting the head of an engine queue
(R168) and retiring an instruction with its signal (R169). -/

namespace Sys2Proof.Machine

/-- R184: causes of a context stop. -/
def causeIllegal : Nat := 1
def causeFormat : Nat := 2
def causeTrans : Nat := 3
def causePoison : Nat := 4
def causeParity : Nat := 5
def causeSave : Nat := 6

/-- Why an engine does not run an instruction now: it waits, or its context stops. -/
inductive Halt where
  | wait
  | illegal
  /-- Translation, at a virtual address (0 for a stage range). -/
  | trans (va : Nat)
  /-- Poison, at a virtual address (0 for stage data). -/
  | poison (va : Nat)
  | parity
  deriving DecidableEq, Repr

/-- The result of an engine's check or computation. -/
abbrev Run (α : Type) := Except Halt α

/-- R165: is a stage range within the context's allocation. -/
def Ctx.inStage (c : Ctx) (off len : Nat) : Bool := decide (off + len ≤ c.len)

/-- The local address of a context's stage byte on core `n`. -/
def Ctx.stageAt (c : Ctx) (n off : Nat) : Nat := State.stageOf n + c.base + off

/-- R165, R166: read stage bytes of a context. -/
def State.stageRead (s : State) (n : Nat) (c : Ctx) (off len : Nat) : Run (List Byte) :=
  if !c.inStage off len then .error (.trans 0)
  else if s.poisonedIn (c.stageAt n off) len then .error (.poison 0)
  else .ok (s.readN (c.stageAt n off) len)

/-- R165: may stage bytes be written. -/
def Ctx.stageRoom (c : Ctx) (off len : Nat) : Run Unit := if c.inStage off len then .ok () else .error (.trans 0)

namespace Part

/-- Accumulator slot `sl` of column `c` (R100). -/
def slot (p : Part) (sl c : Nat) : Word32 := Tab.get 0#32 p.acc (64 * sl + c)
def setSlot (p : Part) (sl c : Nat) (v : Word32) : Part := { p with acc := Tab.set 0#32 p.acc (64 * sl + c) v }
/-- R100: exact entry `e` of column `c`. -/
def exact (p : Part) (e c : Nat) : Int :=
  signedOf 64 ((p.slot (2 * e) c).toNat + 2 ^ 32 * (p.slot (2 * e + 1) c).toNat)
def setExact (p : Part) (e c : Nat) (v : Int) : Part :=
  (p.setSlot (2 * e) c (BitVec.ofNat 32 (patternOf 64 v))).setSlot (2 * e + 1) c (BitVec.ofNat 32 (patternOf 64 v / 2 ^ 32))
/-- Tile status word `w` (R102). -/
def word (p : Part) (w : Nat) : Word32 := Tab.get 0#32 p.tsw w
def setWord (p : Part) (w : Nat) (v : Word32) : Part := { p with tsw := Tab.set 0#32 p.tsw w v }

end Part

/-- Fields of a tile status word (R102). -/
def tsMode (w : Word32) : Nat := field w.toNat 20 2
def tsAnchor (w : Word32) : Int := signedOf 10 (field w.toNat 22 10)
def tsFlags (w : Word32) : Nat := field w.toNat 0 3
def mkTs (anchor : Int) (mode flags : Nat) : Word32 :=
  BitVec.ofNat 32 (patternOf 10 anchor * 2 ^ 22 + mode * 2 ^ 20 + flags)

/-- R101: the status words of entry `e`: one for a normal entry, two for an exact one. -/
def tileWords (exact : Bool) (e : Nat) : List Nat := if exact then [2 * (e / 64), 2 * (e / 64) + 1] else [e / 64]

/-- R88: a partition with everything zeroed, busy until PARTITION_ZEROED. -/
def zeroedPart : Part := { zeroing := true }

/-- R89: the horizon in ns (PWR_GHOST). -/
def State.horizon (s : State) : Nat := s.regField Reg.PWR_GHOST 0 16 * 1000

/-- R89, R32: a partition with no row left to issue is in a gap, under the horizon in force when it began. -/
def Ghost.enterGap (g : Ghost) (s : State) : Ghost :=
  match g.gap with
  | some _ => g
  | none => { g with gap := some (s.clk, s.horizon), spent := false }

/-- R86: the partition's matrix work ends: rows in flight, the drain and queued matrix instructions are discarded. -/
def State.endMatrix (s : State) (p : Part) : Part :=
  { p with
    rows := [], runs := [], drain := none, stopped := true
    ghost := p.ghost.enterGap s
    ctx := p.ctx.map fun c => ((c.setQueue 0 1 []).setQueue 1 1 []).setQueue 2 1 [] }

/-- R183: streams of a stopped context. Idle and ended ones stay. -/
def Ctx.stopStreams (c : Ctx) : Ctx :=
  [0, 1, 2].foldl (fun c i => if (c.stream i).st == 0 || (c.stream i).st == 4 then c else c.setStream i { c.stream i with st := 5 }) c

/-- R183: nothing of the context is in flight. -/
def Part.quiet (p : Part) (c : Ctx) : Bool :=
  c.fly.isNone && c.susp.isNone && c.moves.isEmpty && p.runs.isEmpty && p.drain.isNone && c.nmv == 0

/-- Does a vector instruction name the head of the tile queue (R179). -/
def namesHead (w : IWord) : Bool := Iw.a w == 128 || Iw.bb w == 128 || Iw.c w == 128

/-- R168, R137: the head of a share waits: for its counter, or for a tile of an empty queue. An empty share has none. -/
def Part.headWaits (p : Part) (c : Ctx) (stream eng : Nat) : Bool :=
  match c.queue stream eng with
  | [] => true
  | e :: _ => (Iw.waitEn e.word && !c.waitOk (Iw.waitCtr e.word) (Iw.wval e.word)) || (eng == 2 && namesHead e.word && p.tq.isEmpty)

/-- R49, R183.2: nothing of a stopped context is in flight and every head of a load, vector or store share waits: no wait
can be satisfied any more. -/
def Part.stuck (p : Part) (c : Ctx) : Bool :=
  p.quiet c && [0, 2, 3].all fun e => [0, 1, 2].all fun k => p.headWaits c k e

/-- R172: new shares take effect once every queue is empty. -/
def Ctx.applyShares (c : Ctx) : Ctx :=
  match c.qsh with
  | some (a, b, d) =>
    if c.queuesEmpty then
      { ((c.setStream 0 { c.stream 0 with share := a }).setStream 1 { c.stream 1 with share := b }).setStream 2
          { c.stream 2 with share := d } with qsh := none }
    else c
  | none => c

/-- R183.2: what waits in vain in a stopped context is discarded. -/
def Part.settle (p : Part) (c : Ctx) : Ctx := if c.fault.isSome && p.stuck c then { c with queues := [] } else c

/-- Put a context back after an instruction started or retired, with the consequences of R172 and R183. -/
def State.putCtx (s : State) (n p : Nat) (c : Ctx) : State := s.setCtx n p ((s.part n p).settle c.applyShares)

/-- R183, R184: stop the context of partition `p` of core `n`. Only the first fault is recorded; a later one sets MORE.
The event is source 128 + n with the record's bytes `cause` and `part` (R505). -/
def State.stopCtx (s : State) (n p eng stream cause : Nat) (word : IWord) (pc : BitVec 48) (va : Nat) : State :=
  match s.ctx n p with
  | none => s
  | some c =>
    if c.fault.isSome then s.setCtx n p { c with more := true }
    else
      let rec_ : FaultRec :=
        { status := if cause = causeFormat then 0x09 else 0x0F, cause := cause, eng := eng, stream := stream, part := p
          shape := (s.core n).shape, word := word.setWidth 32, pc := pc, vaddr := BitVec.ofNat 48 va, time := s.now }
      let p1 := s.endMatrix (s.part n p)
      let s1 := s.setPart n p { p1 with ctx := p1.ctx.map fun c => p1.settle { c.stopStreams with fault := some rec_ } }
      (s1.raise (128 + n) (cause * 256 + rec_.part + 4 * rec_.shape)).itemFault c.tenant c.slot stream rec_.status rec_.bytes

/-- The cause and address of a halt. -/
def Halt.cause : Halt → Option (Nat × Nat)
  | .wait => none
  | .illegal => some (causeIllegal, 0)
  | .trans va => some (causeTrans, va)
  | .poison va => some (causePoison, va)
  | .parity => some (causeParity, 0)

/-- IST_STATUS.KIND and RUNNING (R520): the lowest kind of the slices that run stands for them (assumption log, entry 29). -/
def State.showIst (s : State) : State :=
  let kinds := (s.cores.filterMap fun c => c.2.testing.map Prod.fst) ++ s.ist.grans.map Prod.fst
  let k := kinds.foldl min 8
  s.setField Reg.IST_STATUS 28 4 (if kinds.isEmpty then 0 else 8 + k)

/-- R516, R517: the decision to retire a core; one already retired stays as it is. -/
def State.retireCore (s : State) (n : Nat) : State :=
  let k := s.core n
  if k.retired || 128 ≤ n then s
  else
    let s1 := (s.setCore n { k with retired := true, testing := none }).setField (Reg.IST_CORE n) 31 1 1
    let s2 := { s1 with ist := { s1.ist with retiring := Tab.setSome s1.ist.retiring n s1.clk } }
    (s2.setField Reg.IST_STATUS 0 8 (s2.regField Reg.IST_STATUS 0 8 + 1)).showIst

/-- R85: a parity error is counted and its event raised (source 256 + n). R516: PARTHR of them in 24 h retire the core. -/
def State.countParity (s : State) (n p : Nat) : State :=
  let k := s.core n
  let times := s.clk :: k.parityAt.filter fun t => decide (s.clk < t + 86400000000000)
  let s1 := (s.setCore n { k with parityAt := times, parity := BitVec.ofNat 32 (capAt (2 ^ 32 - 1) (k.parity.toNat + 1)) }).raise (256 + n) p
  let thr := s1.regField Reg.IST_CFG 8 8
  if thr ≠ 0 && thr ≤ times.length then s1.retireCore n else s1

/-- Stop the context for a halt; a wait changes nothing. -/
def State.haltCtx (s : State) (n p eng stream : Nat) (e : QEnt) (h : Halt) : State :=
  match h.cause with
  | none => s
  | some (cause, va) =>
    let s1 := if h = .parity then s.countParity n p else s
    s1.stopCtx n p eng stream cause e.word e.pc va

/-- R168: the head of a stream's share on an engine, if its opcode is `op` and its wait is satisfied. -/
def Ctx.ready (c : Ctx) (stream eng op : Nat) : Option QEnt :=
  match c.queue stream eng with
  | [] => none
  | e :: _ =>
    if Iw.opcode e.word = op && (!Iw.waitEn e.word || c.waitOk (Iw.waitCtr e.word) (Iw.wval e.word)) then some e else none

/-- Take the head of a share. -/
def Ctx.take (c : Ctx) (stream eng : Nat) : Ctx := c.setQueue stream eng ((c.queue stream eng).drop 1)

/-- R169: an engine instruction signals at retirement. -/
def Ctx.signalOf (c : Ctx) (w : IWord) : Ctx := if Iw.sigEn w then c.signal (Iw.sigCtr w) else c

/-- Start the head of a share: nothing happens where no context is there or the head is not ready; `k` gets the
context without the head. The matrix engine of a stopped partition starts nothing (R88). -/
def State.startHead (s : State) (n p stream eng op : Nat) (k : Ctx → QEnt → State) : State :=
  match s.ctx n p with
  | none => s
  | some c =>
    if eng = 1 && (s.part n p).stopped then s
    else match c.ready stream eng op with
      | none => s
      | some e => k (c.take stream eng) e

end Sys2Proof.Machine
end

