-- ==== Sys2Proof/Machine/Random.lean ====
section
/-! DEFINITION. The random generator (R194, R195), the counter of an element (R197) and the knots of the normal and
Gumbel constructions (R204). -/

namespace Sys2Proof

/-- R194: the constants of the generator. -/
def genM1 : BitVec 64 := 0xC2D74A3B1E96F5A5#64
def genM2 : BitVec 64 := 0x8F3A65C1D24B79E3#64
def genM3 : BitVec 64 := 0x5B1EC08D37A9F64D#64

/-- R194: one round of the generator. -/
def genRound (seed : BitVec 64) (i : Nat) (x : BitVec 64) : BitVec 64 :=
  let y := (x ^^^ (seed + BitVec.ofNat 64 (i + 1) * genM3)) * genM2
  y ^^^ (y >>> 29)

/-- R194: F(S, T, c). -/
def genF (seed : BitVec 64) (stream : BitVec 32) (c : BitVec 64) : BitVec 64 :=
  let x := c ^^^ (stream.setWidth 64 * genM1)
  genRound seed 5 (genRound seed 4 (genRound seed 3 (genRound seed 2 (genRound seed 1 (genRound seed 0 x)))))

/-- R197: the counter of an element. -/
def genCounter (index slot : Nat) : BitVec 64 := BitVec.ofNat 64 (index * 256 + slot % 256)

/-- R195: the 32-bit draw of an element. -/
def draw (seed : BitVec 64) (stream : BitVec 32) (index slot : Nat) : Nat :=
  (genF seed stream (genCounter index slot)).toNat % 2 ^ 32

def normalKnots0 : List Word32 :=
  [0xC0A00000#32, 0xC02A3E8C#32, 0xC01AB949#32, 0xC01109DC#32, 0xC009D915#32, 0xC00410D7#32, 0xBFFE6409#32, 0xBFF5EED2#32,
   0xBFEE6DFF#32, 0xBFE7AA8D#32, 0xBFE17E6A#32, 0xBFDBCE22#32, 0xBFD68531#32, 0xBFD193E1#32, 0xBFCCEDDA#32, 0xBFC88940#32,
   0xBFC45E10#32, 0xBFC065AD#32, 0xBFBC9A96#32, 0xBFB8F823#32, 0xBFB57A60#32, 0xBFB21DE7#32, 0xBFAEDFC4#32, 0xBFABBD69#32,
   0xBFA8B495#32, 0xBFA5C34B#32, 0xBFA2E7CA#32, 0xBFA0207F#32, 0xBF9D6C03#32, 0xBF9AC912#32, 0xBF98368A#32, 0xBF95B360#32]
def normalKnots1 : List Word32 :=
  [0xBF933EA6#32, 0xBF90D780#32, 0xBF8E7D26#32, 0xBF8C2EE1#32, 0xBF89EC08#32, 0xBF87B3FE#32, 0xBF858636#32, 0xBF836229#32,
   0xBF81475C#32, 0xBF7E6AB8#32, 0xBF7A577E#32, 0xBF765442#32, 0xBF72604A#32, 0xBF6E7AE7#32, 0xBF6AA375#32, 0xBF66D95C#32,
   0xBF631C09#32, 0xBF5F6AF7#32, 0xBF5BC5A3#32, 0xBF582B96#32, 0xBF549C5C#32, 0xBF51178A#32, 0xBF4D9CB8#32, 0xBF4A2B84#32,
   0xBF46C394#32, 0xBF43648D#32, 0xBF400E1D#32, 0xBF3CBFF4#32, 0xBF3979C6#32, 0xBF363B4A#32, 0xBF33043B#32, 0xBF2FD456#32]
def normalKnots2 : List Word32 :=
  [0xBF2CAB5C#32, 0xBF298910#32, 0xBF266D38#32, 0xBF23579C#32, 0xBF204806#32, 0xBF1D3E43#32, 0xBF1A3A21#32, 0xBF173B6F#32,
   0xBF144201#32, 0xBF114DAA#32, 0xBF0E5E3F#32, 0xBF0B7397#32, 0xBF088D8A#32, 0xBF05ABF1#32, 0xBF02CEA8#32, 0xBEFFEB13#32,
   0xBEFA40E7#32, 0xBEF49E88#32, 0xBEEF03B4#32, 0xBEE9702C#32, 0xBEE3E3B1#32, 0xBEDE5E08#32, 0xBED8DEF7#32, 0xBED36644#32,
   0xBECDF3B8#32, 0xBEC8871E#32, 0xBEC32041#32, 0xBEBDBEEE#32, 0xBEB862F2#32, 0xBEB30C1D#32, 0xBEADBA40#32, 0xBEA86D2C#32]
def normalKnots3 : List Word32 :=
  [0xBEA324B3#32, 0xBE9DE0A9#32, 0xBE98A0E1#32, 0xBE936532#32, 0xBE8E2D71#32, 0xBE88F975#32, 0xBE83C916#32, 0xBE7D3856#32,
   0xBE72E51C#32, 0xBE689831#32, 0xBE5E5149#32, 0xBE541019#32, 0xBE49D458#32, 0xBE3F9DBD#32, 0xBE356C01#32, 0xBE2B3EDE#32,
   0xBE21160D#32, 0xBE16F14A#32, 0xBE0CD050#32, 0xBE02B2DC#32, 0xBDF13155#32, 0xBDDD02F3#32, 0xBDC8DA0D#32, 0xBDB4B622#32,
   0xBDA096B0#32, 0xBD8C7B35#32, 0xBD70C660#32, 0xBD489C46#32, 0xBD20771A#32, 0xBCF0ABC2#32, 0xBCA06F39#32, 0xBC206D41#32]
def normalKnots4 : List Word32 :=
  [0x00000000#32, 0x3C206D41#32, 0x3CA06F39#32, 0x3CF0ABC2#32, 0x3D20771A#32, 0x3D489C46#32, 0x3D70C660#32, 0x3D8C7B35#32,
   0x3DA096B0#32, 0x3DB4B622#32, 0x3DC8DA0D#32, 0x3DDD02F3#32, 0x3DF13155#32, 0x3E02B2DC#32, 0x3E0CD050#32, 0x3E16F14A#32,
   0x3E21160D#32, 0x3E2B3EDE#32, 0x3E356C01#32, 0x3E3F9DBD#32, 0x3E49D458#32, 0x3E541019#32, 0x3E5E5149#32, 0x3E689831#32,
   0x3E72E51C#32, 0x3E7D3856#32, 0x3E83C916#32, 0x3E88F975#32, 0x3E8E2D71#32, 0x3E936532#32, 0x3E98A0E1#32, 0x3E9DE0A9#32]
def normalKnots5 : List Word32 :=
  [0x3EA324B3#32, 0x3EA86D2C#32, 0x3EADBA40#32, 0x3EB30C1D#32, 0x3EB862F2#32, 0x3EBDBEEE#32, 0x3EC32041#32, 0x3EC8871E#32,
   0x3ECDF3B8#32, 0x3ED36644#32, 0x3ED8DEF7#32, 0x3EDE5E08#32, 0x3EE3E3B1#32, 0x3EE9702C#32, 0x3EEF03B4#32, 0x3EF49E88#32,
   0x3EFA40E7#32, 0x3EFFEB13#32, 0x3F02CEA8#32, 0x3F05ABF1#32, 0x3F088D8A#32, 0x3F0B7397#32, 0x3F0E5E3F#32, 0x3F114DAA#32,
   0x3F144201#32, 0x3F173B6F#32, 0x3F1A3A21#32, 0x3F1D3E43#32, 0x3F204806#32, 0x3F23579C#32, 0x3F266D38#32, 0x3F298910#32]
def normalKnots6 : List Word32 :=
  [0x3F2CAB5C#32, 0x3F2FD456#32, 0x3F33043B#32, 0x3F363B4A#32, 0x3F3979C6#32, 0x3F3CBFF4#32, 0x3F400E1D#32, 0x3F43648D#32,
   0x3F46C394#32, 0x3F4A2B84#32, 0x3F4D9CB8#32, 0x3F51178A#32, 0x3F549C5C#32, 0x3F582B96#32, 0x3F5BC5A3#32, 0x3F5F6AF7#32,
   0x3F631C09#32, 0x3F66D95C#32, 0x3F6AA375#32, 0x3F6E7AE7#32, 0x3F72604A#32, 0x3F765442#32, 0x3F7A577E#32, 0x3F7E6AB8#32,
   0x3F81475C#32, 0x3F836229#32, 0x3F858636#32, 0x3F87B3FE#32, 0x3F89EC08#32, 0x3F8C2EE1#32, 0x3F8E7D26#32, 0x3F90D780#32]
def normalKnots7 : List Word32 :=
  [0x3F933EA6#32, 0x3F95B360#32, 0x3F98368A#32, 0x3F9AC912#32, 0x3F9D6C03#32, 0x3FA0207F#32, 0x3FA2E7CA#32, 0x3FA5C34B#32,
   0x3FA8B495#32, 0x3FABBD69#32, 0x3FAEDFC4#32, 0x3FB21DE7#32, 0x3FB57A60#32, 0x3FB8F823#32, 0x3FBC9A96#32, 0x3FC065AD#32,
   0x3FC45E10#32, 0x3FC88940#32, 0x3FCCEDDA#32, 0x3FD193E1#32, 0x3FD68531#32, 0x3FDBCE22#32, 0x3FE17E6A#32, 0x3FE7AA8D#32,
   0x3FEE6DFF#32, 0x3FF5EED2#32, 0x3FFE6409#32, 0x400410D7#32, 0x4009D915#32, 0x401109DC#32, 0x401AB949#32, 0x402A3E8C#32]
def normalKnots8 : List Word32 :=
  [0x40A00000#32]
/-- R204: the knots N[0] to N[256] of the normal construction, computed from the definition. -/
def normalKnots : List Word32 :=
  normalKnots0 ++ normalKnots1 ++ normalKnots2 ++ normalKnots3 ++ normalKnots4 ++ normalKnots5 ++ normalKnots6 ++ normalKnots7 ++ normalKnots8

def gumbelKnots0 : List Word32 :=
  [0xC0200000#32, 0xBFDB413F#32, 0xBFCA29B0#32, 0xBFBEFE2E#32, 0xBFB66E7B#32, 0xBFAF5F66#32, 0xBFA94D26#32, 0xBFA3EEF8#32,
   0xBF9F182B#32, 0xBF9AAB2F#32, 0xBF969365#32, 0xBF92C1CD#32, 0xBF8F2B1F#32, 0xBF8BC6A7#32, 0xBF888D86#32, 0xBF857A35#32,
   0xBF828833#32, 0xBF7F6782#32, 0xBF79F37B#32, 0xBF74AF02#32, 0xBF6F958E#32, 0xBF6AA333#32, 0xBF65D48A#32, 0xBF61269B#32,
   0xBF5C96C5#32, 0xBF5822B7#32, 0xBF53C861#32, 0xBF4F85EA#32, 0xBF4B59A9#32, 0xBF47421F#32, 0xBF433DF2#32, 0xBF3F4BE6#32]
def gumbelKnots1 : List Word32 :=
  [0xBF3B6ADD#32, 0xBF3799D0#32, 0xBF33D7CE#32, 0xBF3023F9#32, 0xBF2C7D85#32, 0xBF28E3B6#32, 0xBF2555DC#32, 0xBF21D354#32,
   0xBF1E5B88#32, 0xBF1AEDEB#32, 0xBF1789F8#32, 0xBF142F35#32, 0xBF10DD2E#32, 0xBF0D9375#32, 0xBF0A51A6#32, 0xBF07175F#32,
   0xBF03E445#32, 0xBF00B804#32, 0xBEFB2492#32, 0xBEF4E58F#32, 0xBEEEB26C#32, 0xBEE88A9F#32, 0xBEE26DA3#32, 0xBEDC5AFA#32,
   0xBED6522D#32, 0xBED052C7#32, 0xBECA5C5D#32, 0xBEC46E84#32, 0xBEBE88D8#32, 0xBEB8AAF9#32, 0xBEB2D48A#32, 0xBEAD0532#32]
def gumbelKnots2 : List Word32 :=
  [0xBEA73C9B#32, 0xBEA17A73#32, 0xBE9BBE6B#32, 0xBE960835#32, 0xBE905787#32, 0xBE8AAC1B#32, 0xBE8505AA#32, 0xBE7EC7E4#32,
   0xBE738D63#32, 0xBE685B51#32, 0xBE5D3136#32, 0xBE520E99#32, 0xBE46F307#32, 0xBE3BDE0E#32, 0xBE30CF40#32, 0xBE25C633#32,
   0xBE1AC27D#32, 0xBE0FC3B7#32, 0xBE04C97E#32, 0xBDF3A6E0#32, 0xBDDDC257#32, 0xBDC7E4A6#32, 0xBDB20D14#32, 0xBD9C3AEC#32,
   0xBD866D7B#32, 0xBD614823#32, 0xBD35BC04#32, 0xBD0A3546#32, 0xBCBD6530#32, 0xBC4CCABA#32, 0xBAF68845#32, 0x3C0F27C4#32]
def gumbelKnots3 : List Word32 :=
  [0x3C9E9256#32, 0x3CF59553#32, 0x3D264FA6#32, 0x3D51D959#32, 0x3D7D68F7#32, 0x3D947FDA#32, 0x3DAA4F60#32, 0x3DC023A6#32,
   0x3DD5FD42#32, 0x3DEBDCCC#32, 0x3E00E16C#32, 0x3E0BD7FF#32, 0x3E16D26A#32, 0x3E21D0F6#32, 0x3E2CD3EE#32, 0x3E37DB9E#32,
   0x3E42E850#32, 0x3E4DFA4F#32, 0x3E5911E5#32, 0x3E642F5F#32, 0x3E6F5307#32, 0x3E7A7D2B#32, 0x3E82D70B#32, 0x3E88730A#32,
   0x3E8E12BA#32, 0x3E93B641#32, 0x3E995DC8#32, 0x3E9F0974#32, 0x3EA4B96F#32, 0x3EAA6DE0#32, 0x3EB026F1#32, 0x3EB5E4CA#32]
def gumbelKnots4 : List Word32 :=
  [0x3EBBA795#32, 0x3EC16F7C#32, 0x3EC73CA9#32, 0x3ECD0F49#32, 0x3ED2E786#32, 0x3ED8C58D#32, 0x3EDEA98B#32, 0x3EE493AE#32,
   0x3EEA8424#32, 0x3EF07B1C#32, 0x3EF678C7#32, 0x3EFC7D54#32, 0x3F01447C#32, 0x3F044DF1#32, 0x3F075B23#32, 0x3F0A6C2D#32,
   0x3F0D812A#32, 0x3F109A35#32, 0x3F13B769#32, 0x3F16D8E4#32, 0x3F19FEC2#32, 0x3F1D2921#32, 0x3F205820#32, 0x3F238BDE#32,
   0x3F26C47A#32, 0x3F2A0215#32, 0x3F2D44D1#32, 0x3F308CD0#32, 0x3F33DA36#32, 0x3F372D25#32, 0x3F3A85C4#32, 0x3F3DE437#32]
def gumbelKnots5 : List Word32 :=
  [0x3F4148A7#32, 0x3F44B33C#32, 0x3F48241E#32, 0x3F4B9B79#32, 0x3F4F1977#32, 0x3F529E47#32, 0x3F562A15#32, 0x3F59BD13#32,
   0x3F5D5772#32, 0x3F60F963#32, 0x3F64A31D#32, 0x3F6854D4#32, 0x3F6C0EC1#32, 0x3F6FD11F#32, 0x3F739C28#32, 0x3F77701B#32,
   0x3F7B4D39#32, 0x3F7F33C2#32, 0x3F8191FF#32, 0x3F838F19#32, 0x3F859154#32, 0x3F8798D8#32, 0x3F89A5CC#32, 0x3F8BB859#32,
   0x3F8DD0AB#32, 0x3F8FEEEE#32, 0x3F921353#32, 0x3F943E09#32, 0x3F966F43#32, 0x3F98A736#32, 0x3F9AE61B#32, 0x3F9D2C2A#32]
def gumbelKnots6 : List Word32 :=
  [0x3F9F79A1#32, 0x3FA1CEBF#32, 0x3FA42BC5#32, 0x3FA690FB#32, 0x3FA8FEA8#32, 0x3FAB751A#32, 0x3FADF4A0#32, 0x3FB07D8F#32,
   0x3FB31041#32, 0x3FB5AD14#32, 0x3FB85469#32, 0x3FBB06AA#32, 0x3FBDC445#32, 0x3FC08DAF#32, 0x3FC36363#32, 0x3FC645E4#32,
   0x3FC935BE#32, 0x3FCC3383#32, 0x3FCF3FD3#32, 0x3FD25B53#32, 0x3FD586B7#32, 0x3FD8C2BF#32, 0x3FDC1037#32, 0x3FDF6FF9#32,
   0x3FE2E2F3#32, 0x3FE66A20#32, 0x3FEA0693#32, 0x3FEDB972#32, 0x3FF183FC#32, 0x3FF5678B#32, 0x3FF96598#32, 0x3FFD7FBB#32]
def gumbelKnots7 : List Word32 :=
  [0x4000DBDA#32, 0x400307B7#32, 0x40054481#32, 0x40079360#32, 0x4009F59D#32, 0x400C6CA2#32, 0x400EFA04#32, 0x40119F87#32,
   0x40145F26#32, 0x40173B1D#32, 0x401A35F5#32, 0x401D5290#32, 0x4020943E#32, 0x4023FED0#32, 0x402796B6#32, 0x402B6124#32,
   0x402F643D#32, 0x4033A758#32, 0x40383351#32, 0x403D12FA#32, 0x404253C2#32, 0x4048069A#32, 0x404E414D#32, 0x4055208D#32,
   0x405CCB38#32, 0x406577CD#32, 0x406F7619#32, 0x407B41D7#32, 0x4084D526#32, 0x408E1A07#32, 0x409B23BA#32, 0x40B16211#32]
def gumbelKnots8 : List Word32 :=
  [0x41100000#32]
/-- R204: the knots G[0] to G[256] of the Gumbel construction, computed from the definition. -/
def gumbelKnots : List Word32 :=
  gumbelKnots0 ++ gumbelKnots1 ++ gumbelKnots2 ++ gumbelKnots3 ++ gumbelKnots4 ++ gumbelKnots5 ++ gumbelKnots6 ++ gumbelKnots7 ++ gumbelKnots8

/-- R204: a value of the piecewise-linear inverse distribution, each step one FP32 operation. -/
def fromKnots (knots : List Word32) (u : Nat) : Word32 :=
  let j := field u 24 8
  let f := f32 (.fin false (field u 0 24) (-24))
  let k0 := knots.getD j 0#32
  let d := fsub (knots.getD (j + 1) 0#32) k0
  fadd k0 (fmul f d)

/-- R204: the normal value of a draw, before the mean and the deviation. -/
def normalOf (u : Nat) : Word32 := fromKnots normalKnots u
/-- R204: the Gumbel value of a draw. -/
def gumbelOf (u : Nat) : Word32 := fromKnots gumbelKnots u
/-- R202: kind UNIFORM, u[31:8] times 2^-24. -/
def uniformOf (u : Nat) : Word32 := f32 (.fin false (field u 8 24) (-24))

end Sys2Proof
end

