-- ==== Sys2Proof/Machine/VecOps.lean ====
section
/-! DEFINITION. What vector instructions share: sources (R130 to R134), segments (R143), results and their start and
retirement (R139, R149). -/

namespace Sys2Proof.Machine

/-- What a vector instruction computes from: the machine, its core, partition, context and word; the elements it had
completed before it was suspended (R160). -/
structure VecEnv where
  s    : State
  n    : Nat
  p    : Nat
  part : Part
  ctx  : Ctx
  w    : IWord
  k    : Nat := 0

namespace VecEnv

def width (e : VecEnv) : Nat := e.s.coreW e.n
def len (e : VecEnv) : Nat := e.s.regLen e.n
/-- The element count of the instruction. -/
def count (e : VecEnv) : Nat := Iw.n e.w
/-- R140: a scalar is the low 32 bits of a general register. -/
def scalar (e : VecEnv) (i : Nat) : Word32 := (e.ctx.reg i).setWidth 32
/-- R198: the first logical index is the full 64-bit register. A stage byte address and an element offset (R133) are read in
the same way: the manual gives no width for them (DESIGN CHOICE, log entry 90). -/
def index (e : VecEnv) (i : Nat) : Nat := (e.ctx.reg i).toNat

end VecEnv

/-- R131: the first `n` elements of a register, +0 beyond its valid count. -/
def padWords (n : Nat) (xs : List Word32) : List Word32 := xs.take n ++ List.replicate (n - xs.length) 0#32

/-- R160: results whose first `k` elements were written to register `i` before the instruction was suspended. -/
def VecEnv.resume (e : VecEnv) (i : Nat) (ws : List Word32) : List Word32 :=
  if e.k = 0 then ws else padWords (capAt ws.length e.k) (e.ctx.vreg i).elems ++ ws.drop e.k

/-- A source as read: its words, and the status-word bits of the tiles it touches (R135). -/
structure SrcVal where
  words : List Word32
  tsw   : Nat := 0
  pop   : Bool := false
  deriving DecidableEq, Repr

/-- R132: does a register pass the check for elements of `bits` bits. -/
def VReg.fits (v : VReg) (bits : Nat) : Bool := v.elems.isEmpty || v.tag == bits

/-- R132: a register source of 32-bit elements. -/
def readReg32 (c : Ctx) (i n : Nat) : Run (List Word32) :=
  if (c.vreg i).fits 32 then .ok (padWords n (c.vreg i).elems) else .error .illegal

/-- The slots that a region or a row covers, as a half-open range. -/
def slotRange (exact : Bool) (base count : Nat) : Nat × Nat :=
  if exact then (2 * base, 2 * (base + count)) else (base, base + count)

/-- R119, R120: does a row in flight name an entry of a slot range. -/
def rowTouches (lo hi : Nat) (r : Row) : Bool :=
  let x := slotRange (r.mode == 3) r.entry 1
  decide (x.1 < hi ∧ lo < x.2)

/-- Read interlock of R120: some row for the region is still in flight. -/
def regionBusy (p : Part) (r : Region) : Bool :=
  let x := slotRange r.exact r.base r.count
  p.rows.any (rowTouches x.1 x.2)

/-- R101: the status words of the tiles that a range of entries touches. An exact tile has two. -/
def rangeWords (exact : Bool) (base count : Nat) : List Nat :=
  (List.range ((base + count - 1) / 64 - base / 64 + 1)).flatMap fun i => tileWords exact (base / 64 * 64 + 64 * i)

/-- R135: the status bits of every tile that a region touches. -/
def regionFlags (p : Part) (r : Region) : Nat :=
  (rangeWords r.exact r.base r.count).foldl (fun a w => a ||| tsFlags (p.word w)) 0

/-- The status word that governs entry `e`. -/
def entryWord (p : Part) (exact : Bool) (e : Nat) : Word32 := p.word ((slotRange exact e 1).1 / 64)

/-- R134: one element of a region by the mode of its tile, as FP32 or INT32 bits. -/
def regionElem (p : Part) (exact isInt : Bool) (e c : Nat) : Run Word32 :=
  let w := entryWord p exact e
  let m := tsMode w
  if m = 0 then .ok 0#32
  else if m = 1 then (if isInt || exact then .error .illegal else .ok (p.slot e c))
  else if m = 2 then (if !isInt || exact then .error .illegal else .ok (p.slot e c))
  else if isInt || !exact then .error .illegal
  else if tbit w.toNat 1 then .ok F32.nan
  else .ok (fromGrid (tsAnchor w) (p.exact e c)).bits

/-- R134: the entry and column of element `i` of a region. -/
def regionAt (r : Region) (i : Nat) : Nat × Nat := (r.base + i / r.width, r.c0 + i % r.width)

/-- R134: the elements of a region in order. -/
def regionWords (p : Part) (r : Region) (isInt : Bool) : Run (List Word32) :=
  (List.range (r.count * r.width)).mapM fun i => regionElem p r.exact isInt (regionAt r i).1 (regionAt r i).2

/-- R134: the region that a general register names, checked against the partition; it waits for rows in flight. -/
def findRegion (e : VecEnv) (g : Nat) : Run Region :=
  match regionOf (e.ctx.reg g) with
  | none => .error .illegal
  | some r => if !r.fits e.width then .error .illegal else if regionBusy e.part r then .error .wait else .ok r

/-- R132, R134, R137: a source of 32-bit elements. -/
def readSrc (e : VecEnv) (spec : Nat) (isInt : Bool) : Run SrcVal :=
  match srcOf spec with
  | .bad => .error .illegal
  | .reg i => (readReg32 e.ctx i e.count).map fun ws => { words := ws }
  | .region g => do
    let r ← findRegion e g
    if r.count * r.width ≠ e.count then .error .illegal
    else
      let ws ← regionWords e.part r isInt
      .ok { words := ws, tsw := regionFlags e.part r }
  | .head =>
    if e.count ≠ 64 * e.width then .error .illegal
    else if e.count ≤ e.k then .ok { words := padWords e.count [] }
    else match e.part.tq with
      | [] => .error .wait
      | t :: _ => .ok { words := padWords e.count t.words, tsw := tsFlags t.status, pop := true }

/-- R134: the ERF blocks that a drain of the region would produce (R78). -/
def regionErf (p : Part) (r : Region) : Run (List Erf) :=
  let ws := (rangeWords true r.base r.count).map p.word
  let live := ws.filter fun w => tsMode w != 0
  if !r.exact || live.any (fun w => tsMode w != 3) then .error .illegal
  else
    let anchors := live.map tsAnchor
    let a := anchors.headD 0
    if anchors.any (fun b => b != a) then .error .illegal
    else
      let vals := (List.range (r.count * r.width)).map fun i =>
        let x := regionAt r i
        let w := entryWord p true x.1
        (if tsMode w = 0 then (0, 0) else (p.exact x.1 x.2, tsFlags w) : Int × Nat)
      .ok ((chunksOf 32 (vals.length / 32 + 1) vals).map fun ch =>
        { anchor := a, sat := ch.any (fun v => tbit v.2 0), nan := ch.any (fun v => tbit v.2 1), count := 1
          vals := erfVals (ch.map (·.1)) })

/-- R132, R134, R148: a source of ERF blocks: `blocks` of them from a register, or a region read as blocks. VX.CVT counts
the region's elements, VX.EADD its blocks. -/
def readErf (e : VecEnv) (spec blocks : Nat) (ofElems : Bool) : Run (List Erf × Nat) :=
  match srcOf spec with
  | .reg i =>
    if (e.ctx.vreg i).fits 32 then .ok ((List.range blocks).map (Erf.ofWords (e.ctx.vreg i).elems), 0) else .error .illegal
  | .region g => do
    let r ← findRegion e g
    let bs ← regionErf e.part r
    if (if ofElems then r.count * r.width else ceilDiv (r.count * r.width) 32) ≠ e.count then .error .illegal
    else .ok (bs, regionFlags e.part r)
  | _ => .error .illegal

/-- R143: the segment length, checked. -/
def segLen (e : VecEnv) : Run Nat :=
  let s := (e.scalar (Iw.p e.w)).toNat
  if s = 0 || e.count < s then .error .illegal else .ok s

/-- R143: consecutive segments of `k` elements, the last one partial. -/
def segments {α : Type} (k : Nat) (xs : List α) : List (List α) := chunksOf k (xs.length / k + 1) xs

/-- R180: an anchor operand, from the full 64-bit register. -/
def anchorOf (e : VecEnv) (i : Nat) : Run Int :=
  let a := (e.ctx.reg i).toInt
  if a < -512 || 511 < a then .error .illegal else .ok a

/-- R198: the first logical index, checked against 2^56. -/
def indexOk (e : VecEnv) (i : Nat) : Run Nat :=
  if 2 ^ 56 ≤ e.index i + e.count - 1 then .error .illegal else .ok (e.index i)

/-- The draw of element `i` (R197, R199). -/
def drawAt (e : VecEnv) (base slot i : Nat) : Nat :=
  let g := e.ctx.genReg (Iw.gen e.w)
  draw g.seed g.stream (base + i) slot

/-- A result of 32-bit elements (R132) with its summary. -/
def out32 (e : VecEnv) (ws : List Word32) (summ : Summary) (tsw : Nat) (pop : Bool) : VecOut :=
  { regs := [(Iw.d e.w, { tag := 32, elems := ws })], summ := summ, tsw := tsw, pop := pop }

/-- Two-operand elementwise FP32 (R128, R140). -/
def elem2 (op : Word32 → Word32 → Word32) (e : VecEnv) : Run VecOut := do
  let a ← readSrc e (Iw.a e.w) false
  let b ← readSrc e (Iw.bb e.w) false
  let r := e.resume (Iw.d e.w) (List.zipWith op a.words b.words)
  .ok (out32 e r (summF r 0 (a.tsw ||| b.tsw)) (a.tsw ||| b.tsw) (a.pop || b.pop))

/-- One-operand elementwise FP32 (R128, R140). -/
def elem1 (op : Word32 → Word32) (e : VecEnv) : Run VecOut := do
  let a ← readSrc e (Iw.a e.w) false
  let r := e.resume (Iw.d e.w) (a.words.map op)
  .ok (out32 e r (summF r 0 a.tsw) a.tsw a.pop)

/-- Three-operand elementwise. -/
def elem3 (op : Word32 → Word32 → Word32 → Word32) (e : VecEnv) : Run VecOut := do
  let a ← readSrc e (Iw.a e.w) false
  let b ← readSrc e (Iw.bb e.w) false
  let c ← readSrc e (Iw.c e.w) false
  let r := e.resume (Iw.d e.w) (List.zipWith (fun x (yz : Word32 × Word32) => op x yz.1 yz.2) a.words (b.words.zip c.words))
  let tsw := a.tsw ||| b.tsw ||| c.tsw
  .ok (out32 e r (summF r 0 tsw) tsw (a.pop || b.pop || c.pop))

/-- A segmented reduction with one result word per segment: `red` gives the result and whether a clamp changed it.
The summary is over the inputs (R150). -/
def reduce1 (isInt : Bool) (red : List Word32 → Word32 × Bool) (e : VecEnv) : Run VecOut := do
  let k ← segLen e
  let a ← readSrc e (Iw.a e.w) isInt
  let rs := (segments k a.words).map red
  let satc := rs.countP (·.2)
  let summ := if isInt then summI a.words satc a.tsw else summF a.words satc a.tsw
  .ok (out32 e (rs.map (·.1)) summ a.tsw a.pop)

/-- R122: the sum of grid values, the clamp applied at every addition, with the number of saturations. -/
def gridSum : List (Int × Bool × Bool) → Int × Nat × Bool
  | [] => (0, 0, false)
  | g :: gs =>
    let start : Int × Nat × Bool := (g.1, bit g.2.1, g.2.2)
    gs.foldl (fun a x => (addSat a.1 x.1, a.2.1 + bit x.2.1 + bit (decide (addSat a.1 x.1 ≠ a.1 + x.1)), a.2.2 || x.2.2)) start

/-- R147: exact segments as ERF blocks of 32 results. -/
def exactBlocks (anchor : Int) (segs : List (List (Int × Bool × Bool))) : List Erf × Nat :=
  let rs := segs.map gridSum
  ((chunksOf 32 (rs.length / 32 + 1) rs).map fun ch =>
      { anchor := anchor, sat := ch.any (fun r => r.2.1 != 0), nan := ch.any (fun r => r.2.2), count := 1
        vals := erfVals (ch.map (·.1)) },
    (rs.map (fun r => r.2.1)).foldl (· + ·) 0)

/-- R147: the result of an exact reduction whose inputs for the summary are `ins`. -/
def exactOut (e : VecEnv) (isInt : Bool) (anchor : Int) (segs : List (List (Int × Bool × Bool))) (ins : List Word32)
    (tsw : Nat) (pop : Bool) : Run VecOut :=
  let bs := exactBlocks anchor segs
  if e.len < 66 * bs.1.length then .error .illegal
  else
    let extra := tsw ||| (bit (bs.1.any Erf.sat) * flSat + bit (bs.1.any Erf.nan) * flNan)
    let summ := if isInt then summI ins bs.2 extra else summF ins bs.2 extra
    .ok (out32 e (bs.1.flatMap Erf.words) summ tsw pop)

/-- The exact value of an INT32 word. -/
def intNum (w : Word32) : Num := .fin (decide (w.toInt < 0)) w.toInt.natAbs 0

/-- R154, R155: sort indices by a relation "before", by insertion. -/
def insertIdx (before : Nat → Nat → Bool) (i : Nat) : List Nat → List Nat
  | [] => [i]
  | j :: js => if before i j then i :: j :: js else j :: insertIdx before i js
def sortIdx (before : Nat → Nat → Bool) (n : Nat) : List Nat := (List.range n).foldr (insertIdx before) []

/-- Keep the elements whose index is in `keep`, set the others to -Infinity. -/
def maskSeg (xs : List Word32) (keep : List Nat) : List Word32 :=
  (List.range xs.length).map fun i => if keep.elem i then wordAt xs i else F32.negInf

/-! ### Start and retirement -/

/-- R139: is some vector instruction of the core in execution. -/
def State.vecBusy (s : State) (n : Nat) : Bool := (s.core n).parts.any fun x => (x.2.ctx.bind (·.fly)).isSome

/-- R120, R137: must an instruction wait before it starts: for rows in flight into a region that it names, or for a tile of
an empty queue. It leaves the engine free meanwhile (DESIGN CHOICE, log entry 91). -/
def vecHolds (p : Part) (c : Ctx) (w : IWord) (k : Nat) : Bool :=
  (namesHead w && p.tq.isEmpty && decide (k < Iw.n w)) || [Iw.a w, Iw.bb w, Iw.c w].any fun spec =>
    match srcOf spec with
    | .region g => (match regionOf (c.reg g) with | none => false | some r => regionBusy p r)
    | _ => false

/-- R139: is stream queue `i` (3 × partition + stream) ready. A suspended instruction comes before everything else of its
context (R191). -/
def State.vecReady (s : State) (n i : Nat) : Bool :=
  let p := s.part n (i / 3)
  match p.ctx with
  | none => false
  | some c =>
    match c.susp with
    | some x => x.stream == i % 3 && !vecHolds p c x.word x.done
    | none =>
      match c.queue (i % 3) 2 with
      | [] => false
      | q :: _ => (!Iw.waitEn q.word || c.waitOk (Iw.waitCtr q.word) (Iw.wval q.word)) && !vecHolds p c q.word 0

/-- R139: the stream queue that the engine takes from next, in round-robin order. -/
def State.vecNext (s : State) (n : Nat) : Option Nat :=
  ((List.range 12).map fun j => ((s.core n).turn + j) % 12).find? (s.vecReady n)

/-- The next search begins behind stream queue `i`. -/
def State.vecServed (s : State) (n i : Nat) : State := s.setCore n { s.core n with turn := (i + 1) % 12 }

/-- R139, R140: run a vector instruction of a context. The result is computed from the registers, the accumulator and the
tile queue as they stand; it is written at retirement. -/
def beginVec (sem : VecEnv → Run VecOut) (n p stream k : Nat) (s : State) (c : Ctx) (q : QEnt) : State :=
  match sem { s := s, n := n, p := p, part := s.part n p, ctx := c, w := q.word, k := k } with
  | .error h => if h = .wait then s else ((s.putCtx n p c).haltCtx n p 2 stream q h).vecServed n (3 * p + stream)
  | .ok o =>
    ({ s.putCtx n p { c with fly := some { word := q.word, pc := q.pc, stream := stream, done := k, out := o } } with
       free := s.free + bit o.drew }).vecServed n (3 * p + stream)

/-- R139: start the instruction of opcode `op` that is next on the vector engine: the head of a share, or a suspended one of
a restored context, from its elements-completed count (R191). -/
def startVec (op : Nat) (sem : VecEnv → Run VecOut) (n p stream : Nat) (s : State) : State :=
  if s.vecBusy n || s.vecNext n != some (3 * p + stream) || 3 ≤ stream then s
  else match (s.ctx n p).bind (·.susp) with
    | some x =>
      match s.ctx n p with
      | some c => if Iw.opcode x.word = op then beginVec sem n p stream x.done s { c with susp := none } { word := x.word, pc := 0#48 } else s
      | none => s
    | none => s.startHead n p stream 2 op fun c q => beginVec sem n p stream 0 s c q

/-- R149: a summary slot is written whole; SEQ advances. -/
def Ctx.putSummary (c : Ctx) (i : Nat) (x : Summary) : Ctx := c.setSummary i { x with seq := (c.summary i).seq + 1#32 }

/-- R149, R151: what a vector instruction leaves behind when it retires: its registers, its summary or its tile status
in SS7, its signal. -/
def Ctx.retireVec (c : Ctx) (f : VecFly) : Ctx :=
  let c1 := f.out.regs.foldl (fun c x => c.setVreg x.1 { tag := x.2.tag, elems := x.2.elems }) { c with fly := none }
  let c2 := if Iw.sumEn f.word then c1.putSummary (Iw.sumSlot f.word) f.out.summ
    else if f.out.tsw == 0 then c1 else c1.orSS7 f.out.tsw
  c2.signalOf f.word

/-! ### Suspension (R160, R187) -/

/-- R160: may the instruction be suspended. -/
def suspendable (w : IWord) : Bool :=
  let op := Iw.opcode w
  op == 1 || op == 2 || (decide (0x10 ≤ op) && decide (op ≤ 0x1E)) || op == 0x20 || op == 0x40 || op == 0x60

/-- The registers that VX.CVT and VX.ADAM read and write. -/
def cvtReads (w : IWord) : List Nat := Iw.a w % 16 :: (if fmtMx (Iw.srcFmt w) then [Iw.bb w % 16] else [])
def cvtWrites (w : IWord) : List Nat := Iw.d w :: (if fmtMx (Iw.dstFmt w) then [Iw.c w % 16] else [])
def adamRegs (w : IWord) : List Nat := [Iw.a w % 16, Iw.bb w % 16, Iw.c w % 16, Iw.d w, Iw.f w 118 4]

/-- R160: can the rest of the instruction, and its summary, be formed from what a saved context holds once some elements are
written: its sources must still be there. Where they are not, no element counts as completed before all do (log entry 92). -/
def resumable (w : IWord) : Bool :=
  if Iw.opcode w = 0x20 then (srcOf (Iw.a w)).isReg && (cvtReads w).all fun i => !(cvtWrites w).elem i
  else if Iw.opcode w = 0x40 then decide (adamRegs w).Nodup
  else suspendable w

/-- R160: whole multiples of 64 elements that the instruction can have completed: all but the last while the tile that it
reads stands in its queue (R137). -/
def VecFly.limit (f : VecFly) : Nat := if f.out.pop && !f.popped then (Iw.n f.word - 1) / 64 * 64 else Iw.n f.word / 64 * 64

/-- 64 more elements of the instruction in execution are complete. -/
def VecFly.advance (f : VecFly) : VecFly := if resumable f.word && f.done < f.limit then { f with done := f.done + 64 } else f

/-- R160: a register as the completed elements leave it. -/
def VecReg.partway (r : VecReg) (old : VReg) (k : Nat) : VReg :=
  let m := r.base + k / r.den * r.num
  { tag := r.tag, elems := r.elems.take m ++ (if old.tag = r.tag then old.elems.drop m else []) }

/-- R160: the context with the completed elements of the instruction in execution written. -/
def Ctx.partway (c : Ctx) (f : VecFly) : Ctx :=
  if f.done = 0 then c else f.out.regs.foldl (fun c x => c.setVreg x.1 (x.2.partway (c.vreg x.1) f.done)) c

/-- R160: the stage bytes of VX.STV that `k` elements make up, beyond those written before. -/
def VecFly.stageBytes (f : VecFly) (k : Nat) : List (Nat × List Byte) :=
  f.out.stage.map fun x => (x.1 + f.out.skip, (x.2.take (packedLen (fmtBits (Iw.srcFmt f.word)) k)).drop f.out.skip)

end Sys2Proof.Machine
end

