-- ==== Sys2Proof/Machine/Matrix.lean ====
section
/-! DEFINITION. The matrix engine (chapters 03 and 04): shadow loads and swaps, activation streams with their slice
sums, accumulation, drains, the tile queue's push, ghost-light operations. -/

namespace Sys2Proof.Machine

/-! ### Stationary registers (R72, R73, R521) -/

/-- The parity of a cell's group and scale (R72). -/
def cellParity (g : BitVec 24) (sc : BitVec 8) : Bool :=
  ((List.range 24).foldl (fun a i => a != g.getLsbD i) false) != ((List.range 8).foldl (fun a i => a != sc.getLsbD i) false)

/-- R72: a cell beyond the rows or columns of a load. -/
def blankCell : CellReg := { group := 0#24, scale := 0x7F#8, parity := cellParity 0#24 0x7F#8 }

/-- R72: a loaded cell. -/
def mkCell (g : Nat) (sc : Nat) : CellReg :=
  let gr := BitVec.ofNat 24 g
  let s := BitVec.ofNat 8 sc
  { group := gr, scale := s, parity := cellParity gr s }

/-- R72: bytes of one stage row of a load: `cols` elements, or the K elements of a column. -/
def ldsLine (w : IWord) : Nat :=
  packedLen (fmtBits (Iw.ldsFmt w)) (if Iw.ldsTrans w then Iw.ldsG w * Iw.ldsRows w else Iw.ldsCols w)
/-- R72: stage rows of a load. -/
def ldsLines (w : IWord) : Nat := if Iw.ldsTrans w then Iw.ldsCols w else Iw.ldsG w * Iw.ldsRows w
/-- R72: scale bytes of a column. -/
def ldsPer (w : IWord) : Nat := ceilDiv (Iw.ldsG w * Iw.ldsRows w) 32

/-- R165: every row and the scales of a load lie in the context's allocation. -/
def ldsRoom (c : Ctx) (w : IWord) : Run Unit :=
  if (List.range (ldsLines w)).all (fun i => c.inStage (Iw.ldsAddr w + i * Iw.ldsStride w) (ldsLine w)) &&
      (!fmtMx (Iw.ldsFmt w) || c.inStage (Iw.ldsScale w) (ldsPer w * Iw.ldsCols w))
  then .ok () else .error (.trans 0)

/-- R72: the scale byte of array row `r` in column `col`. -/
def ldsScaleAt (s : State) (n : Nat) (c : Ctx) (w : IWord) (r col : Nat) : Run Nat :=
  if fmtMx (Iw.ldsFmt w) then (s.stageRead n c (Iw.ldsScale w + col * ldsPer w + Iw.ldsG w * r / 32) 1).map leNat else .ok 0x7F

/-- R72: transposed layout: the group of array row `r` in column `col`, from the bytes that hold it. -/
def ldsGroupAt (s : State) (n : Nat) (c : Ctx) (w : IWord) (r col : Nat) : Run Nat := do
  let len := fmtBits (Iw.ldsFmt w) * Iw.ldsG w
  let lo := len * r / 8
  let bs ← s.stageRead n c (Iw.ldsAddr w + col * Iw.ldsStride w + lo) (ceilDiv (len * (r + 1)) 8 - lo)
  .ok (field (leNat bs) (len * r - 8 * lo) len)

/-- R72: normal layout: the G stage rows of array row `r`. -/
def ldsRowData (s : State) (n : Nat) (c : Ctx) (w : IWord) (r : Nat) : Run (List (List Byte)) :=
  if Iw.ldsTrans w then .ok []
  else (List.range (Iw.ldsG w)).mapM fun i => s.stageRead n c (Iw.ldsAddr w + (Iw.ldsG w * r + i) * Iw.ldsStride w) (ldsLine w)

/-- R72: the registers of array row `r`, read from stage memory as it stands. Rows and columns beyond the load's are zero. -/
def ldsRow (s : State) (n : Nat) (c : Ctx) (w : IWord) (r : Nat) : Run (List CellReg) :=
  if Iw.ldsRows w ≤ r then .ok (List.replicate (s.coreW n) blankCell)
  else do
    let data ← ldsRowData s n c w r
    (List.range (s.coreW n)).mapM fun col =>
      if Iw.ldsCols w ≤ col then .ok blankCell
      else do
        let grp ← if Iw.ldsTrans w then ldsGroupAt s n c w r col
          else .ok (digits (fmtBits (Iw.ldsFmt w)) (data.map fun row => unpackAt (fmtBits (Iw.ldsFmt w)) row col))
        let sc ← ldsScaleAt s n c w r col
        .ok (mkCell grp sc)

/-- Put a row of cells. -/
def StatSet.putRow (t : StatSet) (r : Nat) (cs : List CellReg) : StatSet :=
  { t with cells := cs.zipIdx.foldl (fun m x => Tab.set {} m (64 * r + x.2) x.1) t.cells }

/-- A matrix instruction whose effect is complete and that has not retired. -/
def doneRun (q : QEnt) (stream : Nat) : MxRun := { word := q.word, pc := q.pc, stream := stream, rows := 0, done := true }

/-- The entry of a run for its faults. -/
def MxRun.ent (r : MxRun) : QEnt := { word := r.word, pc := r.pc }

/-- Is a run an unfinished load, or a stream with rows left to issue. -/
def MxRun.loading (r : MxRun) : Bool := Iw.opcode r.word == 1 && !r.done
def MxRun.issuing (r : MxRun) : Bool := Iw.opcode r.word == 3 && decide (r.next < Iw.macM r.word)

/-- The first run that `want` picks, changed by `f`. -/
def updFirst (want : MxRun → Bool) (f : MxRun → MxRun) : List MxRun → List MxRun
  | [] => []
  | r :: rs => if want r then f r :: rs else r :: updFirst want f rs

/-- R72: the load in progress writes its next shadow row. -/
def State.ldsStep (s : State) (n pi : Nat) : State :=
  let p := s.part n pi
  match p.ctx, p.runs.find? MxRun.loading with
  | some c, some r =>
    match ldsRow s n c r.word r.next with
    | .error h => s.haltCtx n pi 1 r.stream r.ent h
    | .ok cs => s.setPart n pi { p with
        shadow := p.shadow.putRow r.next cs
        runs := updFirst MxRun.loading (fun r => { r with next := r.next + 1, rows := r.rows - 1, done := r.rows == 1 }) p.runs }
  | _, _ => s

/-- Start a matrix instruction: `k` gives the partition's new contents. -/
def startMx (op n p stream : Nat) (s : State) (k : Part → Ctx → QEnt → Run Part) : State :=
  s.startHead n p stream 1 op fun c q =>
    match k (s.part n p) c q with
    | .error h => if h = .wait then s else (s.putCtx n p c).haltCtx n p 1 stream q h
    | .ok x => (s.setPart n p x).putCtx n p c

/-- R72, R165: MX.LDS. The partition's load path takes one load at a time; the rows follow one by one. -/
def execMxLds (l : Loc) (s : State) : Result :=
  .next (startMx 1 l.core l.part l.stream s fun p c q =>
    if p.runs.any MxRun.loading then .error .wait
    else do
      ldsRoom c q.word
      let w := q.word
      .ok { p with
        shadow := { p.shadow with held := some { fmt := Iw.ldsFmt w, signed := Iw.ldsSigned w, g := Iw.ldsG w, rows := Iw.ldsRows w } }
        runs := p.runs ++ [{ word := w, pc := q.pc, stream := l.stream, rows := 64, done := false }] })

/-- R73, R74: MX.SWAP, once every earlier MX.LDS has retired and every earlier activation row has been issued. -/
def execMxSwap (l : Loc) (s : State) : Result :=
  .next (startMx 2 l.core l.part l.stream s fun p _ q =>
    if p.runs.any (fun r => Iw.opcode r.word == 1 || r.issuing) then .error .wait
    else .ok { p with active := p.shadow, shadow := p.active, runs := p.runs ++ [doneRun q l.stream] })

/-! ### Activation streams (R68, R75, R80 to R82, R106 to R108, R121, R122) -/

/-- What a stream runs with: its group size and the stationary side, absent for zeroed registers. -/
structure MacPlan where
  g    : Nat
  held : Option Held
  deriving DecidableEq, Repr

/-- R67, R521: the checks of a stream against the active registers. -/
def macPlan (p : Part) (w : IWord) : Run MacPlan :=
  match p.active.held with
  | none => .ok { g := fmtG (Iw.macFmt w), held := none }
  | some h =>
    if fmtIntKind h.fmt != fmtIntKind (Iw.macFmt w) || fmtG (Iw.macFmt w) < h.g then .error .illegal
    else .ok { g := h.g, held := some h }

/-- R102: the MODE of a stream's tiles. -/
def macMode (w : IWord) : Nat := if Iw.macExact w then 3 else if fmtIntKind (Iw.macFmt w) then 2 else 1

/-- R104: does a tile accept the stream. -/
def tileTakes (w : IWord) (t : Word32) : Bool :=
  tsMode t == 0 || (tsMode t == macMode w && (!Iw.macExact w || tsAnchor t == Iw.macAnchor w))

/-- R104, R103: a touched empty tile takes the stream's mode and anchor; its flags stay. -/
def openTile (w : IWord) (t : Word32) : Word32 :=
  if tsMode t == 0 then mkTs (if Iw.macExact w then Iw.macAnchor w else 0) (macMode w) (tsFlags t) else t

/-- R79: the words that the drain in progress has still to zero. -/
def Drain.zeroes (d : Drain) : List Nat :=
  if Iw.drClear d.word && decide (d.next < Iw.drCount d.word) then
    rangeWords (Iw.drExact d.word) (Iw.drBase d.word + d.next) (Iw.drCount d.word - d.next)
  else []

/-- R104: a tile's word in program order: behind a clearing drain the tile is empty, or as a later stream opened it. -/
def Part.tracked (p : Part) (i : Nat) : Word32 :=
  match p.drain with
  | none => p.word i
  | some d => if d.zeroes.elem i then Tab.get 0#32 d.reopen i else p.word i

/-- R104: give a tile its word in program order. -/
def Part.track (p : Part) (i : Nat) (v : Word32) : Part :=
  match p.drain with
  | none => p.setWord i v
  | some d => if d.zeroes.elem i then { p with drain := some { d with reopen := Tab.set 0#32 d.reopen i v } } else p.setWord i v

/-- R71, R81: bytes of one injected row: its elements, then its scale bytes for an MX format. -/
def rowElems (w : IWord) (g : Nat) : Nat := if Iw.macDepth w = 1 then 64 * g else 64 / Iw.macDepth w * g
def rowBytes (w : IWord) (g : Nat) : Nat :=
  packedLen (fmtBits (Iw.macFmt w)) (rowElems w g) + (if fmtMx (Iw.macFmt w) then 2 * g else 0)

/-- R75, R81: the input rows of a stream. -/
def macInputs (w : IWord) : Nat := Iw.macM w + Iw.macDepth w - 1

/-- R165: every row that a stream reads lies in the context's allocation. -/
def macRoom (c : Ctx) (w : IWord) (g : Nat) : Run Unit :=
  if (List.range (macInputs w)).all (fun i => c.inStage (Iw.macAddr w + i * Iw.macStride w) (rowBytes w g)) then .ok () else .error (.trans 0)

/-- R71, R75: one input row, read from stage memory as it stands. -/
def macInput (s : State) (n : Nat) (c : Ctx) (w : IWord) (g i : Nat) : Run (List Byte) :=
  s.stageRead n c (Iw.macAddr w + i * Iw.macStride w) (rowBytes w g)

/-- R81: the D input rows that output row `m` meets: those injected before, and the ones injected for it. -/
def macWindow (s : State) (n : Nat) (c : Ctx) (w : IWord) (g m : Nat) (inj : List (List Byte)) : Run (List (List Byte)) := do
  let new ← (List.range (Iw.macDepth w - inj.length)).mapM fun k => macInput s n c w g (m + inj.length + k)
  .ok (inj ++ new)

/-- R81: array rows whose products belong to a slice: in window mode the bands of D rows. -/
def usedRows (w : IWord) : Nat := if Iw.macDepth w = 1 then 64 else 64 / Iw.macDepth w * Iw.macDepth w

/-- The activation element that array row `r`, group element `i` meets, from the input rows of its output row (R68, R71, R81). -/
def actAt (w : IWord) (g : Nat) (rows : List (List Byte)) (r i : Nat) : Num :=
  let fm := Iw.macFmt w
  let bits := fmtBits fm
  let d := Iw.macDepth w
  if d = 1 then
    let row := rows.headD []
    let code := unpackAt bits row (g * r + i)
    if fmtMx fm then mxVal fm code (fieldAt row (packedLen bits (64 * g) + (g * r + i) / 32) 1)
    else elemVal fm (Iw.macSigned w) code
  else elemVal fm (Iw.macSigned w) (unpackAt bits (rows.getD (r % d) []) (r / d * g + i))

/-- The stationary element of cell (r, col), group element `i`. -/
def statAt (p : Part) (h : Held) (r col i : Nat) : Num :=
  let x := Tab.get {} p.active.cells (64 * r + col)
  let bits := fmtBits h.fmt
  let code := field x.group.toNat (bits * i) bits
  if fmtMx h.fmt then mxVal h.fmt code x.scale.toNat else elemVal h.fmt h.signed code

/-- R106, R521: the products of one column for one output row. Rows that the load filled with zero, and zeroed registers,
contribute +0. -/
def products (p : Part) (w : IWord) (pl : MacPlan) (rows : List (List Byte)) (col : Nat) : List Num :=
  (List.range (usedRows w)).flatMap fun r => (List.range pl.g).map fun i =>
    match pl.held with
    | none => .fin false 0 0
    | some h => if h.rows ≤ r then .fin false 0 0 else Num.mul (statAt p h r col i) (actAt w pl.g rows r i)

/-- R106 to R108, R121, R122: the slice sum of one column. -/
def sliceSum (w : IWord) (ps : List Num) : SliceRes :=
  if Iw.macExact w then
    let gs := ps.map (toGrid (Iw.macAnchor w))
    { v := (gs.map (·.1)).foldl (· + ·) 0, sat := gs.any (·.2.1), nan := gs.any (·.2.2), inf := false }
  else
    let sum := match ps with
      | [] => Num.fin false 0 0
      | x :: xs => xs.foldl Num.add x
    if fmtIntKind (Iw.macFmt w) then
      match sum with
      | .fin s m e => { v := Num.truncQ s m e 0, sat := false, nan := false, inf := false }
      | _ => { v := 0, sat := false, nan := false, inf := false }
    else
      let r := toF32 true sum
      { v := (r.bits.toNat : Int), sat := r.sat, nan := r.nan, inf := r.inf }

/-- R85: does some active cell hold a parity error. -/
def parityBad (p : Part) : Bool := p.active.cells.any fun x => x.2.parity != cellParity x.2.group x.2.scale

/-- R75: row `m` of a stream as it is injected. -/
def macRow (p : Part) (w : IWord) (pl : MacPlan) (rows : List (List Byte)) (m wd : Nat) (late : Bool) : Row :=
  { entry := Iw.macE0 w + m, accum := Iw.macAccum w, mode := macMode w, late := late
    sums := (List.range wd).map fun col => sliceSum w (products p w pl rows col) }

/-- R75, R81: issue the next row of run `r`: its input rows are read, its products formed against the active registers. -/
def issueRun (s : State) (n : Nat) (p : Part) (c : Ctx) (r : MxRun) : Run (Row × MxRun) := do
  let pl ← macPlan p r.word
  let win ← macWindow s n c r.word pl.g r.next r.inj
  if pl.held.isSome && parityBad p then .error .parity
  else .ok (macRow p r.word pl win r.next (s.coreW n) r.late, { r with next := r.next + 1, inj := win.drop 1 })

/-- R89: does the partition have rows left to issue. -/
def Part.streaming (p : Part) : Bool := p.runs.any MxRun.issuing

/-- R75: the oldest stream with rows left issues its next one. The last one begins a gap (R89). -/
def State.issueRow (s : State) (n pi : Nat) : State :=
  let p := s.part n pi
  match p.ctx, p.runs.find? MxRun.issuing with
  | some c, some r =>
    match issueRun s n p c r with
    | .error h => s.haltCtx n pi 1 r.stream r.ent h
    | .ok (row, r1) =>
      let p1 := { p with rows := p.rows ++ [row], runs := updFirst MxRun.issuing (fun _ => r1) p.runs }
      s.setPart n pi (if p1.streaming then p1 else { p1 with ghost := p1.ghost.enterGap s })
  | _, _ => s

/-- Issue rows while fewer than 16 are in flight (R118), `k` at most. -/
def State.fillRows (n pi : Nat) : Nat → State → State
  | 0, s => s
  | k + 1, s => if (s.part n pi).streaming && (s.part n pi).rows.length < 16 then State.fillRows n pi k (s.issueRow n pi) else s

/-- R75, R104: MX.MAC. It waits while an earlier stream has rows to issue; its first row is issued at once (R92). -/
def execMxMac (l : Loc) (s : State) : Result :=
  let start := startMx 3 l.core l.part l.stream s fun p c q =>
    if p.streaming then .error .wait
    else do
      let w := q.word
      let pl ← macPlan p w
      let tw := rangeWords (Iw.macExact w) (Iw.macE0 w) (Iw.macM w)
      if tw.any (fun i => !tileTakes w (p.tracked i)) then .error .illegal
      else
        macRoom c w pl.g
        let p1 := tw.foldl (fun p i => p.track i (openTile w (p.tracked i))) p
        .ok { p1 with
          runs := p.runs ++ [{ word := w, pc := q.pc, stream := l.stream, rows := Iw.macM w, done := false, late := p.drain.isSome }]
          ghost := { p.ghost with running := false, spent := false, gap := none, pred := none, fmt := Iw.macFmt w } }
  .next (if (s.part l.core l.part).streaming then s else start.issueRow l.core l.part)

/-! ### Accumulation (R109, R110, R118, R122) -/

/-- R109, R110, R122: one column of a row reaches its entry: the partition, and the flags to set. -/
def accumOne (p : Part) (r : Row) (c : Nat) (x : SliceRes) : Part × Nat :=
  let fl0 := bit x.sat + 2 * bit x.nan + 4 * bit x.inf
  if r.mode = 3 then
    let t := if r.accum then p.exact r.entry c + x.v else x.v
    let h := clampInt (-gridMax) gridMax t
    (p.setExact r.entry c h, fl0 ||| bit (decide (h ≠ t)))
  else if r.mode = 2 then
    let t := if r.accum then (p.slot r.entry c).toInt + x.v else x.v
    let h := clampInt (-(2 ^ 31 : Nat)) ((2 ^ 31 : Nat) - 1) t
    (p.setSlot r.entry c (BitVec.ofInt 32 h), fl0 ||| bit (decide (h ≠ t)))
  else
    let b := BitVec.ofNat 32 x.v.toNat
    if r.accum then
      let y := faddHold (p.slot r.entry c) b
      (p.setSlot r.entry c y.bits, fl0 ||| (bit y.sat + 2 * bit y.nan))
    else (p.setSlot r.entry c b, fl0)

/-- R109, R103: all columns of a row; sticky flags go into the tile's words. -/
def accumRow (p : Part) (r : Row) : Part :=
  let x := (r.sums.zipIdx).foldl (fun a y => let z := accumOne a.1 r y.2 y.1; (z.1, a.2 ||| z.2)) (p, 0)
  (tileWords (r.mode == 3) r.entry).foldl (fun p w => p.setWord w (p.word w ||| BitVec.ofNat 32 x.2)) x.1

/-- The oldest stream with rows in flight has one row less to go. -/
def countRow (rs : List MxRun) : List MxRun :=
  updFirst (fun r => Iw.opcode r.word == 3 && !r.done) (fun r => { r with rows := r.rows - 1, done := r.rows == 1 }) rs

/-- R79: a row of a stream that started after the drain waits until the drain has read the entry it names. -/
def Part.rowWaits (p : Part) (r : Row) : Bool :=
  match p.drain with
  | none => false
  | some d =>
    let x := slotRange (Iw.drExact d.word) (Iw.drBase d.word + d.next) (Iw.drCount d.word - d.next)
    r.late && rowTouches x.1 x.2 r

/-- R118: the oldest row in flight reaches its accumulator entry; the rows behind it have been issued meanwhile. -/
def execSliceAccumulate (core part : Nat) (s : State) : Result :=
  let s1 := State.fillRows core part 16 s
  let p := s1.part core part
  match p.rows with
  | [] => .next s1
  | r :: rs =>
    if p.rowWaits r then .next s1
    else
      let p1 := accumRow p r
      .next (s1.setPart core part { p1 with rows := rs, runs := countRow p1.runs })

/-! ### Drain (R78, R79, R105, R119, R137) -/

/-- R78: the modes that a drain accepts for its format and numbering. -/
def drainTakes (w : IWord) (t : Word32) : Bool :=
  let m := tsMode t
  m == 0 || (if Iw.drExact w then m == 3 else if Iw.drFmt w == 0xB then m == 2 else m == 1)

/-- R78: the anchor of the exact tiles of a range, 0 where all are empty; none where they differ. -/
def drainAnchor (ws : List Word32) : Option Int :=
  let as := (ws.filter fun t => tsMode t == 3).map tsAnchor
  let a := as.headD 0
  if as.any (fun b => b != a) then none else some a

/-- R78: the bytes that a drain to stage memory writes. -/
def drainLen (w : IWord) (wd : Nat) : Nat :=
  if Iw.drFmt w = 0xC then 264 * ceilDiv (Iw.drCount w * wd) 32 else 4 * wd * Iw.drCount w

/-- R79: streams and rows that are under way when a drain starts come before it. -/
def Part.early (p : Part) : Part :=
  { p with rows := p.rows.map fun r => { r with late := false }, runs := p.runs.map fun r => { r with late := false } }

/-- R78: MX.DRAIN starts, once the drain before it has retired. It reads no entry yet. -/
def execMxDrain (l : Loc) (s : State) : Result :=
  .next (startMx 4 l.core l.part l.stream s fun p0 c q => do
    let w := q.word
    let p := p0.early
    if p.drain.isSome then .error .wait
    let ws := (rangeWords (Iw.drExact w) (Iw.drBase w) (Iw.drCount w)).map p.word
    if ws.any (fun t => !drainTakes w t) || (Iw.drFmt w == 0xC && (drainAnchor ws).isNone) then .error .illegal
    else
      if !Iw.drQueue w then c.stageRoom (Iw.drAddr w) (drainLen w (s.coreW l.core))
      .ok { p with
        drain := some { word := w, pc := q.pc, stream := l.stream, next := 0, status := 0, erf := [], erfFl := 0, erfOut := 0
                        anchor := (drainAnchor ws).getD 0, tile := [], tileSt := 0 } })

/-- R78, R123: an entry's FP32 or INT32 output, and whether its conversion saturated. -/
def drainWord (p : Part) (w : IWord) (e c : Nat) : Word32 × Bool :=
  let t := entryWord p (Iw.drExact w) e
  if tsMode t = 0 then (0#32, false)
  else if tsMode t = 3 then
    (if tbit t.toNat 1 then (F32.nan, false) else let r := fromGrid (tsAnchor t) (p.exact e c); (r.bits, r.sat))
  else (p.slot e c, false)

/-- R79: an entry is zeroed after it is read. -/
def zeroEntry (p : Part) (exact : Bool) (e wd : Nat) : Part :=
  (List.range wd).foldl (fun p c => if exact then p.setExact e c 0 else p.setSlot e c 0#32) p

/-- R79: is entry `e` the last of its tile within a drain's range. -/
def lastOfTile (w : IWord) (e : Nat) : Bool := e % 64 == 63 || e + 1 == Iw.drBase w + Iw.drCount w

/-- R78: the ERF block that a drain writes from at most 32 values; where a drain's values end within a block, the rest of it
is 0 (DESIGN CHOICE, log entry 89). -/
def drainBlock (a : Int) (fl : Nat) (vs : List Int) : List Byte :=
  wordBytes (Erf.words { anchor := a, sat := tbit fl 0, nan := tbit fl 1, count := 1, vals := erfVals vs })

/-- The values of an ERF drain that make whole blocks, written out; the rest stays. -/
def flushErf (s : State) (base : Nat) (a : Int) (last : Bool) : Nat → Drain → State × Drain
  | 0, d => (s, d)
  | k + 1, d =>
    if 32 ≤ d.erf.length || (last && !d.erf.isEmpty) then
      let s1 := s.writeBytes (base + 264 * d.erfOut) (drainBlock a d.erfFl (d.erf.take 32))
      let rest := d.erf.drop 32
      flushErf s1 base a last k { d with erf := rest, erfOut := d.erfOut + 1, erfFl := if rest.isEmpty then 0 else d.erfFl }
    else (s, d)

/-- R119: does a row of an earlier stream name a slot range and is not in the accumulator: in flight, or not issued. -/
def Part.owes (p : Part) (lo hi : Nat) : Bool :=
  p.rows.any (fun r => !r.late && rowTouches lo hi r) ||
  p.runs.any fun r => r.issuing && !r.late && (let x := slotRange (Iw.macExact r.word) (Iw.macE0 r.word + r.next) (Iw.macM r.word - r.next)
    decide (x.1 < hi ∧ lo < x.2))

/-- R79, R104: the words of a tile that a clearing drain zeroes, as a later stream opened them. -/
def zeroWords (p : Part) (d : Drain) (ex : Bool) (e : Nat) : Part :=
  (tileWords ex e).foldl (fun p i => p.setWord i (Tab.get 0#32 d.reopen i)) p

/-- R119: the drain of a partition reads its next entry, once no earlier row for it is under way, and delivers it. A drain
to the tile queue stops before a tile that has not been pushed (R137). -/
def drainStep (s : State) (n pi : Nat) (p : Part) (c : Ctx) (d : Drain) : State :=
  let w := d.word
  let ex := Iw.drExact w
  let wd := s.coreW n
  let e := Iw.drBase w + d.next
  let x := slotRange ex e 1
  if Iw.drCount w ≤ d.next || p.owes x.1 x.2 || (Iw.drQueue w && d.tile.length = 64 * wd) then s
  else
    let t := entryWord p ex e
    let outs := (List.range wd).map (drainWord p w e)
    let words := outs.map (·.1)
    let st := d.status ||| tsFlags t ||| bit (Iw.drFmt w != 0xC && outs.any (·.2))
    let p1 := if Iw.drClear w then zeroEntry p ex e wd else p
    let p2 := if Iw.drClear w && lastOfTile w e then zeroWords p1 d ex e else p1
    let d1 := { d with next := d.next + 1, status := st }
    let last := d1.next == Iw.drCount w
    let base := c.stageAt n (Iw.drAddr w)
    if Iw.drQueue w then
      s.setPart n pi { p2 with drain := some { d1 with tile := d.tile ++ words, tileSt := d.tileSt ||| t.toNat ||| bit (outs.any (·.2)) } }
    else if Iw.drFmt w = 0xC then
      let vals := (List.range wd).map fun i => if tsMode t = 0 then 0 else p.exact e i
      let f := flushErf s base d.anchor last 3 { d1 with erf := d.erf ++ vals, erfFl := d.erfFl ||| tsFlags t }
      f.1.setPart n pi { p2 with drain := some f.2 }
    else (s.writeBytes (base + 4 * wd * d.next) (wordBytes words)).setPart n pi { p2 with drain := some d1 }

/-- R119: DRAIN_ENTRY_READ. -/
def execDrainEntryRead (core part : Nat) (s : State) : Result :=
  let p := s.part core part
  match p.drain, p.ctx with
  | some d, some c => .next (drainStep s core part p c d)
  | _, _ => .next s

/-- R137: a drained tile enters the tile queue once room is free. -/
def execTileQueuePush (core part : Nat) (s : State) : Result :=
  let p := s.part core part
  match p.drain with
  | none => .next s
  | some d =>
    if Iw.drQueue d.word && d.tile.length = 64 * s.coreW core && p.tq.length < 8 then
      .next (s.setPart core part { p with
        tq := p.tq ++ [{ status := BitVec.ofNat 32 d.tileSt, words := d.tile }]
        drain := some { d with tile := [], tileSt := 0 } })
    else .next s

/-! ### Ghost-light operations (R89 to R92) -/

/-- R89: MX.GHOST records the predicted gap. It retires at once. -/
def execMxGhost (l : Loc) (s : State) : Result :=
  .next (startMx 5 l.core l.part l.stream s fun p _ q =>
    .ok { p with ghost := { p.ghost with pred := some (Iw.ghGap q.word) }, runs := p.runs ++ [doneRun q l.stream] })

/-- R91: the duty step of 1/64 nearest to `rows` real rows in 4,096 cycles. -/
def ghostDuty (rows : Nat) : Nat := (capAt 4096 rows + 32) / 64

/-- R89: a prediction of a gap at least as long as the horizon. -/
def Ghost.predicted (g : Ghost) (hor : Nat) : Bool :=
  match g.pred with
  | none => false
  | some ns => decide (hor ≤ ns)

/-- R89, R92: may ghost-light rows begin in the gap of a partition: when it began and the horizon then. -/
def Part.ghostMay (p : Part) (s : State) (gap : Nat × Nat) : Bool :=
  gap.2 != 0 && decide (s.reefLevel ≤ 5) && !p.ghost.predicted gap.2 && !p.streaming && !p.ghost.running && !p.ghost.spent &&
  decide (s.clk < gap.1 + gap.2)

/-- R89, R91: GHOST_LIGHT_START: in a gap, ghost-light rows begin at the partition's duty. `rows` is the count of real rows
in its last 4,096 cycles before the gap. -/
def execGhostLightStart (core part rows : Nat) (s : State) : Result :=
  let p := s.part core part
  let gap := p.ghost.gap.getD (s.clk, s.horizon)
  .next (if p.ghostMay s gap then
      s.setPart core part { p with ghost := { p.ghost with running := true, spent := false, gap := some gap, duty := ghostDuty rows } }
    else s)

/-- R92: is a real row of the partition ready to issue: one of a stream under way, or the first of one at the head of a
share. -/
def Part.rowReady (p : Part) : Bool :=
  p.streaming || (match p.ctx with
    | none => false
    | some c => [0, 1, 2].any fun k => (c.ready k 1 3).isSome)

/-- R92: ghost-light operations of a partition end; they do not begin again in the same gap. -/
def Part.endGhost (p : Part) : Part :=
  if p.ghost.running then { p with ghost := { p.ghost with running := false, spent := true } } else p

/-- R92: GHOST_LIGHT_END: a real row is ready, or the horizon has elapsed since the gap began. (At the divider ramp they end
by the ramp's own command.) -/
def execGhostLightEnd (core part : Nat) (s : State) : Result :=
  let p := s.part core part
  let elapsed := match p.ghost.gap with
    | none => true
    | some g => decide (g.1 + g.2 ≤ s.clk)
  .next (if p.ghost.running && (p.rowReady || elapsed) then s.setPart core part p.endGhost else s)

/-- R92: the divider ramp of compute half-die `h` begins: its partitions' ghost-light operations end. -/
def State.endGhosts (s : State) (h : Nat) : State :=
  (List.range 8).foldl (fun s i => [0, 1, 2, 3].foldl (fun s k =>
    if (s.part (8 * h + i) k).ghost.running then s.setPart (8 * h + i) k (s.part (8 * h + i) k).endGhost else s) s) s

end Sys2Proof.Machine
end

