-- ==== Sys2Proof/Machine/Vector.lean ====
section
/-! DEFINITION. The vector engine's instructions (chapter 05): elementwise arithmetic, conversion, reductions, ERF
blocks, the optimiser step, sampling and draws, and the pop of the tile queue (R137). -/

namespace Sys2Proof.Machine

/-! ### VX.LDV, VX.STV (R133) -/

/-- R133: the register element offset. -/
def elemOffset (e : VecEnv) : Run Nat :=
  let o := e.index (Iw.q e.w)
  if o % 64 ≠ 0 || e.len < o + e.count then .error .illegal else .ok o

/-- R133: elements below the offset keep their values. Where the width tag changes, the manual does not say what they hold
under the new width (R132 forbids to reread their bytes): each is an open value of that width (log entry 10). -/
def keepBelow (k : Nat) (v : VReg) (bits off : Nat) : List Word32 :=
  padWords off (if v.fits bits then v.elems
    else (List.range v.elems.length).map fun i => BitVec.ofNat 32 ((Config.keptElem k i).toNat % 2 ^ bits))

/-- R133: VX.LDV. ERF is taken as a format of 32-bit words (log entry 93). -/
def semLdv (e : VecEnv) : Run VecOut := do
  let bits := fmtBits (Iw.srcFmt e.w)
  let o ← elemOffset e
  let bs ← e.s.stageRead e.n e.ctx (e.index (Iw.p e.w)) (packedLen bits e.count)
  let v := e.ctx.vreg (Iw.d e.w)
  let new := (unpackN bits bs e.count).map (BitVec.ofNat 32)
  let here := if e.k = 0 then new else padWords (capAt new.length e.k) (v.elems.drop o) ++ new.drop e.k
  .ok { regs := [(Iw.d e.w, { tag := bits, elems := keepBelow e.s.free v bits o ++ here, base := o })]
        drew := !v.fits bits && decide (0 < o) }

/-- R132, R133: VX.STV. -/
def semStv (e : VecEnv) : Run VecOut := do
  let bits := fmtBits (Iw.srcFmt e.w)
  let o ← elemOffset e
  let v := e.ctx.vreg (Iw.a e.w % 16)
  if !v.fits bits then .error .illegal
  else
    e.ctx.stageRoom (e.index (Iw.p e.w)) (packedLen bits e.count)
    .ok { regs := [], stage := [(e.index (Iw.p e.w), packRow bits ((padWords e.count (v.elems.drop o)).map BitVec.toNat))]
          skip := packedLen bits e.k }

/-! ### VX.CMP, VX.SEL, VX.ABS, VX.NEG (R128, R140, R141) -/

def absOf (a : Word32) : Word32 := if isNan32 a then F32.nan else abs32 a
def negOf (a : Word32) : Word32 := if isNan32 a then F32.nan else neg32 a
/-- R141, R208: VX.CMP. A NaN in a source sets NAN in its summary (DEDUCED, log entry 107). -/
def semCmp (e : VecEnv) : Run VecOut := do
  let a ← readSrc e (Iw.a e.w) false
  let b ← readSrc e (Iw.bb e.w) false
  let r := e.resume (Iw.d e.w) (List.zipWith (fun x y => if predF (Iw.f e.w 118 3) x y then F32.one else F32.zero) a.words b.words)
  let nan := bit (a.words.any isNan32 || b.words.any isNan32) * flNan
  .ok (out32 e r (summF r 0 (a.tsw ||| b.tsw ||| nan)) (a.tsw ||| b.tsw) (a.pop || b.pop))
/-- R140: VX.SEL. The value chosen passes as it is, a NaN with its payload too: nothing is computed (DESIGN CHOICE, log entry
95). -/
def selOf (k a b : Word32) : Word32 := if isZero32 k then b else a

/-! ### VX.CVT (R51 to R59, R64, R65) -/

/-- The source elements of a conversion from a format other than ERF, with their status bits. -/
def cvtSource (e : VecEnv) (base : Nat) : Run (List SrcElem × Nat × Bool) := do
  let sf := Iw.srcFmt e.w
  let bits := fmtBits sf
  let signed := tbit (Iw.u e.w) 1
  let dr := fun i => if Iw.rmode e.w = 2 then drawAt e base (Iw.dslot e.w) i else 0
  match srcOf (Iw.a e.w) with
  | .reg i =>
    if !(e.ctx.vreg i).fits bits then .error .illegal
    else
      let xs := padWords e.count (e.ctx.vreg i).elems
      if fmtMx sf then
        let sv := e.ctx.vreg (Iw.bb e.w % 16)
        if !sv.fits 8 || sv.elems.length < ceilDiv e.count 32 then .error .illegal
        else .ok (xs.zipIdx.map (fun xi =>
            let sc := (wordAt sv.elems (xi.2 / 32)).toNat
            { val := mxVal sf xi.1.toNat sc, qsrc := srcQuantum sf xi.1.toNat sc, draw := dr xi.2 }), 0, false)
      else .ok (xs.zipIdx.map (fun xi =>
            { val := elemVal sf signed xi.1.toNat, qsrc := srcQuantum sf xi.1.toNat 127, draw := dr xi.2 }), 0, false)
  | _ =>
    let a ← readSrc e (Iw.a e.w) (sf == 0xB)
    .ok (a.words.zipIdx.map (fun xi =>
      { val := elemVal sf true xi.1.toNat, qsrc := srcQuantum sf xi.1.toNat 127, draw := dr xi.2 }), a.tsw, a.pop)

/-- R53: NONFIN, SATCNT and the flags of a conversion's elements. -/
def cvtCounts (rs : List CvtElem) : Nat × Nat × Nat :=
  (rs.countP (fun r => r.nan || r.inf), rs.countP (·.sat),
    bit (rs.any (·.sat)) * flSat + bit (rs.any (·.nan)) * flNan + bit (rs.any (·.inf)) * flInf)

/-- R150: the summary of a conversion: over the results decoded to FP32, or INT32 values for an INT32 destination. -/
def cvtSumm (df : Nat) (signed : Bool) (vals : List Num) (codes : List Nat) (cnt : Nat × Nat × Nat) (tsw : Nat) : Summary :=
  let base := if df = 0xB then summI (codes.map (BitVec.ofNat 32)) 0 0
    else if df = 0 then summF (codes.map (BitVec.ofNat 32)) 0 0
    else summF ((if vals.isEmpty then codes.map (elemVal df signed) else vals).map f32) 0 0
  summWith base cnt.1 cnt.2.1 (cnt.2.2 ||| tsw)

/-- R51 to R59: a conversion between formats other than ERF. -/
def cvtPlain (e : VecEnv) : Run VecOut := do
  let df := Iw.dstFmt e.w
  let rm := Iw.rmode e.w
  let sat := tbit (Iw.u e.w) 0
  let signed := tbit (Iw.u e.w) 2
  let base ← if rm = 2 then indexOk e (Iw.p e.w) else .ok 0
  let (xs, tsw, pop) ← cvtSource e base
  if fmtMx df then
    let blks := (chunksOf 32 (xs.length / 32 + 1) xs).map (cvtBlock df rm sat)
    let rs := blks.flatMap (·.2)
    let vals := blks.flatMap fun b => b.2.map fun r => mxVal df r.code b.1
    .ok { regs := [(Iw.c e.w % 16, { tag := 8, elems := blks.map fun b => BitVec.ofNat 32 b.1, den := 32 }),
                   (Iw.d e.w, { tag := fmtBits df, elems := rs.map fun r => BitVec.ofNat 32 r.code })]
          summ := cvtSumm df true vals (rs.map (·.code)) (cvtCounts rs) tsw, tsw := tsw, pop := pop }
  else
    let rs := xs.map fun x => cvtElem df signed (elemMode rm 0 x) sat x.val
    .ok { regs := [(Iw.d e.w, { tag := fmtBits df, elems := rs.map fun r => BitVec.ofNat 32 r.code })]
          summ := cvtSumm df signed [] (rs.map (·.code)) (cvtCounts rs) tsw, tsw := tsw, pop := pop }

/-- R64: FP32 to ERF under the anchor operand. -/
def cvtToErf (e : VecEnv) : Run VecOut := do
  let a ← anchorOf e (Iw.q e.w)
  let (xs, tsw, pop) ← cvtSource e 0
  let blks := (chunksOf 32 (xs.length / 32 + 1) xs).map fun ch => Erf.encode a (ch.map SrcElem.val)
  let gs := xs.map fun x => toGrid a x.val
  let nan := gs.countP (fun g => g.2.2)
  let satc := gs.countP (fun g => g.2.1)
  let vals := blks.flatMap fun b => (List.range 32).map fun i => f32 (b.val i)
  let fl := tsw ||| (bit (satc != 0) * flSat + bit (nan != 0) * flNan)
  .ok { regs := [(Iw.d e.w, { tag := 32, elems := blks.flatMap Erf.words, num := 66, den := 32 })]
        summ := summWith (summF vals 0 0) nan satc fl, tsw := tsw, pop := pop }

/-- R134: an exact region to ERF; nothing is rounded. The values were counted when they entered the accumulator: NONFIN and
SATCNT are 0 here, even where a block's NAN makes its values decode to NaN (DESIGN CHOICE, log entry 94). -/
def cvtRegionErf (e : VecEnv) : Run VecOut := do
  let (bs, tsw) ← readErf e (Iw.a e.w) (ceilDiv e.count 32) true
  let vals := bs.flatMap fun b => (List.range 32).map fun i => f32 (b.val i)
  .ok (out32 e (bs.flatMap Erf.words) (summWith (summF vals 0 0) 0 0 tsw) tsw false)

/-- R65: ERF to FP32. -/
def cvtFromErf (e : VecEnv) : Run VecOut := do
  let (bs, tsw) ← readErf e (Iw.a e.w) (ceilDiv e.count 32) true
  let rs := (List.range e.count).map fun i =>
    match bs[i / 32]? with
    | none => cvtFp fp32 .rne (tbit (Iw.u e.w) 0) false (.fin false 0 0)
    | some b => cvtFp fp32 .rne (tbit (Iw.u e.w) 0) false (b.val (i % 32))
  let cnt := cvtCounts rs
  let fl := cnt.2.2 ||| (bit (bs.any fun b => b.sat && !b.malformed) * flSat + bit (bs.any fun b => b.excl && !b.malformed) * flExcl +
    bit (bs.any Erf.malformed) * flMalf)
  let ws := rs.map fun r => BitVec.ofNat 32 r.code
  .ok (out32 e ws (summWith (summF ws 0 0) cnt.1 cnt.2.1 (fl ||| tsw)) tsw false)

/-- R51: VX.CVT. -/
def semCvt (e : VecEnv) : Run VecOut :=
  if Iw.srcFmt e.w = 0xC then (if Iw.dstFmt e.w = 0xC then cvtRegionErf e else cvtFromErf e)
  else if Iw.dstFmt e.w = 0xC then cvtToErf e
  else cvtPlain e

/-! ### Reductions (R143 to R148) -/

/-- R145, R147: the grid terms of one element. -/
def gridTerm (isInt : Bool) (a : Int) (x : Word32) : Int × Bool × Bool := toGrid a (if isInt then intNum x else f32Val x)

/-- R144, R145, R147: VX.RSUM. -/
def semRsum (e : VecEnv) : Run VecOut :=
  let isInt := Iw.int e.w
  if Iw.exact e.w then do
    let k ← segLen e
    let a ← anchorOf e (Iw.q e.w)
    let v ← readSrc e (Iw.a e.w) isInt
    exactOut e isInt a ((segments k v.words).map (·.map (gridTerm isInt a))) v.words v.tsw v.pop
  else reduce1 isInt (fun xs => if isInt then isum xs else (canonTree fadd xs, false)) e

/-- R144, R145: VX.RMAX, VX.RMIN. -/
def semRmax (e : VecEnv) : Run VecOut :=
  reduce1 (Iw.int e.w) (fun xs => (canonTree (if Iw.int e.w then imax else fmax) xs, false)) e
def semRmin (e : VecEnv) : Run VecOut :=
  reduce1 (Iw.int e.w) (fun xs => (canonTree (if Iw.int e.w then imin else fmin) xs, false)) e

/-- R144: VX.RARG. -/
def semRarg (e : VecEnv) : Run VecOut :=
  reduce1 (Iw.int e.w) (fun xs => (BitVec.ofNat 32 (argMax (if Iw.int e.w then argBeatsI else argBeats) xs), false)) e

/-- R145: VX.RCNT. -/
def semRcnt (e : VecEnv) : Run VecOut :=
  let pr := fun x => if Iw.int e.w then predI (Iw.f e.w 118 3) x (e.scalar (Iw.q e.w))
    else predF (Iw.f e.w 118 3) x (e.scalar (Iw.q e.w))
  reduce1 (Iw.int e.w) (fun xs => (BitVec.ofNat 32 (xs.countP pr), false)) e

/-- R145: an exact integer dot product, clamped once. -/
def idot (xs ys : List Word32) : Word32 × Bool :=
  let t := (List.zipWith (fun x y => x.toInt * y.toInt) xs ys).foldl (· + ·) 0
  let h := clampInt (-(2 ^ 31 : Nat)) ((2 ^ 31 : Nat) - 1) t
  (BitVec.ofInt 32 h, decide (h ≠ t))

/-- R144, R145, R147: VX.RDOT. The inputs of the summary are those of the first source (DESIGN CHOICE, log entry 11). -/
def semRdot (e : VecEnv) : Run VecOut := do
  let isInt := Iw.int e.w
  let k ← segLen e
  let x ← readSrc e (Iw.a e.w) isInt
  let y ← readSrc e (Iw.bb e.w) isInt
  let tsw := x.tsw ||| y.tsw
  let pop := x.pop || y.pop
  if Iw.exact e.w then
    let a ← anchorOf e (Iw.q e.w)
    let term := fun p q => toGrid a (if isInt then Num.mul (intNum p) (intNum q) else Num.mul (f32Val p) (f32Val q))
    exactOut e isInt a ((segments k (x.words.zip y.words)).map (·.map fun pq => term pq.1 pq.2)) x.words tsw pop
  else
    let segs := segments k (x.words.zip y.words)
    let rs := segs.map fun sg =>
      if isInt then idot (sg.map (·.1)) (sg.map (·.2)) else (canonTree fadd (sg.map fun pq => fmul pq.1 pq.2), false)
    let satc := rs.countP (·.2)
    let summ := if isInt then summI x.words satc tsw else summF x.words satc tsw
    .ok (out32 e (rs.map (·.1)) summ tsw pop)

/-- R148: one pair of blocks: the result, saturations, malformed, anchors differ. -/
def eaddPair (a b : Erf) : Erf × Nat × Bool × Bool :=
  if a.malformed then ((if b.malformed then Erf.zero 0 else b), 0, true, false)
  else if b.malformed then (a, 0, true, false)
  else if a.anchor ≠ b.anchor then (a, 0, false, true)
  else (Erf.add a b, Erf.addSats a b, false, false)

/-- R148: VX.EADD. -/
def semEadd (e : VecEnv) : Run VecOut := do
  let (xs, t1) ← readErf e (Iw.a e.w) e.count false
  let (ys, t2) ← readErf e (Iw.bb e.w) e.count false
  let rs := List.zipWith eaddPair xs ys
  let satc := (rs.map fun r => r.2.1).foldl (· + ·) 0
  let diff := rs.countP fun r => r.2.2.2
  let vals := rs.flatMap fun r => (List.range 32).map fun i => f32 (r.1.val i)
  let fl := (t1 ||| t2) ||| ((bit (satc != 0 || rs.any fun r => r.1.sat) * flSat + bit (rs.any fun r => r.1.nan) * flNan +
    bit (diff != 0) * flExcl + bit (rs.any fun r => r.2.2.1) * flMalf))
  .ok (out32 e (rs.flatMap fun r => r.1.words) (summWith (summF vals 0 0) diff satc fl) (t1 ||| t2) false)

/-! ### VX.ADAM (R152, R153) -/

/-- R152: the parameter block. -/
structure AdamBlock where
  s : Word32
  b1 : Word32
  a1 : Word32
  b2 : Word32
  a2 : Word32
  c1 : Word32
  c2 : Word32
  eps : Word32
  lr : Word32
  wd : Word32
  mode : Nat
  slot : Nat
  deriving DecidableEq, Repr

/-- R152: read and check the block. -/
def adamBlock (e : VecEnv) : Run AdamBlock := do
  let bs ← e.s.stageRead e.n e.ctx (e.index (Iw.p e.w)) 48
  let w := fun i => BitVec.ofNat 32 (fieldAt bs (4 * i) 4)
  let mode := (w 10).toNat
  let slot := (w 11).toNat
  if 16 ≤ mode || 256 ≤ slot || mode / 4 = 3 then .error .illegal
  else .ok { s := w 0, b1 := w 1, a1 := w 2, b2 := w 3, a2 := w 4, c1 := w 5, c2 := w 6, eps := w 7, lr := w 8, wd := w 9
             mode := mode, slot := slot }

/-- R153: one element: the new parameter and moments. -/
def adamElem (k : AdamBlock) (grad m v p : Word32) : Word32 × Word32 × Word32 :=
  let g := fmul grad k.s
  let m1 := ffma k.b1 m (fmul k.a1 g)
  let v1 := ffma k.b2 v (fmul k.a2 (fmul g g))
  let d := fadd (fsqrt (fmul v1 k.c2)) k.eps
  let w := ffma k.wd p (fdiv (fmul m1 k.c1) d)
  (ffma (neg32 k.lr) w p, m1, v1)

/-- R153: VX.ADAM. -/
def semAdam (e : VecEnv) : Run VecOut := do
  let k ← adamBlock e
  let base ← indexOk e (Iw.q e.w)
  let n := e.count
  let gr := e.ctx.vreg (Iw.a e.w % 16)
  let bf := tbit k.mode 1
  if !gr.fits (if bf then 16 else 32) then .error .illegal
  else
    let ms ← readReg32 e.ctx (Iw.bb e.w % 16) n
    let vs ← readReg32 e.ctx (Iw.c e.w % 16) n
    let ps ← readReg32 e.ctx (Iw.d e.w) n
    let gs := (padWords n gr.elems).map fun w => if bf then f32 (elemVal 1 true w.toNat) else w
    let rs := (List.range n).map fun i => adamElem k (wordAt gs i) (wordAt ms i) (wordAt vs i) (wordAt ps i)
    let newP := e.resume (Iw.d e.w) (rs.map (·.1))
    let newM := e.resume (Iw.bb e.w % 16) (rs.map (·.2.1))
    let newV := e.resume (Iw.c e.w % 16) (rs.map (·.2.2))
    let work := newP.zipIdx.map fun x =>
      (cvtElem 1 true (elemMode (k.mode / 4) 0
        { val := f32Val x.1, qsrc := srcQuantum 0 x.1.toNat 127, draw := drawAt e base k.slot x.2 }) false (f32Val x.1)).code
    let nonf := newP.countP isNonfin32 + newM.countP isNonfin32 + newV.countP isNonfin32
    let summ := summF newP 0 0
    .ok { regs := [(Iw.d e.w, { tag := 32, elems := newP }), (Iw.bb e.w % 16, { tag := 32, elems := newM }),
                   (Iw.c e.w % 16, { tag := 32, elems := newV })] ++
            (if tbit k.mode 0 then [(Iw.f e.w 118 4, { tag := 16, elems := work.map (BitVec.ofNat 32) })] else [])
          summ := { summ with nonfin := sat32 nonf } }

/-! ### Sampling (R154 to R157) -/

/-- R154: is index `i` before `j`: larger value first, equals by lower index. -/
def topBefore (xs : List Word32) (i j : Nat) : Bool :=
  if argBeats (wordAt xs j) (wordAt xs i) then true
  else if argBeats (wordAt xs i) (wordAt xs j) then false else decide (i < j)

/-- R154: VX.TOPK on one segment. -/
def topkSeg (k : Nat) (xs : List Word32) : List Word32 := maskSeg xs ((sortIdx (topBefore xs) xs.length).take k)

def semTopk (e : VecEnv) : Run VecOut := do
  let k := (e.scalar (Iw.q e.w)).toNat
  let sl ← segLen e
  if k = 0 then .error .illegal
  else
    let a ← readSrc e (Iw.a e.w) false
    .ok (out32 e ((segments sl a.words).flatMap (topkSeg k)) (summF a.words 0 a.tsw) a.tsw a.pop)

/-- R155: the walk over the ordered elements: the indices kept, and whether the threshold was reached. -/
def nucleus (es : List Word32) (t : Word32) : List Nat → Word32 → List Nat × Bool
  | [], _ => ([], false)
  | i :: is, c =>
    let c1 := fadd c (wordAt es i)
    if fle t c1 then ([i], true) else let r := nucleus es t is c1; (i :: r.1, r.2)

/-- R155: larger exponential first, equals by lower index. -/
def expBefore (es : List Word32) (i j : Nat) : Bool :=
  if flt (wordAt es j) (wordAt es i) then true
  else if flt (wordAt es i) (wordAt es j) then false else decide (i < j)

/-- R155: VX.TOPP on one segment. -/
def toppSeg (p : Word32) (xs : List Word32) : List Word32 :=
  if xs.any isNan32 then xs
  else
    let mx := canonTree fmax xs
    let es := xs.map fun x => fexp (fsub x mx)
    let t := fmul p (canonTree fadd es)
    let r := nucleus es t (sortIdx (expBefore es) es.length) F32.zero
    maskSeg xs (((if r.2 then r.1 else List.range es.length)).filter fun i => flt F32.zero (wordAt es i))

def semTopp (e : VecEnv) : Run VecOut := do
  let p := e.scalar (Iw.q e.w)
  let sl ← segLen e
  if !(flt F32.zero p && fle p F32.one) then .error .illegal
  else
    let a ← readSrc e (Iw.a e.w) false
    .ok (out32 e ((segments sl a.words).flatMap (toppSeg p)) (summF a.words 0 a.tsw) a.tsw a.pop)

/-- R156: y of one element. -/
def gumbelScore (beta x g : Word32) : Word32 := if x = F32.negInf then F32.negInf else fadd (fmul x beta) g

/-- R156, R207: VX.GMAX. -/
def semGmax (e : VecEnv) : Run VecOut := do
  let sl ← segLen e
  let base ← indexOk e (Iw.u e.w)
  let a ← readSrc e (Iw.a e.w) false
  let beta := e.scalar (Iw.q e.w)
  let ys := a.words.zipIdx.map fun x => gumbelScore beta x.1 (gumbelOf (drawAt e base (Iw.dslot e.w) x.2))
  let nan := bit (ys.any isNan32) * flNan
  .ok (out32 e ((segments sl ys).map fun sg => BitVec.ofNat 32 (argMax argBeats sg)) (summF a.words 0 (a.tsw ||| nan)) a.tsw a.pop)

/-- R202: one element of VX.RND. -/
def rndElem (kind : Nat) (s1 s2 : Word32) (u : Nat) : Word32 :=
  if kind = 0 then BitVec.ofNat 32 u
  else if kind = 1 then uniformOf u
  else if kind = 2 then (if u < s1.toNat then s2 else F32.zero)
  else if kind = 3 then BitVec.ofNat 32 (u * (if s1 = 0#32 then 2 ^ 32 else s1.toNat) / 2 ^ 32)
  else if kind = 4 then ffma s2 (normalOf u) s1
  else gumbelOf u

/-- R202: VX.RND. -/
def semRnd (e : VecEnv) : Run VecOut := do
  let base ← indexOk e (Iw.q e.w)
  let kind := Iw.f e.w 118 4
  let ws := e.resume (Iw.d e.w) ((List.range e.count).map fun i =>
    rndElem kind (e.scalar (Iw.p e.w)) (e.scalar (Iw.u e.w)) (drawAt e base (Iw.dslot e.w) i))
  .ok (out32 e ws (if kind = 0 || kind = 3 then summI ws 0 0 else summF ws 0 0) 0 false)

/-- The computation of a suspendable vector opcode, for a suspended instruction (R160). -/
def vecSem (op : Nat) (e : VecEnv) : Run VecOut :=
  if op = 0x01 then semLdv e else if op = 0x02 then semStv e
  else if op = 0x10 then elem2 fadd e else if op = 0x11 then elem2 fsub e else if op = 0x12 then elem2 fmul e
  else if op = 0x13 then elem3 ffma e else if op = 0x14 then elem2 fmax e else if op = 0x15 then elem2 fmin e
  else if op = 0x16 then elem1 absOf e else if op = 0x17 then elem1 negOf e else if op = 0x18 then elem2 fdiv e
  else if op = 0x19 then elem1 fsqrt e else if op = 0x1A then elem1 frsqrt e else if op = 0x1B then elem1 fexp e
  else if op = 0x1C then elem1 flog e else if op = 0x1D then semCmp e else if op = 0x1E then elem3 selOf e
  else if op = 0x20 then semCvt e else if op = 0x40 then semAdam e else if op = 0x60 then semRnd e
  else .error .illegal

/-! ### The commands -/

def execVxLdv (l : Loc) (s : State) : Result := .next (startVec 0x01 semLdv l.core l.part l.stream s)
def execVxStv (l : Loc) (s : State) : Result := .next (startVec 0x02 semStv l.core l.part l.stream s)
def execVxAdd (l : Loc) (s : State) : Result := .next (startVec 0x10 (elem2 fadd) l.core l.part l.stream s)
def execVxSub (l : Loc) (s : State) : Result := .next (startVec 0x11 (elem2 fsub) l.core l.part l.stream s)
def execVxMul (l : Loc) (s : State) : Result := .next (startVec 0x12 (elem2 fmul) l.core l.part l.stream s)
def execVxFma (l : Loc) (s : State) : Result := .next (startVec 0x13 (elem3 ffma) l.core l.part l.stream s)
def execVxMax (l : Loc) (s : State) : Result := .next (startVec 0x14 (elem2 fmax) l.core l.part l.stream s)
def execVxMin (l : Loc) (s : State) : Result := .next (startVec 0x15 (elem2 fmin) l.core l.part l.stream s)
def execVxAbs (l : Loc) (s : State) : Result := .next (startVec 0x16 (elem1 absOf) l.core l.part l.stream s)
def execVxNeg (l : Loc) (s : State) : Result := .next (startVec 0x17 (elem1 negOf) l.core l.part l.stream s)
def execVxDiv (l : Loc) (s : State) : Result := .next (startVec 0x18 (elem2 fdiv) l.core l.part l.stream s)
def execVxSqrt (l : Loc) (s : State) : Result := .next (startVec 0x19 (elem1 fsqrt) l.core l.part l.stream s)
def execVxRsqrt (l : Loc) (s : State) : Result := .next (startVec 0x1A (elem1 frsqrt) l.core l.part l.stream s)
def execVxExp (l : Loc) (s : State) : Result := .next (startVec 0x1B (elem1 fexp) l.core l.part l.stream s)
def execVxLog (l : Loc) (s : State) : Result := .next (startVec 0x1C (elem1 flog) l.core l.part l.stream s)
def execVxCmp (l : Loc) (s : State) : Result := .next (startVec 0x1D semCmp l.core l.part l.stream s)
def execVxSel (l : Loc) (s : State) : Result := .next (startVec 0x1E (elem3 selOf) l.core l.part l.stream s)
def execVxCvt (l : Loc) (s : State) : Result := .next (startVec 0x20 semCvt l.core l.part l.stream s)
def execVxRsum (l : Loc) (s : State) : Result := .next (startVec 0x30 semRsum l.core l.part l.stream s)
def execVxRmax (l : Loc) (s : State) : Result := .next (startVec 0x31 semRmax l.core l.part l.stream s)
def execVxRmin (l : Loc) (s : State) : Result := .next (startVec 0x32 semRmin l.core l.part l.stream s)
def execVxRarg (l : Loc) (s : State) : Result := .next (startVec 0x33 semRarg l.core l.part l.stream s)
def execVxRcnt (l : Loc) (s : State) : Result := .next (startVec 0x34 semRcnt l.core l.part l.stream s)
def execVxRdot (l : Loc) (s : State) : Result := .next (startVec 0x35 semRdot l.core l.part l.stream s)
def execVxEadd (l : Loc) (s : State) : Result := .next (startVec 0x36 semEadd l.core l.part l.stream s)
def execVxAdam (l : Loc) (s : State) : Result := .next (startVec 0x40 semAdam l.core l.part l.stream s)
def execVxTopk (l : Loc) (s : State) : Result := .next (startVec 0x50 semTopk l.core l.part l.stream s)
def execVxTopp (l : Loc) (s : State) : Result := .next (startVec 0x51 semTopp l.core l.part l.stream s)
def execVxGmax (l : Loc) (s : State) : Result := .next (startVec 0x52 semGmax l.core l.part l.stream s)
def execVxRnd (l : Loc) (s : State) : Result := .next (startVec 0x60 semRnd l.core l.part l.stream s)

/-- R137: has the vector instruction in execution still to pop the tile that it reads. -/
def VecFly.popDue (f : VecFly) : Bool := f.out.pop && !f.popped

/-- R137: every element of the tile has been read. -/
def VecFly.readAll (f : VecFly) : VecFly := { f with popped := true, done := if resumable f.word then Iw.n f.word else f.done }

/-- R137: the vector instruction in execution that reads the queue head has read the tile's last element, and the tile
is popped. -/
def execTileQueuePop (core part : Nat) (s : State) : Result :=
  let p := s.part core part
  match p.ctx with
  | none => .next s
  | some c =>
    match c.fly with
    | none => .next s
    | some f =>
      if f.popDue && !p.tq.isEmpty then
        .next (s.setPart core part { p with tq := p.tq.drop 1, ctx := some { c with fly := some f.readAll } })
      else .next s

end Sys2Proof.Machine
end

