-- ==== Sys2Proof/Machine/Control.lean ====
section
/-! DEFINITION. The core control processor (chapter 06): control instructions (R181), fetch and issue (R171, R174,
R182), retirement of matrix and vector instructions (R169). -/

namespace Sys2Proof.Machine

/-- What a control instruction does to the machine and its context. The context's program counter already names the
next instruction. -/
abbrev CpSem := Loc → IWord → State → Ctx → Run (State × Ctx)

/-- A control instruction that only changes its context. -/
def cpCtx (f : IWord → Ctx → Ctx) : CpSem := fun _ w s c => .ok (s, f w c)

/-- R181: y, the second operand: Gb + IMM. -/
def cpY (w : IWord) (c : Ctx) : Word64 := c.reg (Iw.cb w) + Iw.imm w

/-- A two-operand integer instruction. -/
def cpAlu (f : Word64 → Word64 → Word64) : CpSem :=
  cpCtx fun w c => c.setReg (Iw.cd w) (f (c.reg (Iw.ca w)) (cpY w c))

/-- Shift amount: y mod 64. -/
def shAmt (y : Word64) : Nat := y.toNat % 64

/-- R187: every earlier instruction of a stream has retired; a suspendable vector instruction in execution is exempt. -/
def streamDrained (p : Part) (c : Ctx) (stream : Nat) : Bool :=
  [0, 1, 2, 3].all (fun e => (c.queue stream e).isEmpty) && c.moves.all (fun m => m.stream != stream) &&
  p.runs.all (fun r => r.stream != stream) && (match p.drain with | none => true | some d => d.stream != stream) &&
  (match c.fly with | none => true | some f => f.stream != stream || suspendable f.word) &&
  (match c.susp with | none => true | some x => x.stream != stream || suspendable x.word)

def semLi : CpSem := cpCtx fun w c => c.setReg (Iw.cd w) (Iw.imm w)
def semLih : CpSem := cpCtx fun w c =>
  c.setReg (Iw.cd w) (BitVec.ofNat 64 (putField (c.reg (Iw.cd w)).toNat 48 16 (Iw.immU w 0 16)))
def semAdd : CpSem := cpAlu fun a y => a + y
def semSub : CpSem := cpAlu fun a y => a - y
def semMul : CpSem := cpAlu fun a y => a * y
def semAnd : CpSem := cpAlu fun a y => a &&& y
def semOr : CpSem := cpAlu fun a y => a ||| y
def semXor : CpSem := cpAlu fun a y => a ^^^ y
def semShl : CpSem := cpAlu fun a y => a <<< shAmt y
def semShr : CpSem := cpAlu fun a y => a >>> shAmt y
def semSra : CpSem := cpAlu fun a y => a.sshiftRight (shAmt y)
def semCmpCp : CpSem := cpCtx fun w c =>
  c.setReg (Iw.cd w) (if condHolds (Iw.cf w) (c.reg (Iw.ca w)) (cpY w c) then 1#64 else 0#64)

/-- R181: the stage address Ga + IMM of CP.LD and CP.ST, aligned to 8 bytes. -/
def cpStage (w : IWord) (c : Ctx) : Run Nat :=
  let a := (c.reg (Iw.ca w) + Iw.imm w).toNat
  if a % 8 ≠ 0 then .error .illegal else .ok a

def semLd : CpSem := fun l w s c => do
  let a ← cpStage w c
  let bs ← s.stageRead l.core c a 8
  .ok (s, c.setReg (Iw.cd w) (BitVec.ofNat 64 (leNat bs)))

def semSt : CpSem := fun l w s c => do
  let a ← cpStage w c
  c.stageRoom a 8
  .ok (s.writeBytes (c.stageAt l.core a) (leBytes 8 (c.reg (Iw.cb w)).toNat), c)

/-- The address of the instruction whose successor the context already names. -/
def pcOf (c : Ctx) (stream : Nat) : BitVec 48 := (c.stream stream).pc - 16#48

def setPc (c : Ctx) (stream : Nat) (pc : BitVec 48) : Ctx := c.setStream stream { c.stream stream with pc := pc }

/-- 16 × IMM as a 48-bit displacement. -/
def disp (w : IWord) : BitVec 48 := (Iw.imm w <<< 4).setWidth 48

def semBr : CpSem := fun l w s c =>
  .ok (s, if condHolds (Iw.cf w) (c.reg (Iw.ca w)) (c.reg (Iw.cb w)) then setPc c l.stream (pcOf c l.stream + disp w) else c)

def semJ : CpSem := fun l w s c =>
  let target := if Iw.cf w = 0 then pcOf c l.stream + disp w else (c.reg (Iw.ca w)).setWidth 48 + disp w
  if target.toNat % 16 ≠ 0 then .error .illegal
  else
    let c1 := c.setReg (Iw.cd w) ((c.stream l.stream).pc.setWidth 64)
    .ok (s, setPc c1 l.stream target)

/-- Word `k` of a summary slot (R149). -/
def Summary.word (x : Summary) (k : Nat) : Word32 :=
  if k = 0 then x.max else if k = 1 then x.min else if k = 2 then x.sum else if k = 3 then x.arg
  else if k = 4 then x.nonfin else if k = 5 then x.satcnt else if k = 6 then x.flags else x.seq

def semRss : CpSem := cpCtx fun w c =>
  let i := Iw.immU w 3 3
  let x := c.summary i
  let c1 := c.setReg (Iw.cd w) ((x.word (Iw.immU w 0 3)).setWidth 64)
  if Iw.immU w 6 1 = 1 then c1.setSummary i { x with flags := 0#32 } else c1

def semScr : CpSem := cpCtx fun w c => c.setReg (Iw.cd w) ((c.count (Iw.immU w 0 6)).setWidth 64)
def semScw : CpSem := cpCtx fun w c => c.setCount (Iw.immU w 0 6) ((c.reg (Iw.ca w)).setWidth 16)
def semGset : CpSem := cpCtx fun w c =>
  c.setGen (Iw.immU w 0 2) { seed := c.reg (Iw.ca w), stream := (c.reg (Iw.cb w)).setWidth 32 }

/-- CP.FORK: the named stream must be idle or ended. -/
def semFork : CpSem := fun l w s c =>
  let t := c.stream (Iw.cf w)
  if t.st = 0 || t.st = 4 then .ok (s, c.setStream (Iw.cf w) { t with st := 1, pc := pcOf c l.stream + disp w })
  else .error .illegal

def semEnd : CpSem := fun l _ s c => .ok (s, c.setStream l.stream { c.stream l.stream with st := 4 })

/-- R187: with a save pending the stream parks once its earlier instructions have retired; else no effect. -/
def semPark : CpSem := fun l _ s c =>
  if c.save.isNone then .ok (s, c)
  else if streamDrained (s.part l.core l.part) c l.stream then .ok (s, c.setStream l.stream { c.stream l.stream with st := 3 })
  else .error .wait

/-- R172: each share at least 2, the three summing to the context's entries. -/
def semQsh : CpSem := fun l w s c =>
  let v := (c.reg (Iw.ca w)).toNat
  let a := field v 0 8
  let b := field v 8 8
  let d := field v 16 8
  if a < 2 || b < 2 || d < 2 || a + b + d ≠ 96 / s.coreP l.core then .error .illegal
  else .ok (s, { c with qsh := some (a, b, d) })

/-- R181, R507: the core's program event; a code with bit 15 set also sets the tenant's notice. -/
def semEvt : CpSem := fun l w s c =>
  let code := Iw.immU w 0 16
  let s1 := s.raise l.core code
  .ok (if tbit code 15 then s1.raise (512 + c.tenant) (code % 2 ^ 15) else s1, c)

def semNop : CpSem := cpCtx fun _ c => c

/-- Does the control processor issue for a stream: a context that has not stopped, a running or waiting stream, no
share change under way (R172, R183). -/
def mayIssue (c : Ctx) (stream : Nat) : Bool :=
  c.fault.isNone && c.qsh.isNone && ((c.stream stream).st == 1 || (c.stream stream).st == 2)

/-- R170: a stream that issues runs, one that cannot waits. -/
def Ctx.running (c : Ctx) (stream st : Nat) : Ctx := c.setStream stream { c.stream stream with st := st }

/-- R171: a stream issues: it runs, and the next stream in order is considered first after it. -/
def Ctx.issues (c : Ctx) (stream : Nat) : Ctx := { c.running stream 1 with turn := (stream + 1) % 3 }

/-- R168: does the wait of a control instruction hold it back. A counter that the context does not have is no wait: it makes
the instruction illegal (R167, R182). -/
def cpWaits (s : State) (n : Nat) (c : Ctx) (w : IWord) : Bool :=
  Iw.waitEn w && decide (Iw.waitCtr w < 64 / s.coreP n) && !c.waitOk (Iw.waitCtr w) (Iw.wval w)

/-- R168, R169, R182: one control instruction `w`, fetched at the stream's program counter: the wait, the checks at issue,
the effect, the signal. An instruction that waits is not issued. -/
def cpRun (sem : CpSem) (l : Loc) (w : IWord) (s : State) (c : Ctx) : State :=
  let q : QEnt := { word := w, pc := (c.stream l.stream).pc }
  if cpWaits s l.core c w then s.setCtx l.core l.part (c.running l.stream 2)
  else if !issueOk (s.coreP l.core) l.stream w then s.haltCtx l.core l.part (Iw.engine w) l.stream q .illegal
  else
    let c1 := setPc (c.issues l.stream) l.stream ((c.stream l.stream).pc + 16#48)
    match sem l w s c1 with
    | .error .wait => s.setCtx l.core l.part (c.running l.stream 2)
    | .error h => s.haltCtx l.core l.part 4 l.stream q h
    | .ok (s1, c2) => s1.putCtx l.core l.part (c2.signalOf w)

/-! ### Fetch, and the order of the streams -/

/-- R174, R225: fetch 16 bytes at the program counter. `ext` is what arrives where the page lies in another module or in a
host, none where nothing has arrived. Data that the other side does not give, and a range that leaves the host region, are
translation faults. -/
def fetch (s : State) (c : Ctx) (stream : Nat) (ext : Option FetchExt) : Run IWord :=
  let pc := (c.stream stream).pc.toNat
  match s.translate c.tenant pc false with
  | none => .error (.trans pc)
  | some (.here a) => if s.poisoned a then .error (.poison pc) else .ok (BitVec.ofNat 128 (s.readLe a 16))
  | some place =>
    let gone := match place with
      | .host r o => (s.hostRange c.tenant r o 16).isNone
      | .remote g => s.peerFails (g / 2 ^ 44)
      | .here _ => false
    if gone then .error (.trans pc)
    else match ext with
      | none => .error .wait
      | some .fail => .error (.trans pc)
      | some .poison => .error (.poison pc)
      | some (.bytes bs) => .ok (BitVec.ofNat 128 (fieldAt bs 0 16))

/-- R171: can instruction `w` of a stream issue: a control instruction once its wait is satisfied (and CP.PARK once its stream
has drained, R187), an engine instruction once its share has an entry free. -/
def wordIssues (s : State) (l : Loc) (c : Ctx) (w : IWord) : Bool :=
  if Iw.engine w = 4 then
    !cpWaits s l.core c w &&
      !(Iw.opcode w == 0x42 && c.save.isSome && !streamDrained (s.part l.core l.part) c l.stream)
  else decide (4 < Iw.engine w) || decide ((c.queue l.stream (Iw.engine w)).length < (c.stream l.stream).share)

/-- R171: can a stream issue, as far as this module holds its code: one whose fetch has not been answered cannot. -/
def canIssue (s : State) (l : Loc) (c : Ctx) : Bool :=
  mayIssue c l.stream && match fetch s c l.stream none with
    | .error h => h != .wait
    | .ok w => wordIssues s l c w

/-- R171: is it a stream's turn: no stream that comes before it in the round can issue. -/
def itsTurn (s : State) (l : Loc) (c : Ctx) : Bool :=
  (((List.range 3).map fun j => (c.turn + j) % 3).takeWhile (· != l.stream)).all fun k => !canIssue s { l with stream := k } c

/-- A control command: the word must be the instruction that the command names, and it must be the stream's turn. -/
def cpExec (op : Nat) (sem : CpSem) (l : Loc) (w : IWord) (s : State) : State :=
  match s.ctx l.core l.part with
  | none => s
  | some c => if mayIssue c l.stream && Iw.engine w == 4 && Iw.opcode w == op && itsTurn s l c then cpRun sem l w s c else s

/-- R181: the control instruction of an opcode. -/
def cpSem (op : Nat) : CpSem :=
  if op = 0x01 then semLi else if op = 0x02 then semLih else if op = 0x03 then semAdd else if op = 0x04 then semSub
  else if op = 0x05 then semMul else if op = 0x06 then semAnd else if op = 0x07 then semOr else if op = 0x08 then semXor
  else if op = 0x09 then semShl else if op = 0x0A then semShr else if op = 0x0B then semSra else if op = 0x0C then semCmpCp
  else if op = 0x10 then semLd else if op = 0x11 then semSt else if op = 0x20 then semBr else if op = 0x21 then semJ
  else if op = 0x30 then semRss else if op = 0x31 then semScr else if op = 0x32 then semScw else if op = 0x33 then semGset
  else if op = 0x40 then semFork else if op = 0x41 then semEnd else if op = 0x42 then semPark else if op = 0x43 then semQsh
  else if op = 0x44 then semEvt else semNop

def execCpLi (l : Loc) (w : IWord) (s : State) : Result := .next (cpExec 0x01 semLi l w s)
def execCpLih (l : Loc) (w : IWord) (s : State) : Result := .next (cpExec 0x02 semLih l w s)
def execCpAdd (l : Loc) (w : IWord) (s : State) : Result := .next (cpExec 0x03 semAdd l w s)
def execCpSub (l : Loc) (w : IWord) (s : State) : Result := .next (cpExec 0x04 semSub l w s)
def execCpMul (l : Loc) (w : IWord) (s : State) : Result := .next (cpExec 0x05 semMul l w s)
def execCpAnd (l : Loc) (w : IWord) (s : State) : Result := .next (cpExec 0x06 semAnd l w s)
def execCpOr (l : Loc) (w : IWord) (s : State) : Result := .next (cpExec 0x07 semOr l w s)
def execCpXor (l : Loc) (w : IWord) (s : State) : Result := .next (cpExec 0x08 semXor l w s)
def execCpShl (l : Loc) (w : IWord) (s : State) : Result := .next (cpExec 0x09 semShl l w s)
def execCpShr (l : Loc) (w : IWord) (s : State) : Result := .next (cpExec 0x0A semShr l w s)
def execCpSra (l : Loc) (w : IWord) (s : State) : Result := .next (cpExec 0x0B semSra l w s)
def execCpCmp (l : Loc) (w : IWord) (s : State) : Result := .next (cpExec 0x0C semCmpCp l w s)
def execCpLd (l : Loc) (w : IWord) (s : State) : Result := .next (cpExec 0x10 semLd l w s)
def execCpSt (l : Loc) (w : IWord) (s : State) : Result := .next (cpExec 0x11 semSt l w s)
def execCpBr (l : Loc) (w : IWord) (s : State) : Result := .next (cpExec 0x20 semBr l w s)
def execCpJ (l : Loc) (w : IWord) (s : State) : Result := .next (cpExec 0x21 semJ l w s)
def execCpRss (l : Loc) (w : IWord) (s : State) : Result := .next (cpExec 0x30 semRss l w s)
def execCpScr (l : Loc) (w : IWord) (s : State) : Result := .next (cpExec 0x31 semScr l w s)
def execCpScw (l : Loc) (w : IWord) (s : State) : Result := .next (cpExec 0x32 semScw l w s)
def execCpGset (l : Loc) (w : IWord) (s : State) : Result := .next (cpExec 0x33 semGset l w s)
def execCpFork (l : Loc) (w : IWord) (s : State) : Result := .next (cpExec 0x40 semFork l w s)
def execCpEnd (l : Loc) (w : IWord) (s : State) : Result := .next (cpExec 0x41 semEnd l w s)
def execCpPark (l : Loc) (w : IWord) (s : State) : Result := .next (cpExec 0x42 semPark l w s)
def execCpQsh (l : Loc) (w : IWord) (s : State) : Result := .next (cpExec 0x43 semQsh l w s)
def execCpEvt (l : Loc) (w : IWord) (s : State) : Result := .next (cpExec 0x44 semEvt l w s)
def execCpNop (l : Loc) (w : IWord) (s : State) : Result := .next (cpExec 0x45 semNop l w s)

/-! ### Issue -/

/-- R171: an engine instruction enters its stream's share. -/
def enqueue (l : Loc) (w : IWord) (s : State) (c : Ctx) : State :=
  let st := c.stream l.stream
  let c1 := c.setQueue l.stream (Iw.engine w) (c.queue l.stream (Iw.engine w) ++ [{ word := w, pc := st.pc }])
  s.setCtx l.core l.part { c1.setStream l.stream { st with st := 1, pc := st.pc + 16#48 } with turn := (l.stream + 1) % 3 }

/-- R171, R174, R182, R48: the control processor issues the next instruction of a stream. One that cannot issue waits, and no
check is made of it. -/
def issue (l : Loc) (ext : FetchExt) (s : State) (c : Ctx) : State :=
  let q0 : QEnt := { word := 0#128, pc := (c.stream l.stream).pc }
  match fetch s c l.stream (some ext) with
  | .error h => s.haltCtx l.core l.part 4 l.stream q0 h
  | .ok w =>
    if !wordIssues s l c w then s.setCtx l.core l.part (c.running l.stream 2)
    else if Iw.engine w = 4 then cpRun (cpSem (Iw.opcode w)) l w s c
    else if !issueOk (s.coreP l.core) l.stream w then s.haltCtx l.core l.part (Iw.engine w) l.stream { q0 with word := w } .illegal
    else if !fmtsAllowed (s.fmtMask c.tenant) w then
      s.stopCtx l.core l.part (Iw.engine w) l.stream causeFormat w q0.pc 0
    else enqueue l w s c

/-- R171: INSTRUCTION_ISSUE. -/
def execInstructionIssue (l : Loc) (ext : FetchExt) (s : State) : Result :=
  match s.ctx l.core l.part with
  | none => .next s
  | some c => .next (if mayIssue c l.stream && itsTurn s l c then issue l ext s c else s)

/-! ### Retirement (R169) -/

/-- The first matrix instruction whose effect is complete, and the others. -/
def takeDone : List MxRun → Option (MxRun × List MxRun)
  | [] => none
  | r :: rs => if r.done then some (r, rs) else (takeDone rs).map fun x => (x.1, r :: x.2)

/-- R105, R151: has the drain delivered everything. -/
def Drain.finished (d : Drain) : Bool := Iw.drCount d.word == d.next && d.tile.isEmpty && d.erf.isEmpty

/-- R72: the rows that a load in progress has still to write. -/
def finishLoad (n pi : Nat) : Nat → State → State
  | 0, s => s
  | k + 1, s => if (s.part n pi).runs.any MxRun.loading then finishLoad n pi k (s.ldsStep n pi) else s

/-- R169: the matrix engine retires an instruction: the first one whose effect is complete, a load in progress once its last
row is written, or the drain. A drain to stage memory ORs its status into SS7. -/
def retireMatrix (n pi : Nat) (s0 : State) : State :=
  let s := if (takeDone (s0.part n pi).runs).isNone then finishLoad n pi 64 s0 else s0
  let p := s.part n pi
  match p.ctx with
  | none => s
  | some c =>
    match takeDone p.runs with
    | some (r, rs) => (s.setPart n pi { p with runs := rs }).putCtx n pi (c.signalOf r.word)
    | none =>
      match p.drain with
      | none => s
      | some d =>
        if !d.finished then s
        else
          let c1 := if Iw.drQueue d.word then c else c.orSS7 d.status
          (s.setPart n pi { p with drain := none }).putCtx n pi (c1.signalOf d.word)

/-- R139, R149: the vector engine retires its instruction. One that reads the queue head retires after the pop. -/
def retireVector (n pi : Nat) (s : State) : State :=
  match s.ctx n pi with
  | none => s
  | some c =>
    match c.fly with
    | none => s
    | some f =>
      if f.popDue then s
      else ((f.stageBytes (Iw.n f.word)).foldl (fun s x => s.writeBytes (c.stageAt n x.1) x.2) s).putCtx n pi (c.retireVec f)

/-- R169: INSTRUCTION_RETIRE on the matrix (1) or vector (2) engine. Moves retire by MOVE_COMPLETE. -/
def execInstructionRetire (core part eng : Nat) (s : State) : Result :=
  .next (if eng = 1 then retireMatrix core part s else if eng = 2 then retireVector core part s else s)

end Sys2Proof.Machine
end

