-- ==== Sys2Proof/Machine/ResetOps.lean ====
section
/-! DEFINITION. Module reset: what it leaves (R452, R454, R464; flash R478; loft R238). -/

namespace Sys2Proof.Machine

namespace State

/-- R22: domains 22 and 23 are on whenever input power is present. -/
def showSupply (s : State) : State := s.setField Reg.PWR_DOMST 22 2 (3 * bit s.pow.vin)

/-- What the boot flash and the loft dies keep when the module is reset or switched off; everything volatile is lost. The
audit entries that reached the flash stay (R501). `cause` is a code of CLK_LASTRST, none where no cause is recorded. -/
def moduleReset (s : State) (cause : Option (Nat × Nat)) : State :=
  let fl := s.boot.flash
  let fl1 := match cause with
    | none => fl
    | some c => { fl with resets := (c.1, c.2, s.now) :: fl.resets.take 63 }
  let held := s.boot.audit.dropWhile fun e => decide (s.boot.flushed < e.seq)
  let newest := (held.head?.map (·.seq)).getD 0
  let r : State :=
    { pending := s.pending, free := s.free, out := s.out
      mem := s.mem.filter fun c => isLoft c.1
      pow := { en := s.pow.en, vin := s.pow.vin, thermal := s.pow.thermal }
      loft := { dir := s.loft.dir, complete := s.loft.complete, wear := s.loft.wear }
      boot := { audit := held, flushed := s.boot.flushed, retired := s.boot.retired, flash := fl1 } }
  let r1 := (r.setReg64 Reg.MGT_LOGHEADL Reg.MGT_LOGHEADH newest).setReg64 Reg.MGT_LOGEXPL Reg.MGT_LOGEXPH
    (min newest (s.reg64 Reg.MGT_LOGEXPL Reg.MGT_LOGEXPH))
  let r2 := (((r1.setRegN Reg.MGT_LOGSTAT (s.regN Reg.MGT_LOGSTAT)).logShow).setRegN Reg.MGT_CFGSEQ fl.applied).showSupply
  let n := capAt 255 (fl1.resets.length)
  match cause with
  | none => r2.setReg Reg.CLK_LASTRST (s.reg Reg.CLK_LASTRST)
  | some c => r2.setRegN Reg.CLK_LASTRST (c.1 * 2 ^ 24 + c.2 * 256 + capAt 255 (max n (s.regField Reg.CLK_LASTRST 0 8 + 1)))

/-- R26, R229: the module fails: it falls silent and loses what is volatile (log entry 102). -/
def failModule (s : State) : State := s.moduleReset none

/-! ### The power-up sequence (R455, R461) -/

/-- The PLLs by their codes in CLK_FMSEL. -/
def plls : List Nat :=
  (List.range 16) ++ (List.range 4).map (16 + ·) ++ (List.range 12).map (32 + ·) ++ (List.range 32).map (64 + ·) ++
  (List.range 4).map (96 + ·) ++ [112, 113]

/-- R456: the divider ratio of a reef level. -/
def reefDiv (l : Nat) : Nat := l + 2

/-- Does a half-die hold no context (R31). -/
def halfEmpty (s : State) (h : Nat) : Bool := (List.range 8).all fun c => (s.core (8 * h + c)).parts.all fun p => p.2.ctx.isNone

/-- Is a half-die to be off: requested through PWR_DOMREQ (R455), or its 8 cores are all retired (R517), or MAINTENANCE (R481). -/
def halfOff (s : State) (h : Nat) : Bool :=
  s.regBit Reg.PWR_DOMREQ h || (List.range 8).all (fun c => (s.core (8 * h + c)).retired) || s.regField Reg.MGT_BOOT 28 4 == 6

/-- R463: the target ratio of a half-die; 16 on the way to being switched off (R455). -/
def ratioTarget (s : State) (h : Nat) : Nat :=
  if (s.halfOff h && s.halfEmpty h) || s.pow.idle.elem h then 16 else reefDiv s.reefLevel

def showTargets (s : State) : State := (List.range 16).foldl (fun s h => s.setField (Reg.CLK_RATIO h) 8 5 (s.ratioTarget h)) s

/-- R455: every domain comes on, PWR_GOOD is released; every PLL is enabled; the reef level is 4 (R8); the
loft's directory is to be verified (R241). -/
def powerUp (s : State) : State :=
  if s.pow.on || !s.pow.en || !s.pow.vin || s.pow.thermal then s
  else
    let s1 := { s with pow := { s.pow with on := true, held := false, tbHeld := none, chosen := 4, since := s.clk
                                           enabled := plls.map fun p => (p, s.clk) } }
    let s2 := (((s1.setRegN Reg.PWR_DOMST (2 ^ 24 - 1)).setRegN Reg.PWR_STATUS (4 * 2 ^ 29 + 2 ^ 15)).setField Reg.CLK_STATUS 31 1 1).showTargets
    if s2.loft.dir.isEmpty then s2 else s2.loftState 2

/-- A reset that leaves the input and PWR_EN as they are and comes up again at once: a fenced member (R427). -/
def fenceReset (s : State) : State := (s.moduleReset none).powerUp

end State

end Sys2Proof.Machine
end

