-- ==== Sys2Proof/Machine/Context.lean ====
section
/-! DEFINITION. Contexts (chapters 01, 03, 06): dispatch entries (R29, R30), stops and faults (R85, R86, R183), shape
changes (R84), save and restore in context format version 3 (R186 to R193), release and zeroing (R88). -/

namespace Sys2Proof.Machine

/-! ### Stops and faults -/

/-- R183: a context stops, for a cause that the detecting unit reports. -/
def execContextStop (l : Loc) (eng cause : Nat) (word : IWord) (pc : BitVec 48) (va : Nat) (s : State) : Result :=
  .next (if 1 ≤ cause && cause ≤ 6 then s.stopCtx l.core l.part eng l.stream cause word pc va else s)

/-- R86: a fault is charged to a partition: its injection stops, its rows in flight are discarded, its context stops. -/
def execPartitionFault (l : Loc) (cause : Nat) (word : IWord) (pc : BitVec 48) (s : State) : Result :=
  let s1 := s.setPart l.core l.part (s.endMatrix (s.part l.core l.part))
  .next (if 1 ≤ cause && cause ≤ 5 then s1.stopCtx l.core l.part 1 l.stream cause word pc 0 else s1)

/-- R85: a real activation row reads an active register with a parity error. -/
def execParityError (l : Loc) (word : IWord) (pc : BitVec 48) (s : State) : Result :=
  .next ((s.countParity l.core l.part).stopCtx l.core l.part 1 l.stream causeParity word pc 0)

/-- R166: a reader consumes a poisoned granule of stage memory. -/
def execPoisonConsumption (l : Loc) (eng : Nat) (word : IWord) (pc : BitVec 48) (s : State) : Result :=
  .next (s.stopCtx l.core l.part eng l.stream causePoison word pc 0)

/-! ### Completion, shape, dispatch -/

/-- R170: has every instruction that the context issued retired. -/
def Part.retired (p : Part) (c : Ctx) : Bool :=
  c.queuesEmpty && c.fly.isNone && c.susp.isNone && c.moves.isEmpty && p.runs.isEmpty && p.drain.isNone

/-- R170: every stream idle or ended and every instruction retired: completion is reported, once. A stopped context does not
complete (R183). -/
def execContextComplete (core part : Nat) (s : State) : Result :=
  match s.ctx core part with
  | none => .next s
  | some c =>
    if [0, 1, 2].all (fun i => (c.stream i).st == 0 || (c.stream i).st == 4) && (s.part core part).retired c && !c.told && c.fault.isNone
    then .next ((s.setCtx core part { c with told := true }).emit (.contextDone core part c.ctxid))
    else .next s

/-- R84: is a partition empty. -/
def Part.empty (p : Part) : Bool :=
  p.ctx.isNone && p.rows.isEmpty && p.runs.isEmpty && p.drain.isNone && !p.ghost.running && !p.zeroing

/-- R30: does a dispatch entry claim what a test slice of kind `kind` holds: a partition, its accumulator or registers, a MiB
of stage memory (`res` as the slice's cover part). A restore may take any partition, a shape change takes them all. -/
def Dispatch.claims (d : Dispatch) (kind res : Nat) : Bool :=
  match d with
  | .start p _ _ _ _ base len =>
    if kind ≤ 2 then res == p
    else if res < 16 then decide (base < (res - 8 + 1) * 2 ^ 20 ∧ (res - 8) * 2 ^ 20 < base + len)
    else res % 8 == p
  | .restore .. => true
  | .shape _ => true
  | _ => false

/-- R30: a dispatch makes a running test slice that holds what it claims yield; the slice is counted. -/
def State.yieldTest (s : State) (n : Nat) (d : Dispatch) : State :=
  match (s.core n).testing with
  | none => s
  | some x => if d.claims x.1 x.2 then ((s.setCore n { s.core n with testing := none }).bump Reg.IST_YIELDS 1).showIst else s

/-- R84: the shape changes while every partition is empty; everything is zeroed, and the change is under way until
PARTITION_ZEROED. -/
def State.reshape (s : State) (n code : Nat) : Option State :=
  if code ≤ 2 && (s.core n).reshape.isNone && (s.core n).parts.all (fun x => x.2.empty) then
    some (s.setCore n { s.core n with parts := [], reshape := some code })
  else none

/-- R162, R170, R172, R173: a context as its dispatch entry starts it. -/
def newCtx (p tenant ctxid : Nat) (slot : Option Nat) (entry : BitVec 48) (base len : Nat) : Ctx :=
  let sh := 96 / p / 3
  { tenant := tenant, ctxid := ctxid, slot := slot, base := base, len := len
    strm := [(0, { st := 1, pc := entry, share := sh }), (1, { st := 0, pc := 0#48, share := sh }), (2, { st := 0, pc := 0#48, share := sh })] }

/-- May a partition of a core receive a context (R31, R84, R88, R517): the half-die is on and is not to go off. -/
def State.canPlace (s : State) (n p : Nat) : Bool :=
  decide (n < 128) && decide (p < s.coreP n) && !(s.core n).retired && !(s.core n).gated && (s.core n).reshape.isNone &&
  s.regBit Reg.PWR_DOMST (n / 8) && !s.halfOff (n / 8) &&
  (s.part n p).ctx.isNone && !(s.part n p).zeroing && !(s.part n p).stopped

/-- Is a stage range of a core inside its 6 MiB and in no other context's allocation. -/
def State.stageFree (s : State) (n base len : Nat) : Bool :=
  decide (base + len ≤ State.stageLen) && (s.core n).parts.all fun x =>
    match x.2.ctx with
    | none => true
    | some c => decide (base + len ≤ c.base ∨ c.base + c.len ≤ base)

/-- R170: start a context where its partition can receive it. -/
def State.startCtx (s : State) (n p tenant ctxid : Nat) (slot : Option Nat) (entry : BitVec 48) (base len : Nat) : Option State :=
  if s.canPlace n p && s.stageFree n base len && tenant ≠ 0 && entry.toNat % 16 = 0 then
    some (s.setCtx n p (newCtx (s.coreP n) tenant ctxid slot entry base len))
  else none

/-- R89: a scheduler's prediction of a gap. -/
def State.predictGap (s : State) (n p ns : Nat) : State :=
  s.setPart n p { s.part n p with ghost := { (s.part n p).ghost with pred := some ns } }

/-- R187, R518: a save is requested, with a deadline of 1 ms where the entry gives none; one already pending stands. -/
def State.requestSave (s : State) (n p : Nat) (deadline : Option Nat) (addr : Nat) : State :=
  match s.ctx n p with
  | none => s
  | some c =>
    if c.save.isSome || c.fault.isSome then s
    else s.setCtx n p { c with save := some { deadline := s.clk + deadline.getD 1000000, addr := addr } }

/-- R88, R188: the partition is zeroed; it is busy until PARTITION_ZEROED. -/
def State.zeroPart (s : State) (n p : Nat) : State := s.setPart n p zeroedPart

/-- R88, R103: the scheduler releases a context that has stopped, and its partition is zeroed, or one that is complete; that
is no case of R103, and the partition keeps what it holds but the context and its tile queue. -/
def State.releaseCtx (s : State) (n p : Nat) : State :=
  match s.ctx n p with
  | none => s
  | some c => if c.fault.isSome then s.zeroPart n p else if c.told then s.setPart n p { s.part n p with ctx := none, tq := [] } else s

/-! ### Context format version 3 (R189) -/

/-- The byte that names a register set's format (log entry 12): bits [3:0] format, 4 signed, [6:5] group field, 7 held. -/
def heldByte (h : Option Held) : Nat :=
  match h with
  | none => 0
  | some x => x.fmt % 16 + 16 * bit x.signed + 32 * (if x.g = fmtG x.fmt then 0 else x.g % 4) + 128

/-- R106, R189: what a restored register set holds. Section 5 has no place for the row count of the load: the rows up to the
last one that is not blank count as loaded (DESIGN CHOICE, log entry 12). -/
def heldOf (b : Nat) (cells : Tab CellReg) : Option Held :=
  if tbit b 7 then
    let fm := b % 16
    let grp := field b 5 2
    let rows := (cells.filter fun x => decide (x.2 ≠ blankCell)).foldl (fun r x => max r (x.1 / 64 + 1)) 0
    some { fmt := fm, signed := tbit b 4, g := if grp = 0 then fmtG fm else grp, rows := rows }
  else none

def cellBytes (wd : Nat) (t : StatSet) : List Byte :=
  (List.range (64 * wd)).flatMap fun i =>
    let x := Tab.get {} t.cells (64 * (i / wd) + i % wd)
    leBytes 3 x.group.toNat ++ leBytes 1 x.scale.toNat

/-- R160: the suspended instruction of a context: the one in execution as far as it has come, or one that has not resumed. -/
def Ctx.suspended (c : Ctx) : Option Susp :=
  match c.fly with
  | some f => some { word := f.word, stream := f.stream, done := f.done }
  | none => c.susp

/-- The eleven sections of a saved context. -/
def imageSections (s : State) (n : Nat) (p : Part) (c : Ctx) : List (List Byte) :=
  let wd := s.coreW n
  let st := fun i => c.stream i
  let sec0 := (List.range 64).flatMap (fun i => leBytes 8 (c.reg i).toNat) ++
    [0, 1, 2].flatMap (fun i => leBytes 8 (st i).pc.toNat) ++ [0, 1, 2].flatMap (fun i => leBytes 1 (st i).st) ++
    [0, 1, 2].flatMap (fun i => leBytes 1 (st i).share)
  let sec1 := (List.range 64).flatMap fun i => leBytes 2 (if i < 64 / s.coreP n then (c.count i).toNat else 0)
  let sec2 := (List.range 4).flatMap fun i => leBytes 8 (c.genReg i).seed.toNat ++ leBytes 4 (c.genReg i).stream.toNat ++ zeros 4
  let sec3 := (List.range 8).flatMap fun i => (List.range 8).flatMap fun k => leBytes 4 ((c.summary i).word k).toNat
  let sec4 := (List.range 32).flatMap fun i => leBytes 4 (p.word i).toNat
  let sec5 := padTo 64 (leBytes 1 (heldByte p.active.held) ++ leBytes 1 (heldByte p.shadow.held)) ++
    cellBytes wd p.active ++ cellBytes wd p.shadow
  let sec6 := (List.range (2048 * wd)).flatMap fun i => leBytes 4 (p.slot (i / wd) (i % wd)).toNat
  let sec7 := padTo 64 (leBytes 4 p.tq.length) ++ p.tq.flatMap fun t => wordBytes (padWords (64 * wd) t.words)
  let sec8 := (List.range 16).flatMap fun i =>
    let v := c.vreg i
    let bs := packRow v.tag (v.elems.map BitVec.toNat)
    padTo 64 (leBytes 4 v.elems.length ++ leBytes 4 v.tag ++ leBytes 4 bs.length) ++ padTo 64 bs
  let sec9 := match c.suspended with
    | none => []
    | some f => leBytes 16 f.word.toNat ++ leBytes 1 f.stream ++ zeros 3 ++ leBytes 4 f.done
  let sec10 := padTo 64 (leBytes 8 c.len) ++ s.readN (c.stageAt n 0) c.len
  [padTo 640 sec0, sec1, sec2, sec3, sec4, sec5, sec6, sec7, sec8, padTo 64 (if sec9.isEmpty then zeros 64 else sec9), padTo 64 sec10]

/-- The mark map: one bit per 64 stage bytes, zero where the granule is marked; absent where none is. -/
def markMap (s : State) (n : Nat) (c : Ctx) : List Byte :=
  if s.poisonedIn (c.stageAt n 0) c.len then
    let bits := (List.range (ceilDiv c.len 64)).map fun i => bit (!s.poisoned (c.stageAt n (64 * i)))
    leBytes (ceilDiv bits.length 8) (digits 1 bits)
  else []

/-- Byte offsets of consecutive sections. -/
def sectionOffsets : Nat → List (List Byte) → List Nat
  | _, [] => []
  | o, x :: xs => o :: sectionOffsets (o + x.length) xs

/-- R189: the saved context. -/
def contextImage (s : State) (n : Nat) (p : Part) (c : Ctx) : List Byte :=
  let secs := imageSections s n p c
  let body := secs.flatMap id ++ markMap s n c
  leBytes 4 0x58435643 ++ leBytes 2 3 ++ leBytes 1 (s.coreW n) ++ leBytes 1 (bit c.suspended.isSome) ++ leBytes 1 c.tenant ++ zeros 7 ++
  leBytes 8 (128 + body.length) ++ (sectionOffsets 128 secs).flatMap (leBytes 8) ++ zeros 16 ++ body

/-- R186: is the context quiescent. A vector instruction in execution may be suspended; one whose rest the saved context
could not give after its tile was popped (R137) retires first (log entry 92). -/
def Part.quiescent (p : Part) (c : Ctx) : Bool :=
  [0, 1, 2].all (fun i => (c.stream i).st == 0 || (c.stream i).st == 3 || (c.stream i).st == 4) && c.queuesEmpty &&
  c.moves.isEmpty && p.runs.isEmpty && p.rows.isEmpty && p.drain.isNone && c.nmv == 0 &&
  (match c.fly with | none => true | some f => suspendable f.word && (!f.popped || resumable f.word))

/-- R160, R187: the running instruction of a context is suspended: what its completed elements wrote is in its registers and in
stage memory. -/
def State.suspend (s : State) (n : Nat) (c : Ctx) : State × Ctx :=
  match c.fly with
  | none => (s, c)
  | some f => ((f.stageBytes f.done).foldl (fun s x => s.writeBytes (c.stageAt n x.1) x.2) s, c.partway f)

/-- R187, R188: CONTEXT_SAVE: a quiescent context with a save pending is written out and its partition zeroed. -/
def execContextSave (core part : Nat) (s : State) : Result :=
  match s.ctx core part with
  | none => .next s
  | some c =>
    match c.save with
    | none => .next s
    | some r =>
      let p := s.part core part
      if p.quiescent c && c.fault.isNone then
        let x := s.suspend core c
        .next (((x.1.writeBytes r.addr (contextImage x.1 core p x.2)).zeroPart core part).emit (.schedDone core part 0))
      else .next s

/-- R187: SAVE_TIMEOUT: the save's deadline has come and the context is not quiescent. -/
def execSaveTimeout (core part : Nat) (s : State) : Result :=
  match s.ctx core part with
  | none => .next s
  | some c =>
    match c.save with
    | none => .next s
    | some r =>
      .next (if r.deadline ≤ s.clk && !(s.part core part).quiescent c && c.fault.isNone then
          s.stopCtx core part 4 0 causeSave 0#128 0#48 0
        else s)

/-! ### Restore (R190, R191, R193) -/

/-- A saved context in memory: its address, length, version, width and section offsets. -/
structure Image where
  mem  : Memory
  addr : Nat
  len  : Nat
  ver  : Nat
  wd   : Nat
  offs : List Nat
  deriving DecidableEq, Repr

/-- Bytes of an image from an offset, a number there, and a number in a section. -/
def Image.slice (i : Image) (o n : Nat) : List Byte := i.mem.readN (i.addr + o) n
def Image.rd (i : Image) (o n : Nat) : Nat := leNat (i.slice o n)
def Image.at (i : Image) (sec off n : Nat) : Nat := i.rd (i.offs.getD sec 0 + off) n

/-- Do the offsets rise, section 2 of a version 2 image left out. -/
def rising : List Nat → Bool
  | a :: b :: rest => decide (a < b) && rising (b :: rest)
  | _ => true

/-- R190: header checks: magic, version, width, flags, tenant, zero fields, offsets. -/
def imageHeaderOk (i : Image) (tenant : Nat) : Bool :=
  i.rd 0 4 == 0x58435643 && (i.ver == 2 || i.ver == 3) &&
  (i.wd == 64 || (i.ver == 3 && (i.wd == 32 || i.wd == 16))) && decide (i.rd 7 1 < 2) && i.rd 8 1 == tenant && tenant != 0 &&
  i.rd 9 7 == 0 && i.rd 0x70 16 == 0 &&
  (if i.ver == 2 then i.offs.getD 2 1 == 0 && rising (i.offs.take 2 ++ i.offs.drop 3) else rising i.offs) &&
  decide (128 ≤ i.offs.getD 0 0) && i.offs.all (fun o => o % 64 == 0 && decide (o < i.len))

/-- Offsets of the sixteen register entries of section 8. -/
def regOffsets (i : Image) : Nat → Nat → List Nat
  | 0, _ => []
  | k + 1, o => o :: regOffsets i k (o + 64 + roundUp (i.at 8 (o + 8) 4) 64)

/-- The end of the register entries of section 8. -/
def Image.regsEnd (i : Image) : Nat := let o := (regOffsets i 16 0).getD 15 0; o + 64 + roundUp (i.at 8 (o + 8) 4) 64

/-- R189: bytes of section `k`. -/
def Image.size (i : Image) (k : Nat) : Nat :=
  if k = 0 then 640 else if k = 1 then 128 else if k = 2 then (if i.ver = 2 then 0 else 64) else if k = 3 then 256
  else if k = 4 then 128 else if k = 5 then 64 + 512 * i.wd else if k = 6 then 8192 * i.wd
  else if k = 7 then 64 + i.at 7 0 4 * 256 * i.wd else if k = 8 then i.regsEnd else if k = 9 then 64 else 64 + i.at 10 0 8

/-- R190: every section lies before the next one and within the image; the mark map follows section 10 whole, where it is there
(R189). -/
def Image.fits (i : Image) : Bool :=
  let len := i.len
  let ends := (List.range 11).map fun k => i.offs.getD k 0 + i.size k
  (List.range 10).all (fun k => (i.ver == 2 && (k == 2 || k == 1)) || decide (ends.getD k 0 ≤ i.offs.getD (k + 1) 0)) &&
  (i.ver != 2 || decide (ends.getD 1 0 ≤ i.offs.getD 3 0)) &&
  (let e := roundUp (ends.getD 10 0) 64
   decide (ends.getD 10 0 ≤ len ∧ (len ≤ e ∨ e + ceilDiv (ceilDiv (i.at 10 0 8) 64) 8 ≤ len)))

/-- The suspended instruction of section 9. -/
def Image.susp (i : Image) : IWord := BitVec.ofNat 128 (i.at 9 0 16)

/-- R193: elements completed. -/
def Image.done (i : Image) : Nat := if i.ver = 2 then i.at 9 20 4 * 256 else i.at 9 20 4

/-- R160, R190: section 9: zero without a suspended instruction; else a suspendable one whose stream and fields are right, with a
whole multiple of 64 elements completed. -/
def Image.suspOk (i : Image) : Bool :=
  if i.rd 7 1 = 0 then i.at 9 0 64 == 0
  else
    let w := i.susp
    Iw.engine w == 2 && suspendable w && decide (i.at 9 16 1 ≤ 2) && issueOk (64 / i.wd) (i.at 9 16 1) w && i.at 9 17 3 == 0 &&
    i.at 9 24 40 == 0 && decide (i.done % 64 = 0 ∧ i.done ≤ Iw.n w)

/-- R189: section 5's prefix: the two register sets' formats (log entry 12), then zeros. -/
def Image.heldByteOk (b : Nat) : Bool :=
  if tbit b 7 then fmtMul (b % 16) && (fmtInt84 (b % 16) || !tbit b 4) && field b 5 2 != 3 else b == 0

/-- R190: the value ranges of every field. -/
def imageValuesOk (i : Image) : Bool :=
  let p := 64 / i.wd
  let st := fun k => i.at 0 (536 + k) 1
  let sh := fun k => i.at 0 (539 + k) 1
  i.at 0 0 8 == 0 && [0, 1, 2].all (fun k => i.at 0 (512 + 8 * k) 8 % 16 == 0 && decide (i.at 0 (512 + 8 * k) 8 < 2 ^ 48)) &&
  [0, 1, 2].all (fun k => st k == 0 || st k == 3 || st k == 4) && [0, 1, 2].all (fun k => decide (2 ≤ sh k)) &&
  sh 0 + sh 1 + sh 2 == 96 / p && i.at 0 542 98 == 0 && i.at 1 (128 / p) (128 - 128 / p) == 0 &&
  (i.ver == 2 || (List.range 4).all fun k => i.at 2 (16 * k + 12) 4 == 0) &&
  (List.range 8).all (fun k => decide (i.at 3 (32 * k + 24) 4 < 32) && (i.ver == 3 || i.at 3 (32 * k + 28) 4 == 0)) &&
  (List.range 32).all (fun k => field (i.at 4 (4 * k) 4) 3 17 == 0 && (i.ver == 3 || field (i.at 4 (4 * k) 4) 20 2 != 3)) &&
  Image.heldByteOk (i.at 5 0 1) && Image.heldByteOk (i.at 5 1 1) && i.at 5 2 62 == 0 &&
  decide (i.at 7 0 4 ≤ 8) && i.at 7 4 60 == 0 &&
  (regOffsets i 16 0).all (fun o =>
    let w := i.at 8 (o + 4) 4
    (w == 32 || w == 16 || w == 8 || w == 6 || w == 4) && decide (i.at 8 o 4 ≤ 16384 / p) &&
    i.at 8 (o + 8) 4 == packedLen w (i.at 8 o 4) && i.at 8 (o + 12) 52 == 0) &&
  i.suspOk && decide (i.at 10 0 8 ≤ State.stageLen) && i.at 10 8 56 == 0 && i.fits

/-- R190: read and check a saved context. -/
@[irreducible] def readImage (s : State) (addr tenant : Nat) : Option Image :=
  let i : Image := { mem := s.mem, addr := addr, len := s.readLe (addr + 0x10) 8, ver := s.readLe (addr + 4) 2, wd := s.readLe (addr + 6) 1
                     offs := (List.range 11).map fun k => s.readLe (addr + (0x18 + 8 * k)) 8 }
  if imageHeaderOk i tenant && imageValuesOk i then some i else none

/-- The stationary registers of section 5; parity is regenerated (R189). -/
def Image.stat (i : Image) (k : Nat) : StatSet :=
  let cells := ((List.range (64 * i.wd)).map fun j =>
    let o := 64 + 256 * i.wd * k + 4 * j
    (64 * (j / i.wd) + j % i.wd, mkCell (i.at 5 o 3) (i.at 5 (o + 3) 1))).filter fun x => decide (x.2 ≠ {})
  { held := heldOf (i.at 5 k 1) cells, cells := cells }

/-- A table from the values of consecutive keys, defaults left out. -/
def tabOf {α : Type} [DecidableEq α] (d : α) (xs : List α) : Tab α :=
  (xs.zipIdx.map fun x => (x.2, x.1)).filter fun x => decide (x.2 ≠ d)

/-- The accumulator of section 6. -/
def Image.acc (i : Image) : Tab Word32 :=
  ((List.range (2048 * i.wd)).map fun j => (64 * (j / i.wd) + j % i.wd, BitVec.ofNat 32 (i.at 6 (4 * j) 4))).filter
    fun x => decide (x.2 ≠ 0#32)

/-- The partition of an image, without its context. A tile's status word is not saved and restores as zero. -/
def Image.part (i : Image) : Part :=
  { active := i.stat 0, shadow := i.stat 1, acc := i.acc
    tsw := tabOf 0#32 ((List.range 32).map fun k => BitVec.ofNat 32 (i.at 4 (4 * k) 4))
    tq := (List.range (i.at 7 0 4)).map fun t =>
      { status := 0#32, words := (List.range (64 * i.wd)).map fun k => BitVec.ofNat 32 (i.at 7 (64 + 256 * i.wd * t + 4 * k) 4) } }

/-- A summary slot of section 3. -/
def Image.summary (i : Image) (k : Nat) : Summary :=
  let w := fun j => BitVec.ofNat 32 (i.at 3 (32 * k + 4 * j) 4)
  { max := w 0, min := w 1, sum := w 2, arg := w 3, nonfin := w 4, satcnt := w 5, flags := w 6, seq := if i.ver = 2 then 0#32 else w 7 }

/-- A vector register of section 8. -/
def Image.vreg (i : Image) (o : Nat) : VReg :=
  let tag := i.at 8 (o + 4) 4
  let row := i.slice (i.offs.getD 8 0 + o + 64) (i.at 8 (o + 8) 4)
  { tag := tag, elems := (unpackN tag row (i.at 8 o 4)).map (BitVec.ofNat 32) }

/-- R191, R193: the context of an image. A parked stream continues after its CP.PARK. -/
def Image.ctx (i : Image) (tenant ctxid : Nat) (slot : Option Nat) (base : Nat) : Ctx :=
  let strm := (List.range 3).map fun k =>
    let st := i.at 0 (536 + k) 1
    ({ st := if st = 3 then 1 else st, pc := BitVec.ofNat 48 (i.at 0 (512 + 8 * k) 8), share := i.at 0 (539 + k) 1 } : Strm)
  { tenant := tenant, ctxid := ctxid, slot := slot, base := base, len := i.at 10 0 8
    g := tabOf 0#64 ((List.range 64).map fun k => BitVec.ofNat 64 (i.at 0 (8 * k) 8))
    strm := tabOf {} strm
    gen := if i.ver = 2 then [] else tabOf {} ((List.range 4).map fun k =>
      { seed := BitVec.ofNat 64 (i.at 2 (16 * k) 8), stream := BitVec.ofNat 32 (i.at 2 (16 * k + 8) 4) })
    sc := tabOf 0#16 ((List.range 64).map fun k => BitVec.ofNat 16 (i.at 1 (2 * k) 2))
    ss := tabOf {} ((List.range 8).map i.summary)
    v := tabOf {} ((regOffsets i 16 0).map i.vreg)
    susp := if i.rd 7 1 = 0 then none else some { word := i.susp, stream := i.at 9 16 1, done := i.done } }

/-- R160, R191: a suspended instruction resumes first, at once where the engine is free and it is its turn; else its own
command resumes it (R139). -/
def resumeVec (s : State) (n p : Nat) : State :=
  match (s.ctx n p).bind (·.susp) with
  | none => s
  | some x => startVec (Iw.opcode x.word) (vecSem (Iw.opcode x.word)) n p x.stream s

/-- The stage bytes and marks of section 10. -/
def restoreStage (s : State) (n base : Nat) (i : Image) : State :=
  let len := i.at 10 0 8
  let o := i.offs.getD 10 0 + 64
  let s1 := s.writeBytes (State.stageOf n + base) (i.slice o len)
  let mapAt := roundUp (o + len) 64
  if i.len ≤ mapAt then s1
  else (List.range (ceilDiv len 64)).foldl
    (fun s k => if tbit (i.rd (mapAt + k / 8) 1) (k % 8) then s else s.markPoison (State.stageOf n + base + 64 * k) 64) s1

/-- The first partition of a core that can receive a context. -/
def State.freePart (s : State) (n : Nat) : Option Nat := (List.range (s.coreP n)).find? (s.canPlace n)

/-- R190, R191: restore a saved context into a free partition of its width; none where it must wait. -/
def State.restoreCtx (s : State) (n addr tenant ctxid : Nat) (slot : Option Nat) (base : Nat) : Option State :=
  match readImage s addr tenant with
  | none => some (s.emit (.schedDone n 0 0x0A))
  | some i =>
    if i.wd ≠ s.coreW n || !s.stageFree n base (i.at 10 0 8) then none
    else match s.freePart n with
      | none => none
      | some p =>
        let s1 := restoreStage s n base i
        let s2 := s1.setPart n p { i.part with ctx := some (i.ctx tenant ctxid slot base) }
        some ((resumeVec s2 n p).emit (.schedDone n p 0))

/-- Act on a dispatch entry; none where it must wait. -/
def State.dispatch (s : State) (n : Nat) (d : Dispatch) : Option State :=
  match d with
  | .start p t c slot e b ln => s.startCtx n p t c slot e b ln
  | .gap p ns => some (s.predictGap n p ns)
  | .shape code => s.reshape n code
  | .save p dl a => some (s.requestSave n p dl a)
  | .restore a t c slot b => s.restoreCtx n a t c slot b
  | .release p => some (s.releaseCtx n p)

/-- R29: entries are acted on in the order they arrived; one that must wait holds the later ones back. -/
def State.dispatchAll (n : Nat) : List Waiting → State → State
  | [], s => s.setCore n { s.core n with waiting := [] }
  | d :: ds, s =>
    match s.dispatch n d.entry with
    | some s1 => State.dispatchAll n ds s1
    | none => s.setCore n { s.core n with waiting := d :: ds }

/-- R29: an entry joins a dispatch queue at its end, before those of the same cycle from higher-numbered scheduler
processors. -/
def joinQueue (x : Waiting) : List Waiting → List Waiting
  | [] => [x]
  | y :: ys => if y.since = x.since && decide (x.sched < y.sched) then x :: y :: ys else y :: joinQueue x ys

/-- R25: the home scheduler processor of the request slot (below 32768, of the partner's role from 2^40), training job or tenant that
a context works for. -/
def homeOf (slot : Option Nat) (tenant : Nat) : Nat :=
  match slot with
  | none => tenant % 4
  | some k => if k < 32768 || 2 ^ 40 ≤ k then k % 4 else 0

/-- R25: the home whose state an entry about a context belongs to, none for entries about no context. -/
def State.entryHome (s : State) (n : Nat) (d : Dispatch) : Option Nat :=
  match d with
  | .start _ t _ slot _ _ _ => some (homeOf slot t)
  | .restore _ t _ slot _ => some (homeOf slot t)
  | .save p _ _ => (s.ctx n p).map fun c => homeOf c.slot c.tenant
  | .release p => (s.ctx n p).map fun c => homeOf c.slot c.tenant
  | _ => none

/-- R25, R29: scheduler processor `sched` writes an entry into the core's dispatch queue. An entry about a context comes from
its home, which alone modifies where the context's object runs (DEDUCED, log entry 97). -/
def State.dispatchEntry (s : State) (n sched : Nat) (d : Dispatch) : State :=
  if 4 ≤ sched || (s.entryHome n d).any (· != sched) then s
  else
    let s1 := s.yieldTest n d
    State.dispatchAll n (joinQueue { sched := sched, since := s1.clk, entry := d } (s1.core n).waiting) s1

def execDispatchEntry (core sched : Nat) (d : Dispatch) (s : State) : Result := .next (s.dispatchEntry core sched d)
def execShapeChange (core sched code : Nat) (s : State) : Result := .next (s.dispatchEntry core sched (.shape code))
def execSaveRequest (core sched part : Nat) (deadline : Option Nat) (addr : Nat) (s : State) : Result :=
  .next (s.dispatchEntry core sched (.save part deadline addr))
def execRestore (core sched addr tenant ctxid : Nat) (slot : Option Nat) (base : Nat) (s : State) : Result :=
  .next (s.dispatchEntry core sched (.restore addr tenant ctxid slot base))
def execContextRelease (core sched part : Nat) (s : State) : Result := .next (s.dispatchEntry core sched (.release part))

/-- R88, R84: zeroing completes: the partition may receive another context, a new shape is in force, and dispatch entries
that waited are acted on. -/
def execPartitionZeroed (core part : Nat) (s : State) : Result :=
  let s1 := match (s.core core).reshape with
    | some code => s.setCore core { s.core core with shape := code, reshape := none, parts := [] }
    | none => if (s.part core part).zeroing then s.setPart core part {} else s
  .next (State.dispatchAll core (s1.core core).waiting s1)

end Sys2Proof.Machine
end

