-- ==== Sys2Proof/Machine/Memory.lean ====
section
/-! DEFINITION. Memory tiers (chapter 08): translation changes (R227), zeroing (R221), uncorrectable errors and their
repair (R230), patrol scrub (R231), granule retirement (R232). -/

namespace Sys2Proof.Machine

namespace State

/-- R238, R249, R251: may tenant `t` map a loft granule: it belongs to a model whose mask names `t`, in a loft that maps models, and
the tenant's access was not discarded. -/
def loftAllows (s : State) (t : Nat) (w : Word64) : Bool :=
  gShared w && !s.loft.barred.elem (t % 256) && (s.regField Reg.LFT_STATUS 0 4 == 3 || s.regField Reg.LFT_STATUS 0 4 == 5) &&
  match s.loft.models[gModel w]? with
  | none => false
  | some m => tbit (leNat (m.mask)) (t % 256)

/-- R219, R220: the attributes of a leaf entry for tenant `t` agree with granule `i` under it; a free granule becomes the
tenant's, within its limit (R250), with its mirror where the entry has MIR (R430). None where the scheduler may not write the
entry. -/
def claimGran (t e : Nat) (s : State) (i : Nat) : Option State :=
  let w := s.granOf t i
  if 393728 ≤ i then (if s.loftAllows t (s.gran i) && tbit e 4 then some s else none)
  else if gState w = 1 && gOwner w = t % 256 && gFv w == tbit e 6 && gMir w == tbit e 3 && gKv w == tbit e 5 then some s
  else if t < 256 && s.granFree i && (393216 ≤ i || decide (s.regField (Reg.TNT_GRANUSE t) 0 19 < s.regField (Reg.TNT_GRANLIM t) 0 19)) then
    let s1 := s.putGran i (mkGran t 1 (tbit e 6) (tbit e 2) (tbit e 3) (tbit e 5) 0)
    if tbit e 3 then s1.mirrorGran i else some s1
  else none

/-- R220: every granule that the page of a leaf entry covers is claimed, or none. -/
def claimFrame (s : State) (t e sh : Nat) : Option State :=
  match s.leafRange e sh with
  | none => some s
  | some (a, n) =>
    if (granuleOf a).isNone then none
    else (granulesIn a n).foldl (fun (o : Option State) i => o.bind fun u => claimGran t e u i) (some s)

/-- R232: the corrected errors of a granule over the last 24 h (module clock, ns). -/
def errorsOf (s : State) (i : Nat) : List Nat :=
  (Tab.get [] s.loft.errors i).filter fun t => decide (s.clk ≤ t + 86400000000000)

def addError (s : State) (i k : Nat) : State :=
  { s with loft := { s.loft with errors := Tab.set [] s.loft.errors i (List.replicate k s.clk ++ s.errorsOf i) } }

/-- R228: an uncorrectable word becomes poisoned. -/
def poisonWord (s : State) (a : Nat) : State := s.markPoison (a / 64 * 64) 64

/-- R229, R230, R232: an uncorrectable error that is not repaired: the word is poisoned and its granule is due for retirement; in
a reserved granule the module fails; the word of a mirror is poisoned (log entry 106). -/
def giveUp (s : State) (a : Nat) : State :=
  match granuleOf a with
  | none => s.poisonWord a
  | some i =>
    if gState (s.gran i) = 2 && !gMir (s.gran i) then s.failModule
    else { s.poisonWord a with loft := { s.loft with unfixed := insertNat i s.loft.unfixed } }

/-- R230, R431: does the partner hold a copy to repair from: PAIRED, SPLITTING, or RESYNCING at the member that receives (log
entry 106). -/
def canRepair (s : State) : Bool :=
  s.pairState == 1 || s.pairState == 6 || (s.pairState == 5 && s.regBit Reg.PAI_RESYNC 31)

/-- R230: an uncorrectable error in the 64-byte word of an HBM or SRAM address. In a mirrored granule with a partner in
reach the word is asked from the mirror (REPAIR_REQ, R432); otherwise it is not repaired. -/
def ueFound (s : State) (a : Nat) : State :=
  let s1 := s.recordUe (a / 64 * 64)
  let w := s.granAt a
  if gMir w && isHbm a && s.canRepair then
    let s2 := { s1 with loft := { s1.loft with repairs := insertNat (a / 64) s1.loft.repairs } }
    (s2.sendMirror 5 s.self 0 (gMgran w * 2 ^ 21 + a / 64 * 64 % 2 ^ 21) 64 [] false).2
  else s1.giveUp a

/-- R230: the partner is no longer in reach: no pending repair succeeds. -/
def dropRepairs (s : State) : State :=
  s.loft.repairs.foldl (fun s w => s.giveUp (64 * w)) { s with loft := { s.loft with repairs := [] } }

/-- R228: a corrected error at a local address is counted; those of a granule also over 24 h (R232). -/
def ceFound (s : State) (a : Nat) : State :=
  let s1 := if isHbm a then s.bump (Reg.MEM_CE (stackOf a)) 1 else s.bump Reg.MEM_SRAMCE 1
  match granuleOf a with
  | none => s1
  | some i => s1.addError i 1

/-- Granules that the patrol scrub reads: allocated and reserved, HBM and shared SRAM (R231). -/
def scrubSet (s : State) : List Nat :=
  (s.grans.filter fun g => decide (g.1 < 393728) && (gState g.2 == 1 || gState g.2 == 2)).map Prod.fst

/-- R232: is a granule due for retirement. -/
def retireDue (s : State) (i : Nat) : Bool :=
  (s.regField Reg.MEM_RETTHR 0 8 != 0 && decide (s.regField Reg.MEM_RETTHR 0 8 ≤ (s.errorsOf i).length)) || s.loft.unfixed.elem i

/-- Copy a granule's bytes and poison marks (R232). -/
def copyGran (s : State) (i j : Nat) : State :=
  let a := granuleAddr i
  let b := granuleAddr j
  let s1 := { s with mem := Memory.copy s.mem a b (2 ^ 21) }
  (s.poison.filter fun w => decide (a / 64 ≤ w ∧ w < a / 64 + 32768)).foldl (fun s w => s.markPoison (64 * w - a + b) 64) s1

/-- R222, R232: a 1 GiB leaf becomes a table of 512 leaves of 2 MiB with the same attributes, so that one granule of it can
move. None without a table page. -/
def splitLeaf (s : State) (t va e : Nat) : Option State :=
  match s.allocTable with
  | none => none
  | some (tbl, s1) =>
    let s2 := (List.range 512).foldl (fun s k => s.putEntry (tbl + 8 * k) (e + k * 2 ^ 21)) s1
    let at_ := fun (a k : Nat) => a + 8 * field va k 9
    let l3 := s2.readLe (at_ (s2.root t) 39) 8
    some ((s2.putEntry (at_ (teFrame l3) 30) (pointerTo tbl)).noteChange (t, va, e, 30))

/-- R227: move the leaves of a granule to its replacement, page by page. None where a table page is missing. -/
def moveLeaves (t i j : Nat) : List (Nat × Nat × Nat) → State → Option State
  | [], s => some s
  | (va, sh, e) :: rest, s =>
    let cut := if sh ≤ 21 then some (s, va, sh, e) else (s.splitLeaf t va e).map fun u =>
      let k := (granuleAddr i - teFrame e % 2 ^ 44) / 2 ^ 21
      (u, va + k * 2 ^ 21, 21, e + k * 2 ^ 21)
    match cut with
    | none => none
    | some (u, va, sh, e) => (u.putLeaf t va sh (e - granuleAddr i + granuleAddr j)).bind (moveLeaves t i j rest)

/-- The table pointers below a table (R222): where each lies, and the table it names. -/
def pointersIn (s : State) : List Nat → Nat → List (Nat × Nat)
  | [], _ => []
  | _ :: rest, tbl => (List.range 512).flatMap fun i =>
      let e := s.readLe (tbl + 8 * i) 8
      if !tbit e 0 || tbit e 1 then [] else (tbl + 8 * i, teFrame e) :: pointersIn s rest (teFrame e)

/-- R232: the tables of tenant `t` in granule `i` are now in granule `j`, where their contents are: root and pointers, level by
level. -/
def moveTables (i j : Nat) (s : State) (t : Nat) : State :=
  let tgt := fun a => a % 2 ^ 21 + granuleAddr j
  let r := s.root t
  let s1 := if r ≠ 0 && r / 2 ^ 21 = i then (s.setRegN (Reg.TNT_ROOTL t) (tgt r % 2 ^ 32)).setRegN (Reg.TNT_ROOTH t) (tgt r / 2 ^ 32) else s
  if s1.root t = 0 then s1
  else (List.range 3).foldl (fun s _ =>
    ((s.pointersIn [39, 30, 21] (s.root t)).filter fun p => p.2 / 2 ^ 21 = i).foldl (fun s p =>
      s.putEntry p.1 (pointerTo (tgt p.2))) s) s1

/-- R232: what names granule `i` names its replacement `j` instead: KV frames and index entries, epochs, adapter slots, variants,
wings, the page supply of tables. -/
def renameGran (s : State) (i j : Nat) : State :=
  let g := fun k => if k = i then j else k
  let f := fun a => if a / 2 ^ 21 = i then a % 2 ^ 21 + j * 2 ^ 21 else a
  { s with
    serve := { s.serve with
      kv := s.serve.kv.map fun b => { b with frames := b.frames.map f, entry := f b.entry }
      kvTab := s.serve.kvTab.map g
      variants := s.serve.variants.map fun v => (v.1, { v.2 with grans := v.2.grans.map g }) }
    pair := { s.pair with grans := s.pair.grans.map fun k =>
      (k.1, if gMir k.2 && gMgran k.2 == i then BitVec.ofNat 64 (putField k.2.toNat 0 19 j) else k.2) }
    loft := { s.loft with tabs := s.loft.tabs.map fun p => (g p.1, p.2) }
    curtain := { s.curtain with
      models := s.curtain.models.map fun m => (m.1, { m.2 with live := m.2.live.map fun e => { e with grans := e.grans.map g } })
      adapters := s.curtain.adapters.map fun a => (a.1, { a.2 with grans := a.2.grans.map g })
      runs := s.curtain.runs.map fun r => (r.1, { r.2 with wings := r.2.wings.map g }) } }

end State

/-- R222, R227 steps 1 and 2: the scheduler writes or removes a leaf entry of a tenant. Translations are not cached in
this model, so the invalidation is immediate. -/
def execTranslationChange (tenant va shift entry : Nat) (s : State) : Result :=
  if (shift != 12 && shift != 21 && shift != 30) || va % 2 ^ shift != 0 || 2 ^ 48 ≤ va || tenant % 256 == 0 || (256 ≤ tenant && !s.servesPartner) ||
      2 ^ 64 ≤ entry || (tbit entry 0 && (!tbit entry 1 || !State.teOk entry shift)) then .next s
  else
    match (if tbit entry 0 then s.claimFrame tenant entry shift else some s) with
    | none => .next s
    | some s1 => .next ((s1.putLeaf tenant va shift entry).getD s)

/-- R227 step 3: no access in flight was translated through the old entry; its frame becomes reusable. A granule that no
leaf of its tenant maps any more is freed. -/
def execTranslationQuiesce (tenant va : Nat) (s : State) : Result :=
  match s.loft.changes.find? fun c => c.1 == tenant && c.2.1 == va with
  | none => .next s
  | some c =>
    let e := c.2.2.1
    let sh := c.2.2.2
    if s.inUse tenant e sh then .next s
    else
      let s1 := { s with loft := { s.loft with changes := s.loft.changes.erase c } }
      match s.leafRange e sh with
      | none => .next s1
      | some (a, n) =>
        .next ((State.granulesIn a n).foldl (fun s i =>
          let w := s.granOf tenant i
          if State.gState w = 1 && State.gOwner w = tenant % 256 && !State.gKv w && (s.leavesOf tenant i).isEmpty then s.freeFor tenant 0 i
          else s) s1)

/-- R228, R230: MIRROR_REPAIR: a read of HBM, shared SRAM or stage memory finds an error in the word at a local address: corrected
by the code (`fixed`), or uncorrectable. -/
def execMirrorRepair (addr : Nat) (fixed : Bool) (s : State) : Result :=
  if !(State.isHbm addr || State.isSram addr || State.isStage addr) then .next s
  else .next (if fixed then s.ceFound addr else s.ueFound addr)

/-- R231: the patrol scrub reads a granule: corrected words at the offsets `fixed`, uncorrectable ones at the offsets `bad`. -/
def execPatrolScrub (gran : Nat) (fixed bad : List Nat) (s : State) : Result :=
  if !(s.scrubSet.elem gran) then .next s
  else
    let a := State.granuleAddr gran
    let s1 := fixed.foldl (fun s o => s.ceFound (a + o % 2 ^ 21)) s
    let s2 := bad.foldl (fun s o => s.ueFound (a + o % 2 ^ 21)) s1
    let read := insertNat gran s.loft.mscrub
    let all := s2.scrubSet
    let n := (all.filter fun g => read.elem g).length
    if n = all.length then
      .next (({ s2 with loft := { s2.loft with mscrub := [] } }.setField Reg.MEM_SCRUBST 0 7 0).setField Reg.MEM_SCRUBST 16 16
        (s2.regField Reg.MEM_SCRUBST 16 16 + 1))
    else .next ({ s2 with loft := { s2.loft with mscrub := read } }.setField Reg.MEM_SCRUBST 0 7 (100 * n / all.length))

/-- A granule leaves the list of those with unrepaired errors. -/
def State.dropUnfixed (s : State) (g : Nat) : State := { s with loft := { s.loft with unfixed := s.loft.unfixed.filter (· != g) } }

/-- R232, R483: a granule without content is retired: STATE, count, audit entry, boot-flash record, source 804. -/
def State.retireGran (s : State) (g : Nat) : State :=
  let s2 := ((s.dropUnfixed g).putGran g (State.mkGran 0 3 false false false false 0)).regAdd Reg.MEM_RETIRED 1
  let s3 := if 4096 ≤ s2.boot.retired.length then s2
    else { s2 with boot := { s2.boot with retired := s2.boot.retired ++ [(g, s2.now)] } }
  (s3.auditInternal { action := 0x71, okind := 2, origin := State.agentSched, object := g }).raise 804 1

/-- R232: the content of granule `i` goes to a replacement of the same tier, with its poison marks, and what maps or names it
follows. None without a replacement, or while an access in flight uses a page of it (R227 step 3). -/
def State.replaceGran (s : State) (i : Nat) : Option State :=
  let w := s.gran i
  let t := match s.servedIndex i with | some k => State.gOwner (Tab.get 0#64 s.pair.grans k) + 256 | none => State.gOwner w
  let ls := s.leavesOf t i
  if ls.any fun l => s.inUse t l.2.2 l.2.1 then none
  else match (if i < 393216 then s.allocGran w (fun k => k != i) else s.allocSram w) with
    | none => none
    | some (j, s1) => (State.moveLeaves t i j ls (s1.copyGran i j)).map fun s2 =>
        let s3 := if State.gState w = 2 then s2.tenants.foldl (State.moveTables i j) s2 else s2
        s3.renameGran i j

/-- R232: GRANULE_RETIREMENT: replacement, copy, entries, STATE retired, audit entry, boot-flash record; source 804. A granule
that is free is only marked. -/
def execGranuleRetirement (gran : Nat) (s : State) : Result :=
  let w := s.gran gran
  if 393728 ≤ gran || State.gState w = 3 || !s.retireDue gran then .next s
  else match (if State.gState w = 0 then some s else s.replaceGran gran) with
    | none => .next s
    | some s1 => .next (s1.retireGran gran)

end Sys2Proof.Machine
end

