-- ==== Sys2Proof/Machine/Loft.lean ====
section
/-! DEFINITION. The loft (R238 to R243): installation, verification at power-up, scrub. -/

namespace Sys2Proof.Machine

/-- R240, R493: does a type code name the module's family and stepping. -/
def State.typeOk (s : State) (type : Nat) : Bool :=
  field type 16 16 == s.regField Reg.MGT_TYPE 16 16 && (field type 0 16 &&& s.regField Reg.MGT_TYPE 0 16) != 0

/-- A key identifier: the first 16 bytes of SHA3-256 of the public key (R240). -/
def keyId (key : List Byte) : List Byte := (sha3 key).take 16

/-- R486: the loft-signing keys of the configuration. -/
def State.loftKeys (s : State) : List (List Byte) :=
  (List.range (capAt 4 (leNat (s.confBytes 6 0 4)))).map fun i => s.confBytes 6 (8 + 1312 * i) 1312

/-- R240: a model table entry. -/
def loftModel (b : List Byte) : LoftModel :=
  { id := fieldAt b 0 4, kind := fieldAt b 4 1, fmt := fieldAt b 5 1, loff := fieldAt b 8 8, len := fieldAt b 16 8
    mask := sliceBytes b 0x18 32, digest := sliceBytes b 0x38 32, name := sliceBytes b 0x58 16 }

/-- R240: is a name ASCII, padded with zeros. -/
def nameOk (b : List Byte) : Bool := b.all (fun c => c.toNat < 128) && allZero (b.dropWhile (· != 0#8))

/-- The 64 table entries of an image's head. -/
def loftEntries (head : List Byte) : List (List Byte) := (List.range 64).map fun i => sliceBytes head (256 + 128 * i) 128

/-- R240: is a used entry well formed. -/
def loftEntryOk (b : List Byte) : Bool :=
  let m := loftModel b
  decide (1 ≤ m.kind ∧ m.kind ≤ 4) && fmtValid m.fmt && fieldAt b 6 2 == 0 && m.loff % 2 ^ 21 == 0 &&
  decide (2 ^ 21 ≤ m.loff) && decide (m.loff + m.len ≤ 2 ^ 41) && !tbit (leNat m.mask) 0 && nameOk m.name && allZero (sliceBytes b 0x68 24)

/-- Granules of a loft model, as granule-table indices. -/
def loftGrans (m : LoftModel) : List Nat :=
  (List.range (ceilDiv m.len (2 ^ 21))).map fun k => 393728 + m.loff / 2 ^ 21 + k

/-- No two models share a granule. -/
def loftDisjoint : List LoftModel → Bool
  | [] => true
  | m :: ms => ms.all (fun x => decide (m.loff + m.len ≤ x.loff ∨ x.loff + x.len ≤ m.loff) && m.id != x.id) && loftDisjoint ms

/-- R240: is the format of header and table right. -/
def loftFormatOk (head : List Byte) : Bool :=
  let n := fieldAt head 6 2
  let es := loftEntries head
  fieldAt head 0 4 == 0x54464C43 && fieldAt head 4 2 == 1 && decide (1 ≤ n ∧ n ≤ 64) && fieldAt head 12 4 == 0 &&
  allZero (sliceBytes head 0x40 192) && (es.take n).all loftEntryOk && (es.drop n).all allZero &&
  loftDisjoint ((es.take n).map loftModel) &&
  fieldAt head 0x28 8 == 8448 + (((es.take n).map loftModel).map fun m => roundUp m.len 4096).sum &&
  fieldAt head 0x20 8 == fieldAt head 0x28 8 + 2420

/-- R240: is the image bound to this type and unit. -/
def State.loftBound (s : State) (head : List Byte) : Bool :=
  s.typeOk (fieldAt head 8 4) && (allZero (sliceBytes head 16 16) || sliceBytes head 16 16 == s.unitId)

/-- R239: does the signature verify under the loft key that the header names. -/
def State.loftSigned (s : State) (head sig : List Byte) : Bool :=
  match s.loftKeys.find? fun k => keyId k == sliceBytes head 0x30 16 && !allZero k with
  | none => false
  | some k => Config.mldsaVerify k (sha3 (head.take 8448)) sig

namespace State

/-- LFT_RESULT (R244). -/
def loftResult (s : State) (cause status : Nat) : State := s.setRegN Reg.LFT_RESULT (cause * 256 + status)

/-- LFT_MDL of model `i`, with its kind and format (R244). -/
def showModel (s : State) (i : Nat) (m : LoftModel) (st : Nat) : State :=
  s.setRegN (Reg.LFT_MDL i) (m.kind * 2 ^ 8 + m.fmt * 2 ^ 4 + st)

def showModels (st : Nat) : Nat → List LoftModel → State → State
  | _, [], s => s
  | i, m :: ms, s => showModels st (i + 1) ms (s.showModel i m st)

/-- TNT_LOFT of every tenant (R251). -/
def showAccess (s : State) : State :=
  s.tenants.foldl (fun s t =>
    let bits := ((List.range 64).filter fun m => !s.loft.barred.elem (t % 256) && (s.loft.models[m]?).any fun x => tbit (leNat x.mask) (t % 256)).foldl
      (fun a m => a + 2 ^ m) 0
    if t % 256 = 0 then s else (s.setRegN (Reg.TNT_LOFTL t) (bits % 2 ^ 32)).setRegN (Reg.TNT_LOFTH t) (bits / 2 ^ 32)) s

/-- R239: does a tenant map a granule of this module's loft. -/
def loftMapped (s : State) : Bool :=
  s.tenants.any fun t => t % 256 != 0 && (s.leaves t).any fun l => tbit l.2.2 4 && (s.leafRange l.2.2 l.2.1).isSome

/-- R219: ownership of the loft granules: shared ones of the models `ms`, granule 0 the directory. -/
def loftOwn (s : State) (ms : List LoftModel) : State :=
  let clear := { s with grans := s.grans.filter fun g => decide (g.1 < 393728) }
  let rec go : Nat → List LoftModel → State → State
    | _, [], s => s
    | i, m :: rest, s => go (i + 1) rest
        ((loftGrans m).foldl (fun s g => s.setGran g (BitVec.ofNat 64 (2 ^ 54 + 2 ^ 52 + 2 ^ 49 + i * 2 ^ 43))) s)
  go 0 ms clear

/-- The wear in units of 2 GiB; beyond 3,072,000 units WORN is set and source 804 fires (R242). -/
def addWear (s : State) (n : Nat) : State :=
  let w := s.loft.wear + n
  let s1 := { s with loft := { s.loft with wear := w } }.setRegN Reg.LFT_WEAR (w / 2 ^ 31)
  if 3072000 < w / 2 ^ 31 && !s1.regBit Reg.LFT_STATUS 31 then (s1.setField Reg.LFT_STATUS 31 1 1).raise 804 2 else s1

/-- R239: the installation fails: INVALID, with an audit entry. -/
def loftFail (s : State) (cause status : Nat) : State :=
  (({ s with loft := { s.loft with inst := none } }.loftState 4).loftResult cause status).auditInternal
    { action := 0x60, okind := 0, status := status, origin := s.mgmtOrigin }

/-! ### Installation (R239) -/

/-- An RDMA READ of the image, of a host region of tenant 0; outside the region it is a failed host read. -/
def loftAsk (s : State) (x : LoftInst) (off n : Nat) : State :=
  match s.hostRange 0 x.region off n with
  | none => s.loftFail 6 stFault
  | some (port, qpn, key, a) =>
    { s with loft := { s.loft with inst := some x } }.post .loft fun id => .hostRead id port qpn key a n

/-- Where the data of model `i` begins in an image (R240). -/
def loftDataOff (ms : List LoftModel) (i : Nat) : Nat := 8448 + ((ms.take i).map fun m => roundUp m.len 4096).sum

/-- Bytes of the piece of model `m` at offset `off`: 1 MiB at most. -/
def loftPiece (m : LoftModel) (off : Nat) : Nat := min (2 ^ 20) (roundUp m.len 4096 - off)

/-- Step 4: ask for the next piece; a model whose bytes are all written has its digest checked. -/
def loftNext (s : State) (x : LoftInst) : Nat → State
  | 0 => s
  | fuel + 1 =>
    match s.loft.models[x.model]? with
    | none => { s with loft := { s.loft with inst := some { x with back := true } } }
    | some m =>
      if x.off < roundUp m.len 4096 then s.loftAsk x (loftDataOff s.loft.models x.model + x.off) (loftPiece m x.off)
      else if sha3 (s.readN (loftBase + m.loff) m.len) = m.digest then loftNext s { x with model := x.model + 1, off := 0 } fuel
      else s.loftFail 4 stFault

/-- Step 4: a piece of the image is written into the loft pages. An ABORT takes effect behind it. -/
def loftWrite (s : State) (x : LoftInst) (m : LoftModel) (bs : List Byte) : State :=
  let n := x.written + bs.length
  let x1 := { x with off := x.off + bs.length, written := n }
  let s1 := ((s.writeBytes (loftBase + m.loff + x.off) bs).addWear bs.length).setRegN Reg.LFT_PROG (n / 2 ^ 20)
  if x.stop then s1.loftFail 7 stFault else s1.loftNext x1 65

/-- Steps 2 and 3: header and table, then the signature. What passes is written as the directory, incomplete. -/
def loftHeadIn (s : State) (x : LoftInst) (bs : List Byte) : State :=
  if x.stop then s.loftFail 7 stFault
  else if x.head.isEmpty then
    (if !loftFormatOk bs then s.loftFail 3 stMalformed
     else if !s.loftBound bs then s.loftFail 2 stMalformed
     else s.loftAsk { x with head := bs } (fieldAt bs 0x28 8) 2420)
  else if !s.loftSigned x.head bs then s.loftFail 1 stMalformed
  else
    let ms := ((loftEntries x.head).take (fieldAt x.head 6 2)).map loftModel
    let s1 := (List.range 64).foldl (fun s i => s.setRegN (Reg.LFT_MDL i) 0) s
    let s2 := { s1 with loft := { s1.loft with dir := x.head.take 8448 ++ bs, complete := false, models := ms } }
    (((s2.loftState 1).setRegN Reg.LFT_PROG 0).setRegN Reg.LFT_RESULT 0).loftNext x 65

/-- The host's answer to an RDMA READ of the image: none for a RoCE error. -/
def loftRead (s : State) (resp : Option (List Byte)) : State :=
  match s.loft.inst, resp with
  | none, _ => s
  | some _, none => s.loftFail 6 stFault
  | some x, some bs =>
    if s.regField Reg.LFT_STATUS 0 4 ≠ 1 || x.head.isEmpty then s.loftHeadIn x (if x.head.isEmpty then sliceBytes bs 0 8448 else bs)
    else match s.loft.models[x.model]? with
      | none => s
      | some m => s.loftWrite x m (sliceBytes bs 0 (loftPiece m x.off))

end State

/-- R239 step 1: LFT_CTRL.START. The header and the table of the image are asked from the host region of LFT_SRCREG. -/
def State.loftStart (s : State) : State :=
  if s.loft.inst.isSome || s.loftMapped then s.loftResult 9 stBusy
  else if s.logRefuses then s.loftResult 10 stLogFull
  else s.loftAsk { region := s.regField Reg.LFT_SRCREG 0 6 } 0 8448

/-- R239: LFT_CTRL.ABORT: the installation stops at the next 1 MiB boundary: behind the piece under way, or at once in the
read-back. -/
def State.loftAbort (s : State) : State :=
  match s.loft.inst with
  | none => s
  | some x => if x.back then s.loftFail 7 stFault else { s with loft := { s.loft with inst := some { x with stop := true } } }

def execLftStart (s : State) : Result := .next s.loftStart

def execLftAbort (s : State) : Result := .next s.loftAbort

/-- R239 steps 5 and 6: the read-back ends, with digests that agree or not. The directory is complete and the loft VALID, with
what R243 found before gone. -/
def execLoftInstallComplete (backOk : Bool) (s : State) : Result :=
  if !(s.loft.inst.any fun x => x.back) then .next s
  else if !backOk then .next (s.loftFail 5 stFault)
  else
    let ms := s.loft.models
    let s1 := { s with poison := s.poison.filter (fun w => !State.isLoft (64 * w)), loft := { s.loft with inst := none, complete := true, lscrub := [], barred := [] } }
    let s2 := State.showModels 1 0 ms ((s1.loftOwn ms).setField Reg.LFT_STATUS 16 7 ms.length)
    .next ((((s2.loftState 3).loftResult 0 stOk).showAccess).auditInternal { action := 0x60, okind := 0, origin := s.mgmtOrigin })

/-- R241: LOFT_VERIFICATION at power-up: the directory's signature and every model's digest. -/
def execLoftVerification (s : State) : Result :=
  let head := s.loft.dir.take 8448
  let l := { s.loft with models := if s.loft.dir.isEmpty then [] else ((loftEntries head).take (fieldAt head 6 2)).map loftModel }
  let s0 := { s with loft := { l with verified := true, inst := none } }
  if !s.regBit Reg.PWR_DOMST 20 || s.loft.verified then .next s
  else if l.dir.isEmpty then .next s0
  else
    let s1 := ((s0.setRegN Reg.LFT_WEAR (l.wear / 2 ^ 31)).setField Reg.LFT_STATUS 31 1 (bit (3072000 < l.wear / 2 ^ 31))).setField
      Reg.LFT_STATUS 16 7 l.models.length
    if !l.complete then .next ((s1.loftState 4).loftResult 8 stFault)
    else
      let good := fun m : LoftModel => sha3 (s.readN (State.loftBase + m.loff) m.len) == m.digest
      if s.loftSigned head (l.dir.drop 8448) && l.models.all good then
        .next (((State.showModels 1 0 l.models (s1.loftOwn l.models)).loftState 3).showAccess)
      else .next (s1.loftState 4)

/-- R243: the loft scrub reads the page at a loft offset: `fixed` corrected bits, or uncorrectable. -/
def execLoftScrub (off fixed : Nat) (bad : Bool) (s : State) : Result :=
  let page := off / 4096 * 4096
  match s.loft.models.findIdx? fun m => decide (m.loff ≤ page ∧ page < m.loff + m.len) with
  | none => .next s
  | some i =>
    if !(s.regField Reg.LFT_STATUS 0 4 == 3 || s.regField Reg.LFT_STATUS 0 4 == 5) then .next s
    else
      let total := (s.loft.models.map fun m => ceilDiv m.len 4096).sum
      let pages := insertNat (page / 4096) s.loft.lscrub
      let read := pages.length
      let s0 := { s with loft := { s.loft with lscrub := if total ≤ read then [] else pages } }
      let s1 := if total ≤ read then
          (s0.setField Reg.LFT_SCRUBST 16 16 (s0.regField Reg.LFT_SCRUBST 16 16 + 1)).setField Reg.LFT_SCRUBST 0 7 0
        else s0.setField Reg.LFT_SCRUBST 0 7 (100 * read / total)
      if bad then
        let s2 := (s1.recordUe (State.loftBase + page)).markPoison (State.loftBase + page) 4096
        .next ((s2.setField (Reg.LFT_MDL i) 0 2 2).loftState 5)
      else
        let s2 := if fixed = 0 then s1 else s1.bump Reg.LFT_CE 1
        .next (if 24 ≤ fixed then s2.bump Reg.LFT_WEAK 1 else s2)

end Sys2Proof.Machine
end

