-- ==== Sys2Proof/Machine/HostQueue.lean ====
section
/-! DEFINITION. The receive path of a queue (chapter 09): binding (R253), room (R255, R262), acceptance (R254), checks
(R257, R258, R259), the start of items (R266), connections (R252, R249). -/

namespace Sys2Proof.Machine

/-- Which row of the opcode table a descriptor belongs to: kind, and for MODEL_LOAD and IMAGE 256 * (1 + sub-kind).
Zero for a descriptor of no row. -/
def rowOf (d : List Byte) : Nat :=
  let k := Desc.kind d
  if d.length < 64 then 0
  else if k = 0x20 then (let op := fieldAt d 64 1; if op ≤ 2 then k + 256 * (1 + op) else 0)
  else if k = 0x42 then (let op := fieldAt d 64 1; if 1 ≤ op ∧ op ≤ 3 then k + 256 * (1 + op) else 0)
  else if k ∈ [1, 2, 3, 4, 0x10, 0x21, 0x22, 0x30, 0x31, 0x32, 0x34, 0x40, 0x41] then k
  else 0

/-- Body length of a kind (R257 and the owning chapters). -/
def bodyOf (k : Nat) : Nat :=
  if k = 1 then 128 else if k = 2 then 40 else if k = 3 then 16 else if k = 4 then 16 else if k = 0x10 then 96
  else if k = 0x20 then 24 else if k = 0x21 then 48 else if k = 0x22 then 8 else if k = 0x30 then 32 else if k = 0x31 then 32
  else if k = 0x32 then 16 else if k = 0x34 then 0 else if k = 0x40 then 8 else if k = 0x41 then 8 else 16

/-- R481: the kinds that MAINTENANCE accepts. -/
def State.kindServed (s : State) (k : Nat) : Bool := s.regField Reg.MGT_BOOT 28 4 != 6 || (k ∈ [0x30, 0x31, 0x34, 0x40, 0x41, 0x42] : Bool)

/-- R253, R481: does a binding verify. In MAINTENANCE tenant 0's key is that of a verified configuration, else the recovery
key; an unclaimed module takes the signature as verified. -/
def State.bindVerifies (s : State) (t : Nat) (msg sig : List Byte) : Bool :=
  if s.regField Reg.MGT_BOOT 28 4 == 6 && t % 256 == 0 && (Tab.get [] s.boot.conf 5).isEmpty then
    s.boot.flash.recovery.isEmpty || Config.mldsaVerify (Config.keyById s.boot.flash.recovery) msg sig
  else Config.mldsaVerify (s.bindKey t) msg sig

/-- R257: may tenant `t` send a kind. -/
def kindOk (t k : Nat) : Bool :=
  if k = 0x30 ∨ k = 0x31 ∨ k = 0x34 then true
  else if k = 0x40 ∨ k = 0x41 ∨ k = 0x42 then t % 256 == 0
  else t % 256 != 0 && (k ∈ [1, 2, 3, 4, 0x10, 0x20, 0x21, 0x22, 0x32] : Bool)

/-- R258: the header and payload-reference checks. -/
def State.descOk (s : State) (t : Nat) (d : List Byte) : Bool :=
  let k := Desc.kind d
  decide (64 ≤ d.length ∧ d.length ≤ 8192) && Desc.magic d == 0x4457 && Desc.version d == 1 && Desc.length d == d.length &&
  decide (Desc.flags d < 32) && fieldAt d 60 4 == 0 && rowOf d != 0 && kindOk t k && s.kindServed k && Desc.bodyLen d == bodyOf k &&
  decide (64 + Desc.bodyLen d ≤ d.length) && decide (Desc.prio d ≤ 7) &&
  (if Desc.fmtSet d then fmtValid (Desc.fmt d % 16) && fmtValid (Desc.fmt d / 16) else Desc.fmt d == 0) &&
  (!Desc.hostPayload d ||
    ((Desc.rest d).length == 16 && fieldAt (Desc.rest d) 12 4 == 0 &&
      (s.hostRange t (refRegion (fieldAt (Desc.rest d) 0 8)) (refOff (fieldAt (Desc.rest d) 0 8)) (fieldAt (Desc.rest d) 8 4)).isSome))

namespace State

/-! ### Connections -/

/-- R437, R438: on a recovered queue that is rebound, payloads that were not read yet are read, and tokens that the host has not
acknowledged are written again at their offsets. -/
def askAgain (s : State) (t q : Nat) : State :=
  let s1 := ((s.hq t q).items.filter fun i => i.payload.isNone && i.done.isNone && Desc.hostPayload i.desc).foldl (fun s i =>
    let r := fieldAt (Desc.rest i.desc) 0 8
    s.regionRead t (refRegion r) (refOff r) (fieldAt (Desc.rest i.desc) 8 4) (.payload t q i.seq)) s
  let owed := (s1.hq t q).owed
  s1.serve.reqs.foldl (fun s r => match r.2.seg with
    | none => s
    | some g =>
      if r.2.tenant = t && g.q = q && tbit r.2.samp.gflags 1 && g.sent < g.tokens.length then
        (s.putReq r.1 { r.2 with seg := some { g with sent := g.tokens.length } }).sendTokens r.2 g
      else s) (owed.foldl (fun s o => s.regionWrite t o.2.1 o.2.2.1 o.2.2.2 (.results t q o.1)) (s1.setHq t q { s1.hq t q with owed := [] }))

/-- R441: the mark of a recovered queue, and the rewrites of R440 before it. A queue without a ring has no record to mark. -/
def recover (s : State) (t q : Nat) : State :=
  let x := s.hq t q
  if x.mark = s.repochOf t then s
  else if x.ring.isNone then s.setHq t q { x with mark := s.repochOf t }
  else
    let again := s.host.posts.filterMap fun p => match p.2 with
      | .record t' q' r o b => if t' = t && q' = q then some (p.1, r, o, b) else none
      | _ => none
    let s1 := again.foldl (fun s p =>
      (s.setHost { s.host with posts := Tab.drop s.host.posts p.1 }).regionWrite t p.2.1 p.2.2.1 p.2.2.2 (.record t q p.2.1 p.2.2.1 p.2.2.2)) s
    let a := s.lastSeq t q
    let open_ := x.items.filter fun i => !i.refused
    let l := match open_ with | [] => a | i :: is => is.foldl (fun m j => if j.seq < m then j.seq else m) i.seq - 1
    let mk : Item := { seq := l, tag := a, kind := 0, flags := 0, at_ := s.clk, atDom := s.now, desc := [], refused := true
                       done := some { status := 0x10, detail := open_.length } }
    s1.setHq t q { s1.hq t q with items := mk :: (s1.hq t q).items, mark := s.repochOf t }

/-- R253: the first SEND on a queue pair. -/
def bindTry (s : State) (key : Nat) (x : Qp) (msg : List Byte) : State :=
  let b := (msg.drop 64).take 2460
  let good := Desc.magic msg == 0x4457 && Desc.version msg == 1 && Desc.kind msg == 0x33 && msg.length == 2524 &&
    Desc.length msg == 2524 && Desc.bodyLen msg == 2460 && fieldAt b 0 1 == x.queue && fieldAt b 1 7 == 0 &&
    s.bindVerifies x.tenant (sha3 (s.unitOf x.tenant ++ x.nonce ++ leBytes 1 x.tenant ++ leBytes 1 x.queue)) (b.drop 40)
  let a := s.lastSeq x.tenant x.queue
  if good then
    let s1 := match s.queueQp x.tenant x.queue with | none => s | some k => s.closeQp k
    let s2 := ((s1.setQp key { x with bound := true }).setRegN (Reg.TNT_RQST x.tenant x.queue) (2 ^ 31 + key)).tenantRec x.tenant x.queue 1
      (leBytes 4 key)
    let s3 := s2.emit (.hostAck (key / 2 ^ 24) (key % 2 ^ 24))
    let s4 := s3.sendMsg key (s3.eventMsg 2 x.tenant x.queue stOk 0 a 0)
    if (s.hq x.tenant x.queue).mark = s.repochOf x.tenant then s4 else (s4.recover x.tenant x.queue).askAgain x.tenant x.queue
  else
    let s1 := (s.setQp key { x with doomed := true }).bump (Reg.HST_BINDF (key / 2 ^ 24)) 1
    let s2 := s1.emit (.hostAck (key / 2 ^ 24) (key % 2 ^ 24))
    s2.sendMsg key (s2.eventMsg 2 x.tenant x.queue stMalformed 0 a 0)

/-! ### Room and acceptance -/

/-- R262: written + outstanding + unparsed + 1 - consumed does not exceed the ring's entries. -/
def ringRoom (s : State) (t q : Nat) : Bool :=
  match (s.hq t q).ring with
  | none => true
  | some r => decide (r.written + (s.hq t q).items.length + (s.hq t q).unparsed.length + 1 ≤ r.entries + r.consumed)

/-- R255, R262: a SEND of queue pair `key` is taken at the receive path, to be parsed, or refused. -/
def takeSend (s : State) (t q key : Nat) (msg : List Byte) (room : Bool) : State :=
  let h := key / 2 ^ 24
  let x := s.hq t q
  if room && x.unparsed.length < 32 then (s.bump (Reg.HST_RXMSG h) 1).setHq t q { x with unparsed := x.unparsed ++ [(key, msg)] }
  else (s.bump (Reg.HST_RNR h) 1).emit (.hostRnr h (key % 2 ^ 24) (leNat (s.confBytes 4 (1024 * s.self + 7) 1)))

/-- R262: the read of the consumer word has ended: the messages that waited for it are taken while there is room, else refused. -/
def takeAsking (s : State) (t q : Nat) : State :=
  (s.hq t q).asking.foldl (fun s m => s.takeSend t q m.1 m.2 (s.ringRoom t q)) (s.setHq t q { s.hq t q with asking := [] })

/-- R262: ask for the consumer word, unless an RDMA READ of it is under way. -/
def askConsumer (s : State) (t q : Nat) : State :=
  match (s.hq t q).ring with
  | none => s
  | some r => if s.host.posts.any (fun p => p.2 == .consumer t q) then s else s.regionRead t r.cregion r.coff 8 (.consumer t q)

/-- A descriptor that is not accepted is completed with MALFORMED (R254, R249). -/
def refuse (s : State) (t q : Nat) (d : List Byte) : State :=
  let it : Item := { seq := Desc.seq d, tag := Desc.tag d, kind := Desc.kind d, flags := Desc.flags d, at_ := s.clk, atDom := s.now
                     desc := [], refused := true, done := some { status := stMalformed } }
  (s.setHq t q { s.hq t q with items := (s.hq t q).items ++ [it] }).settle t q

/-- R254, R429: acknowledge a SEND at the RoCE level, behind what has been mirrored of it, while its queue pair stands. -/
def ackSend (s : State) (key : Nat) : State :=
  if (s.qp? key).isSome then s.emit (.hostAck (key / 2 ^ 24) (key % 2 ^ 24)) else s

/-- R254 to R259: parse the head message of a queue, and acknowledge it. An acceptance is mirrored first (R429). -/
def acceptHead (s : State) (t q : Nat) : State :=
  match (s.hq t q).unparsed with
  | [] => s
  | (key, d) :: ds =>
    let s0 := s.setHq t q { s.hq t q with unparsed := ds }
    let a := s.lastSeq t q
    let k := Desc.kind d
    if (s0.hq t q).closed then (s0.ackSend key).refuse t q d
    else if (s0.hq t q).ring.isNone && !(k ∈ [0x30, 0x31, 0x34] : Bool) then (s0.ackSend key).refuse t q d
    else if Desc.seq d = 0 then (s0.ackSend key).refuse t q d
    else if Desc.seq d ≤ a then (s0.bump (Reg.TNT_DUPS t) 1).ackSend key
    else if a + 1 < Desc.seq d then (s0.ackSend key).refuse t q d
    else
      let s1 := ((s0.setReg64 (Reg.TNT_RQSEQL t q) (Reg.TNT_RQSEQH t q) (Desc.seq d)).roleRec (s0.roleOf t) recSeq
        (leBytes 2 (t % 256) ++ leBytes 1 q ++ zeros 5 ++ leBytes 8 (Desc.seq d) ++ d)).ackSend key
      let it : Item := { seq := Desc.seq d, tag := Desc.tag d, kind := k, flags := Desc.flags d, at_ := s1.clk, atDom := s1.now, desc := d
                         payload := if Desc.hostPayload d then none else some (Desc.rest d) }
      let s2 := (s1.setHq t q { s1.hq t q with items := (s1.hq t q).items ++ [it] }).showOut t q
      if s2.tntState t = 2 && t % 256 != 0 then s2.finish t q it.seq { status := stReset }
      else if !s2.descOk t d then s2.finish t q it.seq { status := stMalformed }
      else if Desc.fmtSet d && !(fmtAllowed (s2.fmtMask t) (Desc.fmt d % 16) && fmtAllowed (s2.fmtMask t) (Desc.fmt d / 16)) then
        s2.finish t q it.seq { status := stFormat }
      else if Desc.hostPayload d then
        (let r := fieldAt (Desc.rest d) 0 8
         if k = 0x40 then s2.updItem t q it.seq fun i => { i with payload := some (Desc.rest d) }
         else s2.regionRead t (refRegion r) (refOff r) (fieldAt (Desc.rest d) 8 4) (.payload t q it.seq))
      else s2

/-- Messages of no row are parsed as soon as they reach the head. -/
def acceptJunk (t q : Nat) : Nat → State → State
  | 0, s => s
  | n + 1, s => match (s.hq t q).unparsed with
    | [] => s
    | (_, d) :: _ => if rowOf d = 0 then acceptJunk t q n (s.acceptHead t q) else s

/-- Parse the head if it belongs to row `r`, and messages of no row behind it. -/
def takeRow (s : State) (t q r : Nat) : State :=
  match (s.hq t q).unparsed with
  | [] => s
  | (_, d) :: ds => if rowOf d = r then acceptJunk t q (ds.length) (s.acceptHead t q) else s

/-- R266, R267: may an item of tenant `t` start: its payload is there, nothing earlier is open under FENCE, and on a queue of
tenant 0 every earlier item has been executed. RESET does not wait (R268). -/
def canStart (t : Nat) (before : List Item) (i : Item) : Bool :=
  !i.refused && !i.started && i.done.isNone && i.payload.isSome &&
  (!Desc.fence i.desc || before.all (·.refused)) &&
  (t % 256 != 0 || i.kind == 0x34 || before.all fun j => j.refused || j.started || j.done.isSome)

/-- The first item of row `r` that may start. -/
def startable (t r : Nat) : List Item → List Item → Option Item
  | _, [] => none
  | before, i :: rest => if canStart t before i && rowOf i.desc == r then some i else startable t r (before ++ [i]) rest

/-- A descriptor's command: parse it if it is at the head, then start the first item of its row that may start. -/
def runRow (s : State) (t q r : Nat) (k : State → Item → State) : State :=
  let s1 := s.takeRow t q r
  match startable t r [] (s1.hq t q).items with
  | none => s1
  | some i => k (s1.updItem t q i.seq fun x => { x with started := true }) i

/-! ### Completion records (R261 to R266) -/

/-- R261: a completion record. -/
def record (s : State) (t q : Nat) (n e : Nat) (i : Item) (d : Done) : List Byte :=
  leBytes 8 i.seq ++ leBytes 8 i.tag ++ leBytes 1 d.status ++ leBytes 1 i.kind ++ leBytes 1 q ++
  leBytes 1 (1 - n / e % 2 + 2 * bit d.flt) ++ leBytes 2 (s.repochOf t) ++ leBytes 2 d.retry ++ leBytes 4 d.detail ++
  leBytes 4 (if i.kind = 0 then 0 else capAt (2 ^ 32 - 1) ((s.clk - i.at_) / 1000))

/-- R263, R266: may an item's record be written now. -/
def canWrite (s : State) (t q : Nat) (before : List Item) (i : Item) : Bool :=
  i.done.isSome && !s.resultsOpen t q i.seq &&
  (i.refused || !Desc.ordered i.desc || before.all fun j => j.refused || !Desc.ordered j.desc)

/-- The first item whose record may be written, with the items before and after it. -/
def writable (s : State) (t q : Nat) : List Item → List Item → Option (Item × List Item)
  | _, [] => none
  | before, i :: rest => if s.canWrite t q before i then some (i, before ++ rest) else writable s t q (before ++ [i]) rest

/-- R265: send the completion notice of a ring. -/
def notify (s : State) (t q : Nat) (st seq : Nat) : State :=
  match (s.hq t q).ring with
  | none => s
  | some r => (s.setHq t q { s.hq t q with ring := some { r with since := 0 } }).sendRing t q (s.eventMsg 0 t q st r.since seq 0)

/-- R274: a CAK load or clear takes effect. -/
def cakEffect (s : State) (h : Nat) (load : Bool) : State :=
  let key := (List.range 8).flatMap fun j => leBytes 4 (s.regN (Reg.HST_CAK h j))
  let s1 := (List.range 8).foldl (fun s j => s.setRegN (Reg.HST_CAK h j) 0) s
  if load then
    (((s1.setHost { s1.host with caks := Tab.setSome s1.host.caks h key }).setField (Reg.HST_PST h) 28 1 1).showPort h).emit
      (.mka true h (s1.cakName h) (leNat (s1.confBytes 2 7 1)))
  else
    ((s1.setHost { s1.host with caks := Tab.drop s1.host.caks h, mka := s1.host.mka.filter (· != h) }).setField
      (Reg.HST_PST h) 28 1 0).showPort h

/-- The CAK changes that waited for an item's completion. -/
def cakAfter (s : State) (t q seq : Nat) : State :=
  let due := s.host.cakWait.filter fun w => w.tenant == t && w.queue == q && w.seq == seq
  due.foldl (fun s w => s.cakEffect w.port w.load)
    (s.setHost { s.host with cakWait := s.host.cakWait.filter fun w => !(w.tenant == t && w.queue == q && w.seq == seq) })

/-- R262 to R265: write the next completion record of a queue, once its commit is mirrored (R429); none on a recovered queue before it is
rebound (R437, R441). -/
def writeRecord (s : State) (t q : Nat) : State :=
  match (s.hq t q).ring with
  | none => s
  | some r =>
    match if (s.hq t q).mark = s.repochOf t then s.writable t q [] (s.hq t q).items else none with
    | none => s
    | some (i, rest) =>
      let d := i.done.getD { status := stOk }
      let b := s.record t q r.written r.entries i d
      let off := r.off + 32 * (r.written % r.entries)
      let r1 := { r with written := r.written + 1, since := r.since + 1, firstAt := if r.since = 0 then s.clk else r.firstAt }
      let s0 := ((s.setHq t q { s.hq t q with items := rest, ring := some r1 }).showOut t q).roleRec (s.roleOf t) recCommit b
      let s1 := s0.regionWrite t r.region off b (.record t q r.region off b)
      let s2 := if i.kind = 0 && i.refused && d.status = 0x10 then s1.sendRing t q (s1.eventMsg 4 t q 0 (s1.repochOf t) i.seq i.tag) else s1
      let s3 := if Desc.event i.desc then s2.notify t q d.status i.seq else s2
      (s3.cakAfter t q i.seq).reapQueue t q

end State

end Sys2Proof.Machine
end

