-- ==== Sys2Proof/Machine/CueOps.lean ====
section
/-! DEFINITION. The cue sheet (R471 to R474): writing, taking and cancelling entries. -/

namespace Sys2Proof.Machine

/-- Action codes (R471). -/
def cueCommit : Nat := 1
def cueCurtain : Nat := 2
def cueRevoke : Nat := 3
def cueSplit : Nat := 4
def cuePipeline : Nat := 5
def cueSlot : Nat := 6
def cueConfig : Nat := 7
def cueHandover : Nat := 8

/-- R472: quota of an owner for one role. -/
def cueQuota (owner : Nat) : Nat := if owner = 2 then 240 else 8

/-- R473: order of two entries: time, then action. -/
def Cue.before (a b : Cue) : Bool := decide (a.time < b.time ∨ (a.time = b.time ∧ a.action ≤ b.action))

/-- Insert behind the entries that come no later. -/
def cueInsert (c : Cue) : List Cue → List Cue
  | [] => [c]
  | d :: ds => if d.before c then d :: cueInsert c ds else c :: d :: ds

/-- R471: the 32 bytes of an entry. -/
def Cue.bytes (c : Cue) : List Byte :=
  leBytes 8 c.time ++ leBytes 1 c.action ++ leBytes 1 c.owner ++ leBytes 1 c.sub ++ leBytes 1 (1 + 2 * bit c.late) ++
  leBytes 2 c.role ++ zeros 2 ++ leBytes 8 c.arg ++ zeros 8

namespace State

def setTime (s : State) (x : TimeSt) : State := { s with time := x }

/-- TIM_STATUS.CUES shows the pending entries. -/
def showCues (s : State) : State := s.setField Reg.TIM_STATUS 0 10 s.time.cues.length

/-- Is there room for an entry of an owner and role (R472). -/
def cueRoom (s : State) (owner role : Nat) : Bool :=
  decide ((s.time.cues.filter fun c => c.owner == owner && c.role == role).length < cueQuota owner)

/-- R428: an entry of a role's cue sheet is written (`kind` 0), taken or cancelled (1). -/
def cueRec (s : State) (c : Cue) (kind : Nat) : State := s.roleRec c.role recCue (leBytes 1 kind ++ Cue.bytes c)

/-- Write an entry into the sheet. One written with its time already past is LATE (R473). -/
def addCue (s : State) (time action owner sub role arg : Nat) : Option State :=
  let c : Cue := { time := time, action := action, owner := owner, sub := sub, late := decide (time < s.now), role := role, arg := arg }
  if s.cueRoom owner role then some (((s.setTime { s.time with cues := cueInsert c s.time.cues }).showCues).cueRec c 0) else none

/-- R474: is no entry taken now. -/
def timeUnlocked (s : State) : Bool := s.regBit Reg.TIM_STATUS 29

/-- R473: the entry that is taken next, if it is due. -/
def dueCue (s : State) : Option Cue :=
  if s.timeUnlocked then none
  else match s.time.cues with
    | [] => none
    | c :: _ => if c.time ≤ s.now then some c else none

/-- Take the due entry if it has this action, sub-code and object, and this role where one is given; LATE entries are counted. -/
def takeCue (s : State) (action sub arg : Nat) (role : Option Nat := none) : Option State :=
  match s.dueCue with
  | none => none
  | some c =>
    if c.action = action && c.sub = sub && c.arg = arg && role.all (· == c.role) then
      let s0 := { s with boot := { s.boot with cued := true } }
      let s1 := ((s0.setTime { s0.time with cues := s0.time.cues.drop 1 }).showCues).cueRec c 1
      some (if c.late then s1.bump Reg.TIM_CUELATE 1 else s1)
    else none

/-- Cancel the pending entries that meet `p` (R472). -/
def dropCues (s : State) (p : Cue → Bool) : State :=
  (s.time.cues.filter p).foldl (fun s c => s.cueRec c 1) ((s.setTime { s.time with cues := s.time.cues.filter fun c => !p c }).showCues)

end State

end Sys2Proof.Machine
end

