-- ==== Sys2Proof/Machine/RigOps.lean ====
section
/-! DEFINITION. Model descriptors (R275 to R278), manifests (R292), the rigging engine's conversion and placement (R285,
R288, R289). -/

namespace Sys2Proof.Machine

/-! ### Descriptors -/

/-- R276. -/
def tensorRec (b : List Byte) : TensorRec :=
  let f := fieldAt b
  { id := f 0 4, rows := f 4 4, cols := f 8 4, tfmt := f 12 1, gfmt := f 13 1, path := f 14 1, group := f 15 1, alloc := f 16 1
    gorder := f 17 1, tfirst := f 20 4, tcount := f 24 4, gfirst := f 28 4, gcount := f 32 4, pfirst := f 40 8 }

/-- R277. -/
def shardRec (b : List Byte) : ShardRec :=
  let f := fieldAt b
  { module := f 0 2, layout := f 2 1, bdie := f 3 1, row0 := f 4 4, nrows := f 8 4, col0 := f 12 4, ncols := f 16 4, vaddr := f 24 8 }

def descTensors (b : List Byte) : List (List Byte) := (List.range (fieldAt b 14 2)).map fun i => sliceBytes b (64 + 64 * i) 64
def descShards (b : List Byte) : List (List Byte) :=
  (List.range (fieldAt b 16 4)).map fun i => sliceBytes b (64 + 64 * fieldAt b 14 2 + 32 * i) 32

/-- R275: a model from its descriptor. -/
def modelOf (t : Nat) (b : List Byte) : Model :=
  let f := fieldAt b
  { tenant := t, kind := f 6 1, pinscope := f 7 1, gmir := tbit (f 12 1) 0, kvfmt := f 13 1, lgroup := f 20 1, loft := f 21 1
    kvheads := f 22 2, dh := f 24 2, drain := f 26 2, params := f 32 8, tensors := (descTensors b).map tensorRec
    shards := (descShards b).map shardRec, desc := b
    current := if f 6 1 = 3 then 1 else 0, live := if f 6 1 = 3 then [{ number := 1, grans := [] }] else [] }

/-- The shard records of a tensor in a layout. -/
def Model.shardsOf (m : Model) (t : TensorRec) (gen : Bool) : List ShardRec :=
  if gen then (m.shards.drop t.gfirst).take t.gcount else (m.shards.drop t.tfirst).take t.tcount

def ShardRec.has (x : ShardRec) (r c : Nat) : Bool :=
  decide (x.row0 ≤ r ∧ r < x.row0 + x.nrows ∧ x.col0 ≤ c ∧ c < x.col0 + x.ncols)

/-- R277: do shards cover every element of R x C at least once. It is enough to look at the corners that shards make. -/
def covers (R C : Nat) (xs : List ShardRec) : Bool :=
  let rs := 0 :: (xs.map fun x => x.row0 + x.nrows)
  let cs := 0 :: (xs.map fun x => x.col0 + x.ncols)
  rs.all fun r => decide (R ≤ r) || cs.all fun c => decide (C ≤ c) || xs.any fun x => x.has r c

/-- R277: exactly once: covered, and the areas sum to R * C. -/
def coversOnce (R C : Nat) (xs : List ShardRec) : Bool := covers R C xs && (xs.map fun x => x.nrows * x.ncols).sum == R * C

/-- R278: the shard rules of one tensor. -/
def Model.tensorOk (m : Model) (t : TensorRec) : Bool :=
  let ts := m.shardsOf t false
  let gs := m.shardsOf t true
  let inside := fun x : ShardRec => decide (1 ≤ x.nrows ∧ 1 ≤ x.ncols ∧ x.row0 + x.nrows ≤ t.rows ∧ x.col0 + x.ncols ≤ t.cols) &&
    decide (x.module ≤ 8191) && decide (x.bdie ≤ 3) && (t.alloc == 0 || x.bdie == 0)
  let edge := fun x : ShardRec => if t.gorder = 0 then x.col0 % 32 == 0 && (x.col0 + x.ncols) % 32 == 0
    else x.row0 % 32 == 0 && (x.row0 + x.nrows) % 32 == 0
  decide (1 ≤ t.rows ∧ 1 ≤ t.cols) && (t.tfmt ∈ [0, 1, 3, 4, 5, 6, 7, 8] : Bool) && (t.gfmt ∈ [0, 1, 2, 3, 4, 5, 6, 7] : Bool) &&
  decide (t.path ≤ 2 ∧ t.group ≤ 2 ∧ t.alloc ≤ 1 ∧ t.gorder ≤ 1) &&
  decide (t.tfirst + t.tcount ≤ m.shards.length ∧ t.gfirst + t.gcount ≤ m.shards.length) &&
  ts.all (fun x => x.layout == 0 && inside x) && gs.all (fun x => x.layout == 1 && x.vaddr == 0 && inside x) &&
  coversOnce t.rows t.cols ts && covers t.rows t.cols gs &&
  (!fmtMx t.gfmt || (ts ++ gs).all edge)

def distinct : List Nat → Bool
  | [] => true
  | x :: xs => !xs.elem x && distinct xs

/-- R278: is a descriptor well formed. -/
def descriptorOk (s : State) (t : Nat) (b : List Byte) : Bool :=
  let f := fieldAt b
  let m := modelOf t b
  b.length == 64 + 64 * f 14 2 + 32 * f 16 4 && f 0 4 == 0x4C444D43 && f 4 2 == 1 && decide (1 ≤ f 6 1 ∧ f 6 1 ≤ 3) &&
  decide (f 7 1 ≤ 1 ∧ 1 ≤ f 8 4 ∧ f 12 1 ≤ 1) && (f 13 1 ∈ [1, 2, 3, 4, 8] : Bool) && decide (1 ≤ f 14 2) &&
  decide (1 ≤ f 20 1 ∧ f 20 1 ≤ 16) && f 24 2 % 32 == 0 && decide (32 ≤ f 24 2 ∧ f 24 2 ≤ 512) && f 28 4 == 0 && decide (f 32 8 < 2 ^ 47) &&
  allZero (sliceBytes b 40 24) && (descTensors b).all (fun x => fieldAt x 18 2 == 0 && fieldAt x 36 4 == 0 && allZero (sliceBytes x 48 16)) &&
  (descShards b).all (fun x => fieldAt x 20 4 == 0 && decide (fieldAt x 0 2 ≤ 8191 ∧ fieldAt x 2 1 ≤ 1 ∧ fieldAt x 3 1 ≤ 3) &&
    (fieldAt x 2 1 == 0 || fieldAt x 24 8 == 0)) && m.tensors.all m.tensorOk && distinct (m.tensors.map (·.id)) &&
  (if f 6 1 = 3 then decide (f 21 1 ≤ 63) && s.regField (Reg.LFT_MDL (f 21 1)) 0 2 == 1 &&
      (s.loft.models[f 21 1]?).any (fun x => tbit (leNat x.mask) t)
    else f 21 1 == 0)

/-- R48: the formats that a descriptor names. -/
def Model.fmts (m : Model) : List Nat := m.kvfmt :: m.tensors.flatMap fun t => [t.tfmt, t.gfmt]

/-- The modules of a model. -/
def Model.members (m : Model) : List Nat := m.shards.foldl (fun l x => insertNat x.module l) []

/-! ### Generation layout -/

/-- Rows, columns and first row and column of a rectangle in generation order (R276 `gorder`). -/
def genDims (order row0 nrows col0 ncols : Nat) : Nat × Nat × Nat × Nat :=
  if order = 1 then (ncols, nrows, col0, row0) else (nrows, ncols, row0, col0)

/-- R44: bytes of a stored row of `n` elements. -/
def storedRow (fmt n : Nat) : Nat := packedLen (fmtBits fmt) n

/-- R43: scale bytes of a stored row of `n` elements, the last block partial where 32 does not divide `n`. -/
def storedScales (fmt n : Nat) : Nat := if fmtMx fmt then ceilDiv n 32 else 0

/-- R277: bytes of a block of `nr` stored rows of `nc` elements: the element array, then the scale array. -/
def blockBytes (fmt nr nc : Nat) : Nat := nr * storedRow fmt nc + nr * storedScales fmt nc

/-- The bit at which element `k` of a block with rows of `nc` elements begins. -/
def elemBit (fmt nc k : Nat) : Nat :=
  8 * (k / nc * storedRow fmt nc) + fmtBits fmt * (k % nc)

/-- R277: bytes of a training shard and of a generation shard. -/
def trainShardLen (t : TensorRec) (x : ShardRec) : Nat := blockBytes t.tfmt x.nrows x.ncols
def genShardLen (t : TensorRec) (x : ShardRec) : Nat :=
  let d := genDims t.gorder x.row0 x.nrows x.col0 x.ncols
  blockBytes t.gfmt d.1 d.2.1

/-- The generation shards of a model on a module, each with its tensor, in the order of the wings. -/
def Model.genShards (m : Model) (self : Nat) : List (TensorRec × ShardRec) :=
  m.tensors.flatMap fun t => (m.shardsOf t true).filterMap fun x => if x.module = self then some (t, x) else none

/-- Granules of each generation shard before this one (R285). -/
def wingStart (xs : List (TensorRec × ShardRec)) (k : Nat) : Nat :=
  ((xs.take k).map fun p => ceilDiv (genShardLen p.1 p.2) (2 ^ 21)).sum

/-- R285: the base die of each wing granule of the shards of a module: that of the shard record, or round-robin. -/
def wingDies (xs : List (TensorRec × ShardRec)) : List Nat :=
  xs.flatMap fun p => (List.range (ceilDiv (genShardLen p.1 p.2) (2 ^ 21))).map fun i => if p.1.alloc = 0 then p.2.bdie else i % 4

/-- The local address of byte `o` of memory held in granules; none beyond them. -/
def wingAddr (grans : List Nat) (o : Nat) : Option Nat := grans[o / 2 ^ 21]?.map fun g => State.granuleAddr g + o % 2 ^ 21

/-- R277, R289: where byte `j` of a piece lies in its generation shard. -/
def pieceByte (gfmt : Nat) (p : Piece) (x : ShardRec) (j : Nat) : Nat :=
  let (pr, pc, pr0, pc0) := genDims p.order p.row0 p.nrows p.col0 p.ncols
  let (sr, sc, sr0, sc0) := genDims p.order x.row0 x.nrows x.col0 x.ncols
  let rb := storedRow gfmt pc
  let e := pr * rb
  if j < e then (pr0 - sr0 + j / rb) * storedRow gfmt sc + storedRow gfmt (pc0 - sc0) + j % rb
  else
    let k := j - e
    let rs := storedScales gfmt pc
    sr * storedRow gfmt sc + (pr0 - sr0 + k / rs) * storedScales gfmt sc + (pc0 - sc0) / 32 + k % rs

/-- Where a local address of the module of a curtain's role lies here (R436). -/
def State.roleAddr (s : State) (num a : Nat) : Option Nat := if num < 2 ^ 32 then some a else (s.servedAt a).map Prod.fst

/-- The local address of byte `j` of a piece on its destination; none where the destination has no place for it. -/
def pieceAddr (s : State) (c : Curtain) (p : Piece) (j : Nat) : Option Nat :=
  if p.tensor = 0 then (if c.dir = 2 then wingAddr c.wings j else s.roleAddr c.num (p.daddr % 2 ^ 44 + j))
  else match s.model? c.model with
    | none => none
    | some m =>
      let xs := m.genShards (s.roleAt c.num)
      match xs.findIdx? fun q => q.1.id == p.tensor && q.2.has p.row0 p.col0 with
      | none => none
      | some k => match xs[k]? with
        | none => none
        | some q => wingAddr (c.wings.drop (wingStart xs k)) (pieceByte p.gfmt p q.2 j)

/-- Bytes at rising addresses as runs of consecutive ones. -/
def byteRuns : List (Nat × Byte) → List (Nat × List Byte) → List (Nat × List Byte)
  | [], acc => acc.reverse
  | (a, b) :: rest, (a0, bs) :: acc => byteRuns rest (if a0 + bs.length = a then (a0, bs ++ [b]) :: acc else (a, [b]) :: (a0, bs) :: acc)
  | (a, b) :: rest, [] => byteRuns rest [(a, [b])]

/-- Where bytes of a piece from offset `o` on go, as runs. -/
def pieceRuns (s : State) (c : Curtain) (p : Piece) (o : Nat) (bs : List Byte) : List (Nat × List Byte) :=
  byteRuns ((bs.zip (List.range bs.length)).filterMap fun b => (pieceAddr s c p (o + b.2)).map fun a => (a, b.1)) []

/-- Write bytes of a piece from offset `o` on; wings with MIR are mirrored (R286, R431). Answers the class-6 frames that the
partner has to acknowledge. -/
def pieceWrite (s : State) (c : Curtain) (p : Piece) (o : Nat) (bs : List Byte) : List Nat × State :=
  (pieceRuns s c p o bs).foldl (fun (x : List Nat × State) r =>
    let y := (x.2.writeBytes r.1 r.2).mirrorWrite r.1 r.2
    (x.1 ++ y.1, y.2)) ([], s)

/-- Read a piece back from its wings (R290). -/
def pieceRead (s : State) (c : Curtain) (p : Piece) : List Byte :=
  (List.range p.length).map fun j => (pieceAddr s c p j).elim 0 s.read8

/-! ### Conversion at the source (R288) -/

/-- Read `n` bytes of a tenant's virtual memory; the marks of poisoned words are OR-ed. None for a translation fault. -/
def readVirt (s : State) (t : Nat) : Nat → Nat → Nat → Option (List Byte × Bool)
  | 0, _, _ => some ([], false)
  | fuel + 1, va, n =>
    if n = 0 then some ([], false)
    else
      let k := min n (4096 - va % 4096)
      match s.translate t va false with
      | some (.here a) => (readVirt s t fuel (va + k) (n - k)).map fun r => (s.readN a k ++ r.1, s.poisonedIn a k || r.2)
      | _ => none

/-- The offset of the scale byte of element (i, j) of a block of `nr` rows of `nc` elements (R43). -/
def scaleOff (fmt nr nc i j : Nat) : Nat := nr * storedRow fmt nc + i * storedScales fmt nc + j / 32

/-- The value of element (r, c) of a training sub-block whose bytes are `bs` (R43, R44). -/
def trainVal (fmt : Nat) (x : ShardRec) (bs : List Byte) (r c : Nat) : Num :=
  let i := r - x.row0
  let j := c - x.col0
  let rb := storedRow fmt x.ncols
  let code := unpackAt (fmtBits fmt) (sliceBytes bs (i * rb) rb) j
  if fmtMx fmt then mxVal fmt code (fieldAt bs (scaleOff fmt x.nrows x.ncols i j) 1) else elemVal fmt true code

/-- The elements of a piece in generation order. -/
def pieceVals (p : Piece) (x : ShardRec) (bs : List Byte) : List Num :=
  let (nr, nc, r0, c0) := genDims p.order p.row0 p.nrows p.col0 p.ncols
  (List.range nr).flatMap fun i => (List.range nc).map fun j =>
    if p.order = 1 then trainVal p.tfmt x bs (c0 + j) (r0 + i) else trainVal p.tfmt x bs (r0 + i) (c0 + j)

/-- R288: FP32 to an MX format passes through BF16. -/
def viaBf16 (tfmt gfmt : Nat) (v : Num) : Num :=
  if tfmt = 0 && fmtMx gfmt then elemVal 1 true (cvtFp bf16 .rne false false v).code else v

/-- What a conversion yields: rows of `nc` elements, their codes with saturations and NaNs, and scale bytes. -/
structure Rigged where
  nc     : Nat
  elems  : List CvtElem
  scales : List Nat
  deriving DecidableEq, Repr

/-- R288: RNE, saturate flag clear; `vs` holds rows of `nc` elements in generation order. -/
def rigConvert (tfmt gfmt nc : Nat) (vs : List Num) : Rigged :=
  let ws := vs.map (viaBf16 tfmt gfmt)
  if fmtMx gfmt then
    let blocks := (chunksOf nc ws.length ws).flatMap fun row => (chunksOf 32 row.length row).map fun b =>
      cvtBlock gfmt 0 false (b.map fun v => { val := v, qsrc := 0, draw := 0 })
    { nc := nc, elems := blocks.flatMap (·.2), scales := blocks.map (·.1) }
  else { nc := nc, elems := ws.map (cvtElem gfmt true .rne false), scales := [] }

/-- R289: the bytes of a converted piece: its rows packed as R44 says, then its scale bytes. -/
def Rigged.bytes (gfmt : Nat) (r : Rigged) : List Byte :=
  ((chunksOf r.nc r.elems.length r.elems).flatMap fun row => packRow (fmtBits gfmt) (row.map (·.code))) ++
  r.scales.map (BitVec.ofNat 8)

/-- Bytes of the element array of a converted piece. -/
def Rigged.elemLen (gfmt : Nat) (r : Rigged) : Nat := ceilDiv r.elems.length r.nc * storedRow gfmt r.nc

/-- R288: saturations and NaN blocks and elements that the bytes `o .. o + n` of a piece hold. An element counts with the
byte in which it begins, so that each counts in one chunk. -/
def Rigged.counts (gfmt : Nat) (r : Rigged) (o n : Nat) : Nat × Nat :=
  let here := fun k => let b := elemBit gfmt r.nc k / 8; decide (o ≤ b ∧ b < o + n)
  let es := (r.elems.zip (List.range r.elems.length)).filter fun x => here x.2
  let e := r.elemLen gfmt
  let ss := (r.scales.drop (o - e)).take (o + n - max e o)
  (es.countP (·.1.sat), if fmtMx gfmt then ss.countP (· == 255) else es.countP (·.1.nan))

/-- A piece as its source serves it: bytes, what its conversion counts, and the offsets whose source is poisoned. -/
structure Served where
  bytes : List Byte
  rig   : Option Rigged
  bad   : List Nat
  deriving DecidableEq, Repr

/-- R389: does the range `o .. o + n` of a served piece come from poisoned words. -/
def Served.poisonIn (d : Served) (o n : Nat) : Bool := d.bad.any fun j => decide (o ≤ j ∧ j < o + n)

/-- Is byte `off` from virtual address `va` on poisoned. -/
def virtPoison (s : State) (t va off : Nat) : Bool :=
  match s.translate t (va + off) false with
  | some (.here a) => s.poisoned a
  | _ => false

/-- Elements of a piece, in generation order, whose source bytes are poisoned. -/
def badElems (s : State) (t : Nat) (p : Piece) (x : ShardRec) : List Bool :=
  let (nr, nc, r0, c0) := genDims p.order p.row0 p.nrows p.col0 p.ncols
  (List.range nr).flatMap fun i => (List.range nc).map fun j =>
    let r := (if p.order = 1 then c0 + j else r0 + i) - x.row0
    let c := (if p.order = 1 then r0 + i else c0 + j) - x.col0
    let b := elemBit p.tfmt x.ncols (r * x.ncols + c)
    virtPoison s t x.vaddr (b / 8) || virtPoison s t x.vaddr ((b + fmtBits p.tfmt - 1) / 8) ||
    (fmtMx p.tfmt && virtPoison s t x.vaddr (scaleOff p.tfmt x.nrows x.ncols r c))

/-- Offsets of a converted piece with rows of `nc` elements that derive from poisoned ones. -/
def badBytes (gfmt nc : Nat) (bad : List Bool) (len : Nat) : List Nat :=
  let rb := storedRow gfmt nc
  let rs := storedScales gfmt nc
  let e := ceilDiv bad.length nc * rb
  (List.range len).filter fun j =>
    if j < e then
      let row := (bad.drop (j / rb * nc)).take nc
      row.getD (8 * (j % rb) / fmtBits gfmt) false || row.getD ((8 * (j % rb) + 7) / fmtBits gfmt) false
    else
      let row := (bad.drop ((j - e) / rs * nc)).take nc
      ((row.drop (32 * ((j - e) % rs))).take 32).any id

/-- R287 to R289: the converted bytes of a piece of a curtain. `raw` is the bytes of the training shard where this module
serves the piece as understudy. None where the module does not hold the source. -/
def servePiece (s : State) (c : Curtain) (p : Piece) (raw : Option (List Byte)) : Option Served :=
  let tenant := c.tenant
  if p.tensor = 0 then
    if c.dir = 2 then
      (s.curtain.blobs.find? fun b => b.model == c.model && b.adapter == c.adapter && b.version == c.aver).map fun b =>
        { bytes := b.bytes, rig := none, bad := [] }
    else
      let at_ := fun j => s.roleAddr c.num (p.saddr % 2 ^ 44 + j)
      if (List.range p.length).all fun j => (at_ j).isSome then
        some { bytes := (List.range p.length).map fun j => (at_ j).elim 0 s.read8, rig := none
               bad := if s.poison.isEmpty then [] else (List.range p.length).filter fun j => (at_ j).any s.poisoned }
      else none
  else match s.model? c.model with
    | none => none
    | some m =>
      match m.tensors.find? fun t => t.id == p.tensor with
      | none => none
      | some t =>
        match (m.shardsOf t false).find? fun x => x.module == p.src && x.has p.row0 p.col0 with
        | none => none
        | some x =>
          let n := trainShardLen t x
          let nc := (genDims p.order p.row0 p.nrows p.col0 p.ncols).2.1
          let src := match raw with
            | some b => some (b, false)
            | none => readVirt s tenant (n / 4096 + 2) x.vaddr n
          src.map fun b =>
            let r := rigConvert p.tfmt p.gfmt nc (pieceVals p x b.1)
            { bytes := r.bytes p.gfmt, rig := some r, bad := if b.2 then badBytes p.gfmt nc (badElems s tenant p x) p.length else [] }

/-- R288: what the conversion of the bytes `o .. o + n` of a piece counts in RIG_SAT and RIG_NAN. -/
def State.countRig (s : State) (gfmt : Nat) (d : Served) (o n : Nat) : State :=
  match d.rig with
  | none => s
  | some r => let k := r.counts gfmt o n; (s.bump Reg.RIG_SAT k.1).bump Reg.RIG_NAN k.2

/-! ### Manifests (R292) -/

def pieceOf (b : List Byte) : Piece :=
  let f := fieldAt b
  { piece := f 0 4, tensor := f 4 4, src := f 8 2, srcu := f 10 2, dst := f 12 2, tfmt := f 14 1, gfmt := f 15 1, row0 := f 16 4
    nrows := f 20 4, col0 := f 24 4, ncols := f 28 4, saddr := f 32 8, length := f 40 8, chunks := f 48 4, order := f 52 1
    daddr := f 56 8, digest := sliceBytes b 64 32 }

def Piece.bytes (p : Piece) : List Byte :=
  leBytes 4 p.piece ++ leBytes 4 p.tensor ++ leBytes 2 p.src ++ leBytes 2 p.srcu ++ leBytes 2 p.dst ++ leBytes 1 p.tfmt ++
  leBytes 1 p.gfmt ++ leBytes 4 p.row0 ++ leBytes 4 p.nrows ++ leBytes 4 p.col0 ++ leBytes 4 p.ncols ++ leBytes 8 p.saddr ++
  leBytes 8 p.length ++ leBytes 4 p.chunks ++ leBytes 1 p.order ++ zeros 3 ++ leBytes 8 p.daddr ++ sliceBytes p.digest 0 32

def manifestEntries (b : List Byte) : List (List Byte) := (List.range (fieldAt b 20 4)).map fun i => sliceBytes b (64 + 96 * i) 96

/-- R292: is a manifest well formed. -/
def manifestOk (b : List Byte) : Bool :=
  let f := fieldAt b
  f 0 4 == 0x4E525543 && f 4 2 == 1 && decide (f 6 1 ≤ 2) && f 7 1 == 0 && f 56 8 == 0 && b.length == 64 + 96 * f 20 4 &&
  (manifestEntries b).all fun e => fieldAt e 53 3 == 0 && fieldAt e 48 4 == ceilDiv (fieldAt e 40 8) 1048576 && decide (fieldAt e 52 1 ≤ 1) &&
    fmtValid (fieldAt e 14 1) && fmtValid (fieldAt e 15 1) && decide (fieldAt e 8 2 ≤ 8191 ∧ fieldAt e 10 2 ≤ 8191 ∧ fieldAt e 12 2 ≤ 8191)

/-- The bytes of a manifest. -/
def manifestBytes (c : Curtain) (es : List Piece) : List Byte :=
  leBytes 4 0x4E525543 ++ leBytes 2 1 ++ leBytes 1 c.dir ++ zeros 1 ++ leBytes 4 c.num ++ leBytes 4 c.model ++ leBytes 2 c.epoch ++
  leBytes 2 c.aver ++ leBytes 4 es.length ++ (c.cues.take 4).flatMap (leBytes 8) ++ zeros 8 ++ es.flatMap Piece.bytes

/-- R486, R313: the stage manager as section 2 of the configuration names it. A new one takes its place only while no curtain
runs (R311). -/
def State.loadMgr (s : State) : State :=
  let m := leNat (s.confBytes 2 16 2) % 8192
  if s.curtain.runs.any (fun c => c.2.phase != 0) || (Tab.get [] s.boot.conf 2).isEmpty then s
  else s.setRegN Reg.CUR_MGR (bit (m == s.self) * 2 ^ 31 + bit (s.regBit Reg.CUR_MGR 30) * 2 ^ 30 + m)

/-- The understudy of a module (section 2 of the configuration, R486). -/
def State.understudy (s : State) (m : Nat) : Nat := leNat (s.confBytes 2 (1088 + 2 * m) 2)

/-- R289: the pieces of a curtain toward generation: each generation shard cut by each training shard. -/
def weightPieces (s : State) (m : Model) : List Piece :=
  let raw : List Piece := m.tensors.flatMap fun t => (m.shardsOf t true).flatMap fun g => (m.shardsOf t false).filterMap fun x =>
    let r0 := max g.row0 x.row0
    let r1 := min (g.row0 + g.nrows) (x.row0 + x.nrows)
    let c0 := max g.col0 x.col0
    let c1 := min (g.col0 + g.ncols) (x.col0 + x.ncols)
    if r0 < r1 && c0 < c1 then
      let d := genDims t.gorder r0 (r1 - r0) c0 (c1 - c0)
      let len := blockBytes t.gfmt d.1 d.2.1
      some { piece := 0, tensor := t.id, src := x.module, srcu := s.understudy x.module, dst := g.module, tfmt := t.tfmt, gfmt := t.gfmt
             row0 := r0, nrows := r1 - r0, col0 := c0, ncols := c1 - c0, saddr := x.vaddr, length := len
             chunks := ceilDiv len 1048576, order := t.gorder, daddr := 0, digest := zeros 32 }
    else none
  (raw.zip (List.range raw.length)).map fun p => { p.1 with piece := p.2 }

/-- R294: a record-copy entry ends with 8 zero bytes. -/
def recordsOk (b : List Byte) (n : Nat) : Bool := b.length == 32 * n && (List.range n).all fun i => fieldAt b (32 * i + 24) 8 == 0

/-- R294: record copies as pieces. -/
def recordPieces (s : State) (b : List Byte) (n : Nat) : List Piece :=
  (List.range n).map fun i =>
    let f := fieldAt (sliceBytes b (32 * i) 32)
    { piece := i, tensor := 0, src := field (f 0 8) 44 13, srcu := s.understudy (field (f 0 8) 44 13), dst := field (f 8 8) 44 13
      tfmt := 0, gfmt := 0, row0 := 0, nrows := 0, col0 := 0, ncols := 0, saddr := f 0 8, length := f 16 8
      chunks := ceilDiv (f 16 8) 1048576, order := 0, daddr := f 8 8, digest := zeros 32 }

/-- R308: one piece per member, with no conversion. -/
def adapterPieces (s : State) (m : Model) (src len : Nat) : List Piece :=
  (m.members.zip (List.range m.members.length)).map fun p =>
    { piece := p.2, tensor := 0, src := src, srcu := s.understudy src, dst := p.1, tfmt := 0, gfmt := 0, row0 := 0, nrows := 0, col0 := 0
      ncols := 0, saddr := 0, length := len, chunks := ceilDiv len 1048576, order := 0, daddr := 0, digest := zeros 32 }

/-- R279: time in ns to the COMMIT cue of the model's next scheduled curtain of direction `dir`, or 100 ms. -/
def State.commitHint (s : State) (m dir : Nat) : Nat :=
  match List.find? (fun (c : Nat × Curtain) => c.2.model == m && c.2.dir == dir && decide (s.now ≤ c.2.cues.getD 3 0)) s.curtain.runs with
  | some c => c.2.cues.getD 3 0 - s.now
  | none => 100000000

end Sys2Proof.Machine
end

