-- ==== Sys2Proof/Machine/Curtain.lean ====
section
/-! DEFINITION. Models, curtains and adapters (chapter 10): MODEL_LOAD and its operations, adapters, the phases of a
curtain, rigging timeouts and verification, masks, revocation. -/

namespace Sys2Proof.Machine

/-- An item that a module submitted. -/
abbrev ItemRef := Nat × Nat × Nat

namespace State

def setCurtain (s : State) (x : CurtainSt) : State := { s with curtain := x }
def run? (s : State) (n : Nat) : Option Curtain := Tab.find? s.curtain.runs n

/-- R428: the record of a curtain: phase, cue times, ready bit, pieces verified, mask, manifest. -/
def runBytes (c : Curtain) : List Byte :=
  leBytes 4 c.num ++ leBytes 1 c.phase ++ leBytes 1 c.dir ++ leBytes 1 c.reason ++ leBytes 1 (bit c.mask.isSome + 2 * bit c.aborted + 4 * bit c.fenced) ++
  leBytes 4 c.model ++ leBytes 2 c.epoch ++ leBytes 2 c.aver ++ c.cues.flatMap (leBytes 8) ++ leBytes 4 (c.mask.getD []).length ++
  ((c.mask.getD []).flatMap (leBytes 2)) ++ (c.pieces.flatMap fun p => leBytes 4 p.1 ++ leBytes 1 (bit p.2.verified)) ++
  manifestBytes c c.entries

def putRun (s : State) (c : Curtain) : State :=
  (s.setCurtain { s.curtain with runs := Tab.setSome s.curtain.runs c.num c }).roleRec (s.roleAt c.num) recCurtain (runBytes c)

/-- CUR_STATE.QUEUED: requests that the stage manager holds. -/
def showQueued (s : State) : State := s.setField Reg.CUR_STATE 8 8 (if s.isManager then s.curtain.queue.length else 0)

/-- A curtain enters a phase (R296): CUR_STATE shows it and source 811 fires. -/
def setPhase (s : State) (c : Curtain) (ph : Nat) : State :=
  let s1 := s.putRun { c with phase := ph }
  ((s1.setField Reg.CUR_STATE 0 4 ph).setField Reg.CUR_STATE 4 2 c.dir).raise 811 ph

/-- CUR_STATE.FENCED shows whether some model is fenced. -/
def showFenced (s : State) : State := s.setField Reg.CUR_STATE 7 1 (bit (s.curtain.models.any fun m => m.2.fenced))

/-- Finish a submitted item. -/
def finishRef (s : State) (r : Option ItemRef) (d : Done) : State :=
  match r with | none => s | some (t, q, seq) => s.finish t q seq d

/-- CUR_RESULT of an aborted curtain (R306): the lowest-numbered member that reported not ready, and its reason; where none did, the
lowest-numbered one without a bit in the mask, with reason 0. -/
def abortResult (s : State) (c : Curtain) : Nat :=
  let told := if c.reason = 0 then s.curtain.reasons else Tab.setSome s.curtain.reasons (s.roleAt c.num) c.reason
  match told, c.members.filter fun x => c.mask.any fun m => !m.elem x with
  | (x, r) :: _, _ => x * 2 ^ 16 + r * 2 ^ 8 + stAborted
  | [], x :: _ => x * 2 ^ 16 + stAborted
  | [], [] => stAborted

/-- Free a list of granules of the role of tenant `t`. -/
def freeGrans (s : State) (t : Nat) (l : List Nat) : State := l.foldl (fun s i => s.freeFor t 0 i) s

/-- R280: the number of the next epoch: one above the current one, wrapping to 1, live numbers skipped. -/
def nextEpoch (m : Model) : Nat :=
  let rec go : Nat → Nat → Nat
    | 0, e => e
    | n + 1, e =>
      let e1 := if 65535 ≤ e then 1 else e + 1
      if m.live.any (fun x => x.number == e1) then go n e1 else e1
  go (m.live.length + 1) m.current

/-- A model is dropped once its UNLOAD can complete (R294, R311): no epoch, no pin of an adapter. -/
def tryUnload (s : State) (id : Nat) : State :=
  match s.model? id with
  | none => s
  | some m =>
    match m.unloading with
    | false => s
    | true =>
      if m.live.isEmpty && !(s.serve.reqs.any fun x => x.2.model == id) then
        let s0 := match s.loftEntry id with
          | none => s
          | some l => (s.evictVariant id).unmapLoft m.tenant l
        let slots := s0.curtain.adapters.filter fun a => a.2.model == id
        let s1 := slots.foldl (fun s a => s.freeMapped a.2.tenant a.2.grans) s0
        let s2 := s1.setCurtain { s1.curtain with
          models := Tab.drop s1.curtain.models id, adapters := s1.curtain.adapters.filter fun a => a.2.model != id }
        let s3 := { s2 with train := { s2.train with jobs := s2.train.jobs.filter fun j => j.2.model != id } }
        s3.finishRef m.unload { status := stOk }
      else s

end State

/-! ### Descriptors -/

/-- Map a loft entry's pages for a model being loaded, or answer NO_MEMORY on the state before (R284, R294). -/
def State.loadMapped (s1 s : State) (t q seq : Nat) (l : LoftModel) : State :=
  match s1.mapLoft t l with
  | none => s.finishSt t q seq stNoMemory
  | some s2 => s2.finishSt t q seq stOk

/-- A descriptor without its payload reference, and its payload: what is forwarded to the stage manager. -/
def Item.whole (i : Item) : List Byte := i.desc.take (64 + Desc.bodyLen i.desc) ++ i.payload.getD []

/-- R293: the stage manager hands a forwarded descriptor on to the other modules of a model. -/
def State.handOn (s : State) (m : Model) (origin : Nat) (bytes : List Byte) : State :=
  if !s.isManager then s
  else (m.members.filter fun x => x != s.roleOf m.tenant && x != origin).foldl (fun s x => s.emit (.toMember x origin bytes)) s

/-- R293: a descriptor accepted here goes to the stage manager, which is this module or another. -/
def State.forward (s : State) (m : Model) (i : Item) : State :=
  if s.isManager then s.handOn m (s.roleOf m.tenant) i.whole else s.emit (.toManager (s.roleOf m.tenant) i.whole)

/-- R294: MODEL_LOAD with op LOAD. -/
def modelLoad (s : State) (t q : Nat) (i : Item) : State :=
  let b := Desc.body i.desc
  let d := i.payload.getD []
  let m := modelOf t d
  if fieldAt b 1 3 != 0 || fieldAt b 8 8 != 0 || fieldAt b 4 4 != fieldAt d 8 4 || !descriptorOk s t d then
    s.finishSt t q i.seq stMalformed
  else if !(m.fmts.all (fmtAllowed (s.fmtMask t))) then s.finishSt t q i.seq stFormat
  else if (s.model? (State.keyOf t (fieldAt b 4 4))).isSome then s.finishBusy t q i.seq 0
  else
    let s1 := (s.putModel (State.keyOf t (fieldAt b 4 4)) m).forward m i
    match s1.loftEntry (State.keyOf t (fieldAt b 4 4)) with
    | none => s1.finishSt t q i.seq stOk
    | some l => s1.loadMapped s t q i.seq l

/-- R293, R294: a LOAD that another module accepted: the model is registered here too. -/
def loadSent (s : State) (module t : Nat) (b : List Byte) : State :=
  let d := Desc.rest b
  let id := State.keyOf t (fieldAt (Desc.body b) 4 4)
  if !descriptorOk s t d || id != State.keyOf t (fieldAt d 8 4) || (s.model? id).isSome then s
  else
    let m := modelOf t d
    let s1 := (s.putModel id m).handOn m module b
    match s1.loftEntry id with
    | none => s1
    | some l => (s1.mapLoft t l).getD s1

/-- Queue a curtain or adapter commit at the stage manager; BUSY when it holds 16 (R293). `bytes` is what is forwarded. -/
def askManager (s : State) (r : CurtainReq) (bytes : List Byte) : State :=
  if s.isManager && 16 ≤ s.curtain.queue.length then
    match r.submit with
    | none => s.emit (.busyTo r.origin bytes)
    | some (t, q, seq) => s.finishBusy t q seq 0
  else
    let s1 := (s.setCurtain { s.curtain with queue := s.curtain.queue ++ [r] }).showQueued
    if s.isManager then s1 else s1.emit (.toManager r.origin bytes)

/-- R293: the stage manager's BUSY for an item of this module: it ends, and what it had asked for is forgotten. -/
def State.managerBusy (s : State) (t q seq : Nat) : State :=
  let mine := fun (r : Option ItemRef) => r == some (t, q, seq)
  (s.setCurtain { s.curtain with
    queue := s.curtain.queue.filter fun r => !mine r.submit
    blobs := s.curtain.blobs.filter fun b => !(s.curtain.queue.any fun r => mine r.submit && r.model == b.model && r.adapter == b.adapter && r.aver == b.version)
    models := s.curtain.models.map fun m => if mine m.2.unload then (m.1, { m.2 with unload := none, unloading := false }) else m }).finishBusy
    t q seq 0

/-- R294: is the body of an op CURTAIN with its records in order for a model. -/
def curtainBodyOk (m : Model) (t : Nat) (b recs : List Byte) : Bool :=
  let dir := fieldAt b 1 1
  m.tenant == t && decide (dir ≤ 1) && fieldAt b 2 2 == 0 && fieldAt b 12 4 == 0 && m.kind != 3 && (dir == 1 || fieldAt b 8 4 == 0) &&
  recordsOk recs (fieldAt b 8 4)

/-- The request of an op CURTAIN. -/
def curtainReq (origin t : Nat) (r : Option ItemRef) (b recs : List Byte) : CurtainReq :=
  { origin := origin, submit := r, dir := fieldAt b 1 1, model := State.keyOf t (fieldAt b 4 4), adapter := 0, aver := 0, earliest := fieldAt b 16 8
    records := recs }

/-- R294: op CURTAIN. -/
def curtainAsk (s : State) (t q : Nat) (i : Item) : State :=
  let b := Desc.body i.desc
  let recs := i.payload.getD []
  match s.model? (State.keyOf t (fieldAt b 4 4)) with
  | none => s.finishSt t q i.seq stMalformed
  | some m =>
    if !curtainBodyOk m t b recs then s.finishSt t q i.seq stMalformed
    else askManager s (curtainReq (s.roleOf t) t (some (t, q, i.seq)) b recs) i.whole

/-- R293: a CURTAIN that another module accepted reaches the stage manager. -/
def curtainSent (s : State) (module t : Nat) (d : List Byte) : State :=
  let b := Desc.body d
  if s.isManager && (s.model? (State.keyOf t (fieldAt b 4 4))).any (fun m => curtainBodyOk m t b (Desc.rest d)) then
    askManager s (curtainReq module t none b (Desc.rest d)) d
  else s

/-- R294: is a curtain of a model queued or running here. -/
def State.curtainOpen (s : State) (id : Nat) : Bool :=
  (s.curtain.queue.any fun r => r.model == id && r.dir != 2) || s.curtain.runs.any fun c => c.2.model == id

/-- R294: op UNLOAD. -/
def unloadAsk (s : State) (t q : Nat) (i : Item) : State :=
  let b := Desc.body i.desc
  let id := State.keyOf t (fieldAt b 4 4)
  match s.model? id with
  | none => s.finishSt t q i.seq stMalformed
  | some m =>
    if m.tenant != t || fieldAt b 1 3 != 0 || fieldAt b 8 8 != 0 then s.finishSt t q i.seq stMalformed
    else if s.curtainOpen id || m.unloading then s.finishBusy t q i.seq 0
    else ((s.putModel id { m with unloading := true, unload := some (t, q, i.seq) }).forward m i).tryUnload id

/-- R293, R294: an UNLOAD that another module accepted; the stage manager refuses it while a curtain of the model is queued
or running. -/
def unloadSent (s : State) (module t : Nat) (d : List Byte) : State :=
  let id := State.keyOf t (fieldAt (Desc.body d) 4 4)
  match s.model? id with
  | none => s
  | some m =>
    if m.tenant != t then s
    else if s.isManager && s.curtainOpen id then s.emit (.busyTo module d)
    else ((s.putModel id { m with unloading := true }).handOn m module d).tryUnload id

/-- A descriptor's command by the way it reaches this member (R293). -/
def State.viaRow (s : State) (t q r : Nat) (via : Via) (k : State → Item → State) (sent : State → Nat → Nat → List Byte → State) : State :=
  match via with
  | .own => s.runRow t q r k
  | .sent m tn b => sent s m tn b
  | .busy seq => s.managerBusy t q seq

def execModelLoad (t q : Nat) (via : Via) (s : State) : Result :=
  .next (s.viaRow t q (0x20 + 256) via (fun s i => modelLoad s t q i) loadSent)
def execCurtain (t q : Nat) (via : Via) (s : State) : Result :=
  .next (s.viaRow t q (0x20 + 512) via (fun s i => curtainAsk s t q i) curtainSent)
def execUnload (t q : Nat) (via : Via) (s : State) : Result :=
  .next (s.viaRow t q (0x20 + 768) via (fun s i => unloadAsk s t q i) unloadSent)

/-- R307: the records of an adapter blob, each with a header of 16 bytes; none where the blob is malformed. -/
def adapterRecords (m : Model) : Nat → List Byte → Option (List (Nat × Nat × Word32))
  | 0, _ => none
  | fuel + 1, b =>
    if b.isEmpty then some []
    else
      let id := fieldAt b 0 4
      let k := fieldAt b 4 4
      match m.tensors.find? fun t => t.id == id with
      | none => none
      | some t =>
        let n := 16 + 2 * k * t.cols + 2 * t.rows * k
        if b.length < n || k < 1 || 1024 < k || fieldAt b 12 4 != 0 then none
        else (adapterRecords m fuel (b.drop n)).map fun r => (id, k, BitVec.ofNat 32 (fieldAt b 8 4)) :: r

/-- R308: ADAPTER_LOAD. R48: its matrices are BF16 (R307), so its tenant needs family B. Adapter identifier 0 stands for no
adapter, so that it names none (DEDUCED, log entry 110). -/
def adapterLoad (s : State) (t q : Nat) (i : Item) : State :=
  let b := Desc.body i.desc
  let a := fieldAt b 0 2
  let v := fieldAt b 2 2
  let id := State.keyOf t (fieldAt b 4 4)
  let blob := i.payload.getD []
  match s.model? id with
  | none => s.finishSt t q i.seq stMalformed
  | some m =>
    if m.tenant != t || fieldAt b 8 8 != blob.length || 2 ^ 28 < blob.length || sha3 blob != sliceBytes b 16 32 || a == 0 ||
        (adapterRecords m (blob.length + 1) blob).isNone ||
        (s.curtain.adapters.any fun x => x.2.model == id && x.2.adapter == a && decide (v ≤ x.2.version)) then
      s.finishSt t q i.seq stMalformed
    else if !fmtAllowed (s.fmtMask t) 1 then s.finishSt t q i.seq stFormat
    else if s.logRefuses then s.finishSt t q i.seq stLogFull
    else
      let s1 := s.setCurtain { s.curtain with blobs := s.curtain.blobs ++ [{ model := id, adapter := a, version := v, bytes := blob }] }
      askManager s1 { origin := s.roleOf t, submit := some (t, q, i.seq), dir := 2, model := id, adapter := a, aver := v, earliest := 0
                      records := [], length := blob.length } (i.desc.take (64 + Desc.bodyLen i.desc))

/-- R293, R308: an ADAPTER_LOAD that another module accepted, and serves, reaches the stage manager. -/
def adapterLoadSent (s : State) (module t : Nat) (d : List Byte) : State :=
  let b := Desc.body d
  if s.isManager && (s.model? (State.keyOf t (fieldAt b 4 4))).any (fun m => m.tenant == t) then
    askManager s { origin := module, submit := none, dir := 2, model := State.keyOf t (fieldAt b 4 4), adapter := fieldAt b 0 2, aver := fieldAt b 2 2
                   earliest := 0, records := [], length := fieldAt b 8 8 } d
  else s

/-- R310: the revocation of versions of an adapter, at the cue time t_X. -/
def addRevoke (s : State) (model a v at_ : Nat) (r : Option ItemRef) : State :=
  let arg := a + v * 2 ^ 16 + model % 2 ^ 32 * 2 ^ 32
  let s1 := s.setCurtain { s.curtain with revokes := s.curtain.revokes ++ [{ model := model, adapter := a, version := v, at_ := at_, submit := r }] }
  (s1.addCue at_ cueRevoke 2 0 (s.roleAt model) arg).getD s1

/-- R310, R311: the stage manager sets t_X, 1 ms ahead and not before the commit cue of a load in its commit, and writes the
revocation cue into every member's sheet. -/
def State.setRevoke (s : State) (m : Model) (id a v : Nat) (r : Option ItemRef) : State :=
  let commit := (s.curtain.runs.filter fun c => c.2.dir == 2 && c.2.model == id && c.2.adapter == a && (v == 0 || c.2.aver == v)).foldl
    (fun x c => max x (c.2.cues.getD 3 0)) 0
  let tx := max (s.now + 1000000) commit
  (m.members.filter (· != s.roleAt id)).foldl (fun s x => s.emit (.cueTo x cueRevoke 0 (a + v * 2 ^ 16 + id % 2 ^ 32 * 2 ^ 32) tx)) (addRevoke s id a v tx r)

/-- R310: ADAPTER_REVOKE. Another module's stage manager sets t_X; its cue reaches this member with REVOKE. -/
def adapterRevoke (s : State) (t q : Nat) (i : Item) : State :=
  let b := Desc.body i.desc
  let a := fieldAt b 0 2
  let v := fieldAt b 2 2
  let id := State.keyOf t (fieldAt b 4 4)
  match s.model? id with
  | none => s.finishSt t q i.seq stMalformed
  | some m =>
    if m.tenant != t then s.finishSt t q i.seq stMalformed
    else if s.logRefuses then s.finishSt t q i.seq stLogFull
    else if s.isManager then s.setRevoke m id a v (some (t, q, i.seq))
    else (s.setCurtain { s.curtain with
      revokes := s.curtain.revokes ++ [{ model := id, adapter := a, version := v, at_ := 0, submit := some (t, q, i.seq) }] }).emit
        (.toManager (s.roleOf t) i.whole)

/-- R293, R310: an ADAPTER_REVOKE that another module accepted reaches the stage manager. -/
def revokeSent (s : State) (_ t : Nat) (d : List Byte) : State :=
  let b := Desc.body d
  match s.model? (State.keyOf t (fieldAt b 4 4)) with
  | none => s
  | some m => if s.isManager && m.tenant == t then s.setRevoke m (State.keyOf t (fieldAt b 4 4)) (fieldAt b 0 2) (fieldAt b 2 2) none else s

def execAdapterLoad (t q : Nat) (via : Via) (s : State) : Result :=
  .next (s.viaRow t q 0x21 via (fun s i => adapterLoad s t q i) adapterLoadSent)
def execAdapterRevoke (t q : Nat) (via : Via) (s : State) : Result :=
  .next (s.viaRow t q 0x22 via (fun s i => adapterRevoke s t q i) revokeSent)

/-- R302, R310: a cue entry that the stage manager writes into this member's sheet, unless it stands there already. -/
def State.cueArrives (s : State) (time : Option Nat) (action sub arg role : Nat) : State :=
  match time with
  | none => s
  | some t =>
    if s.time.cues.any fun c => c.action == action && c.sub == sub && c.arg == arg && c.role == role then s
    else (s.addCue t action 2 sub role arg).getD s

/-- R310: REVOKE at t_X: requests pinned to the version end (a running one after its step), its slot is freed
once nothing pins it, the revocation completes with OK. `time` is t_X, where the stage manager's entry arrives with it. -/
def execRevoke (model adapter version : Nat) (time : Option Nat) (s0 : State) : Result :=
  let arg := adapter + version * 2 ^ 16 + model % 2 ^ 32 * 2 ^ 32
  let s := s0.cueArrives time cueRevoke 0 arg (s0.roleAt model)
  match s.takeCue cueRevoke 0 arg (some (s0.roleAt model)) with
  | none => .next s
  | some s1 =>
    let hit := fun v => version == 0 || v == version
    let mine := s1.serve.reqs.filter fun r => r.2.model == model && adapter != 0 && r.2.adapter == adapter && hit r.2.aver
    let s2 := mine.foldl (fun s r =>
      if r.2.inStep then s.putReq r.1 { r.2 with ending := some (stRevoked, 5, false, 0) } else s.endReq r.1 stRevoked 5 false 0) s1
    let s3 := (s2.setCurtain { s2.curtain with adapters := s2.curtain.adapters.map fun x =>
      if x.2.model == model && x.2.adapter == adapter && hit x.2.version then (x.1, { x.2 with revoked := true }) else x }).adapterRec model |>.sweepSlots model
    let done := s3.curtain.revokes.filter fun r => r.model == model && r.adapter == adapter && r.version == version
    let s4 := s3.setCurtain { s3.curtain with
      revokes := s3.curtain.revokes.filter fun r => !(r.model == model && r.adapter == adapter && r.version == version) }
    let s5 := s4.auditInternal { action := 0x41, okind := 2, origin := State.agentSched, object := adapter + version * 2 ^ 16 }
    .next (done.foldl (fun s r => s.finishRef r.submit { status := stOk }) s5)

/-! ### The stage manager -/

/-- R295: the cue times of a curtain: ANNOUNCE, SEAL, VERIFY, COMMIT, RELEASE. -/
def curtainCues (s : State) (dir earliest drain bytes : Nat) (gmir : Bool) : List Nat :=
  let tA := max earliest (s.now + 10000000)
  let d := if dir = 2 then 0 else if drain = 0 then s.regField Reg.CUR_CFG 0 16 else drain
  let tS := tA + d * 1000000
  let perMs := if gmir then 180000000 else 2700000000
  let tV := tS + (ceilDiv bytes perMs + s.regField Reg.CUR_CFG 16 16) * 1000000
  [tA, tS, tV, tV + 5000000, tV + 6000000]

/-- R293: may a request leave the stage manager's queue now. -/
def State.mayDequeue (s : State) (r : CurtainReq) : Bool :=
  if r.dir = 2 then (match s.curtain.running with | none => true | some n => (s.run? n).all fun c => c.model != r.model)
  else match s.curtain.running with
    | none => true
    | some n => (s.run? n).all fun c => c.phase == 0 && decide (c.cues.getD 4 0 ≤ s.now)

/-- R295: CURTAIN_DEQUEUE: the first request that may go gets its cues, and its manifests are sent. The curtain's members are
the model's modules and every source, source understudy and destination of an entry, since each of them gets a manifest (R292;
DEDUCED, log entry 101). -/
def execCurtainDequeue (s : State) : Result :=
  if !s.isManager then .next s
  else match s.curtain.queue.find? s.mayDequeue with
    | none => .next s
    | some r =>
      let s0 := (s.setCurtain { s.curtain with queue := s.curtain.queue.erase r }).showQueued
      match s0.model? r.model with
      | none => .next (s0.finishRef r.submit { status := stMalformed })
      | some m =>
        let num := s0.curtain.number + 1
        let es := if r.dir = 0 then weightPieces s0 m else if r.dir = 1 then recordPieces s0 r.records (r.records.length / 32)
          else adapterPieces s0 m r.origin r.length
        let members := es.foldl (fun l p => insertNat p.src (insertNat p.srcu (insertNat p.dst l))) m.members
        let load := members.foldl (fun b x => max b ((es.filter fun p => p.dst == x).map (·.length)).sum) 0
        let c : Curtain := { num := num, dir := r.dir, model := r.model, epoch := if r.dir = 0 then State.nextEpoch m else 0, aver := r.aver
                             adapter := r.adapter, tenant := m.tenant, cues := curtainCues s0 r.dir r.earliest m.drain load m.gmir
                             entries := es, members := members }
        let s1 := s0.setCurtain { s0.curtain with number := num, reasons := [], running := if r.dir = 2 then s0.curtain.running else some num
                                                  queue := s0.curtain.queue }
        let s2 := c.members.foldl (fun s x => s.emit (.manifest x
          (manifestBytes c (es.filter fun p => p.src == x || p.srcu == x || p.dst == x)) (c.cues.getD 4 0) c.members)) s1
        .next (s2.putRun { c with phase := 0, submit := r.submit })

/-- R302, R306: NOT_READY_REPORT of a member, until t_V + 1 ms; the stage manager passes it on to the members, and before t_V
it may write an abort cue at least 1 ms ahead. -/
def execNotReadyReport (num member reason abortAt : Nat) (s : State) : Result :=
  match s.run? num with
  | none => .next s
  | some c =>
    if c.cues.getD 2 0 + 1000000 < s.now then .next s
    else
      let s0 := s.setCurtain { s.curtain with reasons := Tab.setSome s.curtain.reasons member reason }
      let s1 := if !s.isManager then s0 else (c.members.filter fun x => x != s.roleAt num && x != member).foldl (fun s x =>
        s.emit (.toMember x member (leBytes 4 num ++ leBytes 1 reason))) s0
      if s.isManager && s.now + 1000000 ≤ abortAt && s.now < c.cues.getD 2 0 && abortAt < c.cues.getD 2 0 then
        let s2 := (c.members.filter (· != s.roleAt num)).foldl (fun s x => s.emit (.cueTo x cueCurtain 5 (num % 2 ^ 32) abortAt)) s1
        .next ((s2.addCue abortAt cueCurtain 2 5 (s.roleAt num) (num % 2 ^ 32)).getD s2)
      else .next s1

/-! ### Phases on a member -/

/-- R299, R302: this member is not ready: the first reason counts, and the stage manager hears of it. -/
def State.notReady (s : State) (c : Curtain) (reason : Nat) : State :=
  if c.reason = 0 then (s.putRun { c with reason := reason }).emit (.toManager (s.roleAt c.num) (leBytes 4 c.num ++ leBytes 1 reason)) else s

/-- R334: a fourth live epoch is announced: requests pinned to the oldest end with EPOCH_RETIRED. -/
def State.retireOldest (s : State) (id : Nat) : State :=
  match s.model? id with
  | none => s
  | some m =>
    if m.live.length < 3 then s
    else match m.live with
      | [] => s
      | e :: _ =>
        (s.serve.reqs.filter fun r => r.2.model == id && r.2.epoch == e.number).foldl (fun s r =>
          if r.2.inStep then s.putReq r.1 { r.2 with ending := some (stRetired, 7, false, 0) } else s.endReq r.1 stRetired 7 false 0) s

/-- R439, R290: the manifest of a rebuild: this member serves the pieces of which it is the source, and sends their digests. -/
def State.serveRebuild (s : State) (c : Curtain) : State :=
  (c.entries.filter fun p => p.src == s.roleAt c.num).foldl (fun s p =>
    match servePiece s c p none with
    | none => s
    | some d => s.emit (.digest p.dst (c.num % 2 ^ 32) p.piece (sha3 d.bytes))) (s.putRun c)

/-- R292, R295, R296: CURTAIN_MANIFEST with the RELEASE cue time, the adapter and tenant it concerns, the curtain's member set,
and the model's descriptor where this member has none. -/
def execCurtainManifest (bytes : List Byte) (release adapter tenant : Nat) (members : List Nat) (desc : Option (List Byte))
    (s : State) : Result :=
  let f := fieldAt bytes
  let num := State.keyOf tenant (f 8 4)
  let id := State.keyOf tenant (f 12 4)
  let s0 := match desc with
    | none => s
    | some d => if (s.model? id).isNone && descriptorOk s tenant d && fieldAt d 8 4 = f 12 4 then s.putModel id (modelOf tenant d) else s
  if s0.curtain.runs.any (fun c => c.1 == num && c.2.phase != 0) || bytes.length < 64 then .next s
  else
    let old := s0.run? num
    let es := (manifestEntries bytes).map pieceOf
    let bad := !manifestOk bytes || (s0.model? id).isNone
    let sub := match old with
      | some c => c.submit
      | none => ((s0.curtain.queue.find? fun r => r.model == id && r.dir == f 6 1).bind (·.submit))
    let s1 := if old.isSome then s0 else s0.setCurtain { s0.curtain with
      queue := match s0.curtain.queue.find? fun r => r.model == id && r.dir == f 6 1 with | none => s0.curtain.queue | some r => s0.curtain.queue.erase r }
    let mine := es.filter fun p => p.dst == s.roleAt num
    let c : Curtain :=
      { num := num, dir := f 6 1, model := id, epoch := f 16 2, aver := f 18 2, adapter := adapter
        tenant := match s1.model? id with | none => tenant | some m => m.tenant
        cues := [f 24 8, f 32 8, f 40 8, f 48 8, release], entries := es, members := members, malformed := bad
        pieces := mine.foldl (fun t p => Tab.setSome t p.piece {}) [], chunkTo := s1.regField Reg.CUR_CHUNKTO 0 16, submit := sub }
    if f 6 1 = 0 && f 24 8 = 0 && f 48 8 = 0 && release = 0 then .next (if bad then s0 else s0.serveRebuild { c with phase := 0 })
    else
    let put := fun (s : Option State) (p : Nat × Nat × Nat) => s.bind fun s => s.addCue p.1 p.2.1 2 p.2.2 (s.roleAt num) (f 8 4)
    let cues := [(f 24 8, cueCurtain, 1), (f 32 8, cueCurtain, 2), (f 40 8, cueCurtain, 3), (f 48 8, cueCommit, 0), (release, cueCurtain, 4)]
    let s2 := if c.dir = 0 then s1.retireOldest id else s1
    let s3 := (((s2.setRegN Reg.CUR_MODEL id).setRegN Reg.CUR_NUM num).setRegN Reg.CUR_EPOCH
      (c.epoch * 2 ^ 16 + ((s2.model? id).map (·.current)).getD 0)).setRegN Reg.CUR_RESULT 0
    let s4 := (List.range 5).foldl (fun s k => (s.setRegN (Reg.CUR_CUEL k) (c.cues.getD k 0 % 2 ^ 32)).setRegN (Reg.CUR_CUEH k) (c.cues.getD k 0 / 2 ^ 32 % 2 ^ 32)) s3
    let s5 := (((s4.setRegN Reg.RIG_PIECES mine.length).setRegN Reg.RIG_VERIFIED 0).setRegN Reg.RIG_BYTESL 0).setRegN Reg.RIG_BYTESH 0
    let s6 := match cues.foldl put (some s5) with
      | some s6 => s6.setPhase c 1
      | none => (s5.setPhase c 1).notReady { c with phase := 1 } stBusy
    .next (if bad then s6.notReady ((s6.run? num).getD c) stMalformed else s6)

/-- R439: is a curtain the rebuild of a role's shards: it has no cues. -/
def Curtain.rebuild (c : Curtain) : Bool := c.dir == 0 && c.cues.all (· == 0)

/-- R285, R286, R430: the wings of a curtain, with their mirrors under GMIR; or the granules of an adapter slot (R308). None for
want of room, here or on the partner. -/
def State.allocWings (s : State) (c : Curtain) (m : Model) : Option (List Nat × State) :=
  let w := State.mkGran 0 2 false false (m.gmir && c.dir == 0) false 0
  if c.dir = 0 then
    ((wingDies (m.genShards (s.roleAt c.num))).foldl (fun acc d => acc.bind fun (l, s) =>
      (s.allocFor c.tenant w (fun i => State.granDie i == d)).map fun (i, s1) => (l ++ [i], s1)) (some ([], s))).bind fun x =>
        if m.gmir then (State.mirrorGransFor c.tenant x.1 x.2).map fun s1 => (x.1, s1) else some x
  else if c.dir = 2 then
    let need := ((c.entries.filter fun p => p.dst == s.roleAt c.num).map fun p => ceilDiv p.length (2 ^ 21)).sum
    let coming := s.curtain.runs.filter fun r => r.2.dir == 2 && r.1 != c.num && !r.2.nomem && decide (2 ≤ r.2.phase ∧ r.2.phase < 6)
    if 4096 ≤ (s.curtain.adapters.filter fun a => !a.2.freed).length + coming.length then none
    else if s.regField (Reg.TNT_GRANLIM c.tenant) 0 19 < s.regField (Reg.TNT_GRANUSE c.tenant) 0 19 + need then none
    else s.allocsFor c.tenant w (fun _ => true) need
  else some ([], s)

/-- R271: do freed HBM granules wait to be zeroed. -/
def State.zeroing (s : State) : Bool := s.loft.dirty.any fun d => decide (d.1 < 393216)

/-- R296: ANNOUNCE at t_A: the wings are allocated, or wait for granules that are being zeroed (R271), and the member enters DRAIN (R279, R297). -/
def execAnnounce (num : Nat) (s : State) : Result :=
  match s.run? num, s.takeCue cueCurtain 1 (num % 2 ^ 32) (some (s.roleAt num)) with
  | some c, some s1 =>
    match s1.model? c.model with
    | none => .next (s1.setPhase c 2)
    | some m =>
      let m1 := if c.dir = 0 then { m with holdTrain := true } else if c.dir = 1 && m.kind == 1 then { m with holdGen := true } else m
      let s2 := s1.putModel c.model m1
      match s2.allocWings c m with
      | none => .next (if s2.zeroing then s2.setPhase { c with waits := true } 2
          else (s2.setPhase c 2).notReady { c with phase := 2, nomem := true } stNoMemory)
      | some (l, s3) =>
        let s4 := s3.setRegN Reg.RIG_WINGS l.length
        .next (s4.setPhase { c with wings := l } 2)
  | _, _ => .next s

/-- R289: bytes of chunk `k` of a piece. -/
def Piece.chunkLen (p : Piece) (k : Nat) : Nat := min (2 ^ 20) (p.length - k * 2 ^ 20)

/-- R304: a chunk failed: where it is asked for next. The first four failures are the source's, then understudy and source
take turns; a piece whose digest differed starts with the understudy. -/
def retryFrom (p : Piece) (pr : PieceRun) (fails : Nat) : Nat :=
  if pr.redone != 0 then (if fails % 2 = 0 then p.srcu else p.src)
  else if fails < 4 then p.src else if (fails - 4) % 2 = 0 then p.srcu else p.src

/-- Put the run of a chunk. -/
def State.putChunk (s : State) (num piece k : Nat) (x : ChunkRun) : State :=
  match s.run? num with
  | none => s
  | some c =>
    let pr := Tab.get {} c.pieces piece
    s.putRun { c with pieces := Tab.setSome c.pieces piece { pr with chunks := Tab.set {} pr.chunks k x } }

/-- R304, R390: a complete, checked chunk is written into its place. R286: with MIR it is done once the partner has
acknowledged it. R230: it waits while a word under it is being repaired. -/
def State.chunkDone (s : State) (c : Curtain) (p : Piece) (k : Nat) (bs : List Byte) : State :=
  let ck := Tab.get {} (Tab.get {} c.pieces p.piece).chunks k
  if (pieceRuns s c p (k * 2 ^ 20) bs).any fun r => s.repairHolds r.1 r.2.length then
    s.putChunk c.num p.piece k { ck with frags := [], parked := some bs }
  else
  let s0 := if ck.asked == some p.srcu && p.srcu != p.src then s.bump Reg.RIG_UNDER 1 else s
  let w := pieceWrite s0 c p (k * 2 ^ 20) bs
  let s1 := w.2.setReg64 Reg.RIG_BYTESL Reg.RIG_BYTESH (w.2.reg64 Reg.RIG_BYTESL Reg.RIG_BYTESH + bs.length)
  s1.putChunk c.num p.piece k (if w.1.isEmpty then { done := true } else { asked := ck.asked, at_ := s.clk, fails := ck.fails, acks := w.1 })

/-- R230: the chunks that waited for a repair are written. -/
def State.chunksRetry (s : State) : State :=
  (s.curtain.runs.flatMap fun c => c.2.entries.flatMap fun p =>
    (Tab.get {} c.2.pieces p.piece).chunks.filterMap fun k => k.2.parked.map fun bs => (c.1, p, k.1, bs)).foldl (fun s x =>
      match s.run? x.1 with
      | none => s
      | some c => if x.2.1.dst == s.roleAt c.num then s.chunkDone c x.2.1 x.2.2.1 x.2.2.2 else s) s

/-- Is a role served by this module. -/
def State.here (s : State) (m : Nat) : Bool := m == s.self || (s.servesPartner && m == s.partner)

/-- A curtain as its copy for a role of this pair would read: this module's own, or the partner's that it serves. -/
def Curtain.atRole (c : Curtain) (v : Bool) : Curtain :=
  { c with num := c.num % 2 ^ 32 + (if v then 2 ^ 32 else 0), model := c.model % 2 ^ 32 + (if v then 2 ^ 32 else 0)
           tenant := c.tenant % 256 + (if v then 256 else 0) }

/-- R287, R304: ask for chunk `k`, which has failed `fails` times. A transfer from this module, in either role that it serves, stays on it; where it
carries poison the chunk has failed once more and is asked for elsewhere. -/
def State.askChunk (s : State) (c : Curtain) (p : Piece) (k fails : Nat) : State :=
  let pr := Tab.get {} c.pieces p.piece
  let dst := retryFrom p pr fails
  if !s.here dst then (s.putChunk c.num p.piece k { asked := some dst, at_ := s.clk, fails := fails }).sendChunkReq dst c.num p.piece k
  else
    let o := k * 2 ^ 20
    let n := p.chunkLen k
    match servePiece s (c.atRole (p.src != s.self)) p none with
    | none => s.putChunk c.num p.piece k { asked := some dst, at_ := s.clk, fails := fails }
    | some d =>
      if !d.poisonIn o n then (s.countRig p.gfmt d o n).chunkDone c p k (sliceBytes d.bytes o n)
      else
        let next := if retryFrom p pr (fails + 1) = s.roleAt c.num then p.srcu else retryFrom p pr (fails + 1)
        (((s.bump Reg.RIG_CRCERR 1).bump Reg.RIG_RETRY 1).putChunk c.num p.piece k { asked := some next, at_ := s.clk, fails := fails + 1 }).sendChunkReq
          next c.num p.piece k

/-- Chunk requests of a curtain that are outstanding. -/
def Curtain.asking (c : Curtain) : Nat :=
  (c.pieces.map fun p => (p.2.chunks.filter fun k => k.2.asked.isSome && !k.2.done && k.2.acks.isEmpty && k.2.parked.isNone).length).sum

/-- R287: the chunk requests that a destination has not sent yet, up to 256 outstanding; a transfer that stays on the module
is over at once. A member without wings or without the model pulls nothing (R285). -/
def State.issueChunks (s : State) (c : Curtain) : State :=
  let todo : List (Piece × Nat) := (c.entries.filter fun p => p.dst == s.roleAt c.num && (pieceAddr s c p 0).isSome).flatMap fun p =>
    (List.range p.chunks).filterMap fun k =>
      let r := Tab.get {} (Tab.get {} c.pieces p.piece).chunks k
      if r.done || r.asked.isSome || !r.acks.isEmpty then none else some (p, k)
  todo.foldl (fun s w =>
    match s.run? c.num with
    | none => s
    | some c => if c.asking < 256 then s.askChunk c w.1 w.2 0 else s) s

/-- R271: wings that waited are allocated as soon as they can be; the pulls of RIG follow. -/
def State.wingsRetry (s : State) : State :=
  (s.curtain.runs.filter fun r => r.2.waits && decide (r.2.phase < 5)).foldl (fun s r =>
    match s.run? r.1, s.model? r.2.model with
    | some c, some m =>
      (match s.allocWings c m with
       | some (l, s1) =>
         let c1 := { c with wings := l, waits := false }
         let s2 := (s1.setRegN Reg.RIG_WINGS l.length).putRun c1
         if c1.phase = 4 then s2.issueChunks c1 else s2
       | none => if s.zeroing then s else s.notReady { c with nomem := true, waits := false } stNoMemory)
    | _, _ => s) s

/-- R221, R271: GRANULE_ZEROING of a freed granule. -/
def execGranuleZeroing (gran : Nat) (s : State) : Result := .next (s.zeroGran gran).wingsRetry

/-- R298: does a leaf map a page that holds a source piece: part of the training sub-block at its virtual address, or of a
record copy's source at its global address. -/
def State.holdsSource (s : State) (c : Curtain) (l : Nat × Nat × Nat) (p : Piece) : Bool :=
  if p.tensor = 0 then (s.leafRange l.2.2 l.2.1).any fun r => State.overlaps r.1 r.2 (p.saddr % 2 ^ 44) p.length
  else
    let len := (((s.model? c.model).bind fun m => (m.tensors.flatMap fun t => (m.shardsOf t false).map fun x => (t, x)).find? fun q =>
      q.2.vaddr == p.saddr && q.2.module == s.roleAt c.num).map fun q => trainShardLen q.1 q.2).getD 0
    State.overlaps l.1 (2 ^ l.2.1) p.saddr len

/-- R298: make the leaves of source pieces read-only; the curtain keeps those that were not. -/
def State.sealPages (s : State) (c : Curtain) : State :=
  let mine := c.entries.filter fun p => p.src == s.roleAt c.num && c.dir != 2
  let hits := (s.leaves c.tenant).filter fun l => !tbit l.2.2 2 && mine.any fun p => s.holdsSource c l p
  hits.foldl (fun s l =>
    match s.run? c.num with
    | none => s
    | some c => ((s.putLeaf c.tenant l.1 l.2.1 (l.2.2 + 4)).getD s).putRun { c with sealed := c.sealed ++ [(l.1, l.2.1)] }) s

/-- Is a training step that the module has begun still running for a model (R297). -/
def State.stepRuns (s : State) (id : Nat) : Bool := s.train.jobs.any fun j => j.2.model == id && ((j.2.run.toList ++ j.2.tail.toList).any fun r => r.t0.isSome && !r.done)

/-- R290: the digest of a piece enters the destination's copy of the manifest. -/
def Curtain.enterDigest (c : Curtain) (piece : Nat) (d : List Byte) : Curtain :=
  { c with entries := c.entries.map fun e => if e.piece = piece then { e with digest := d } else e }

/-- R298, R290, R287: SEAL at t_S: sources are sealed, digests go out, pulls begin. A piece that stays on the module has its
digest entered at once. -/
def execSeal (num : Nat) (s : State) : Result :=
  match s.run? num, s.takeCue cueCurtain 2 (num % 2 ^ 32) (some (s.roleAt num)) with
  | some c, some s1 =>
    let busy := c.dir == 0 && s1.stepRuns c.model
    let s2 := s1.setPhase { c with drained := !busy } 3
    let s3 := if busy then s2.notReady { c with phase := 3, drained := false } stBusy else s2
    let s4 := match s3.run? num with | none => s3 | some c => s3.sealPages c
    let s5 := match s4.model? c.model with
      | none => s4
      | some m => if c.dir = 1 && m.kind == 1 then s4.putModel c.model { m with pausing := true } else s4
    let s6 := (c.entries.filter fun p => p.src == s4.roleAt num).foldl (fun s p =>
      match servePiece s c p none with
      | none => s
      | some d =>
        let h := sha3 d.bytes
        if p.dst != s.roleAt num then s.emit (.digest p.dst (num % 2 ^ 32) p.piece h)
        else match s.run? num with
          | none => s
          | some c => s.putRun (c.enterDigest p.piece h)) s5
    match s6.run? num with
    | none => .next s6
    | some c =>
      let s7 := (s6.setField Reg.CUR_STATE 6 1 (bit (!c.sealed.isEmpty))).setPhase c 4
      .next (s7.issueChunks { c with phase := 4 })
  | _, _ => .next s

/-- R304: count a failure of a chunk and ask for it again, until t_V. -/
def State.chunkFail (s : State) (c : Curtain) (p : Piece) (k reg : Nat) : State :=
  let ck := Tab.get {} (Tab.get {} c.pieces p.piece).chunks k
  let s1 := s.bump reg 1
  if 5 ≤ c.phase then s1 else (s1.bump Reg.RIG_RETRY 1).askChunk c p k (ck.fails + 1)

/-- R304: CHUNK_TIMEOUT of an outstanding chunk that has not arrived within CUR_CHUNKTO of its request. -/
def execChunkTimeout (num piece chunk : Nat) (s : State) : Result :=
  match s.run? num with
  | none => .next s
  | some c =>
    match c.entries.find? fun p => p.piece == piece && p.dst == s.roleAt num with
    | none => .next s
    | some p =>
      let ck := Tab.get {} (Tab.get {} c.pieces piece).chunks chunk
      if ck.done || ck.asked.isNone || !ck.acks.isEmpty || ck.parked.isSome || p.chunks ≤ chunk || s.clk < ck.at_ + 1000 * c.chunkTo then .next s else .next (s.chunkFail c p chunk Reg.RIG_TIMEOUT)

/-- R285: at COMMIT the wings become the tenant's and are mapped (log entry 13: where). -/
def State.ownWings (s : State) (c : Curtain) (m : Model) : State :=
  let s1 := c.wings.foldl (fun s i => s.putGranOf c.tenant i
    (State.mkGran c.tenant 1 false true (m.gmir && c.dir == 0) false (State.gMgran (s.gran i)))) s
  let va := 2 ^ 46 + (c.num % 2 ^ 14) * 2 ^ 32
  (State.mapPages c.tenant 21 (fun a => s1.leafTo a true (m.gmir && c.dir == 0) false false false) (c.wings.map State.granuleAddr) va s1).getD s1

/-- R439: once every piece of a rebuild is verified the shards are in place, and the model's steps go on. -/
def State.rebuilt (s : State) (c : Curtain) : State :=
  if !c.rebuild || !c.pieces.all (fun p => p.2.verified) then s
  else
    let s0 := s.setCurtain { s.curtain with runs := Tab.drop s.curtain.runs c.num }
    match s0.model? c.model with
    | none => s0
    | some m => (s0.ownWings c m).putModel c.model { m with
        live := m.live.map fun e => if e.number == c.epoch then { e with grans := c.wings } else e }

/-- R290, R304: PIECE_VERIFY: the digest that the source sends is entered in the manifest; once every chunk is written the
read-back digest is compared with it. A mismatch has the piece requested whole from the understudy. -/
def execPieceVerify (num piece : Nat) (digest : Option (List Byte)) (s0 : State) : Result :=
  let s := match digest, s0.run? num with
    | some d, some c => if c.entries.any fun p => p.piece == piece && p.dst == s0.roleAt num && p.src != s0.roleAt num then s0.putRun (c.enterDigest piece d) else s0
    | _, _ => s0
  match s.run? num with
  | none => .next s
  | some c =>
    match c.entries.find? fun p => p.piece == piece && p.dst == s.roleAt num with
    | none => .next s
    | some p =>
      let pr := Tab.get {} c.pieces piece
      let written := (List.range p.chunks).all fun k =>
        let x := Tab.get {} pr.chunks k
        x.done || (!x.acks.isEmpty && x.acks.all s.mirAcked)
      if pr.verified || c.phase < 4 || 5 ≤ c.phase || p.digest == zeros 32 || !written then .next s
      else if sha3 (pieceRead s c p) = p.digest then
        let c1 := { c with pieces := Tab.setSome c.pieces piece { pr with verified := true } }
        .next (((s.bump Reg.RIG_VERIFIED 1).putRun c1).rebuilt c1)
      else
        let c1 := { c with pieces := Tab.setSome c.pieces piece { chunks := [], redone := pr.redone + 1 } }
        let s1 := ((s.bump Reg.RIG_DIGERR 1).bump Reg.RIG_RETRY p.chunks).putRun c1
        .next (s1.issueChunks c1)

/-- R299: is a member ready at t_V, and the reason if not. -/
def Curtain.verdict (c : Curtain) (reset : Bool) : Nat :=
  if c.reason != 0 then c.reason
  else if c.malformed then stMalformed else if reset then stReset else if c.nomem || c.waits then stNoMemory
  else if !c.drained then stBusy else if c.pieces.all (fun p => p.2.verified) then 0 else stMissing

/-- R299: VERIFY at t_V: the ready bit goes into the collective, with the reason to the stage manager. -/
def execVerify (num : Nat) (s : State) : Result :=
  match s.run? num, s.takeCue cueCurtain 3 (num % 2 ^ 32) (some (s.roleAt num)) with
  | some c, some s1 =>
    let r := c.verdict (s1.tntState c.tenant == 2)
    let s2 := (s1.setPhase { c with reason := r } 5).emit (.ready (s.roleAt num) (num % 2 ^ 32) (r == 0) r)
    .next (if r = 0 || c.reason != 0 then s2 else s2.emit (.toManager (s.roleAt num) (leBytes 4 num ++ leBytes 1 r)))
  | _, _ => .next s

/-! ### Commit and release -/

/-- R321: at the commit of a curtain toward generation each request paused by a curtain returns to the state it left; its
spilled blocks are fetched. -/
def State.wakePaused (s : State) (id : Nat) : State :=
  (s.serve.reqs.filter fun r => r.2.model == id && r.2.st == 5).foldl (fun s r =>
    let s1 := s.putReq r.1 { r.2 with st := r.2.left, left := 0, holdAt := none }
    s1.setKv (s1.serve.kv.map fun b => if b.slot == r.1 then b.resumed else b)) s

/-- R300: the decision of a mask on this member. An adapter's load completes here (R308), a curtain at RELEASE (R296). -/
def State.applyMask (s : State) (c : Curtain) (mask : List Nat) : State :=
  let c1 := { c with mask := some mask, fenced := false }
  match s.model? c.model with
  | none => s.putRun { c1 with aborted := true }
  | some m =>
    if !(c.members.all mask.elem) then
      ((s.putModel c.model { m with fenced := false }).putRun { c1 with aborted := true }).showFenced
    else
      let s1 := s.bump Reg.CUR_COMMITS 1
      let s2 :=
        if c.dir = 0 then
          let s2 := s1.ownWings c m
          let m1 := { m with fenced := false, gen := true, current := c.epoch, live := m.live ++ [{ number := c.epoch, grans := c.wings }] }
          ((s2.putModel c.model m1).setRegN Reg.CUR_EPOCH c.epoch).wakePaused c.model
        else if c.dir = 1 then s1.putModel c.model { m with fenced := false, gen := false, pausing := false }
        else
          let s2 := (s1.ownWings c m).putModel c.model { m with fenced := false }
          let k := s2.curtain.adapters.foldl (fun n a => max n (a.1 + 1)) 0
          let slot : AdapterSlot := { tenant := c.tenant, adapter := c.adapter, version := c.aver, model := c.model, grans := c.wings
                                      length := (c.entries.find? fun p => p.dst == s.roleAt c.num).elim 0 (·.length), committed := true }
          ((s2.setCurtain { s2.curtain with adapters := Tab.setSome s2.curtain.adapters k slot }).adapterRec c.model |>.sweepSlots c.model).auditInternal
            { action := 0x40, okind := 2, origin := State.agentSched, object := c.adapter + c.aver * 2 ^ 16 }
      let s3 := ((s2.putRun { c1 with wings := [] }).setRegN Reg.RIG_WINGS 0).showFenced
      if c.dir = 2 then s3.finishRef c.submit { status := stOk } else s3

/-- R300, R301: COMMIT at t_C with the mask that the member holds, if it holds one; without one it is fenced. -/
def execCommit (num : Nat) (mask : Option (List Nat)) (s : State) : Result :=
  match s.run? num, s.takeCue cueCommit 0 (num % 2 ^ 32) (some (s.roleAt num)) with
  | some c, some s1 =>
    match (match mask with | some m => some m | none => c.mask) with
    | some m => .next ((s1.setPhase c 6).applyMask { c with phase := 6 } m)
    | none =>
      let s2 := (s1.setPhase { c with fenced := true } 6).bump Reg.CUR_FENCES 1
      match s2.model? c.model with
      | none => .next s2
      | some m => .next ((s2.putModel c.model { m with fenced := true }).showFenced)
  | _, _ => .next s

/-- R298, R296: sealed pages are made writable again. -/
def State.unseal (s : State) (c : Curtain) : State :=
  c.sealed.foldl (fun s p =>
    match (s.leaves c.tenant).find? fun l => l.1 == p.1 && l.2.1 == p.2 with
    | none => s
    | some l => if tbit l.2.2 2 then (s.putLeaf c.tenant l.1 l.2.1 (l.2.2 - 4)).getD s else s) s

/-- R296, R303: the end of a curtain whose outcome this member knows: aborted wings are freed, held items go on, an abort
is logged and completed, and the curtain is forgotten. -/
def State.endCurtain (s : State) (c : Curtain) : State :=
  let aborted := c.aborted || c.mask.isNone
  let s2 := if aborted then s.freeGrans c.tenant c.wings else s
  let s3 := match s2.model? c.model with
    | none => s2
    | some m =>
      let s3 := s2.putModel c.model { m with holdGen := false, holdTrain := false, pausing := m.pausing && !aborted && m.gen }
      if m.kind = 1 && m.gen then s3.busySteps c.model (s3.commitHint c.model 1) else s3
  let s4 := if aborted then
      let r := s3.abortResult c
      ((((s3.setRegN Reg.CUR_RESULT r).bump Reg.CUR_ABORTS 1).auditInternal
        { action := 0x51, okind := 2, origin := State.agentSched, object := c.epoch + c.model * 2 ^ 32, status := stAborted }).finishRef
        c.submit { status := stAborted, detail := r })
    else if c.dir = 2 then s3
    else
      let s4 := if c.dir = 0 then s3.auditInternal { action := 0x50, okind := 2, origin := agentSched, object := c.epoch + c.model * 2 ^ 32 } else s3
      s4.finishRef c.submit { status := stOk }
  (s4.setCurtain { s4.curtain with
    runs := Tab.drop s4.curtain.runs c.num
    running := if s4.curtain.running = some c.num then none else s4.curtain.running
    blobs := if c.dir = 2 then s4.curtain.blobs.filter fun b => !(b.model == c.model && b.adapter == c.adapter && b.version == c.aver)
      else s4.curtain.blobs }).setRegN Reg.RIG_WINGS 0 |>.setField Reg.CUR_EPOCH 16 16 0

/-- R301: a fenced member receives the mask: it applies the decision and unfences. Where t_R has passed meanwhile, what
RELEASE left for want of the mask follows (R303). -/
def State.maskArrives (s : State) (c : Curtain) (mask : List Nat) : State :=
  let s1 := s.applyMask c mask
  if c.phase ≠ 7 then s1 else match s1.run? c.num with | none => s1 | some d => (s1.endCurtain d).loadMgr

/-- R301: MASK_RESEND, every 1 ms: the stage manager resends the mask to a fenced member; a fenced member that receives it
applies the decision. -/
def execMaskResend (num member : Nat) (mask : List Nat) (s : State) : Result :=
  match s.run? num with
  | none => .next s
  | some c =>
    if member = s.roleAt num then (if c.fenced then .next (s.maskArrives c mask) else .next s)
    else if s.isManager then .next (s.emit (.maskTo member (num % 2 ^ 32) mask)) else .next s

/-- R312: STAGE_MANAGER_RECOVERY: the new stage manager decides commit if any member holds a committing mask, abort
otherwise, and sends the decision to every fenced member. -/
def execStageManagerRecovery (num : Nat) (masks : List (List Nat)) (fenced : List Nat) (s : State) : Result :=
  match s.run? num with
  | none => .next s
  | some c =>
    if !s.isManager then .next s
    else
      let full := masks.any fun m => c.members.all m.elem
      let mask := if full then c.members else []
      let s1 := (fenced.filter (· != s.roleAt num)).foldl (fun s x => s.emit (.maskTo x (num % 2 ^ 32) mask)) s
      .next (if fenced.elem (s.roleAt num) && c.fenced then s1.maskArrives c mask else s1)

/-- R296, R303: what RELEASE does on a member: the source pages are restored; a member that still waits for the mask keeps
the rest until it has it. -/
def State.release (s : State) (c : Curtain) : State :=
  let s1 := (((s.unseal c).setField Reg.CUR_STATE 6 1 0)).setPhase c 7
  let s2 := if c.fenced then s1 else s1.endCurtain { c with phase := 7 }
  ((s2.setField Reg.CUR_STATE 0 4 0).raise 811 0).loadMgr

/-- R296: RELEASE at t_R. -/
def execRelease (num : Nat) (s : State) : Result :=
  match s.run? num, s.takeCue cueCurtain 4 (num % 2 ^ 32) (some (s.roleAt num)) with
  | some c, some s1 => .next (s1.release c)
  | _, _ => .next s

/-- R302, R303: an abort cue takes a member that has not reached VERIFY to RELEASE; its other cues are cancelled. `time` is
the cue's, where the stage manager's entry arrives with it. -/
def execCurtainAbort (num : Nat) (time : Option Nat) (s0 : State) : Result :=
  let s := s0.cueArrives time cueCurtain 5 (num % 2 ^ 32) (s0.roleAt num)
  match s.run? num, s.takeCue cueCurtain 5 (num % 2 ^ 32) (some (s.roleAt num)) with
  | some c, some s1 =>
    if 5 ≤ c.phase then .next s1
    else
      let s2 := s1.dropCues fun k => (k.action == cueCurtain || k.action == cueCommit) && k.arg == num % 2 ^ 32 && k.role == s1.roleAt num
      .next (s2.release { c with aborted := true })
  | _, _ => .next s

/-- R284: EPOCH_FREE: an epoch that is not current, or any epoch of a model being unloaded, without pins. `module` frees it:
of another module of the model it is kept, since an epoch is to be live on every module of a placement (R282). -/
def execEpochFree (module model epoch : Nat) (s : State) : Result :=
  match s.model? model with
  | none => .next s
  | some m =>
    match m.live.find? fun e => e.number == epoch with
    | none => .next (s.tryUnload model)
    | some e =>
      if module != s.roleAt model then .next (s.putModel model { m with
        live := m.live.map fun x => if x.number == epoch then { x with freedOn := insertNat module x.freedOn } else x })
      else if (m.current == epoch && !m.unloading) || s.epochPins model epoch != 0 then .next s
      else
        let m1 := { m with live := m.live.erase e, current := if m.current = epoch then 0 else m.current }
        let s2 := (s.freeMapped m.tenant e.grans).putModel model m1
        .next (s2.tryUnload model)

end Sys2Proof.Machine
end

