-- ==== Sys2Proof/Machine/ServePlan.lean ====
section
/-! DEFINITION. Predictions and budgets of serving (R324, R326 to R328), speculative depth (R338), admission (R325). -/

namespace Sys2Proof.Machine

/-- R456: divider ratio and issue duty (of 64) of a reef level. -/
def reefRatio (l : Nat) : Nat := l + 2
def reefDuty (l : Nat) : Nat := [64, 60, 56, 52, 48, 44, 40, 32].getD l 32
/-- R456: the throughput fraction: the product of the two, relative to level 0. -/
def reefFraction (l : Nat) : Rat := (2 * reefDuty l : Nat) / (reefRatio l * 64 : Nat)

/-- The rational value of a finite FP32 pattern. -/
def ratOf (w : Word32) : Rat :=
  match f32Val w with
  | .fin s m e => let v : Rat := if 0 ≤ e then (m * 2 ^ e.toNat : Nat) else (m : Rat) / ((2 ^ (-e).toNat : Nat) : Rat); if s then -v else v
  | _ => 0

namespace State

/-- The coefficients of a model (R327), from the priors of the configuration (R342) until a step moved them. -/
def coefOf (s : State) (m : Nat) : Coef := Tab.get {} s.serve.coef m

/-- The members of the replica group that serves a model here: as many as the generation layout has modules for each replica
(log entry 30). -/
def groupSize (s : State) (m : Nat) : Nat :=
  let gen := match s.model? m with
    | none => []
    | some x => x.tensors.flatMap fun t => x.shardsOf t true
  let members := (gen.foldl (fun l x => insertNat x.module l) []).length
  let first := ((s.model? m).map fun x => (x.tensors.take 1).flatMap fun t => x.shardsOf t true).getD []
  let copies := match first with
    | [] => 1
    | x :: _ => (first.filter fun y => y.row0 == x.row0 && y.col0 == x.col0 && y.nrows == x.nrows && y.ncols == x.ncols).length
  max 1 (members / max 1 copies)

/-- R327, R517: the active cores of that group: 128 of each member, without this module's retired cores. -/
def groupCores (s : State) (m : Nat) : Nat := 128 * s.groupSize m - (s.cores.filter fun c => c.2.retired).length

/-- R327: prefill time of `p` tokens on a held context of `c`. -/
def prefillTime (k : Coef) (c p : Nat) : Rat := k.a0 + k.a1 * p + k.a2 * p * ((c : Rat) + (p : Rat) / 2)
/-- R327: decode step time of `n` requests with summed contexts `ctx`. -/
def decodeTime (k : Coef) (n ctx : Nat) : Rat := k.b0 + k.b1 * n + k.b2 * ctx

/-- Requests of a model in given states. -/
def reqsOf (s : State) (m : Nat) (p : Req → Bool) : List (Nat × Req) := s.serve.reqs.filter fun r => r.2.model == m && p r.2

/-- Prompt tokens of a request that no step has taken yet. -/
def promptLeft (r : Req) : Nat := r.context.length - r.filled

/-- R213, R333: bytes per us of a tenant's spill tier. -/
def spillRate (s : State) (t : Nat) : Nat := if s.regField (Reg.SRV_TTL (t % 256)) 12 2 = 1 then 200000 else 3000000

/-- Is a model a variant (R336), and its loft entry. -/
def variantOf (s : State) (m : Nat) : Option LoftModel :=
  match s.model? m with
  | none => none
  | some x => if x.kind = 3 then (s.loft.models[x.loft]?).filter (fun l => l.kind == 4) else none

def resident (s : State) (m : Nat) : Bool := (Tab.find? s.serve.variants m).isSome

/-- R336: predicted swap time in us. -/
def swapTime (s : State) (m : Nat) : Rat :=
  match s.variantOf m with
  | none => 0
  | some l => if s.resident m then 0 else (l.len : Rat) / 1600000 + 1000

/-- What R327 predicts of a segment: time to first token, time between tokens, work. -/
structure Pred where
  ttft : Rat
  tbt  : Rat
  w    : Rat
  deriving DecidableEq, Repr

/-- R327: the predictions for a segment of a model: held context `c`, `p` new tokens, `maxnew`, spilled bytes. The prefill
work ahead is that of the requests not yet in DECODE, in steps of PCHUNK tokens (log entry 15). -/
def predict (s : State) (m t c p maxnew spilled : Nat) : Pred :=
  let k := s.coefOf m
  let dec := s.reqsOf m (fun r => r.st == 3)
  let n := dec.length
  let ctx := (dec.map fun r => r.2.context.length).sum
  let ahead := ((s.reqsOf m fun r => r.st == 1 || r.st == 2).map fun r => promptLeft r.2).sum
  let chunk := s.regField Reg.SRV_STEPCFG 0 16
  let f := reefFraction s.reefLevel
  let pre := prefillTime k c p / f
  let now := decodeTime k n ctx / f
  let with_ := decodeTime k (n + 1) (ctx + c + p) / f
  let wait := (ceilDiv ahead chunk : Rat) * (prefillTime k 0 chunk + decodeTime k n ctx) / f
  let least := min (maxnew : Rat) (2 * k.lhat)
  { ttft := wait + s.swapTime m + (spilled : Rat) / (s.spillRate t : Rat) + pre, tbt := with_
    w := (pre + least * (with_ - now)) * (s.groupCores m : Rat) }

/-! ### Reservation (R326) -/

/-- Positions that a segment reserves. -/
def reserved (s : State) (ctx maxnew : Nat) : Nat := ctx + min maxnew (s.regField Reg.SRV_KVCFG 16 16)

/-- Pages that a reservation needs beyond what the slot's resident blocks hold. -/
def resvPages (s : State) (m : Model) (slot : Option Nat) (ctx maxnew : Nat) : Nat :=
  let have_ := match slot with
    | none => 0
    | some i => ((s.serve.kv.filter fun b => b.slot == i && !b.frames.isEmpty).map fun b => b.length / 4096).sum
  ceilDiv (s.reserved ctx maxnew) 64 * m.groups * (m.blockLen / 4096) - have_

/-- R326: the home's admission quota of a model, in granules: until the first rebalancing an equal part of what is free. -/
def quotaOf (s : State) (m : Nat) : Nat := Tab.get (s.regField Reg.MEM_FREE 0 19 / s.groupSize m) s.serve.quota m

/-! ### Buckets (R324): levels in millionths -/

def rqLevel (s : State) (t : Nat) : Int := match Tab.find? s.serve.rq t with | some v => v | none => (s.regField (Reg.ADM_RQBURST (t % 256)) 0 16 : Int) * 1000000
def tkLevel (s : State) (t : Nat) : Int := match Tab.find? s.serve.tk t with | some v => v | none => (s.regN (Reg.ADM_TKBURST (t % 256)) : Int) * 1000000

/-- Time in ns until a bucket of level `v` reaches `goal`, at `rate` per second. -/
def fillTime (v goal : Int) (rate : Nat) : Nat := if rate = 0 then 2 ^ 40 else ceilDiv (goal - v).toNat rate * 1000

/-! ### Overload (R328) -/

/-- The work budget now, in core-us: it refills at 0.98 S per 100 ms up to 0.098 S. -/
def budgetNow (s : State) : Rat :=
  min (s.serve.budget + (98 * s.serve.sust / 100) * ((s.clk - s.serve.budgetAt : Nat) : Rat) / 100000000) (98 * s.serve.sust / 1000)

/-- Tenants with admitted or queued work in the last window. -/
def busyTenants (s : State) : List Nat :=
  (s.serve.workLast.map Prod.fst ++ s.serve.queue.map (·.tenant)).foldl (fun l t => insertNat t l) []

/-- A tenant's share of S by weight. -/
def share (s : State) (t : Nat) : Rat :=
  let tot := (s.busyTenants.map fun x => s.regField (Reg.TNT_POLICY x) 16 16).sum
  if tot = 0 then 0 else s.serve.sust * (s.regField (Reg.TNT_POLICY t) 16 16 : Rat) / (tot : Rat)

/-- Is a tenant below its share. -/
def below (s : State) (t : Nat) : Bool := decide (Tab.get 0 s.serve.workLast t < s.share t)

/-- ADM_STATUS changes: source 812 fires with bits [31:30]. -/
def setAdm (s : State) (bitNo : Nat) (on : Bool) : State :=
  if s.regBit Reg.ADM_STATUS bitNo = on then s
  else
    let s1 := s.setField Reg.ADM_STATUS bitNo 1 (bit on)
    if 30 ≤ bitNo then s1.raise 812 (s1.regField Reg.ADM_STATUS 30 2) else s1

def showQueue (s : State) : State := s.setRegN Reg.ADM_QLEN s.serve.queue.length

/-- A BUSY refusal, counted in ADM_BUSY or, under the cap, in ADM_CAPREF. -/
def refuseBusy (s : State) (t q seq hint : Nat) (cap : Bool) : State :=
  (s.bump (if cap then Reg.ADM_CAPREF else Reg.ADM_BUSY) 1).finishBusy t q seq hint

/-- Take an item out of the admission queue. -/
def unqueue (s : State) (x : QItem) : State :=
  ((s.setServe { s.serve with queue := s.serve.queue.filter fun y => y.order != x.order }).showQueue).queueRec x.tenant

/-! ### Speculation (R338) -/

/-- The value of drafting d tokens. -/
def draftValue (alpha rho : Word32) (d : Nat) : Word32 :=
  let r := (List.range d).foldl (fun (x : Word32 × Word32) _ => let p := fmul x.2 alpha; (fadd x.1 p, p)) (F32.one, F32.one)
  fdiv r.1 (fadd F32.one (fmul (f32 (.fin false d 0)) rho))

/-- The depth of the next round. -/
def bestDepth (alpha rho : Word32) (depth : Nat) : Nat :=
  ((List.range depth).foldl (fun (x : Nat × Word32) i =>
    let v := draftValue alpha rho (i + 1)
    if flt x.2 v then (i + 1, v) else x) (1, F32.zero)).1

/-- α after a round in which `a` of `d` were accepted. -/
def nextAlpha (alpha : Word32) (a d : Nat) : Word32 :=
  fadd alpha (fdiv (fsub (fdiv (f32 (.fin false a 0)) (f32 (.fin false d 0))) alpha) (f32 (.fin false 8 0)))

def rho (s : State) : Word32 := f32 (.fin false (s.regField Reg.SRV_SPEC 16 16) (-16))
def alpha0 (s : State) : Word32 := f32 (.fin false (s.regField Reg.SRV_SPEC 8 8) (-8))

/-! ### Admission (R325) -/

/-- R307, R309: the committed version of an adapter, the newest one. -/
def adapterNow (s : State) (m a : Nat) : Option AdapterSlot :=
  ((s.curtain.adapters.filter fun x => x.2.model == m && x.2.adapter == a && x.2.committed).foldl (fun (b : Option AdapterSlot) x =>
    match b with | none => some x.2 | some y => if y.version < x.2.version then some x.2 else b) none)

/-- Why a segment of a model cannot be admitted now: status and hint; none where it can (R279, R282, R301, R310). -/
def modelBars (s : State) (id epoch adapter : Nat) (resume : Bool) : Option (Nat × Nat) :=
  match s.model? id with
  | none => some (stRetired, 0)
  | some m =>
    if m.unloading && !resume then some (stRetired, 0)
    else if m.fenced then some (stBusy, 1000000)
    else if m.kind == 1 && !m.gen then some (stBusy, s.commitHint id 0)
    else if m.holdGen then some (stBusy, s.commitHint id 0)
    else if resume then none
    else if epoch != 0 && !(m.live.any fun e => e.number == epoch && e.freedOn.isEmpty) then some (stRetired, 0)
    else if epoch == 0 && m.current == 0 then some (stRetired, 0)
    else if adapter != 0 then (match s.adapterNow id adapter with
      | none => some (stMalformed, 0)
      | some a => if a.revoked then some (stRevoked, 0) else none)
    else none

/-- The sampling settings of a GENERATE body (R316). -/
def samplingOf (b : List Byte) : Sampling :=
  let f := fieldAt b
  { beta := BitVec.ofNat 32 (f 8 4), topk := f 12 4, topp := BitVec.ofNat 32 (f 16 4), draft := f 20 4, depth := f 24 1, gflags := f 25 1
    stops := (List.range (f 26 1)).map fun i => f (64 + 4 * i) 4 }

/-- The token identifiers of a payload. -/
def tokensOf (p : List Byte) : List Nat := (List.range (p.length / 4)).map fun i => fieldAt p (4 * i) 4

/-- The segment that an item starts: its output reference lies at `o` of the body, `maxnew` at `mn`. -/
def segmOf (s : State) (q : Nat) (i : Item) (mn o : Nat) : Segm :=
  let b := Desc.body i.desc
  let d := i.desc
  { q := q, seq := i.seq, maxnew := fieldAt b mn 4, region := refRegion (fieldAt b o 8), off := refOff (fieldAt b o 8), outlen := fieldAt b (o + 8) 4
    deadline := Desc.deadline d, prio := Desc.prio d, gttft := Desc.goalTtft d, gtbt := Desc.goalTbt d, accept := i.atDom, admitAt := s.now }

/-- The slot of the request that a RESUME, PAUSE or CANCEL names (R315). -/
def namedReq (s : State) (t : Nat) (b : List Byte) : Option (Nat × Req) :=
  List.find? (fun (r : Nat × Req) => r.2.tenant == t && r.2.q0 == fieldAt b 0 1 && r.2.seq0 == fieldAt b 8 8) s.serve.reqs

/-- R322: what an item completes with that names a request no slot holds. -/
def namedEnd (s : State) (t : Nat) (b : List Byte) : Nat :=
  match List.find? (fun (e : Nat × Ended) => e.2.tenant == t && e.2.q0 == fieldAt b 0 1 && e.2.seq0 == fieldAt b 8 8) s.serve.ended with
  | some e => e.2.status
  | none => stTtl

/-- Admit a GENERATE: slot, pins, KV blocks, ADMITTED. None where a slot or the memory is missing. -/
def admitNew (s : State) (m : Model) (t q : Nat) (i : Item) (w : Rat) : Option State :=
  let b := Desc.body i.desc
  let d := i.desc
  match s.freeSlot t with
  | none => none
  | some slot =>
    let ep := if m.pinscope = 1 then 0 else if Desc.epoch d = 0 then m.current else Desc.epoch d
    let ctx := tokensOf (i.payload.getD [])
    let r : Req :=
      { tenant := t, q0 := q, seq0 := i.seq, model := keyOf t (Desc.model d), adapter := Desc.adapter d
        aver := if Desc.adapter d = 0 then 0 else ((s.adapterNow (keyOf t (Desc.model d)) (Desc.adapter d)).map (·.version)).getD 0
        epoch := ep, seed := Desc.seed d, samp := samplingOf b, st := 1, context := ctx, seg := some (s.segmOf q i 4 32), alpha := s.alpha0
        nextD := min (fieldAt b 24 1) (s.regField Reg.SRV_SPEC 4 4), work := w }
    placeBlocks t (newBlocks m slot ep 0 (s.reserved ctx.length (fieldAt b 4 4))) (s.putReq slot r)

/-- R333: take a RESUME in: the request goes on in ADMITTED, its expiry cancelled, spilled blocks to be fetched. -/
def admitResume (s : State) (m : Model) (slot : Nat) (r : Req) (q : Nat) (i : Item) (w : Rat) : Option State :=
  let b := Desc.body i.desc
  let ctx := r.context ++ tokensOf (i.payload.getD [])
  let r1 := { r with
    st := 1, context := ctx, seg := some (s.segmOf q i 20 24), ttlAt := none, holdAt := none, work := w
    nextD := min r.samp.depth (s.regField Reg.SRV_SPEC 4 4) }
  let s1 := s.putReq slot r1
  let s2 := s1.setKv (s1.serve.kv.map fun k => if k.slot == slot then k.resumed else k)
  let have_ := (s.serve.kv.filter fun k => k.slot == slot && k.group == 0).length
  placeBlocks r.tenant (newBlocks m slot r.epoch (64 * have_) (s.reserved ctx.length (fieldAt b 20 4))) s2

/-- Charge admitted work to its tenant and to the budget. -/
def charge (s : State) (t : Nat) (w : Rat) : State :=
  let s1 := s.setServe { s.serve with workNow := Tab.setSome s.serve.workNow t (Tab.get 0 s.serve.workNow t + w) }
  if s.regBit Reg.ADM_STATUS 30 then s1.setServe { s1.serve with budget := s.budgetNow - w, budgetAt := s.clk } else s1

/-- The home admits against its own quota, which a rebalancing renews (R326): the granules taken leave it. -/
def useQuota (s : State) (m n : Nat) : State :=
  match Tab.find? s.serve.quota m with
  | none => s
  | some v => s.setServe { s.serve with quota := Tab.setSome s.serve.quota m (v - n) }

/-- R336: can a variant fit once every unpinned one is evicted. -/
def variantFits (s : State) (id : Nat) : Bool :=
  match s.variantOf id with
  | none => true
  | some l =>
    if s.resident id then true
    else
      let pinned := s.serve.variants.filter fun v => s.variantPinned v.1
      let n := ceilDiv l.len (2 ^ 21)
      decide (pinned.length < 64) && decide ((pinned.map fun v => v.2.grans.length).sum + n ≤ s.regField Reg.SRV_VARGRAN 0 19)

/-- R328: the budget cannot pay for `w`: every queued item of a tenant at or above its share is refused. -/
def capRefuse (s : State) (w : Rat) : State :=
  let rate := 98 * s.serve.sust / 100
  let hint := if rate = 0 then 100000000 else min 100000000 ((w - s.budgetNow) * 100000000 / rate).ceil.toNat
  (s.serve.queue.filter fun x => !s.below x.tenant).foldl (fun s x => (s.unqueue x).refuseBusy x.tenant x.q x.seq hint true) s

/-- R271: does an allocation of `n` HBM granules by a tenant wait for granules that are free and not yet zeroed. -/
def zeroWaits (s : State) (t n : Nat) : Bool :=
  s.loft.dirty.any (fun d => decide (d.1 < 393216)) && decide (n ≤ s.regField Reg.MEM_FREE 0 19) &&
  decide (s.regField (Reg.TNT_GRANUSE t) 0 19 + n ≤ s.regField (Reg.TNT_GRANLIM t) 0 19)

/-- R325: one item of a placement pass. An item whose memory is not zeroed yet stays queued (R271). -/
def placeOne (s : State) (x : QItem) : State :=
  match s.itemOf x.tenant x.q x.seq with
  | none => s.unqueue x
  | some i =>
    if i.done.isSome then s.unqueue x
    else
      let b := Desc.body i.desc
      let resume := i.kind == 2
      let target := if resume then s.namedReq x.tenant b else none
      let t := x.tenant
      if resume && target.isNone then (s.unqueue x).finish t x.q x.seq { status := s.namedEnd t b }
      else if resume && !(target.any fun r => r.2.st == 4) then (s.unqueue x).finish t x.q x.seq { status := stMalformed }
      else
        let id := match target with | some r => r.2.model | none => keyOf t (Desc.model i.desc)
        match s.modelBars id (Desc.epoch i.desc) (Desc.adapter i.desc) resume with
        | some (st, hint) =>
          if st = stBusy then (s.unqueue x).refuseBusy t x.q x.seq hint false else (s.unqueue x).finish t x.q x.seq { status := st }
        | none =>
          match s.model? id with
          | none => s.unqueue x
          | some m =>
            let c := match target with | some r => r.2.context.length | none => 0
            let maxnew := if resume then fieldAt b 20 4 else fieldAt b 4 4
            let spilled := match target with
              | some r => ((s.serve.kv.filter fun k => k.slot == r.1 && (k.state == 2 || k.state == 3)).map (·.length)).sum
              | none => 0
            let p := s.predict id t c ((i.payload.getD []).length / 4) maxnew spilled
            if s.regBit Reg.ADM_STATUS 30 && decide (s.budgetNow < p.w) then s.capRefuse p.w
            else if (Desc.goalTtft i.desc != 0 && decide ((Desc.goalTtft i.desc : Rat) < p.ttft)) ||
                (Desc.goalTbt i.desc != 0 && decide ((Desc.goalTbt i.desc : Rat) < p.tbt)) ||
                (Desc.deadline i.desc != 0 && decide ((Desc.deadline i.desc : Rat) < (s.now : Rat) + 1000 * p.ttft)) then
              ((s.unqueue x).bump Reg.ADM_INFEAS 1).finish t x.q x.seq { status := stInfeasible }
            else if !s.variantFits id then ((s.unqueue x).bump Reg.ADM_NOMEM 1).finish t x.q x.seq { status := stNoMemory }
            else
              let s1 := s.unqueue x
              let made := match target with
                | some r => s1.admitResume m r.1 r.2 x.q i p.w
                | none => s1.admitNew m t x.q i p.w
              let n := s.granulesFor t (s.resvPages m (target.map Prod.fst) (c + (i.payload.getD []).length / 4) maxnew)
              match made with
              | some s2 => ((s2.bump Reg.ADM_ADMITTED 1).charge t p.w).useQuota id n
              | none =>
                if s.zeroWaits t n && (resume || (s.freeSlot t).isSome) then s
                else (s1.bump Reg.ADM_NOMEM 1).finish t x.q x.seq { status := stNoMemory }

/-- The item of a tenant that is taken first: highest prio, then acceptance order. -/
def firstItem (l : List QItem) (t : Nat) : Option QItem :=
  (l.filter fun x => x.tenant == t).foldl (fun b x =>
    match b with | none => some x | some y => if y.prio < x.prio || (y.prio == x.prio && x.order < y.order) then some x else b) none

/-- R325: weighted deficit order over the items of a pass, each taken once (log entry 15). R328: while the cap is engaged, items of tenants
below their share are taken first. -/
def passItems : Nat → List QItem → State → State
  | 0, _, s => s
  | fuel + 1, l, s =>
    let all := l.foldl (fun a x => insertNat x.tenant a) []
    let low := if s.regBit Reg.ADM_STATUS 30 then all.filter s.below else []
    let ts := if low.isEmpty then all else low
    let wt := fun t => (s.regField (Reg.TNT_POLICY t) 16 16 : Int)
    let tot := (ts.map wt).sum
    let d1 := ts.foldl (fun d t => Tab.setSome d t (Tab.get 0 d t + wt t)) s.serve.deficit
    match ts.foldl (fun b t => match b with
        | none => some t
        | some u => if Tab.get 0 d1 u < Tab.get 0 d1 t then some t else b) (none : Option Nat) with
    | none => s
    | some t =>
      match firstItem l t with
      | none => s
      | some x =>
        let s1 := s.setServe { s.serve with deficit := Tab.setSome d1 t (Tab.get 0 d1 t - tot) }
        passItems fuel (l.filter fun y => y.order != x.order) (if s1.serve.queue.any (fun y => y.order == x.order) then s1.placeOne x else s1)

end State

end Sys2Proof.Machine
end

