-- ==== Sys2Proof/Machine/Train.lean ====
section
/-! DEFINITION. Training steps (chapter 12): the item, micro-batches, the pipeline table, anchors, the clip scale, the
step report. -/

namespace Sys2Proof.Machine

/-! ### The step item (R344 to R347) -/

/-- R347: micro-batches, as (sequence index, length) in table order. `cur` is the open micro-batch, newest first. -/
def formMicros (tb : Nat) : List (Nat × Nat) → List Nat → Nat → List Micro
  | [], cur, used => if used > 0 then [{ seqs := cur.reverse, tokens := used, long := false }] else []
  | (q, len) :: rest, cur, used =>
    let open_ : List Micro := if used > 0 then [{ seqs := cur.reverse, tokens := used, long := false }] else []
    if tb < len then open_ ++ { seqs := [q], tokens := len, long := true } :: formMicros tb rest [] 0
    else if tb < used + len then open_ ++ formMicros tb rest [q] len
    else formMicros tb rest (q :: cur) (used + len)

/-- R345: the lengths of a sequence table. -/
def seqLens (tbl : List Byte) (n : Nat) : List (Nat × Nat) := (List.range n).map fun i => (i, fieldAt tbl (16 * i + 8) 4)

/-- R345: is every entry of a sequence table within its rules. -/
def seqTableOk (tbl : List Byte) (n tb : Nat) : Bool :=
  tbl.length == 16 * n && (List.range n).all fun i =>
    decide (1 ≤ fieldAt tbl (16 * i + 8) 4 ∧ fieldAt tbl (16 * i + 8) 4 ≤ 64 * tb) && fieldAt tbl (16 * i + 12) 4 == 0

/-- R344: the fields that the START item of a job fixes. -/
def stepFixed (b : List Byte) : List Nat :=
  [field (fieldAt b 4 2) 1 4, fieldAt b 64 4, fieldAt b 68 1, fieldAt b 88 2, fieldAt b 90 1, fieldAt b 91 1]

/-- R344: data-parallel width D for a model's member set, none where it is not whole. -/
def stepWidth (m : Model) (b : List Byte) : Option Nat :=
  let n := m.members.length
  let k := fieldAt b 88 2 * fieldAt b 91 1
  if k ≠ 0 && n % k = 0 && n ≠ 0 then some (n / k) else none

/-- R344: is a body within its rules for a model. -/
def stepBodyOk (m : Model) (b : List Byte) : Bool :=
  let f := fieldAt b
  let ai := signedOf 16 (f 6 2)
  decide (f 0 4 ≠ 0) && decide (f 4 2 < 32) && decide (-512 ≤ ai ∧ ai ≤ 511) && decide (1 ≤ f 8 8 ∧ f 8 8 < 2 ^ 63) &&
  decide (1 ≤ f 16 4 ∧ f 16 4 ≤ 65536) && f 20 4 % 64 == 0 && decide (1024 ≤ f 20 4 ∧ f 20 4 ≤ 1048576) &&
  decide (1 ≤ f 64 4 ∧ f 64 4 ≤ 10000) && decide (f 68 1 ≤ 32) && f 69 3 == 0 && decide (1 ≤ f 88 2 ∧ f 88 2 ≤ 256) &&
  decide (1 ≤ f 90 1 ∧ f 90 1 ≤ 8) && (f 91 1 ∈ [1, 2, 4, 8] : Bool) && f 92 4 == 0 &&
  (!tbit (f 4 2) 3 || f 60 4 == 0) && (stepWidth m b).isSome && decide (f 90 1 * f 88 2 ≤ Config.layerCount m.desc)

/-- R347, R348: the step of a body and its sequence table. -/
def stepOf (submit : Option (Nat × Nat × Nat)) (seed : Nat) (b tbl : List Byte) : StepItem :=
  let ms := formMicros (fieldAt b 20 4) (seqLens tbl (fieldAt b 16 4)) [] 0
  { submit := submit, p := fieldAt b 8 8, body := b, seed := seed, micros := ms, total := (ms.map (·.tokens)).sum }

/-- R347, R349: the chunks of a micro-batch along the sequence. -/
def Micro.chunks (x : Micro) (tb : Nat) : Nat := if x.long then ceilDiv x.tokens tb else 1

/-- R348, R349: the first global token index of chunk `c` of micro-batch `mb`, and the tokens of that unit. -/
def StepItem.unit (x : StepItem) (mb c : Nat) : Nat × Nat :=
  let tb := fieldAt x.body 20 4
  let m := x.micros.getD mb { seqs := [], tokens := 0, long := false }
  (((x.micros.take mb).map (·.tokens)).sum + c * tb, if m.long then min tb (m.tokens - c * tb) else m.tokens)

/-- R352: does unit `a` run forward before unit `b` in a virtual stage: the chunks of long micro-batches first. -/
def StepItem.before (x : StepItem) (a b : PipeEnt) : Bool :=
  let long := fun e : PipeEnt => (x.micros[e.mb]?).any (·.long)
  if long a == long b then decide (a.mb < b.mb ∨ (a.mb = b.mb ∧ a.chunk < b.chunk)) else long a

/-- R352, R349: are the units of a plan those of one replica of `d`, each a chunk that its micro-batch has. -/
def StepItem.unitsOk (x : StepItem) (d : Nat) (es : List PipeEnt) : Bool :=
  let us := es.filter fun e => e.action == 1 || e.action == 2
  us.all fun e => (x.micros[e.mb]?).any (fun m => decide (e.chunk < m.chunks (fieldAt x.body 20 4))) && e.mb % d == (us.head?.elim 0 (·.mb)) % d

/-- R346: the number that the next item of a job must carry: one more than the last completed or accepted one. -/
def Job.nextStep (j : Job) : Nat := match j.waiting.getLast?, j.run with
  | some x, _ => x.p + 1
  | none, some x => x.p + 1
  | none, none => j.last + 1

/-- R346: the state that a START creates. -/
def startJob (t model : Nat) (m : Model) (b : List Byte) : Job :=
  { tenant := t, model := model, fixed := stepFixed b, last := fieldAt b 8 8 - 1
    anchors := List.replicate m.tensors.length (signedOf 16 (fieldAt b 6 2)) }

/-- Is a START of the job still to come among the accepted items. -/
def startBit (b : List Byte) : Bool := tbit (fieldAt b 4 2) 0

/-- R344, R346: accept a step item, or end it with its status. `fits`: the held attention state and activations fit the
free HBM of every member (R349). -/
def trainStep (fits : Bool) (t q : Nat) (s : State) (i : Item) : State :=
  let d := i.desc
  let b := Desc.body d
  let bad := fun s : State => s.finish t q i.seq { status := stMalformed }
  match s.model? (State.keyOf t (Desc.model d)) with
  | none => bad s
  | some m =>
    let f := fieldAt b
    let tbl := i.payload.getD []
    let x := stepOf (some (t, q, i.seq)) (Desc.seed d) b tbl
    if m.tenant != t || m.kind != 1 || !m.members.elem (s.roleOf t) || Desc.adapter d != 0 || Desc.epoch d != 0 || Desc.fmt d != 0 ||
      Desc.fmtSet d || !stepBodyOk m b || !seqTableOk tbl (f 16 4) (f 20 4) || decide (4096 < x.micros.length) then bad s
    else if m.gen then s.finishBusy t q i.seq (s.commitHint (State.keyOf t (Desc.model d)) 1)
    else
      let put := fun (s : State) (j : Job) =>
        if j.broken && !startBit b && !j.waiting.any (fun y => startBit y.body) then s.finish t q i.seq { status := stFault }
        else if !fits then s.finish t q i.seq { status := stNoMemory }
        else (s.setJob (State.keyOf t (f 0 4)) { j with waiting := j.waiting ++ [x] }).emit (.toManager (s.roleOf t) (d ++ tbl))
      match Tab.find? s.train.jobs (State.keyOf t (f 0 4)), startBit b with
      | none, false => bad s
      | none, true => put s (startJob t (State.keyOf t (Desc.model d)) m b)
      | some j, true => if j.tenant != t then bad s else put s j
      | some j, false =>
        if j.tenant != t || j.model != State.keyOf t (Desc.model d) || (match j.waiting.getLast? with
            | some y => stepFixed y.body != stepFixed b
            | none => j.fixed != stepFixed b) || j.nextStep != f 8 8 then bad s
        else put s j

/-- R344, R297: TRAIN_STEP. While the model drains toward generation, accepted items are held. -/
def execTrainStep (t q : Nat) (fits : Bool) (s : State) : Result :=
  let s1 := s.takeRow t q 0x10
  .next (match State.startable t 0x10 [] (s1.hq t q).items with
    | none => s1
    | some i =>
      if (s1.model? (State.keyOf t (Desc.model i.desc))).any (·.holdTrain) then s1
      else trainStep fits t q (s1.updItem t q i.seq fun x => { x with started := true }) i)

/-! ### Layer chunks and attention (R350, R351) -/

/-- R351: the first layer of layer chunk `j` of `n`, and how many layers it has: the first chunks take one more. -/
def layersOf (layers n j : Nat) : Nat × Nat :=
  (j * (layers / n) + min j (layers % n), layers / n + bit (decide (j < layers % n)))

/-- R351: is a member's part of a product one that the rule allows at tensor-parallel width `w`: a run of columns of the stationary
operand, or of K between multiples of 256. A tensor's rows are the columns of the operand, its columns are K (log entry 109). -/
def TensorPart.ok (m : Model) (w : Nat) (p : TensorPart) : Bool :=
  match m.tensors.find? fun t => t.id == p.tensor with
  | none => false
  | some t =>
    let dim := if p.byK then t.cols else t.rows
    let e := p.lo + p.n
    decide (1 ≤ p.n ∧ e ≤ dim) && (w != 1 || decide (p.n = dim)) && (!p.byK || (p.lo % 256 == 0 && (e % 256 == 0 || e == dim)))

/-- R350: a running maximum, sum and weighted output of a query. -/
structure AttRun where
  m : Word32
  l : Word32
  o : List Word32
  deriving DecidableEq, Repr

/-- R350: a block of keys, each with its score and its value row, is taken: what was there is rescaled with EXP to the new maximum. In
the block the keys go one after the other (log entry 109). -/
def AttRun.take (r : Option AttRun) (b : List (Word32 × List Word32)) : Option AttRun :=
  match b, r with
  | [], _ => r
  | x :: xs, r =>
    let top := xs.foldl (fun m y => fmax m y.1) x.1
    let r0 : AttRun := match r with
      | none => { m := top, l := F32.zero, o := x.2.map fun _ => F32.zero }
      | some r =>
        let m := fmax r.m top
        let c := fexp (fsub r.m m)
        { m := m, l := fmul r.l c, o := r.o.map fun v => fmul v c }
    some ((x :: xs).foldl (fun r y =>
      let p := fexp (fsub y.1 r.m)
      { r with l := fadd r.l p, o := List.zipWith (fun o v => ffma p v o) r.o y.2 }) r0)

/-- R350: attention of one query over its keys in increasing position, in blocks of 64. -/
def attend (keys : List (Word32 × List Word32)) : List Word32 :=
  match (List.range (ceilDiv keys.length 64)).foldl (fun r i => AttRun.take r ((keys.drop (64 * i)).take 64)) none with
  | none => []
  | some r => r.o.map fun v => fdiv v r.l

/-! ### The pipeline table (R354, R355) -/

/-- R354: an entry of the table. -/
def pipeEnt (b : List Byte) : PipeEnt :=
  let f := fieldAt b
  { offset := f 0 8, action := f 8 1, vstage := f 9 1, chunk := f 10 1, mb := f 12 2, lchunk := f 14 2, slot := f 16 4 }

/-- The entries of a table. -/
def pipeEnts (table : List Byte) : List PipeEnt := (List.range (table.length / 32)).map fun i => pipeEnt (sliceBytes table (32 * i) 32)

/-- R351: does a member's plan keep to the rule: layer chunk j on stage j mod S, the same one for all of a member's work, as virtual stage
j / S; every part of a product one of those allowed. -/
def planOk (m : Model) (b : List Byte) (es : List PipeEnt) (parts : List TensorPart) : Bool :=
  let st := fieldAt b 88 2
  let work := es.filter fun e => decide (e.action ≤ 2)
  (work.all fun e => decide (e.lchunk < st * fieldAt b 90 1) && e.vstage == e.lchunk / st && e.lchunk % st == (work.head?.elim 0 (·.lchunk)) % st) &&
  parts.all fun p => p.ok m (fieldAt b 91 1)

namespace State

def job? (s : State) (k : Nat) : Option Job := Tab.find? s.train.jobs k

/-- The job and its running step. -/
def stepRun (s : State) (k : Nat) : Option (Job × StepItem) := (s.job? k).bind fun j => j.run.map fun x => (j, x)

/-- Write the running step back. -/
def putStep (s : State) (k : Nat) (x : StepItem) : State :=
  match s.job? k with
  | none => s
  | some j => s.setJob k { j with run := some x }

/-- R362, R364: the step whose UPDATE and DONE entries come next: the one before the running step while it still updates. -/
def closing (s : State) (k : Nat) : Option (Job × StepItem) := (s.job? k).bind fun j => (j.tail.or j.run).map fun x => (j, x)

/-- Write that step back. -/
def putClosing (s : State) (k : Nat) (x : StepItem) : State :=
  match s.job? k with
  | none => s
  | some j => s.setJob k (if j.tail.isSome then { j with tail := some x } else { j with run := some x })

end State

/-- The next entry with an action that is not begun and that its order allows, if it is due (R355). -/
def dueEntry (s : State) (x : StepItem) (act : Nat) (ok : PipeEnt → Bool := fun _ => true) : Option PipeEnt :=
  match x.t0, x.table.find? fun e => e.action == act && !x.begun.elem e && ok e with
  | some t0, some e => if t0 + e.offset ≤ s.now then some e else none
  | _, _ => none

/-- R362: is the result of NORM here, so that only updates are left and the next step's forward may begin. -/
def StepItem.normed (x : StepItem) : Bool := x.maxima.isSome && (tbit (fieldAt x.body 4 2) 3 || x.norm.isSome)

/-- R362: is the step before done with the updates of a layer chunk. -/
def Job.updated (j : Job) (lchunk : Nat) : Bool :=
  j.tail.all fun x => x.table.all fun g => g.action != 4 || g.lchunk != lchunk || x.begun.elem g

/-- R354: PIPELINE: at first the stage manager's plan arrives: descriptor, sequence table, pipeline table for the shared SRAM of base
die 0, and the cue at t0 is written. When the cue is taken the step begins, unless its model drains toward generation (R297); the
updates of the step before may still run (R362; log entry 112). -/
def execPipeline (job tenant model t0 addr : Nat) (desc tbl table : List Byte) (parts : List TensorPart) (s : State) : Result :=
  let known := s.time.cues.any fun c => c.action == cuePipeline && c.arg == addr && c.role == s.roleAt job
  let n := table.length
  let okAddr := decide (State.sramBase ≤ addr ∧ addr + n ≤ State.sramBase + 2 ^ 28 ∧ n ≤ 65536 * 32 ∧ n % 32 = 0)
  let fits := (s.model? model).any fun m => planOk m (Desc.body desc) (pipeEnts table) parts &&
    (stepOf none 0 (Desc.body desc) tbl).unitsOk ((stepWidth m (Desc.body desc)).getD 1) (pipeEnts table)
  let s0 := if known || !okAddr || !fits then some s else (s.addCue t0 cuePipeline 2 0 (s.roleAt job) addr).map fun s1 => s1.writeBytes addr table
  match s0 with
  | none => .next s
  | some s1 =>
    match s1.takeCue cuePipeline 0 addr (some (s.roleAt job)), s1.model? model with
    | some s2, some m =>
      let b := Desc.body desc
      let own := (s2.job? job).bind fun j => j.waiting.head?
      let x := stepOf (own.bind (·.submit)) (Desc.seed desc) b tbl
      let ents := (List.range (table.length / 32)).map fun i => pipeEnt (s2.readN (addr + 32 * i) 32)
      let j := match s2.job? job with
        | none => startJob tenant model m b
        | some j => if startBit b then { startJob tenant model m b with waiting := j.waiting } else j
      if j.tail.isSome || ((s2.job? job).bind (·.run)).any (fun r => startBit b || !r.normed) then .next s
      else if m.holdTrain then .next s2
      else .next (s2.setJob job { j with tail := j.run, run := some { x with t0 := some t0, table := ents, parts := if fits then parts else [] }, waiting := j.waiting.drop 1 })
    | _, _ => .next s1

/-- R152, R362: the parameter block of VX.ADAM: the body's values, the clip scale, a working copy rounded as SRWORK says. -/
def adamWords (body : List Byte) (scale : Word32) : List Word32 :=
  let f := fun o => BitVec.ofNat 32 (fieldAt body o 4)
  [scale, f 32, f 36, f 40, f 44, f 48, f 52, f 56, f 24, f 28, BitVec.ofNat 32 (1 + 8 * bit (tbit (fieldAt body 4 2) 4)), 0#32]

/-- What the cores are to do for an entry. -/
def workOf (s : State) (job : Nat) (j : Job) (x : StepItem) (e : PipeEnt) (att : List (List Word32)) : TrainWork :=
  let b := x.body
  let chunks := fieldAt b 88 2 * fieldAt b 90 1
  let layers := match s.model? j.model with
    | none => (0, 0)
    | some m => layersOf (Config.layerCount m.desc) chunks e.lchunk
  let u := x.unit e.mb e.chunk
  { job := job, ent := e, layer := layers.1, layers := layers.2, parts := x.parts, first := u.1, tokens := u.2, att := att
    seed := x.seed, stream := x.p % 2 ^ 22 * 1024 + (if e.action = 4 then 1023 else 0)
    routine := if e.action = 1 ∧ e.lchunk + 1 = chunks then some (fieldAt b 80 8) else none
    anchors := if e.action = 2 && !tbit (fieldAt b 4 2) 2 then j.anchors else []
    block := if e.action = 4 then adamWords b (x.norm.elim F32.one (·.2.1)) else []
    keep := e.action == 4 && tbit (fieldAt b 4 2) 3 }

/-- Start an entry that names work on the cores. -/
def startWork (s : State) (job : Nat) (j : Job) (x : StepItem) (e : PipeEnt) (att : List (List Word32) := []) : State :=
  (s.putStep job { x with begun := e :: x.begun }).emit (.work (workOf s job j x e att))

/-- GATHER, FWD and BWD: the next entry that its order allows, once it is due. -/
def startEntry (act : Nat) (ok : Job → StepItem → PipeEnt → Bool) (job : Nat) (s : State) (att : List (List Word32) := []) : State :=
  match s.stepRun job with
  | none => s
  | some (j, x) =>
    match dueEntry s x act (ok j x) with
    | none => s
    | some e => startWork s job j x e att

/-- R353, R355: GATHER fetches the working copies of a layer chunk, once the step before has updated them (R362). -/
def execGather (job : Nat) (s : State) : Result := .next (startEntry 0 (fun j _ e => j.updated e.lchunk) job s)

/-- R352, R349, R353: may a forward unit run: its layer chunk is gathered, and every unit before it in the virtual stage has run. -/
def StepItem.forward (x : StepItem) (e : PipeEnt) : Bool :=
  (x.begun.any fun g => g.action == 0 && g.lchunk == e.lchunk) &&
  x.table.all fun g => g.action != 1 || g.vstage != e.vstage || !x.before g e || x.begun.elem g

/-- R352, R349, R353: FWD. `att`: the keys of each attention query of the unit, each with its score and its value row; none lies behind
the unit's last position (R350). -/
def execFwd (job : Nat) (att : List (List (Word32 × List Word32))) (s : State) : Result :=
  .next (startEntry 1 (fun _ x e => (att.all fun q => decide (q.length ≤ (e.chunk + 1) * fieldAt x.body 20 4)) && x.forward e) job s (att.map attend))

/-- R352, R349: BWD. A unit's backward follows its forward; chunks of a micro-batch run in decreasing order. -/
def execBwd (job : Nat) (s : State) : Result :=
  .next (startEntry 2 (fun _ x e =>
    (x.begun.any fun g => g.action == 1 && g.lchunk == e.lchunk && g.mb == e.mb && g.chunk == e.chunk) &&
    !(x.table.any fun g => g.action == 2 && g.lchunk == e.lchunk && g.mb == e.mb && e.chunk < g.chunk && !x.begun.elem g)) job s)

/-- R362, R363, R298 (no work that writes a sealed page): UPDATE of a layer chunk, in increasing order. With EARLY it follows the
chunk's reduction, otherwise NORM; a skipped step updates nothing. -/
def execUpdateEntry (job : Nat) (s : State) : Result :=
  match s.closing job with
  | none => .next s
  | some (j, x) =>
    match dueEntry s x 4 with
    | none => .next s
    | some e =>
      let early := tbit (fieldAt x.body 4 2) 3
      let inOrder := !(x.table.any fun g => g.action == 4 && g.lchunk < e.lchunk && !x.begun.elem g)
      let ready := if early then (Tab.find? x.masks e.lchunk).isSome else x.norm.isSome && x.maxima.isSome
      let s1 := s.putClosing job { x with begun := e :: x.begun }
      if !inOrder || !ready then .next s
      else if x.skipped then .next s1
      else if s.curtain.runs.any fun c => c.2.model == j.model && !c.2.sealed.isEmpty then .next s
      else .next (s1.emit (.work (workOf s job j x e [])))

/-! ### Anchors and the clip scale (R357, R361) -/

/-- ⌈log2 n⌉. -/
def clog2 (n : Nat) : Nat := if n ≤ 1 then 0 else Nat.log2 (n - 1) + 1

/-- R357: the anchor of a tensor after a step. -/
def nextAnchor (a : Int) (e : Option Int) (tn h : Nat) (skipped : Bool) : Int :=
  if skipped then clampInt (-512) 511 (a + 8)
  else match e with
    | none => a
    | some e => clampInt (-512) 511 (e + clog2 tn + h)

/-- R361: the clip scale. -/
def clipScale (maxnorm n2 : Word32) : Word32 :=
  if maxnorm == F32.zero || isZero32 n2 then F32.one else fmin F32.one (fdiv maxnorm (fsqrt n2))

/-- R361: the anchor of the sum of squares. -/
def normAnchor (anchors : List Int) (params : Nat) : Int :=
  clampInt (-512) 511 (2 * anchors.foldl max (-512) + 1 + clog2 params)

/-! ### What an owner holds of a gradient (R356, R357, R361) -/

/-- R356: a reduced chunk as FP32 (R65); in normal mode it is FP32 already. -/
def gradOf (lchunk tensor : Nat) (exact : Bool) (bs : List Byte) : Grad :=
  if exact then
    let l := erfBlocks bs
    { lchunk := lchunk, tensor := tensor, sat := l.any (·.sat), nan := l.any (·.nan)
      vals := l.flatMap fun b => (List.range b.vals.length).map fun i => f32 (b.val i) }
  else { lchunk := lchunk, tensor := tensor, vals := bytesWords bs }

/-- R361: this owner's part of the sum of squares: VX.RDOT, exact on the anchor, with SAT and NAN of its gradient blocks. -/
def normPart (a : Int) (gs : List Grad) : Erf :=
  let ts := (gs.flatMap (·.vals)).map fun w => toGrid a (Num.mul (f32Val w) (f32Val w))
  let t := (ts.map (·.1)).sum
  let v := clampInt (-gridMax) gridMax t
  { Erf.zero a with count := 1, vals := v :: List.replicate 31 0
                    sat := (gs.any (·.sat)) || ts.any (·.2.1) || decide (v ≠ t), nan := (gs.any (·.nan)) || ts.any (·.2.2) }

/-- R357: the exponent of this owner's largest gradient of a tensor, over finite values, as INT32; -2^31 where none is nonzero (log
entry 16). -/
def gradExp (gs : List Grad) (tensor : Nat) : Word32 :=
  match amaxExp ((gs.filter fun g => g.tensor == tensor).flatMap fun g => g.vals.map f32Val) with
  | none => BitVec.ofNat 32 (2 ^ 31)
  | some e => BitVec.ofInt 32 e

namespace State

/-- R357, R361: once the NORM slot's results are complete: every anchor. With EARLY the maxima alone (R363). -/
def normReady (s : State) (k : Nat) : State :=
  match s.stepRun k with
  | none => s
  | some (j, x) =>
    let early := tbit (fieldAt x.body 4 2) 3
    match x.maxima with
    | none => s
    | some es =>
      if !early && x.norm.isNone then s
      else
        let skipped := !early && x.norm.any fun n => n.2.2 != 0
        let tn := x.tnext.getD ((j.waiting.head?.map (·.total)).getD x.total)
        let as := j.anchors.mapIdx fun i a => nextAnchor a (es.getD i none) tn (fieldAt x.body 68 1) skipped
        s.setJob k { j with anchors := as, run := some { x with skipped := skipped } }

/-- The reduced sum of squares (R361) with its flags: SAT (1) and NAN (2). -/
def takeSum (s : State) (k : Nat) (n2 : Word32) (flags : Nat) : State :=
  match s.stepRun k with
  | none => s
  | some (_, x) =>
    (s.putStep k { x with norm := some (n2, clipScale (BitVec.ofNat 32 (fieldAt x.body 60 4)) n2, flags) }).normReady k

/-- The exponent maxima (R357), as INT32; -2^31 stands for an all-zero gradient (log entry 16). -/
def takeMaxima (s : State) (k : Nat) (ws : List Nat) : State :=
  match s.stepRun k with
  | none => s
  | some (_, x) =>
    (s.putStep k { x with maxima := some (ws.map fun w => if w = 2 ^ 31 then none else some (signedOf 32 w)) }).normReady k

/-- R359: the inclusion mask of a step from the ranks included: bit m of M. -/
def microMask (reps : List Nat) (d m : Nat) (mask : List Bool) : List Bool :=
  (List.range m).map fun i => (reps.zip mask).all fun r => r.1 != i % d || r.2

/-- The micro-batches of a replica. -/
def microsOf (d m r : Nat) : List Nat := (List.range m).filter fun i => i % d == r

/-- R359, R360: a gradient reduction has its mask. `me` is this module's replica, where it took part; `own` its blocks. -/
def takeMask (s : State) (k lchunk tensor : Nat) (reps : List Nat) (mask : List Bool) (me : Option (Nat × Bool)) (own : List Erf) : State :=
  match s.stepRun k with
  | none => s
  | some (j, x) =>
    let m := x.micros.length
    let d := reps.foldl max 0 + 1
    let bits := microMask reps d m mask
    let old := Tab.get bits x.masks lchunk
    let x1 := { x with masks := Tab.setSome x.masks lchunk (List.zipWith (· && ·) old bits) }
    let held := j.credit.filter fun c => c.lchunk == lchunk && c.tensor == tensor
    let others := j.credit.filter fun c => !(c.lchunk == lchunk && c.tensor == tensor)
    match me with
    | none => s.putStep k x1
    | some (_, true) =>
      let used := held.flatMap fun c => c.parts.map fun p => (c.lchunk, p.1, (List.range m).map p.2.elem)
      s.setJob k { j with credit := others, run := some { x1 with used := x1.used ++ used } }
    | some (r, false) =>
      if !tbit (fieldAt x.body 4 2) 1 || own.isEmpty then s.setJob k { j with credit := others, run := some x1 }
      else
        let c : Credit := { lchunk := lchunk, tensor := tensor, a0 := (own.head?.map (·.anchor)).getD 0, blocks := own
                            parts := (0, microsOf d m r) :: held.flatMap (·.parts) }
        s.setJob k { j with credit := others ++ [c], run := some x1 }

/-- R360: credit moved from its anchor to a new one, value by value. -/
def moveCredit (a1 : Int) (b : Erf) : Erf :=
  let up := (b.anchor - a1).toNat
  let moved := b.vals.map fun v => if b.anchor ≤ a1 then v.tdiv (2 ^ (a1 - b.anchor).toNat) else v * 2 ^ up
  { b with anchor := a1, sat := b.sat || moved.any (fun v => decide (v.natAbs > 2 ^ 63 - 1)), vals := moved.map (clampInt (-gridMax) gridMax) }

/-- R360: a contribution with the credit that the replica holds for its collective. -/
def withCredit (s : State) (k lchunk tensor : Nat) (anchor : Int) (own : List Erf) : List Erf :=
  match s.job? k with
  | none => own
  | some j => (j.credit.filter fun c => c.lchunk == lchunk && c.tensor == tensor).foldl (fun o c =>
      List.zipWith Erf.add o (c.blocks.map (moveCredit anchor))) own

/-! ### The end of a step (R364, R365) -/

/-- R365: the mask of an entry in whole multiples of 8 bytes. -/
def maskBytes (m : List Bool) : List Byte :=
  leBytes (8 * ceilDiv m.length 64) (m.foldr (fun b n => bit b + 2 * n) 0)

def reportEntry (e : Nat × Nat × List Bool) : List Byte := leBytes 2 e.1 ++ zeros 2 ++ leBytes 4 e.2.1 ++ maskBytes e.2.2

/-- R365: the entries of a report: exclusions, then credit. -/
def stepEntries (x : StepItem) : List (Nat × Nat × List Bool) × List (Nat × Nat × List Bool) :=
  let own := (x.masks.filter fun m => m.2.any (!·)).map fun m => (m.1, 0, m.2)
  (own ++ x.others.filter (fun e => e.2.1 == 0), x.used ++ x.others.filter fun e => e.2.1 != 0)

/-- R365: the step report. -/
def stepReport (x : StepItem) (doneAt : Nat) : List Byte :=
  let e := stepEntries x
  let n := x.norm.getD (F32.zero, F32.one, 0)
  leBytes 4 (fieldAt x.body 0 4) ++ leBytes 2 x.micros.length ++ leBytes 2 (bit x.skipped + 2 * n.2.2) ++ leBytes 8 x.p ++
  leBytes 8 x.total ++ leBytes 4 n.1.toNat ++ leBytes 4 n.2.1.toNat ++ leBytes 2 e.1.length ++ leBytes 2 e.2.length ++ zeros 4 ++
  leBytes 8 (x.t0.getD 0) ++ leBytes 8 doneAt ++ zeros 8 ++ (e.1 ++ e.2).flatMap reportEntry

/-- R364: are this member's updates complete: every UPDATE entry begun, and the result of NORM there. -/
def updatesDone (x : StepItem) : Bool :=
  x.maxima.isSome && x.table.all fun e => e.action != 4 || x.begun.elem e

/-- R356: this owner's reduced chunk of a gradient. -/
def takeGrad (s : State) (k : Nat) (g : Grad) : State :=
  match s.stepRun k with
  | none => s
  | some (_, x) => s.putStep k { x with grads := g :: x.grads.filter fun y => !(y.lchunk == g.lchunk && y.tensor == g.tensor) }

/-- R364: the DONE mask. When it is full the step is complete; the submitting module writes report and completion. A
member whose updates faulted breaks the job. -/
def endStep (s : State) (k : Nat) (full : Bool) : State :=
  match s.closing k with
  | none => s
  | some (j, x) =>
    if !full then s.jobFault k j { status := stFault }
    else
      let e := stepEntries x
      let s1 := s.setJob k { j with last := x.p, tail := none, run := if j.tail.isSome then j.run else none, credit := j.credit.map fun c => { c with parts := c.parts.map fun p => (p.1 + 1, p.2) } }
      match x.submit with
      | none => s1
      | some (t, q, seq) =>
        let ref := fieldAt x.body 72 8
        let s2 := s1.regionWrite t (refRegion ref) (refOff ref) (stepReport x s.now) (.results t q seq)
        s2.endRef x.submit { status := stOk, detail := bit x.skipped + 2 * bit (!e.1.isEmpty) + 4 * bit (!e.2.isEmpty) }

end State

end Sys2Proof.Machine
end

