-- ==== Sys2Proof/Machine/CollOps.lean ====
section
/-! DEFINITION. What the rows of collectives share (chapter 14): plans and chunks, what each step sends (R410), the
combination of contributions (R409, R413), masks (R412), the end of a collective. -/

namespace Sys2Proof.Machine

/-! ### Plans -/

namespace CollPlan

/-- R405: the members by rank. -/
def members (p : CollPlan) : List Nat := p.group.foldl (fun l x => insertNat x l) []
def size (p : CollPlan) : Nat := p.members.length
def rankOf (p : CollPlan) (m : Nat) : Option Nat := p.members.idxOf? m
def member (p : CollPlan) (r : Nat) : Nat := p.members.getD r 0
/-- A rank, mod N. -/
def wrap (p : CollPlan) (r : Int) : Nat := (r % (p.size : Int)).toNat

def isSum (p : CollPlan) : Bool := p.op == 1 || p.op == 2

/-- Bytes of one unit, and units of a contribution (R404, R406). -/
def unitLen (p : CollPlan) : Nat := if p.op = 1 then 264 else if p.op = 2 || p.op = 3 then 4 else if p.op = 7 then p.recSize else 1
def units (p : CollPlan) : Nat := if p.op = 1 then ceilDiv p.count 32 else p.count

/-- R406: the byte range of chunk `c`: start and length. Only sums have chunks of one contribution. -/
def span (p : CollPlan) (c : Nat) : Nat × Nat :=
  if p.isSum then
    let o := p.owners.getD c (c * p.units / p.size, (c + 1) * p.units / p.size)
    (o.1 * p.unitLen, (o.2 - o.1) * p.unitLen)
  else (0, p.units * p.unitLen)

/-- Steps of the first phase and of the GATHER phase (R408, R410). -/
def steps (p : CollPlan) : Nat :=
  if p.isSum then (if p.algo = 3 then p.size - 1 else if p.algo = 4 then Nat.log2 p.size else 1)
  else if p.op = 5 then 0 else 1
def gatherSteps (p : CollPlan) : Nat :=
  let a := if p.op = 5 then p.algo else p.gather
  if p.op = 5 || (p.isSum && p.all) then (if a = 3 then p.size - 1 else if a = 4 || a = 6 then Nat.log2 p.size else 1) else 0
def gatherAlgo (p : CollPlan) : Nat := if p.op = 5 then p.algo else p.gather

/-- R407: the algorithm of an operation without GATHER phase, for contributions of `n` bytes, with or without a tolerance, where switches
may aggregate (`agg`). A BROADCAST of 65,536 bytes or more goes down a chain, 7 (R408). -/
def chosenAlgo (op n size : Nat) (tol agg : Bool) : Nat :=
  if op = 4 || op = 3 then 1
  else if op = 1 && agg then 5
  else if n < 65536 then 2
  else if op = 1 && tol then 3
  else if (op = 2 || op = 7) && tol then 2
  else if op = 6 then 7
  else if (op = 1 || op = 2 || op = 5) && size == 2 ^ Nat.log2 size then 4
  else 3

/-- R407, R408: the plan with the algorithms that this stage manager chooses: `planes` and `kib` are COL_AGGCFG.PLANES and
COL_AGGTHR.KIB. The GATHER of an all-reduce is chosen by its first chunk (log entry 113). -/
def choose (p : CollPlan) (planes kib : Nat) : CollPlan :=
  let n := p.units * p.unitLen
  let g := chosenAlgo 5 (p.span 0).2 p.size false false
  { p with algo := chosenAlgo p.op n p.size p.tol.isSome (planes != 0 && kib != 0 && decide (1024 * kib < n)), gather := if g = 4 then 6 else g }

/-- R404 to R406, R421: is a plan one that the rules allow. -/
def ok (p : CollPlan) : Bool :=
  decide (1 ≤ p.op ∧ p.op ≤ 7 ∧ 2 ≤ p.size ∧ p.size ≤ 8192) && decide p.group.Nodup && p.group.elem p.conductor &&
  p.cid / 2 ^ 51 == p.conductor && (p.tol.isNone || (p.op != 3 && p.op != 5 && p.op != 6)) &&
  (p.op != 7 || (p.recSize % 4 == 0 && decide (4 ≤ p.recSize ∧ p.recSize ≤ 65536))) &&
  p.owners.all fun o => decide (o.1 ≤ o.2 ∧ o.2 ≤ p.units)

/-- R417: a ring with a tolerance has a redo slot. -/
def redoSlots (p : CollPlan) : Nat := if p.isSum && p.algo = 3 && p.tol.isSome then 1 else 0

/-- R410: the deadline of a step of the first phase, none without a tolerance. -/
def deadline (p : CollPlan) (k : Nat) : Option Nat :=
  p.tol.map fun t => let x := p.slots.getD (k - 1) (0, 0); x.1 + x.2 + t

end CollPlan

/-- ERF blocks of a payload. -/
def erfsOf (b : List Byte) : List Erf := erfBlocks b
def erfBytes (l : List Erf) : List Byte := l.flatMap fun x => wordBytes x.words

/-- Two contributions combined: R62 for ERF blocks, one FP32 addition for normal-mode values, MAX (R128). -/
def combine (p : CollPlan) (a b : List Byte) : List Byte :=
  if p.op = 1 then erfBytes (List.zipWith Erf.add (erfsOf a) (erfsOf b))
  else
    let f := fun x y : Word32 => if p.op = 2 then fadd x y else if p.int then (if x.toInt < y.toInt then y else x) else fmax x y
    wordBytes (List.zipWith f (bytesWords a) (bytesWords b))

/-- R416: blocks subtracted value by value on the integers; the count of the difference is 1. -/
def erfMinus (a b : Erf) : Erf := { a with sat := false, nan := false, excl := false, count := 1, vals := List.zipWith (fun x y => clampInt (-gridMax) gridMax (x - y)) a.vals b.vals }

/-- R416: a withdrawal at the owner: values subtracted, saturating and setting SAT, and the count. -/
def erfWithdraw (a d : Erf) : Erf :=
  { a with sat := a.sat || (List.zipWith (fun x y => decide ((x - y).natAbs > 2 ^ 63 - 1)) a.vals d.vals).any id
           count := a.count - d.count, vals := List.zipWith (fun x y => clampInt (-gridMax) gridMax (x - y)) a.vals d.vals }

/-- The bytes of a block, once all of them are here. -/
def CollBlock.bytes? (b : CollBlock) : Option (List Byte) :=
  match b.total with
  | none => none
  | some n =>
    let all := b.parts.foldl (fun (r : Option (List Byte)) x => match r with
      | none => none
      | some l => if x.1 = l.length then some (l ++ x.2) else none) (some [])
    all.filter fun l => l.length == n

namespace CollRun

/-- This member's rank. -/
def rank (c : CollRun) : Nat := (c.plan.rankOf c.role).getD 0

/-- A block that has arrived. -/
def block (c : CollRun) (step chunk rank : Nat) : Option (List Byte) :=
  (c.got.find? fun b => b.step == step && b.chunk == chunk && b.rank == rank).bind CollBlock.bytes?

/-- This member's contribution to chunk `k`. -/
def ownChunk (c : CollRun) (k : Nat) : Option (List Byte) := c.own.map fun o => let x := c.plan.span k; sliceBytes o x.1 x.2

/-- R413: is a rank included. -/
def included (c : CollRun) (r : Nat) : Bool := match c.mask with | none => true | some m => m.getD r false

/-- Put a frame's bytes into a list of blocks. -/
def putPart (l : List CollBlock) (step chunk rank off : Nat) (bs : List Byte) (last : Bool) : List CollBlock :=
  let is := fun b : CollBlock => b.step == step && b.chunk == chunk && b.rank == rank
  let old := (l.find? is).getD { step := step, chunk := chunk, rank := rank, parts := [] }
  { old with parts := Tab.setSome old.parts off bs, total := if last then some (off + bs.length) else old.total } :: l.filter fun b => !is b

/-! ### Ring (R410, R415) -/

/-- Zeros in the form of chunk `k`. -/
def zeroChunk (c : CollRun) (k : Nat) : List Byte :=
  let n := (c.plan.span k).2
  if c.plan.op = 1 then erfBytes (List.replicate (n / 264) (Erf.zero c.plan.anchor)) else zeros n

/-- What takes the place of the predecessor's step-`k` block: that block, or after a bypass the step-(k - 1) block of the
predecessor's predecessor. -/
def ringIn (c : CollRun) (k : Nat) : Option (List Byte) :=
  let n := c.plan
  let chunk := n.wrap ((c.rank : Int) - 1 - k)
  let direct := c.block k chunk (n.wrap ((c.rank : Int) - 1))
  match c.bypass with
  | none => direct
  | some j =>
    if k < j then direct
    else if k = 1 then some (c.zeroChunk chunk)
    else match (c.copies.find? fun b => b.step == k - 1).bind CollBlock.bytes? with
      | some b => some b
      | none => c.block (k - 1) chunk (n.wrap ((c.rank : Int) - 2))

/-- The block that this member sends at step `k`. -/
def ringOut (c : CollRun) (k : Nat) : Option (List Byte) :=
  match c.ownChunk (c.plan.wrap ((c.rank : Int) - k)) with
  | none => none
  | some o => if k ≤ 1 then some o else (c.ringIn (k - 1)).map fun x => combine c.plan x o

/-! ### Halving-doubling (R410) -/

/-- Chunk `k` as it stands before round `i`. -/
def halved (c : CollRun) (k : Nat) : Nat → Option (List Byte)
  | 0 => c.ownChunk k
  | i + 1 => match halved c k i, c.block (i + 1) k (c.rank ^^^ 2 ^ i) with
    | some a, some b => some (combine c.plan a b)
    | _, _ => none

/-- The chunks that this member sends in round `i`: bits below i as its own rank's, bit i not. -/
def halvedOut (c : CollRun) (i : Nat) : List Nat :=
  (List.range c.plan.size).filter fun k => k % 2 ^ i == c.rank % 2 ^ i && tbit k i != tbit c.rank i

/-! ### The GATHER phase -/

/-- A block of the GATHER phase: this member's own, or one that has arrived. -/
def piece (c : CollRun) (k : Nat) : Option (List Byte) :=
  if k = c.rank then (if c.plan.op = 5 then c.own else c.result)
  else (c.got.filter fun b => b.chunk == k && decide (c.plan.steps < b.step ∧ b.step < 0xFFFF)).findSome? CollBlock.bytes?

/-- The ranks and chunks of step `j` of the GATHER phase: destination rank and chunks. -/
def gatherOut (c : CollRun) (j : Nat) : List (Nat × List Nat) :=
  let n := c.plan.size
  let r := c.rank
  match c.plan.gatherAlgo with
  | 3 => [(c.plan.wrap ((r : Int) + 1), [c.plan.wrap ((r : Int) - j + 1)])]
  | 4 => [(r ^^^ 2 ^ (j - 1), (List.range n).filter fun k => k / 2 ^ (j - 1) == r / 2 ^ (j - 1))]
  | 6 => [(r ^^^ (n / 2 ^ j), (List.range n).filter fun k => k % (n / 2 ^ (j - 1)) == r % (n / 2 ^ (j - 1)))]
  | _ => ((List.range n).filter (· != r)).map fun d => (d, [r])

/-! ### Results (R409, R413) -/

/-- The sum of an owner's chunk over the included ranks, from blocks that came straight from each of them. -/
def directSum (c : CollRun) (step : Nat) : Option (List Byte) :=
  let ranks := (List.range c.plan.size).filter c.included
  ranks.foldl (fun (acc : Option (Option (List Byte))) r =>
    let x := if r = c.rank then c.ownChunk c.rank else c.block step c.rank r
    match acc, x with
    | some none, some b => some (some b)
    | some (some a), some b => some (some (combine c.plan a b))
    | _, _ => none) (some none) |>.map fun r => r.getD (c.zeroChunk c.rank)

/-- R416: the withdrawals taken out of a chunk. -/
def withdrawn (c : CollRun) (b : List Byte) : List Byte :=
  if c.minus.isEmpty then b
  else erfBytes (c.minus.foldl (fun l m => l.mapIdx fun i x =>
    match m.2[i - m.1 / 264]? with
    | some d => if m.1 / 264 ≤ i then erfWithdraw x d else x
    | none => x) (erfsOf b))

/-- R420: the frame units of `n` bytes: offset and length. -/
def unitsOf (n lim : Nat) : List (Nat × Nat) := (List.range (ceilDiv n lim)).map fun i => (i * lim, min lim (n - i * lim))
def aggUnits (c : CollRun) (lim : Nat) (chunk : Nat) : List (Nat × Nat) := unitsOf (c.plan.span chunk).2 lim

/-- The data deadline of switch aggregation (R420): without a tolerance the close of the data slot (log entry 65). -/
def aggDeadline (c : CollRun) : Nat :=
  let x := c.plan.slots.getD 0 (0, 0)
  x.1 + x.2 + c.plan.tol.getD 0

/-- R423: what a module needs again that takes this member's place: the ranks that deliver, and the chunk each delivers. The
units of switch aggregation are asked for at their deadline (R420). -/
def wants (c : CollRun) : List (Nat × Nat) :=
  let n := c.plan.size
  let r := c.rank
  let direct := ((List.range n).filter (· != r)).map fun d => (d, r)
  if c.plan.op = 7 then direct
  else if !c.plan.isSum || c.plan.algo = 5 then []
  else match c.plan.algo with
    | 3 => (List.range (n - 1)).map fun i : Nat => (c.plan.wrap ((r : Int) - 1), c.plan.wrap ((r : Int) - 2 - i))
    | 4 => (List.range c.plan.steps).flatMap fun i =>
      ((List.range n).filter fun k => k % 2 ^ (i + 1) == r % 2 ^ (i + 1)).map fun k => (r ^^^ 2 ^ i, k)
    | _ => direct

/-- The included ranks other than this owner. -/
def others (c : CollRun) : List Nat := (List.range c.plan.size).filter fun r => c.included r && r != c.rank

/-- R418, R420: the sum of a unit: through switches, or from direct DATA once it is repaired. -/
def aggUnit (c : CollRun) (off : Nat) : Option (List Byte) :=
  if c.repair.elem off then
    c.others.foldl (fun (acc : Option (List Byte)) r =>
      match acc, (c.got.find? fun b => b.chunk == c.rank && b.rank == r).bind fun b => Tab.find? b.parts off with
      | some [], some b => some b
      | some a, some b => some (combine c.plan a b)
      | _, _ => none) (some [])
  else match Tab.find? c.agg off with
    | some u => if u.nmem = c.others.length then some (erfBytes u.blocks) else none
    | none => if c.others.isEmpty then some [] else none

/-- R412, R413: this owner's chunk, once everything that counts is here. With an excluded member its blocks carry EXCLUDED and a
nonzero count, as the placeholder's combination by R62 gives them, which R61 calls malformed (log entry 100). -/
def reduced (c : CollRun) (lim : Nat) : Option (List Byte) :=
  if c.plan.tol.isSome && c.mask.isNone then none
  else
    let r := c.rank
    let raw :=
      if c.redo then c.directSum 0xFFFF
      else match c.plan.algo with
        | 3 =>
          (c.ringIn (c.plan.size - 1)).bind fun b =>
            if c.included r then (c.ownChunk r).map fun o => combine c.plan (c.withdrawn b) o else some (c.withdrawn b)
        | 4 => c.halved r c.plan.steps
        | 5 =>
          let parts := (c.aggUnits lim r).map fun u => (c.aggUnit u.1).map fun b => if b.isEmpty then sliceBytes (c.zeroChunk r) u.1 u.2 else b
          if parts.all (·.isSome) then
            let sum := parts.flatMap (·.getD [])
            if c.included r then (c.ownChunk r).map fun o => combine c.plan sum o else some sum
          else none
        | _ => c.directSum 1
    if c.plan.op = 1 then raw.map fun b =>
      let x := ((List.range c.plan.size).filter fun k => !c.included k).length
      erfBytes ((erfsOf b).map fun e => (List.replicate x (Erf.excluded c.plan.anchor)).foldl Erf.add e)
    else raw

end CollRun

namespace State

def collKey (role cid : Nat) : Nat := role * 2 ^ 64 + cid % 2 ^ 64
def collRun? (s : State) (k : Nat) : Option CollRun := Tab.find? s.coll.runs k
def setColl (s : State) (x : CollSt) : State := { s with coll := x }

/-- COL_STATUS shows the open collectives and those that this module conducts (R424). -/
def showColl (s : State) : State :=
  let open_ := s.coll.runs.filter fun r => !r.2.done
  let mine := open_.filter fun r => r.2.plan.conductor == r.2.role
  s.setRegN Reg.COL_STATUS (capAt 65535 open_.length * 65536 + capAt 65535 mine.length)

def putColl (s : State) (c : CollRun) : State :=
  (s.setColl { s.coll with runs := Tab.setSome s.coll.runs (collKey c.role c.plan.cid) c }).showColl

/-- R411: bytes of one ERF, FP32 or byte payload at most. -/
def collLimit (s : State) (p : CollPlan) : Nat := if p.op = 1 then s.payLimit / 264 * 264 else s.payLimit

/-- R411: the type area of a COLL frame. -/
def collArea (p : CollPlan) (sub step chunk off nmem : Nat) : List Byte :=
  leBytes 8 p.cid ++ leBytes 1 sub ++ leBytes 1 p.op ++ leBytes 2 step ++ leBytes 4 chunk ++ leBytes 4 off ++ leBytes 2 nmem ++ zeros 2

/-- Send a COLL frame to a member: numbered but for AGG_UP. Frames between two roles of this module stay inside. -/
def collFrame (s : State) (c : CollRun) (dst sub step chunk off nmem : Nat) (bs : List Byte) (last : Bool) : Option Nat × State :=
  let f : Frame := { type := frColl, flags := 2 * bit last, cls := 3, src := c.role, dst := dst
                     area := collArea c.plan sub step chunk off nmem, payload := bs }
  if s.serving dst = s.self then (none, s.setColl { s.coll with loop := s.coll.loop ++ [f] })
  else if sub = 2 then (none, s.sendPlain f)
  else let x := s.issue f; (some x.1, x.2)

/-- Send a block in frames of the payload limit, the last one marked. Answers the numbers given. -/
def collSend (s : State) (c : CollRun) (dst sub step chunk : Nat) (bs : List Byte) : List Nat × State :=
  let lim := s.collLimit c.plan
  let n := max 1 (ceilDiv bs.length lim)
  (List.range n).foldl (fun (r : List Nat × State) i =>
    let x := r.2.collFrame c dst sub step chunk (i * lim) 1 ((bs.drop (i * lim)).take lim) (i + 1 == n)
    (r.1 ++ x.1.toList, x.2)) ([], s)

/-- R415: whom the ring block of step `k` goes to: the next rank, or past a bypassed one but for the chunk it owns. -/
def ringTo (c : CollRun) (k : Nat) : Nat :=
  let r := (c.rank : Int)
  match c.skip with
  | some j => if j ≤ k ∧ k + 1 ≠ c.plan.size then c.plan.wrap (r + 2) else c.plan.wrap (r + 1)
  | none => c.plan.wrap (r + 1)

/-- R421: the records of an ALLTOALL: for each destination the indices routed to it, and those sent. -/
def routes (s : State) (role : Nat) (p : CollPlan) : List (List Nat) :=
  let dests := (List.range p.count).map fun i => leNat (s.readRole role (p.routing + 4 * i) 4)
  (List.range p.size).map fun d => (List.range p.count).filter fun i => dests.getD i 0 == d
def recsTo (c : CollRun) (idx : List Nat) : List Byte :=
  (idx.take c.plan.cap).flatMap fun i => sliceBytes (c.own.getD []) (i * c.plan.recSize) c.plan.recSize

/-- What step `k` of the first phase sends, as (destination rank, chunk, bytes); none while it cannot be sent. -/
def stepOut (s : State) (c : CollRun) (k : Nat) : Option (List (Nat × Nat × List Byte)) :=
  let p := c.plan
  let others := (List.range p.size).filter (· != c.rank)
  match c.own with
  | none => none
  | some o =>
    if p.op = 7 then let rt := s.routes c.role p; some (others.map fun d => (d, d, recsTo c (rt.getD d [])))
    else if p.op = 6 then
      let root := (p.rankOf p.root).getD 0
      if c.role ≠ p.root then none
      else if p.algo = 7 then some [(p.wrap ((root : Int) + 1), root, o)] else some (others.map fun d => (d, root, o))
    else if p.op = 3 then some (if c.role = p.conductor then [] else [((p.rankOf p.conductor).getD 0, c.rank, o)])
    else if p.op = 4 then some []
    else match p.algo with
      | 3 => if k < p.size then (c.ringOut k).map fun b => [(ringTo c k, p.wrap ((c.rank : Int) - k), b)] else none
      | 4 =>
        let l := (c.halvedOut (k - 1)).map fun x => (x, c.halved x (k - 1))
        if l.all (fun x => x.2.isSome) then some (l.map fun x => (c.rank ^^^ 2 ^ (k - 1), x.1, x.2.getD [])) else none
      | 5 => none
      | _ => some (others.filterMap fun d => (c.ownChunk d).map fun b => (d, d, b))

/-- R418: an included member sends each unit of each chunk once as AGG_UP. -/
def sendAgg (s : State) (c : CollRun) : State :=
  ((List.range c.plan.size).filter (· != c.rank)).foldl (fun s k =>
    (c.aggUnits (s.collLimit c.plan) k).foldl (fun s u =>
      (s.collFrame c (c.plan.member k) 2 1 k u.1 1 (sliceBytes ((c.ownChunk k).getD []) u.1 u.2) true).2) s) s

/-- Send step `k` of the first phase if its slot is open and its inputs are here. A member that sends a step after its
deadline takes part in no later one (R415). -/
def trySend (s : State) (key k : Nat) : State :=
  match s.collRun? key with
  | none => s
  | some c =>
    if c.done || c.sent.elem k || c.opened < k || c.tardy.isSome then s
    else if c.plan.algo = 5 && c.plan.isSum then
      (if c.mask.isSome && c.included c.rank && c.own.isSome then (s.sendAgg c).putColl { c with sent := k :: c.sent } else s)
    else match s.stepOut c k with
      | none => s
      | some l =>
        let late := (c.plan.deadline k).any (· < s.now)
        (l.foldl (fun s x => (s.collSend c (c.plan.member x.1) 1 k x.2.1 x.2.2).2) s).putColl
          { c with sent := k :: c.sent, tardy := if late && c.plan.algo == 3 && c.plan.isSum then some k else c.tardy }

/-- Step `j` of the GATHER phase. -/
def tryGather (s : State) (key j : Nat) : State :=
  match s.collRun? key with
  | none => s
  | some c =>
    let k := c.plan.steps + j
    if c.done || c.sent.elem k || c.opened < c.plan.steps + c.plan.redoSlots + j then s
    else
      let outs := c.gatherOut j
      if outs.all (fun o => o.2.all fun x => (c.piece x).isSome) then
        (outs.foldl (fun s o => o.2.foldl (fun s x => (s.collSend c (c.plan.member o.1) 1 k x ((c.piece x).getD [])).2) s) s).putColl
          { c with sent := k :: c.sent }
      else s

/-- R417: under REDO every included member sends its contribution straight to each owner. -/
def tryRedo (s : State) (key : Nat) : State :=
  match s.collRun? key with
  | none => s
  | some c =>
    if !c.redo || c.done || c.sent.elem 0xFFFF || c.opened < c.plan.steps + 1 || !c.included c.rank || c.own.isNone then s
    else
      (((List.range c.plan.size).filter (· != c.rank)).foldl (fun s d =>
        (s.collSend c (c.plan.member d) 1 0xFFFF d ((c.ownChunk d).getD [])).2) s).putColl { c with sent := 0xFFFF :: c.sent }

/-- The gradients that this owner holds of a job's step, and the tensors of its model. -/
def stepGrads (s : State) (job : Nat) : List Grad × List Nat :=
  match s.stepRun job with
  | none => ([], [])
  | some (j, x) => (x.grads, List.range j.anchors.length)

/-- R361: this owner's contribution to the sum of squares; in normal mode an FP32 sum by the tree of VX.RDOT (R144). -/
def normOwn (s : State) (job : Nat) (p : CollPlan) : List Byte :=
  let gs := (s.stepGrads job).1
  if p.op = 1 then erfBytes [normPart p.anchor gs] else wordBytes [canonTree fadd ((gs.flatMap (·.vals)).map fun w => fmul w w)]

/-- R364: is this replica absent from a gradient reduction because its F or B work has faulted. -/
def replicaAbsent (s : State) : CollUse → Bool
  | .rscat job _ _ => (s.stepRun job).any fun x => x.2.absent
  | _ => false

/-- The reduced blocks of NORM reach the job (R361, R357); a gradient reduction's mask and credit too (R359, R360). -/
def collUse (s : State) (c : CollRun) (result : List Byte) : State :=
  match c.plan.use with
  | .rscat job lchunk tensor => s.takeGrad job (gradOf lchunk tensor (c.plan.op == 1) result)
  | .normSum job =>
    if c.plan.op = 1 then match erfsOf result with
      | [] => s
      | b :: _ => s.takeSum job (f32 (b.val 0)) (bit b.sat + 2 * bit b.nan)
    else s.takeSum job (wordAt (bytesWords result) 0) 0
  | .normMax job => s.takeMaxima job ((bytesWords result).map (·.toNat))
  | _ => s

/-- R406: a collective is complete on this member: result in the buffer, contexts signalled. -/
def collDone (s : State) (c : CollRun) (at_ : Nat) (bs : List Byte) : State :=
  let s1 := s.writeRole c.role at_ bs
  let s2 := (s1.putColl { c with done := true }).bump Reg.COL_DONE 1
  let s3 := c.plan.signals.foldl (fun s x => match s.ctx x.1 x.2.1 with
    | none => s
    | some k => s.setCtx x.1 x.2.1 (k.signal x.2.2)) s2
  s3.collUse c bs

/-- A collective ends with FAULT on this member. -/
def collFault (s : State) (c : CollRun) : State := (s.putColl { c with done := true, fault := true }).bump Reg.COL_FAULT 1

/-- R421, R422: the result of an ALLTOALL: each sender's records in its slots, then the report area. -/
def a2aDone (s : State) (c : CollRun) : State :=
  let p := c.plan
  let slot := p.cap * p.recSize
  let rt := s.routes c.role p
  let from_ := fun r => if r = c.rank then some (recsTo c (rt.getD r [])) else c.block 1 c.rank r
  let ranks := List.range p.size
  if !ranks.all (fun r => !c.included r || (from_ r).isSome) then s
  else
    let data := fun r => if c.included r then ((from_ r).getD []).take slot else []
    let res := ranks.flatMap fun r => sliceBytes (data r) 0 slot
    let drops := rt.map fun l => l.drop p.cap
    let mask := (List.range p.count).map fun i => drops.any (·.elem i)
    let rep := (drops.flatMap fun l => leBytes 4 l.length) ++
      leBytes (4 * ceilDiv p.count 32) (mask.foldr (fun b n => bit b + 2 * n) 0) ++ ranks.flatMap fun r => leBytes 4 ((data r).length / p.recSize)
    ((s.writeRole c.role p.area rep).bump Reg.COL_A2ADROP ((drops.map (·.length)).sum)).collDone c p.dst res

/-- End what can be ended on this member. -/
def tryFinish (s : State) (key : Nat) : State :=
  match s.collRun? key with
  | none => s
  | some c =>
    if c.done then s
    else
      let p := c.plan
      if p.op = 4 then
        match c.mask with
        | none => s
        | some m => s.collDone c p.dst (if p.use = .plain then leBytes (ceilDiv p.size 8) (m.foldr (fun b n => bit b + 2 * n) 0) else [])
      else if p.op = 7 then (if (p.tol.isSome && c.mask.isNone) || c.own.isNone then s else s.a2aDone c)
      else if p.op = 6 then
        let root := (p.rankOf p.root).getD 0
        (if c.role = p.root then (if c.sent.isEmpty then s else s.collDone c p.dst (c.own.getD []))
         else match c.block 1 root (if p.algo = 7 then p.wrap ((c.rank : Int) - 1) else root) with
          | none => s
          | some b => s.collDone c p.dst b)
      else if p.op = 3 then
        let cr := (p.rankOf p.conductor).getD 0
        if c.role = p.conductor then
          let all := (List.range p.size).map fun r => if r = c.rank then c.own else c.block 1 r r
          if all.all (·.isSome) then
            let bs := all.filterMap id
            let res := (bs.drop 1).foldl (combine p) (bs.headD [])
            let s1 := ((List.range p.size).filter (· != c.rank)).foldl (fun s d => (s.collSend c (p.member d) 1 2 cr res).2) s
            s1.collDone c p.dst res
          else s
        else match c.block 2 cr cr with
          | none => s
          | some b => s.collDone c p.dst b
      else
        let res := if p.isSum then (match c.result with | some b => some b | none => c.reduced (s.collLimit p)) else c.own
        match res with
        | none => s
        | some b =>
          let c1 := if p.isSum then { c with result := some b } else c
          if p.isSum && !p.all then s.collDone c1 p.dst b
          else
            let all := (List.range p.size).map c1.piece
            if all.all (·.isSome) && (List.range p.gatherSteps).all (fun j => c1.sent.elem (p.steps + j + 1)) then
              s.collDone c1 p.dst ((all.filterMap id).flatten)
            else s.putColl c1

/-- Send and end what the state of a collective now allows. -/
def advance (s : State) (key : Nat) : State :=
  match s.collRun? key with
  | none => s
  | some c =>
    let p := c.plan
    let s1 := (List.range p.steps).foldl (fun s i => s.trySend key (i + 1)) s
    let s2 := (s1.tryRedo key).tryFinish key
    ((List.range p.gatherSteps).foldl (fun s j => s.tryGather key (j + 1)) s2).tryFinish key

/-! ### Reports and masks (R412 to R417) -/

/-- Ranks as a bitmap of ⌈N/8⌉ bytes, and back. -/
def rankBits (n : Nat) (f : Nat → Bool) : List Byte := leBytes (ceilDiv n 8) (((List.range n).map f).foldr (fun b k => bit b + 2 * k) 0)
def bitsOf (n : Nat) (b : List Byte) : List Bool := (List.range n).map fun r => tbit (leNat b) r

/-- R412: this member's REPORT. -/
def reportOf (s : State) (c : CollRun) : CollReport :=
  let mbit := match c.plan.use with
    | .curtain n => (Tab.find? s.curtain.runs n).any fun k => decide (5 ≤ k.phase) && k.reason == 0
    | .done job => (s.closing job).any fun x => updatesDone x.2
    | _ => c.own.isSome
  let acked := c.wframes.all fun w => !((s.flow w.1).unacked.any fun x => x.frame.psn == w.2)
  let need := match c.bypass with | none => 0 | some k => k - 1
  let wdone := c.bypass.isSome && acked &&
    (List.range need).all fun i => (c.block (i + 1) (c.plan.wrap ((c.rank : Int) - 1 - (i + 1))) (c.plan.wrap ((c.rank : Int) - 1))).isNone || c.withdrew.elem (i + 1)
  { status := if c.own.isSome then 0 else if s.replicaAbsent c.plan.use then stFault else stMissing, bit := if c.plan.op = 4 then mbit else true, wdone := wdone, excl := c.excl }

/-- The payload of a REPORT and of a MASK (R411). -/
def reportBytes (n : Nat) (r : CollReport) : List Byte := leBytes 1 r.status ++ leBytes 1 (bit r.bit) ++ leBytes 1 (bit r.wdone) ++ zeros 5 ++ rankBits n r.excl.elem
def maskPayload (n : Nat) (redo : Bool) (m : List Bool) : List Byte := leBytes 1 (bit redo) ++ zeros 7 ++ rankBits n (fun r => m.getD r false)

/-- The mask reaches this member: it may end or redo its part; curtain, job and counters hear of it. -/
def takeCollMask (s : State) (key : Nat) (redo : Bool) (m : List Bool) : State :=
  match s.collRun? key with
  | none => s
  | some c =>
    if c.mask.isSome then s
    else
      let n := (m.filter (!·)).length
      let c1 := { c with mask := some m, redo := redo, result := if redo then none else c.result }
      let s0 := (s.putColl c1).roleRec c.role recTrain (leBytes 4 (2 ^ 31 + c.plan.cid) ++ leBytes 1 255 ++ leBytes 1 (bit redo) ++ m.flatMap fun b => leBytes 1 (bit b))
      let s1 := s0.bump Reg.COL_EXCL (if c.plan.op = 4 then 0 else n)
      let s2 := if redo then s1.bump Reg.COL_REDO 1 else s1
      let s3 := match c.plan.use with
        | .curtain num => (match Tab.find? s2.curtain.runs num with
          | none => s2
          | some k =>
            let inc := (c.plan.members.zip m).filterMap fun (x : Nat × Bool) => if x.2 then some x.1 else none
            { s2 with curtain := { s2.curtain with runs := Tab.setSome s2.curtain.runs num { k with mask := some inc } } })
        | .rscat job lchunk tensor =>
          s2.takeMask job lchunk tensor c.plan.reps m (some (c.plan.reps.getD c.rank 0, m.getD c.rank false))
            (if c.plan.op = 1 then erfsOf (c.own.getD []) else [])
        | .done job => s2.endStep job (m.all id)
        | _ => s2
      s3.advance key

/-- R412, R417: the conductor's decision from the reports that it holds. -/
def decideMask (c : CollRun) : Bool × List Bool :=
  let n := c.plan.size
  let named := fun r => c.reports.any fun x => x.2.excl.elem r
  let m := (List.range n).map fun r => match Tab.find? c.reports r with
    | none => false
    | some x => if c.plan.op = 4 then x.bit else x.status == 0 && !named r
  let inc := fun r => m.getD r false
  let bad := c.plan.isSum && c.plan.algo == 3 &&
    ((List.range n).any (fun r => !inc r && !(c.reports.any fun (x : Nat × CollReport) => inc x.1 && x.2.excl.elem r)) ||
     c.reports.any fun (x : Nat × CollReport) => !x.2.excl.isEmpty && (!inc x.1 || !x.2.wdone))
  (bad, m)

/-- R412: the conductor decides and sends the mask to every member. -/
def sendMask (s : State) (key : Nat) (redo : Bool) (m : List Bool) : State :=
  match s.collRun? key with
  | none => s
  | some c =>
    let bs := maskPayload c.plan.size redo m
    let s1 := (c.plan.members.filter (· != c.role)).foldl (fun s d => (s.collFrame c d 4 0 0 0 0 bs true).2) s
    s1.takeCollMask key redo m

/-- A REPORT reaches the conductor. Without a tolerance it waits for all of them (R360, R410; log entry 65). -/
def takeReport (s : State) (key rank : Nat) (r : CollReport) : State :=
  match s.collRun? key with
  | none => s
  | some c =>
    if c.mask.isSome || (c.plan.tol.isSome && c.plan.report < s.now) then s
    else
      let c1 := { c with reports := Tab.setSome c.reports rank r }
      let s1 := s.putColl c1
      if c.plan.tol.isNone && (c.plan.op == 4 || (c.plan.algo == 5 && c.plan.isSum)) && c1.reports.length = c.plan.size then let d := decideMask c1; s1.sendMask key d.1 d.2 else s1

/-- Send this member's REPORT, once. -/
def sendReport (s : State) (key : Nat) : State :=
  match s.collRun? key with
  | none => s
  | some c =>
    if c.reported then s
    else
      let r := s.reportOf c
      let s1 := s.putColl { c with reported := true }
      if c.role = c.plan.conductor then s1.takeReport key c.rank r
      else (s1.collFrame c c.plan.conductor 3 0 0 0 0 (reportBytes c.plan.size r) true).2

/-! ### Opening a slot (R410, R418) -/

/-- R407: a plan as the stage manager sends it: with the algorithms that it chooses, where it is this module. -/
def planned (s : State) (p : CollPlan) : CollPlan :=
  if s.isManager then p.choose (s.regField Reg.COL_AGGCFG 0 30) (s.regField Reg.COL_AGGTHR 0 16) else p

/-- Take the plan if it is new. -/
def holdPlan (s : State) (role : Nat) (p : CollPlan) : State :=
  if (s.collRun? (collKey role p.cid)).isSome || (p.rankOf role).isNone || !p.ok then s
  else (s.putColl { plan := p, role := role }).roleRec role recTrain (leBytes 4 (2 ^ 31 + p.cid) ++ leBytes 1 p.op ++ leBytes 1 p.algo ++ zeros 2 ++
    p.members.flatMap (leBytes 2) ++ p.slots.flatMap fun x => leBytes 8 x.1)

/-- R61, R411, R423: are the ERF blocks of a payload well formed and on the plan's anchor. Answers malformed, other anchor. -/
def erfBad (p : CollPlan) (b : List Byte) : Bool × Bool :=
  if p.op ≠ 1 then (false, false)
  else ((erfsOf b).any (·.malformed) || b.length % 264 != 0, (erfsOf b).any fun e => e.anchor != p.anchor)

/-- A contributor is rejected: named in the REPORT, or the end of a collective without a tolerance (R423). -/
def rejectRank (s : State) (key rank : Nat) (malformed : Bool) : State :=
  match s.collRun? key with
  | none => s
  | some c =>
    let s1 := (if malformed then s.bump Reg.FAB_MALERF 1 else s).bump Reg.COL_ANCHREJ 1
    if c.plan.tol.isNone || (c.plan.algo == 5 && c.mask.isSome) then s1.collFault c
    else s1.putColl { c with excl := insertNat rank c.excl }

/-- The contribution lies complete in the source buffer: it is retained. One that is malformed or on another anchor is rejected
like any other (R61, R62). -/
def takeOwn (s : State) (key : Nat) : State :=
  match s.collRun? key with
  | none => s
  | some c =>
    if c.own.isSome || s.replicaAbsent c.plan.use then s
    else
      let p := c.plan
      let raw := match p.use with
        | .normSum job => s.normOwn job p
        | .normMax job => wordBytes ((s.stepGrads job).2.map fun i => gradExp (s.stepGrads job).1 i)
        | _ => if p.op = 4 then [] else s.readRole c.role p.src (p.units * p.unitLen)
      let own := match p.use with
        | .rscat job lchunk tensor => if p.op = 1 then erfBytes (s.withCredit job lchunk tensor p.anchor (erfsOf raw)) else raw
        | _ => raw
      let e := if p.op = 1 then erfBad p own else (false, false)
      if e.1 || e.2 then s.rejectRank key c.rank e.1 else s.putColl { c with own := some own }

/-- A slot opens, or a contribution becomes ready after it. -/
def openSlot (s : State) (key : Nat) (opens ready : Bool) : State :=
  match s.collRun? key with
  | none => s
  | some c =>
    let s1 := if opens then s.putColl { c with opened := c.opened + 1 } else s
    let s2 := if ready then s1.takeOwn key else s1
    let s3 := match s2.collRun? key with
      | none => s2
      | some c => if c.own.isSome && ((c.plan.algo == 5 && c.plan.isSum) || (c.plan.op == 4 && decide (0 < c.opened))) then s2.sendReport key
        else s2
    s3.advance key

end State

end Sys2Proof.Machine
end

