-- ==== Sys2Proof/Machine/CollIn.lean ====
section
/-! DEFINITION. What a COLL frame does at its destination (R411 to R423). -/

namespace Sys2Proof.Machine

namespace State

/-- The collective of a frame: its destination role and cid. -/
def frameColl (f : Frame) : Nat := collKey f.dst (fieldAt f.area 0 8)

/-- DATA (R410, R413, R420, R423). A block of a bypassed rank, or one after its deadline, is discarded and counted. -/
def collData (s : State) (f : Frame) (c : CollRun) (rank : Nat) : State :=
  let key := frameColl f
  let step := fieldAt f.area 10 2
  let chunk := fieldAt f.area 12 4
  let off := fieldAt f.area 16 4
  let p := c.plan
  let first := decide (1 ≤ step ∧ step ≤ p.steps)
  let pre := p.wrap ((c.rank : Int) - 1)
  let passed := first && p.algo == 3 && p.isSum && rank == pre && c.bypass.any (· ≤ step)
  let late := first && !c.repair.elem off && (p.deadline step).any (· < s.now)
  if passed || (late && (p.algo != 5 || !p.isSum)) then s.bump Reg.COL_LATE 1
  else
    let e := erfBad p f.payload
    if e.1 || e.2 then s.rejectRank key rank e.1
    else
      let s1 := s.putColl { c with got := CollRun.putPart c.got step chunk rank off f.payload (tbit f.flags 1) }
      let s2 :=
        if p.op = 6 && p.algo = 7 && p.member (p.wrap ((c.rank : Int) + 1)) ≠ p.root then
          (s1.collFrame c (p.member (p.wrap ((c.rank : Int) + 1))) 1 step chunk off 1 f.payload (tbit f.flags 1)).2
        else s1
      s2.advance key

/-- AGG_UP (R418, R420): added into the unit, unless the unit is being repaired. -/
def collAgg (s : State) (f : Frame) (c : CollRun) (rank : Nat) : State :=
  let key := frameColl f
  let off := fieldAt f.area 16 4
  if c.repair.elem off then s.bump Reg.COL_LATE 1
  else
    let e := erfBad c.plan f.payload
    if e.1 || e.2 then s.rejectRank key rank e.1
    else
      let bs := erfsOf f.payload
      let u := match Tab.find? c.agg off with
        | none => { nmem := fieldAt f.area 20 2, blocks := bs }
        | some u => { nmem := u.nmem + fieldAt f.area 20 2, blocks := List.zipWith Erf.add u.blocks bs }
      (s.putColl { c with agg := Tab.setSome c.agg off u }).advance key

/-- R415: the predecessor of a bypassed rank sends copies of its blocks up to the bypass step to the successor; a block
not yet sent goes there instead. -/
def collBypass (s : State) (f : Frame) (c : CollRun) : State :=
  let k := fieldAt f.area 10 2
  if c.skip.isSome || c.plan.algo ≠ 3 then s
  else
    let c1 := { c with skip := some k }
    let s1 := ((List.range k).filter fun i => c.sent.elem (i + 1)).foldl (fun s i =>
      match c.ringOut (i + 1) with
      | none => s
      | some b => (s.collSend c f.src 6 (i + 1) (c.plan.wrap ((c.rank : Int) - (i + 1))) b).2) (s.putColl c1)
    s1.advance (frameColl f)

/-- R416: what can be withdrawn now is withdrawn: for each step before the bypass at which a block of the bypassed rank is
here, its contribution goes to the chunk's owner. -/
def collWithdraw (s : State) (key : Nat) : State :=
  match s.collRun? key with
  | none => s
  | some c =>
    match c.bypass with
    | none => s
    | some k =>
      (List.range (k - 1)).foldl (fun s i =>
        let st : Nat := i + 1
        match s.collRun? key with
        | none => s
        | some c =>
          let x := c.plan.wrap ((c.rank : Int) - 1)
          let chunk := c.plan.wrap ((x : Int) - st)
          let prev := if st = 1 then some (c.zeroChunk chunk) else (c.copies.find? fun b => b.step == st - 1).bind CollBlock.bytes?
          match c.withdrew.elem st, c.block st chunk x, prev with
          | false, some b, some a =>
            let d := erfBytes (List.zipWith erfMinus (erfsOf b) (erfsOf a))
            let dst := c.plan.member chunk
            let r := s.collSend c dst 7 st chunk d
            r.2.putColl { c with withdrew := st :: c.withdrew, wframes := c.wframes ++ r.1.map fun n => (flowKey c.role dst 3, n) }
          | _, _, _ => s) s

/-- COPY (R415): a block that the predecessor had sent the bypassed rank. -/
def collCopy (s : State) (f : Frame) (c : CollRun) (rank : Nat) : State :=
  let key := frameColl f
  let step := fieldAt f.area 10 2
  let e := erfBad c.plan f.payload
  if e.1 || e.2 then s.rejectRank key rank e.1 else
  let s1 := s.putColl { c with copies := CollRun.putPart c.copies step (fieldAt f.area 12 4) rank (fieldAt f.area 16 4) f.payload (tbit f.flags 1) }
  (s1.collWithdraw key).advance key

/-- R420, R423: the step and the bytes of the block of chunk `chunk` that rank `to_` gets from this member. -/
def collAgain (s : State) (c : CollRun) (to_ chunk : Nat) : Nat × Option (List Byte) :=
  let p := c.plan
  if p.op = 7 then (1, c.own.map fun _ => recsTo c ((s.routes c.role p).getD chunk []))
  else if !p.isSum then (1, c.own)
  else match p.algo with
    | 3 => let k := p.wrap ((c.rank : Int) - chunk); (k, c.ringOut k)
    | 4 => let i := Nat.log2 (c.rank ^^^ to_); (i + 1, c.halved chunk i)
    | _ => (1, c.ownChunk chunk)

/-- R420, R423: a rank sends a unit again as direct DATA, from what it retains. -/
def collRepair (s : State) (f : Frame) (c : CollRun) (rank : Nat) : State :=
  let chunk := fieldAt f.area 12 4
  let off := fieldAt f.area 16 4
  let x := s.collAgain c rank chunk
  match x.2 with
  | none => s
  | some b =>
    let lim := s.collLimit c.plan
    if 0 < off && b.length ≤ off then s
    else (s.collFrame c f.src 1 x.1 chunk off 1 ((b.drop off).take lim) (decide (b.length ≤ off + lim))).2

/-- R414: a member answers QUERY with its REPORT, and with the mask if it holds one. -/
def collQuery (s : State) (f : Frame) (c : CollRun) : State :=
  let n := c.plan.size
  let s1 := (s.collFrame c f.src 3 0 0 0 0 (reportBytes n (s.reportOf c)) true).2
  match c.mask with
  | none => s1
  | some m => (s1.collFrame c f.src 4 0 0 0 0 (maskPayload n c.redo m) true).2

/-- One COLL frame. Without a plan, or from no member of the group, it is discarded (R411). -/
def collIn (s : State) (f : Frame) : State :=
  let key := frameColl f
  match s.collRun? key with
  | none => s
  | some c =>
    match c.plan.rankOf f.src with
    | none => s
    | some rank =>
      let n := c.plan.size
      match fieldAt f.area 8 1 with
      | 1 => if c.done then (if c.plan.tol.isSome then s.bump Reg.COL_LATE 1 else s) else s.collData f c rank
      | 2 => if c.done then s else s.collAgg f c rank
      | 3 => s.takeReport key rank { status := fieldAt f.payload 0 1, bit := tbit (fieldAt f.payload 1 1) 0, wdone := tbit (fieldAt f.payload 2 1) 0
                                     excl := (List.range n).filter fun r => (bitsOf n (f.payload.drop 8)).getD r false }
      | 4 =>
        let m := bitsOf n (f.payload.drop 8)
        if c.plan.conductor = c.role && c.mask.isNone then s.sendMask key (tbit (fieldAt f.payload 0 1) 0) m
        else s.takeCollMask key (tbit (fieldAt f.payload 0 1) 0) m
      | 5 => s.collBypass f c
      | 6 => s.collCopy f c rank
      | 7 =>
        let e := erfBad c.plan f.payload
        if e.1 || e.2 then s.rejectRank key rank e.1
        else
          let s1 := s.putColl { c with minus := c.minus ++ [(fieldAt f.area 16 4, erfsOf f.payload)] }
          (s1.bump Reg.COL_WITHDRAW 1).advance key
      | 8 => s.collRepair f c rank
      | 9 => s.collQuery f c
      | _ => s

/-- Frames between two roles that this module serves arrive at once. -/
def collLoop : Nat → State → State
  | 0, s => s
  | n + 1, s => match s.coll.loop with
    | [] => s
    | f :: rest => collLoop n ((s.setColl { s.coll with loop := rest }).collIn f)

/-- R412, R415: the deadline of a step: a ring member whose predecessor's block is missing bypasses it, an owner of a direct
exchange excludes whoever is incomplete; after the last step the REPORT goes out. -/
def collDeadline (s : State) (key step : Nat) : State :=
  match s.collRun? key with
  | none => s
  | some c =>
    let p := c.plan
    match p.deadline step with
    | none => s
    | some t =>
      if s.now < t || c.done || !decide (1 ≤ step ∧ step ≤ p.steps) then s
      else
        let s1 :=
          if p.isSum && p.algo = 3 then
            (if c.bypass.isSome || (c.ringIn step).isSome then s
             else
               let x := p.wrap ((c.rank : Int) - 1)
               let c1 := { c with bypass := some step, excl := insertNat x c.excl }
               let s1 := (s.putColl c1).bump Reg.COL_BYPASS 1
               let r := s1.collFrame c1 (p.member (p.wrap ((c.rank : Int) - 2))) 5 step x 0 0 [] true
               (r.2.collWithdraw key).advance key)
          else if (p.isSum && p.algo = 2) || p.op = 7 then
            let missing := (List.range p.size).filter fun r => r != c.rank && (c.block 1 c.rank r).isNone
            s.putColl { c with excl := missing.foldl (fun l r => insertNat r l) c.excl }
          else s
        if step = p.steps && p.op ≠ 4 && !(p.isSum && p.algo = 5) then s1.sendReport key else s1

/-- R420: the data deadline: a unit whose count falls short, or exceeds, is asked again from every included rank. -/
def collShort (s : State) (key : Nat) : State :=
  match s.collRun? key with
  | none => s
  | some c =>
    let p := c.plan
    if !(p.isSum && p.algo = 5) || c.mask.isNone || c.done || s.now < c.aggDeadline then s
    else
      let short := (c.aggUnits (s.collLimit p) c.rank).filter fun u =>
        !c.repair.elem u.1 && decide (((Tab.find? c.agg u.1).map (·.nmem)).getD 0 ≠ c.others.length)
      let c1 := { c with repair := c.repair ++ short.map (·.1), agg := c.agg.filter fun a => !(short.any fun u => u.1 == a.1) }
      let s1 := s.putColl c1
      short.foldl (fun s u => c.others.foldl (fun s r => ((s.collFrame c1 (p.member r) 8 0 c.rank u.1 0 [] true).2).bump Reg.COL_REPAIR 1) s) s1

/-- R412, R423: a lost member's data can no longer come: a collective that needs it under its mask ends with FAULT. -/
def collLost (s : State) (m : Nat) : State :=
  s.coll.runs.foldl (fun s r =>
    let c := r.2
    match c.plan.rankOf m with
    | none => s
    | some k => if c.done || c.mask.isNone || c.plan.tol.isNone || !c.included k || c.role == m || c.plan.op == 4 then s
      else
        let s1 := s.advance r.1
        match s1.collRun? r.1 with
        | none => s1
        | some c => if c.done || c.result.isSome then s1 else s1.collFault c) s

/-- R413, R423: a mask that the lost role held. It holds no contribution any more: where the mask counts one, a reduction
ends with FAULT at this owner. -/
def collHeldMask (s : State) (key : Nat) (redo : Bool) (m : List Bool) : State :=
  let s1 := s.takeCollMask key redo m
  match s1.collRun? key with
  | none => s1
  | some c =>
    if c.done || c.plan.op = 4 || c.plan.tol.isNone || c.own.isSome || c.result.isSome || !c.included c.rank then s1 else s1.collFault c

/-- R414, R423: this module now serves a lost role: its open collectives, from their mirrored plans and masks. As conductor
it queries every member and decides within COL_RPTWIN; as an owner it asks again for every unit. -/
def collTakeover (s : State) (role : Nat) (plans : List CollPlan) (masks : List (Nat × Bool × List Bool)) : State :=
  plans.foldl (fun s p =>
    let win := s.now + 1000 * s.regField Reg.COL_RPTWIN 0 16
    let p1 := if p.conductor = role then { p with report := win } else p
    let key := collKey role p.cid
    let s1 := s.holdPlan role p1
    match s1.collRun? key with
    | none => s1
    | some c =>
      let rest := p.members.filter (· != role)
      let held := masks.find? fun m => m.1 == p.cid
      let s2 := if p.conductor = role then rest.foldl (fun s d => (s.collFrame c d 9 0 0 0 0 [] true).2) s1 else s1
      let asks := c.wants.flatMap fun w =>
        (CollRun.unitsOf (if p.op = 7 then p.cap * p.recSize else (p.span w.2).2) (s2.collLimit p)).map fun u => (w.1, w.2, u.1)
      let c1 := { c with repair := asks.foldl (fun l a => insertNat a.2.2 l) [] }
      let s3 := asks.foldl (fun s a => ((s.collFrame c1 (p.member a.1) 8 0 a.2.1 a.2.2 0 [] true).2).bump Reg.COL_REPAIR 1) (s2.putColl c1)
      match held with
      | none => s3
      | some m => (if p.conductor = role then s3.sendMask key m.2.1 m.2.2 else s3).collHeldMask key m.2.1 m.2.2) s

end State

/-! ### The rows that are no frames -/

/-- R410: SLOT: the plan's cues are written when it arrives; when one is taken, a slot of the collective opens. A
contribution that becomes ready after its slot opened is sent then. -/
def execSlot (role cid : Nat) (plan : Option CollPlan) (ready : Bool) (s : State) : Result :=
  let key := State.collKey role cid
  let s0 := match plan with
    | none => s
    | some p =>
      let p := s.planned p
      if (s.collRun? key).isSome || p.cid ≠ cid || (p.rankOf role).isNone || !p.ok then s
      else match p.slots.foldl (fun (r : Option State) (x : Nat × Nat) => r.bind fun s => s.addCue x.1 cueSlot 2 0 role cid) (some s) with
        | none => s
        | some s1 => s1.holdPlan role p
  match s0.takeCue cueSlot 0 cid (some role) with
  | some s1 => .next ((s1.openSlot key true ready).collLoop 64)
  | none => .next (if ready then (s0.openSlot key false true).collLoop 64 else s0)

/-- R412, R415: COLL_STEP_DEADLINE. -/
def execCollStepDeadline (role cid step : Nat) (s : State) : Result := .next ((s.collDeadline (State.collKey role cid) step).collLoop 64)

/-- R412: COLL_REPORT_CLOSE: the report slot closes and the conductor decides. -/
def execCollReportClose (role cid : Nat) (s : State) : Result :=
  let key := State.collKey role cid
  match s.collRun? key with
  | none => .next s
  | some c =>
    if c.role ≠ c.plan.conductor || c.mask.isSome || c.plan.tol.isNone || s.now < c.plan.report then .next s
    else
      let d := State.decideMask c
      .next ((s.sendMask key d.1 d.2).collLoop 64)

/-- R420: COLL_DATA_DEADLINE. -/
def execCollDataDeadline (role cid : Nat) (s : State) : Result := .next ((s.collShort (State.collKey role cid)).collLoop 64)

/-! ### Pipeline entries that open a slot (R355) -/

/-- R356 to R364: is a plan for a job one that its step allows: the operation, exact or in normal mode, on the anchor of the job's
table, with a tolerance only for gradients (R360). -/
def stepPlanOk (s : State) (job : Nat) (j : Job) (x : StepItem) (p : CollPlan) : Bool :=
  let sum := if tbit (fieldAt x.body 4 2) 2 then 2 else 1
  match p.use with
  | .rscat k _ tensor => k == job && p.op == sum && (sum == 2 || p.anchor == j.anchors.getD tensor 0)
  | .normSum k => k == job && p.op == sum && p.all && p.tol.isNone &&
    (sum == 2 || (s.model? j.model).all fun m => p.anchor == normAnchor j.anchors (fieldAt m.desc 32 8))
  | .normMax k => k == job && p.op == 3 && p.int && p.tol.isNone
  | .done k => k == job && p.op == 4 && p.tol.isNone
  | _ => true

/-- R355, R359: RSCAT, NORM and DONE: once the entry is due the slots of its collectives open. -/
def openEntry (act job : Nat) (plans : List CollPlan) (ready : Bool) (s : State) : State :=
  match if act = 6 then s.closing job else s.stepRun job with
  | none => s
  | some (j, x) =>
    match dueEntry s x act with
    | none => plans.foldl (fun s p => if ready then s.openSlot (State.collKey (s.roleAt job) p.cid) false true else s) s
    | some e =>
      let x1 := { x with begun := e :: x.begun }
      let s1 := if act = 6 then s.putClosing job x1 else s.putStep job x1
      ((plans.filter (stepPlanOk s job j x)).foldl (fun s p => (s.holdPlan (s.roleAt job) (s.planned p)).openSlot (State.collKey (s.roleAt job) p.cid) true ready) s1).collLoop 64

/-- R356, R359: RSCAT of a layer chunk. -/
def execRscat (job : Nat) (plans : List CollPlan) (ready : Bool) (s : State) : Result := .next (openEntry 3 job plans ready s)

/-- R361, R357: NORM. `tnext` is the token count of the job's next step, where the stage manager knows it. -/
def execNorm (job : Nat) (plans : List CollPlan) (ready : Bool) (tnext : Option Nat) (s : State) : Result :=
  let s1 := match s.stepRun job with
    | none => s
    | some (_, x) => s.putStep job { x with tnext := tnext }
  .next (openEntry 5 job plans ready s1)

/-- R364: DONE. `others` are the exclusion and credit entries of other members for the report. -/
def execDoneEntry (job : Nat) (plans : List CollPlan) (ready : Bool) (others : List (Nat × Nat × List Bool)) (s : State) : Result :=
  let s1 := match s.closing job with
    | none => s
    | some (_, x) => s.putClosing job { x with others := others }
  .next (openEntry 6 job plans ready s1)

end Sys2Proof.Machine
end

