-- ==== Sys2Proof/Machine/Moves.lean ====
section
/-! DEFINITION. Load and store moves and atomics (chapter 06; R385 to R387 toward other modules, R225 toward hosts). -/

namespace Sys2Proof.Machine

/-- R164: a move descriptor: extents, virtual strides, stage strides. -/
structure MoveDesc where
  ext  : List Nat
  vstr : List Nat
  sstr : List Nat
  deriving DecidableEq, Repr

/-- R164: the fields of a descriptor's 64 bytes. -/
def MoveDesc.parse (b : List Byte) : MoveDesc :=
  { ext := [fieldAt b 0 4, fieldAt b 4 4, fieldAt b 8 4, fieldAt b 12 4]
    vstr := [fieldAt b 16 8, fieldAt b 24 8, fieldAt b 32 8]
    sstr := [fieldAt b 40 4, fieldAt b 44 4, fieldAt b 48 4] }

/-- R164: extents within their ranges, reserved bytes zero. -/
def moveDescOk (b : List Byte) : Bool :=
  let d := MoveDesc.parse b
  d.ext.all (fun e => decide (0 < e)) && decide (d.ext.getD 0 0 ≤ 16777216) && (d.ext.drop 1).all (fun e => decide (e ≤ 65536)) &&
  fieldAt b 52 12 == 0

/-- R165: the furthest stage byte of a move, relative to its stage address. -/
def MoveDesc.span (d : MoveDesc) : Nat :=
  (d.ext.getD 1 1 - 1) * d.sstr.getD 0 0 + (d.ext.getD 2 1 - 1) * d.sstr.getD 1 0 + (d.ext.getD 3 1 - 1) * d.sstr.getD 2 0 + d.ext.getD 0 1

/-- R163, R164: the rows of a move: stage offset and virtual address of each, dimension 1 fastest. -/
def MoveDesc.rows (d : MoveDesc) (va st : Nat) : List (Nat × Nat) :=
  (List.range (d.ext.getD 3 1)).flatMap fun k => (List.range (d.ext.getD 2 1)).flatMap fun j => (List.range (d.ext.getD 1 1)).map fun i =>
    (st + i * d.sstr.getD 0 0 + j * d.sstr.getD 1 0 + k * d.sstr.getD 2 0,
      (va + i * d.vstr.getD 0 0 + j * d.vstr.getD 1 0 + k * d.vstr.getD 2 0) % 2 ^ 48)

namespace State

/-- R163, R224: a row cut at 4 KiB boundaries: each piece with its virtual address, or the address that faults. -/
def rowSegs (s : State) (t : Nat) (write : Bool) : Nat → Nat → Nat → Nat → List (Nat × Sum Seg Nat)
  | 0, _, _, _ => []
  | fuel + 1, st, va, n =>
    if n = 0 then []
    else
      let k := min n (4096 - va % 4096)
      let x : Sum Seg Nat := match s.translate t va write with
        | none => .inr va
        | some (.here a) => .inl { stage := st, kind := 0, addr := a, len := k }
        | some (.remote g) => .inl { stage := st, kind := 1, addr := g, len := k }
        | some (.host r o) =>
          if (s.hostRange t r o k).isNone then .inr va else .inl { stage := st, kind := 2, host := r, addr := o, len := k }
      (va, x) :: rowSegs s t write fuel (st + k) ((va + k) % 2 ^ 48) (n - k)

/-- The pieces of a move. -/
def moveSegs (s : State) (t : Nat) (write : Bool) (d : MoveDesc) (va st : Nat) : List (Nat × Sum Seg Nat) :=
  (d.rows va st).flatMap fun r => s.rowSegs t write (d.ext.getD 0 1 / 4096 + 2) r.1 r.2 (d.ext.getD 0 1)

/-- The pieces that translate. -/
def goodSegs (l : List (Nat × Sum Seg Nat)) : List (Nat × Seg) :=
  l.filterMap fun x => match x.2 with | .inl g => some (x.1, g) | .inr _ => none

/-- The first address that faults. -/
def firstFault (l : List (Nat × Sum Seg Nat)) : Option Nat :=
  (l.find? fun x => match x.2 with | .inl _ => false | .inr _ => true).map Prod.fst

/-- R166, R229: copy a local piece into stage memory with its poison marks. `base` is the local address of the context's
stage memory. -/
def loadSeg (s : State) (base : Nat) (g : Seg) : State :=
  let s1 := s.writeBytes (base + g.stage) (s.readN g.addr g.len)
  (s.poison.filter fun w => decide (g.addr < 64 * w + 64 ∧ 64 * w < g.addr + g.len)).foldl (fun x w =>
    let lo := max g.addr (64 * w)
    x.markPoison (base + g.stage + (lo - g.addr)) (min (64 * w + 64) (g.addr + g.len) - lo)) s1

/-- R163, R166: the local bytes of a move that met a translation fault: each is written or left, which is open (log entry 6). A
granule that takes a byte of poisoned data is marked; one that is written whole, from good data, loses its mark. -/
def partWrite (s : State) (src a n i0 : Nat) : State :=
  let wrote := fun i => Config.moveWrote s.free (i0 + i)
  let taint := fun w => (List.range n).any fun i => wrote i && (a + i) / 64 == w && s.poisoned (src + i)
  let whole := fun w => decide (a ≤ 64 * w ∧ 64 * w + 64 ≤ a + n) && (List.range 64).all fun j => wrote (64 * w + j - a)
  { s with
    mem := (List.range n).foldl (fun m i => if wrote i then m.write (a + i) (s.read8 (src + i)) else m) s.mem
    poison := (List.range (if n = 0 then 0 else (a + n - 1) / 64 - a / 64 + 1)).foldl (fun p j =>
      if taint (a / 64 + j) then insertNat (a / 64 + j) p else if whole (a / 64 + j) then p.filter (· != a / 64 + j) else p) s.poison }

/-- R163: the partial effect of a load or store whose translation faulted. -/
def partMove (s : State) (store : Bool) (base : Nat) (gs : List (Nat × Seg)) : State :=
  let r := gs.foldl (fun (r : State × Nat) x =>
    let g := x.2
    let s1 := if g.kind ≠ 0 then r.1
      else if store then r.1.partWrite (base + g.stage) g.addr g.len r.2
      else r.1.partWrite g.addr (base + g.stage) g.len r.2
    (s1, r.2 + g.len)) (s, 0)
  { r.1 with free := r.1.free + 1 }

/-- R386, R225: start one piece of a load: read it here, or ask the other module or the host for it. -/
def startLoad (n p stream t base : Nat) (x : Nat × Seg) (r : List Await × State) : List Await × State :=
  let g := x.2
  if g.kind = 0 then (r.1, r.2.loadSeg base g)
  else if g.kind = 1 then
    let y := r.2.sendRead stream t g.addr g.len n p (base + g.stage) x.1
    (r.1 ++ [.read y.1 x.1], y.2)
  else
    let id := r.2.host.nextId
    (r.1 ++ [.host id x.1], r.2.regionRead t g.host g.addr g.len (.moveIn n p x.1 (base + g.stage)))

/-- R385, R225, R431: start one piece of a store. -/
def startStore (n p stream t base : Nat) (x : Nat × Seg) (r : List Await × State) : List Await × State :=
  let g := x.2
  let bs := r.2.readN (base + g.stage) g.len
  if g.kind = 0 then
    let m := (r.2.writeBytes g.addr bs).mirrorWrite g.addr bs
    (r.1 ++ m.1.map .mirror, m.2)
  else if g.kind = 1 then
    let y := r.2.sendWrite stream t g.addr bs
    (r.1 ++ y.1.map fun k => .frame stream (r.2.opDst (r.2.roleOf t) (g.addr / 2 ^ 44)) k x.1, y.2)
  else
    let id := r.2.host.nextId
    (r.1 ++ [.host id x.1], r.2.regionWrite t g.host g.addr bs (.moveOut n p x.1))

/-- R224, R225, R388, R398: the contexts that wait for what `p` names stop with cause TRANSLATION at the address that failed. -/
def failAwait (s : State) (p : Await → Bool) : State :=
  ((s.awaiting p).foldl (fun s x => s.stopCtx x.1 x.2.1 x.2.2.1.eng x.2.2.1.stream causeTrans x.2.2.1.word x.2.2.1.pc x.2.2.2) s).dropAwait p

/-- R161, R162: is there room for one more move or atomic on an engine of a context. -/
def moveRoom (s : State) (n : Nat) (c : Ctx) (eng : Nat) : Bool :=
  decide ((c.moves.filter fun m => m.eng == eng).length < 32 / s.coreP n)

end State

/-- R163 to R166: a load (engine 0) or store (engine 3) move starts. -/
def startMove (eng : Nat) (l : Loc) (s : State) : State :=
  s.startHead l.core l.part l.stream eng 1 fun c q =>
    if !s.moveRoom l.core c eng then s
    else
      let w := q.word
      let halt := fun (s : State) h => (s.setCtx l.core l.part c).haltCtx l.core l.part eng l.stream q h
      let store := eng == 3
      let base := c.stageAt l.core 0
      match s.stageRead l.core c (Iw.mvDesc w) 64 with
      | .error h => halt s h
      | .ok b =>
        if !moveDescOk b then halt s .illegal
        else
          let d := MoveDesc.parse b
          let va := (c.reg (Iw.mvReg w)).toNat % 2 ^ 48
          if !c.inStage (Iw.mvAddr w) d.span then halt s (.trans 0)
          else
            let segs := s.moveSegs c.tenant store d va (Iw.mvAddr w)
            let good := State.goodSegs segs
            if store && good.any (fun x => x.2.kind == 0 && s.repairHolds x.2.addr x.2.len) then s
            else if store && good.any (fun x => s.poisonedIn (base + x.2.stage) x.2.len) then halt s (.poison 0)
            else match State.firstFault segs with
              | some bad => halt (s.partMove store base good) (.trans bad)
              | none =>
                match good.find? fun x => x.2.kind == 1 && s.peerFails (x.2.addr / 2 ^ 44) with
                | some x => halt (s.partMove store base (good.filter fun y => y.2.kind == 0)) (.trans x.1)
                | none =>
                  let r := good.foldl (fun r x =>
                    if store then State.startStore l.core l.part l.stream c.tenant base x r
                    else State.startLoad l.core l.part l.stream c.tenant base x r) (([], s) : List Await × State)
                  let m : Move := { eng := eng, word := w, pc := q.pc, stream := l.stream, segs := good.map Prod.snd, awaits := r.1, isAtom := false }
                  r.2.putCtx l.core l.part { c with moves := c.moves ++ [m] }

def execLdT (l : Loc) (s : State) : Result := .next (startMove 0 l s)
def execStT (l : Loc) (s : State) : Result := .next (startMove 3 l s)

/-! ### Atomics -/

/-- R177: the new value of an atomic on a word of `n` bits. -/
def atomicNew (op n old v cmp : Nat) : Nat :=
  let v := v % 2 ^ n
  if op = 0 then (old + v) % 2 ^ n
  else if op = 1 then v
  else if op = 2 then (if old = cmp % 2 ^ n then v else old)
  else if op = 3 then (if signedOf n old < signedOf n v then v else old)
  else if op = 4 then (if signedOf n v < signedOf n old then v else old)
  else if op = 5 then old ||| v
  else old &&& v

/-- R177: an atomic on a tenant virtual address. -/
def startAtom (l : Loc) (s : State) : State :=
  s.startHead l.core l.part l.stream 3 2 fun c q =>
    if !s.moveRoom l.core c 3 then s
    else
      let w := q.word
      let halt := fun (s : State) h => (s.setCtx l.core l.part c).haltCtx l.core l.part 3 l.stream q h
      let n := if Iw.atWide w then 8 else 4
      let va := (c.reg (Iw.mvReg w)).toNat % 2 ^ 48
      let v := (c.reg (Iw.atReg w)).toNat
      let cmp := (c.reg (Iw.atCmp w)).toNat
      let m : Move := { eng := 3, word := w, pc := q.pc, stream := l.stream, segs := [], awaits := [], isAtom := true }
      if va % n ≠ 0 then halt s .illegal
      else if !c.inStage (Iw.atAddr w) n then halt s (.trans 0)
      else match s.translate c.tenant va true with
        | none => halt s (.trans va)
        | some (.host _ _) => halt s (.trans va)
        | some (.here a) =>
          if s.repairHolds a n then s
          else if s.poisonedIn a n then halt s (.poison va)
          else
            let old := s.readLe a n
            let r := (s.writeBytes a (leBytes n (atomicNew (Iw.atOp w) (8 * n) old v cmp))).mirrorWrite a
              (leBytes n (atomicNew (Iw.atOp w) (8 * n) old v cmp))
            let s1 := r.2.writeBytes (c.stageAt l.core (Iw.atAddr w)) (leBytes n old)
            s1.putCtx l.core l.part { c with moves := c.moves ++ [{ m with
              segs := [{ stage := Iw.atAddr w, kind := 0, addr := a, len := n }], awaits := r.1.map .mirror }] }
        | some (.remote g) =>
          let dst := g / 2 ^ 44
          if s.peerFails dst then halt s (.trans va)
          else if 64 ≤ (s.fab.atoms.filter fun x => x.dst == s.opDst (s.roleOf c.tenant) dst).length then s
          else
            let x := s.issue { type := frAtomic, flags := 2, cls := l.stream, src := s.roleOf c.tenant, dst := dst, tenant := c.tenant % 256
                               area := leBytes 8 (g % 2 ^ 44) ++ leBytes 1 (Iw.atOp w) ++ leBytes 1 (bit (Iw.atWide w))
                               payload := leBytes 8 v ++ leBytes 8 cmp }
            let run : AtomRun := { dst := s.opDst (s.roleOf c.tenant) dst, cls := l.stream, psn := x.1, core := l.core, part := l.part
                                   stage := c.stageAt l.core (Iw.atAddr w), width := n, va := va }
            let s1 := x.2.setFab { x.2.fab with atoms := x.2.fab.atoms ++ [run] }
            s1.putCtx l.core l.part { c with moves := c.moves ++ [{ m with
              segs := [{ stage := Iw.atAddr w, kind := 1, addr := g, len := n }], awaits := [.atom l.stream run.dst x.1 va] }] }

def execStAt (l : Loc) (s : State) : Result := .next (startAtom l s)

/-! ### Retirement -/

/-- The moves of a context without the one at a place. -/
def dropNth {α : Type} (l : List α) (k : Nat) : List α := l.take k ++ l.drop (k + 1)

/-- R161, R169: the move at place `k` of a context has its last byte and retires with its signal. -/
def execMoveComplete (core part k : Nat) (s : State) : Result :=
  match s.ctx core part with
  | none => .next s
  | some c =>
    match c.moves[k]? with
    | none => .next s
    | some m =>
      let open_ := m.awaits.filter fun a => match a with | .mirror psn => !s.mirAcked psn | _ => true
      .next (if open_.isEmpty then s.putCtx core part ({ c with moves := dropNth c.moves k }.signalOf m.word) else s)

end Sys2Proof.Machine
end

