-- ==== Sys2Proof/Machine/FabIn.lean ====
section
/-! DEFINITION. What arrives on a fabric port (chapter 13): the checks of R375 and R380, sequencing (R383, R391), the
application of sequenced frames at their destination (R385 to R390; R431, R432 for the pair). -/

namespace Sys2Proof.Machine

/-! ### Well-formed frames (R377 to R380) -/

def zeroAt (b : List Byte) (o n : Nat) : Bool := fieldAt b o n == 0

/-- R378, R411, R432: is a frame of a sequenced type. -/
def Frame.sequenced (f : Frame) : Bool :=
  f.type == frWrite || f.type == frRead || f.type == frAtomic || f.type == frChunkReq ||
  (f.type == frColl && fieldAt f.area 8 1 != 2) || (f.type == frMirror && fieldAt f.area 0 1 != 1 && fieldAt f.area 0 1 != 2)

/-- R378: the classes of a type. -/
def classOk (type cls : Nat) : Bool :=
  match type with
  | 1 | 2 | 3 => decide (cls ≤ 2) || cls == 5
  | 4 | 5 => decide (cls ≤ 2)
  | 6 => decide (cls ≤ 6)
  | 7 | 12 => cls == 7
  | 8 | 9 => cls == 4
  | 10 => cls == 3
  | 11 => cls == 6
  | _ => false

/-- R379, R411, R432: the ranges and reserved bytes of a type area, and the payload's form. -/
def areaOk (f : Frame) : Bool :=
  let a := f.area
  let n := f.payload.length
  match f.type with
  | 1 => decide (fieldAt a 0 8 < 2 ^ 44) && zeroAt a 16 8
  | 2 => decide (fieldAt a 0 8 < 2 ^ 44 ∧ 1 ≤ fieldAt a 8 4 ∧ fieldAt a 8 4 ≤ 1048576) && zeroAt a 16 8 && n == 0
  | 3 => zeroAt a 16 8
  | 4 => decide (fieldAt a 0 8 < 2 ^ 44 ∧ fieldAt a 8 1 ≤ 6 ∧ fieldAt a 9 1 ≤ 1) && fieldAt a 0 8 % (4 * (1 + fieldAt a 9 1)) == 0 && zeroAt a 10 14 && n == 16
  | 5 => zeroAt a 4 4 && zeroAt a 16 8 && n == 0
  | 6 => decide (1 ≤ fieldAt a 4 1 ∧ fieldAt a 4 1 ≤ 4) && zeroAt a 5 3 && zeroAt a 12 4 && n == 0
  | 7 => decide (fieldAt a 4 1 < 8 ∧ fieldAt a 5 1 ≤ 8) && zeroAt a 6 2 && zeroAt a 16 8 && n == 8 * fieldAt a 5 1
  | 8 => zeroAt a 12 12 && n == 0
  | 9 => decide (fieldAt a 12 2 < fieldAt a 14 2)
  | 10 => decide (1 ≤ fieldAt a 8 1 ∧ fieldAt a 8 1 ≤ 9 ∧ 1 ≤ fieldAt a 9 1 ∧ fieldAt a 9 1 ≤ 7) && zeroAt a 22 2 &&
      (fieldAt a 9 1 != 1 || fieldAt a 16 4 % 264 == 0)
  | 11 => decide (1 ≤ fieldAt a 0 1 ∧ fieldAt a 0 1 ≤ 9 ∧ fieldAt a 2 2 < 8192) && zeroAt a 1 1 && (fieldAt a 0 1 == 4 || zeroAt a 6 2)
  | 12 => decide (1 ≤ fieldAt a 0 1 ∧ fieldAt a 0 1 ≤ 7) && zeroAt a 1 3 && n == 0
  | _ => false

/-- R380: is a frame malformed. -/
def malformed (lim : Nat) (b : List Byte) : Bool :=
  let f := Frame.parse b
  let hi := fun x n => decide (2 ^ n ≤ x)
  decide (b.length < 48) || fieldAt b 0 1 != 1 || hi f.flags 4 || hi f.cls 3 || hi f.src 13 || hi f.dst 13 || !zeroAt b 22 2 ||
  fieldAt b 14 2 != b.length - 48 || decide (lim < f.payload.length) || !classOk f.type f.cls ||
  (decide (f.cls ≤ 2) != (f.tenant != 0)) || (f.sequenced != (f.psn != 0)) || !areaOk f

namespace State

/-! ### Responses -/

/-- R388, R380: a REJECT of a sequenced frame, counted in FAB_REJTX. -/
def sendReject (s : State) (f : Frame) (reason : Nat) : State :=
  let id := if f.type = frWrite then fieldAt f.area 8 4 else if f.type = frRead then fieldAt f.area 12 4 else 0
  (s.sendPlain { type := frReject, cls := f.cls, src := f.dst, dst := f.src, tenant := f.tenant
                 area := leBytes 4 f.psn ++ leBytes 1 reason ++ zeros 3 ++ leBytes 4 id ++ zeros 4 ++ leBytes 8 (fieldAt f.area 0 8) }).bump
    Reg.FAB_REJTX 1

/-- R389: bit i marks bytes 64 i to 64 i + 63 of a payload read at `a` as poisoned. -/
def poisonMask (s : State) (a n : Nat) : Nat :=
  ((List.range (ceilDiv n 64)).map fun i => bit (s.poisonedIn (a + 64 * i) (min 64 (n - 64 * i))) * 2 ^ i).sum

/-- R386: the READ_RESP frames of a READ of `n` bytes at local address `a`. -/
def sendResp (s : State) (f : Frame) (a n : Nat) : State :=
  let lim := s.payLimit
  (List.range (ceilDiv n lim)).foldl (fun s i =>
    let k := min lim (n - i * lim)
    s.sendPlain { type := frReadResp, flags := 2 * bit (decide (n ≤ i * lim + k)), cls := f.cls, src := f.dst, dst := f.src, tenant := f.tenant
                  area := leBytes 4 (fieldAt f.area 12 4) ++ leBytes 4 (i * lim) ++ leBytes 8 (s.poisonMask (a + i * lim) k)
                  payload := s.readN (a + i * lim) k }) s

/-- R387: the answer to an atomic from its record. -/
def sendAtomResp (s : State) (f : Frame) (r : AtomRec) : State :=
  s.sendPlain { type := frAtomicResp, flags := 2 + 4 * bit r.poison, cls := f.cls, src := f.dst, dst := f.src, tenant := f.tenant
                area := leBytes 4 r.psn ++ zeros 4 ++ leBytes 8 r.old }

/-- R387: the record of an atomic of a source toward a role. -/
def atomKey (f : Frame) : Nat := f.src * 8192 + f.dst
def atomRec? (s : State) (f : Frame) : Option AtomRec :=
  (Tab.get [] s.fab.recs (atomKey f)).find? fun r => r.cls == f.cls && r.psn == f.psn
def putAtomRec (s : State) (f : Frame) (r : AtomRec) : State :=
  s.setFab { s.fab with recs := Tab.set [] s.fab.recs (atomKey f) ((r :: Tab.get [] s.fab.recs (atomKey f)).take 64) }

/-! ### Access to this module's memory (R226, R388, R436) -/

/-- Where a local address of a role lies here, with its ownership entry; the reason where it is not accessible. F's pages are
served from their mirrors; those without one are not served. -/
def target (s : State) (dst a : Nat) : Except Nat (Nat × Word64) :=
  if dst = s.self then
    (match granuleOf a with
     | some i => .ok (a, s.gran i)
     | none => if isStage a then .error 1 else .error 2)
  else match s.servedAt a with
    | none => .error 4
    | some x => .ok x

/-- R226, R251: may a tenant's frame access a granule; a shared loft granule goes by the mask of the loft model that its
MODEL field names. Class 5 carries no tenant: it may use any tenant's fabric-visible granules (log entry 20). -/
def mayAccess (s : State) (cls tenant : Nat) (w : Word64) (write : Bool) : Bool :=
  if gShared w then !write && s.loftAllows tenant w
  else gState w == 1 && (if cls = 5 then gOwner w != 0 else gOwner w == tenant) && gFv w && !(write && gRo w)

/-- The local address of an access of `n` bytes, or why it is rejected. -/
def access (s : State) (f : Frame) (a n : Nat) (write : Bool) : Except Nat Nat :=
  match s.target f.dst a, s.target f.dst (a + n - 1) with
  | .ok x, .ok y => if s.mayAccess f.cls f.tenant x.2 write && s.mayAccess f.cls f.tenant y.2 write then .ok x.1 else .error 1
  | .error e, _ => .error e
  | _, .error e => .error e

/-! ### Application (R383) -/

/-- What applying a frame came to: not possible yet; done; done once the partner acknowledges a class-6 frame. -/
inductive Applied where
  | wait
  | done (s : State)
  | mirror (s : State) (psn : Nat)

/-- R431: done at once, or when the last of the mirror frames is acknowledged. -/
def mirDone (r : List Nat × State) : Applied := match r.1.getLast? with
  | none => .done r.2
  | some p => .mirror r.2 p

def applyWrite (s : State) (f : Frame) : Applied :=
  let a := fieldAt f.area 0 8 + fieldAt f.area 12 4
  if f.payload.isEmpty then .done s
  else match s.access f a f.payload.length true with
    | .error e => .done (s.sendReject f e)
    | .ok x =>
      if s.repairHolds x f.payload.length then .wait
      else mirDone ((s.writeBytes x f.payload).mirrorWrite x f.payload)

def applyRead (s : State) (f : Frame) : Applied :=
  match s.access f (fieldAt f.area 0 8) (fieldAt f.area 8 4) false with
  | .error e => .done (s.sendReject f e)
  | .ok x => .done (s.sendResp f x (fieldAt f.area 8 4))

/-- R387, R389: an atomic is applied once; a poisoned word stays as it is. On a MIR page the new value and the record go to the partner
first. -/
def applyAtomic (s : State) (f : Frame) : Applied :=
  match s.atomRec? f with
  | some r => .done ((s.sendAtomResp f r).bump Reg.FAB_DUPATOM 1)
  | none =>
    let n := 4 * (1 + fieldAt f.area 9 1)
    match s.access f (fieldAt f.area 0 8) n true with
    | .error e => .done (s.sendReject f e)
    | .ok x =>
      if s.repairHolds x n then .wait
      else if s.poisonedIn x n then
        let r : AtomRec := { cls := f.cls, psn := f.psn, old := 0, poison := true }
        .done ((s.putAtomRec f r).sendAtomResp f r)
      else
        let old := s.readLe x n
        let new := leBytes n (atomicNew (fieldAt f.area 8 1) (8 * n) old (fieldAt f.payload 0 8) (fieldAt f.payload 8 8))
        let r : AtomRec := { cls := f.cls, psn := f.psn, old := old, poison := false }
        let m := ((s.writeBytes x new).putAtomRec f r).mirrorWrite x new
        if m.1.isEmpty then .done (m.2.sendAtomResp f r)
        else
          let y := m.2.sendMirror 4 f.dst recAtom 0 0 (leBytes 2 f.src ++ leBytes 1 f.cls ++ zeros 1 ++ leBytes 4 f.psn ++ leBytes 8 old) false
          .mirror y.2 y.1

/-- R390, R287: a chunk request is accepted and served. `raw`: the training shard's bytes where this module serves the piece
as understudy. -/
def applyChunkReq (s : State) (f : Frame) (raw : Option (List Byte)) : State :=
  let num := s.keyAt f.dst (fieldAt f.area 0 4)
  match Tab.find? s.curtain.runs num with
  | none => s
  | some c =>
    match c.entries.find? fun p => p.piece == fieldAt f.area 4 4 with
    | none => s
    | some p =>
      let k := fieldAt f.area 8 4
      match if k < p.chunks then servePiece s c p raw else none with
      | none => s
      | some d =>
        let o := k * 2 ^ 20
        let n := p.chunkLen k
        let bs := sliceBytes d.bytes o n
        let lim := s.payLimit
        let parts := ceilDiv n lim
        let crc := (crc64 bs).toNat
        ((List.range parts).foldl (fun s i =>
          s.sendPlain { type := frChunk, flags := 2 * bit (i + 1 == parts) + 4 * bit (d.poisonIn o n), cls := 4, src := f.dst, dst := f.src
                        area := leBytes 4 num ++ leBytes 4 p.piece ++ leBytes 4 k ++ leBytes 2 i ++ leBytes 2 parts ++ leBytes 8 crc
                        payload := (bs.drop (i * lim)).take lim }) (s.countRig p.gfmt d o n)).bump Reg.RIG_SERVED 1

/-- R430: a record that gives a mirror granule its entry, STATE 2 with MIR and its primary's index, follows the one of the
primary, whose MGRAN names it. R237: a record of the partner's spill pool allocates a granule to a tenant, or frees it. -/
def recordIn (s : State) (kind : Nat) (b : List Byte) : State :=
  if kind = recGran then
    let w := BitVec.ofNat 64 (fieldAt b 0 8)
    match s.pair.recs.getLast? with
    | none => s
    | some p =>
      let j := fieldAt p.bytes 0 4 % 2 ^ 19
      if p.skind = recGran && gState w = 2 && gMir w && gOwner w = 0 && gState (s.gran j) = 0 && j < 393216 then
        s.putGran j w
      else s
  else if kind = recPool then
    let t := fieldAt b 0 2
    let j := fieldAt b 4 4
    if fieldAt b 2 1 = 1 then
      (if s.granFree j && j < 393216 && decide (s.regField (Reg.TNT_GRANUSE t) 0 19 < s.regField (Reg.TNT_GRANLIM t) 0 19) then
        s.putGran j (mkGran t 1 true false false false 0)
       else s)
    else if gOwner (s.gran j) = t && gState (s.gran j) = 1 && gFv (s.gran j) then s.freeGran 0 j else s
  else s

/-- R430, R431, R432: a sequenced MIRROR frame. -/
def applyMirror (s : State) (f : Frame) : State :=
  let a := fieldAt f.area 8 8
  let role := fieldAt f.area 2 2
  let ep := fieldAt f.area 4 2
  match fieldAt f.area 0 1 with
  | 3 => s.writeBytes a f.payload
  | 4 => (s.recordIn (fieldAt f.area 6 2) f.payload).setPair { s.pair with recs := s.pair.recs ++ [{ role := role, repoch := ep, skind := fieldAt f.area 6 2, bytes := f.payload }] }
  | 5 =>
    let n := fieldAt f.area 16 8
    let bad := s.poisonedIn a n
    ((s.sendMirror 6 role 0 (gMgran (s.granAt a) * 2 ^ 21 + a % 2 ^ 21) 0 (s.readN a (min n s.payLimit)) bad).2).bump Reg.PAI_REPAIRS 1
  | 6 =>
    let s1 := { s with loft := { s.loft with repairs := s.loft.repairs.filter (· != a / 64) } }
    if !s.loft.repairs.elem (a / 64) then s
    else if tbit f.flags 2 then s1.giveUp a else (s1.writeBytes a f.payload).bump Reg.MEM_REPAIRED 1
  | 7 =>
    if s.pairState = 1 || s.pairState = 2 || s.pairState = 5 || s.pairState = 6 then (s.pairTo 7).bump Reg.PAI_FENCES 1 else s
  | 8 =>
    let s1 := if role = s.self && s.pairState = 5 then s.setField Reg.PAI_REPOCH 0 16 ep else s
    (s1.writeBytes a f.payload).setField Reg.PAI_RESYNC 31 1 (bit (s.pairState == 5))
  | 9 => if s.pairState = 5 then (s.setRegN Reg.PAI_RESYNC (2 ^ 31 + 100)).pairTo 6 else s
  | _ => s

/-- Apply the sequenced frame of a flow that is next in order. A frame that was malformed has no effect. -/
def applyFrame (s : State) (f : Frame) (raw : Option (List Byte)) : Applied :=
  match f.type with
  | 1 => s.applyWrite f
  | 2 => s.applyRead f
  | 4 => s.applyAtomic f
  | 8 => .done (s.applyChunkReq f raw)
  | 10 => .done ((s.collIn f).collLoop 64)
  | 11 => .done (s.applyMirror f)
  | _ => .done s

/-- The frame that a flow expects is applied: its place is passed. -/
def passFrame (s : State) (k : Nat) : State :=
  let x := s.inFlow k
  s.setIn k { x with expect := nextPsn x.expect, held := Tab.drop x.held x.expect, mir := none }

/-- Apply the held frames of a flow in psn order as far as they go. -/
def drainFlow (raw : Option (List Byte)) (k : Nat) : Nat → State → State
  | 0, s => s
  | n + 1, s =>
    let x := s.inFlow k
    match Tab.find? x.held x.expect with
    | none => s
    | some f =>
      match x.mir with
      | some p =>
        if !s.mirAcked p then s
        else
          let s1 := s.passFrame k
          let s2 := if f.type = frAtomic then (match s1.atomRec? f with | some r => s1.sendAtomResp f r | none => s1) else s1
          drainFlow raw k n s2
      | none =>
        match s.applyFrame f raw with
        | .wait => s
        | .done t => drainFlow raw k n (t.passFrame k)
        | .mirror t p => t.setIn k { t.inFlow k with mir := some p }

/-- Every flow that waited for the partner or for a repair goes on. -/
def drainAll (s : State) : State :=
  (s.fab.inn.filter fun x => !x.2.held.isEmpty).foldl (fun s x => drainFlow none x.1 (2 * x.2.held.length + 2) s) s

/-! ### Arrival (R375, R391, R396) -/

/-- R433: a valid class-6 or class-7 frame of the partner on a pair port. In SEVERED it ends the severance, and what was
held back is released in order (R435). -/
def heartbeat (s : State) : State :=
  let s1 := s.setPair { s.pair with beatAt := s.clk, probeAt := none }
  if s.pairState = 2 then
    let s2 := s1.pairTo 1
    s.pair.held.foldl (fun s o => s.emit o) (s2.setPair { s2.pair with held := [] })
  else s1

/-- R397: a valid frame from the module itself ends LOST and UNREACHABLE; held frames go out. -/
def peerHeard (s : State) (m : Nat) : State :=
  let s1 := s.setPeer m { s.peer m with heard := s.clk, probed := none }
  if s.peerState m = 2 || s.peerState m = 4 then
    let s2 := s1.setPeerState m 1
    (s2.fab.flows.filter fun x => flowDst x.1 == m).foldl (fun s x => s.pump x.1) s2
  else s1

/-- R375: is a frame a stranger's. A redirected role is accepted only from its serving module, and the module itself with
its own TAKEOVER (R445; log entry 21). -/
def stranger (s : State) (a : Arrival) (f : Frame) : Bool :=
  let st := s.peerState f.src
  let own := s.fabAddr f.src f.plane
  let back := f.type == frCtrl && fieldAt f.area 0 1 == 4 && fieldAt f.area 4 4 == f.src
  let from_ := if st = 3 && !back then s.fabAddr (s.serving f.src) f.plane else own
  a.udp != s.regField Reg.FAB_CFG 16 16 || fieldAt a.bytes 4 4 != s.regN Reg.FAB_DOMAIN || !s.member f.src || f.src == s.self ||
  (st == 3 && !back && s.serving f.src == f.src) || a.ipsrc != from_ || f.plane != a.port ||
  !(f.dst == s.self || (s.servesPartner && f.dst == s.partner))

/-- R391: a sequenced frame reaches its flow. -/
def takeFrame (s : State) (a : Arrival) (f : Frame) (raw : Option (List Byte)) : State :=
  let k := flowKey f.src f.dst f.cls
  let x := s.inFlow k
  if f.fepoch ≠ x.fepoch then s
  else
    let gap := psnGap x.expect f.psn
    if gap < 2 ^ 31 && 16384 ≤ gap then s.bump Reg.FAB_OOW 1
    else
      let x1 := { x with since := x.since + 1, rx := x.rx + 1, ce := x.ce + bit a.ce, plane := a.port
                         firstAt := some (x.firstAt.getD s.clk) }
      let dup := psnBefore f.psn x.expect || (Tab.find? x.held f.psn).isSome
      let s1 := if dup then
          (let s1 := s.setIn k x1
           if f.type = frAtomic && psnBefore f.psn x.expect then
             (match s1.atomRec? f with
              | some r => (s1.sendAtomResp f r).bump Reg.FAB_DUPATOM 1
              | none => s1)
           else s1)
        else drainFlow raw k (2 * x.held.length + 3) (s.setIn k { x1 with held := Tab.setSome x1.held f.psn f })
      if dup || gap != 0 || tbit f.flags 3 || decide (8 ≤ x1.since) then s1.sendAck k else s1

/-- A frame on a fabric port, by R375 and R380. Answers the frame where it is valid and unsequenced; sequenced frames are
applied in order. -/
def frameIn (s : State) (a : Arrival) (raw : Option (List Byte)) : Option Frame × State :=
  if s.linkState a.port ≠ 4 then (none, s)
  else
    let s0 := ((s.bump (Reg.FAB_PRX a.port) 1).bump (Reg.FAB_PCORR a.port) a.corr).bump (Reg.FAB_PUNCORR a.port) a.uncorr
    let f := Frame.parse a.bytes
    if !a.macsec then (none, s0.bump Reg.FAB_MACSECDROP 1)
    else if s0.stranger a f then (none, s0.bump Reg.FAB_STRANGER 1)
    else
      let bad := malformed s0.payLimit a.bytes
      if bad && !f.sequenced then (none, s0.bump Reg.FAB_MALF 1)
      else if bad then (none, (((s0.bump Reg.FAB_MALF 1).sendReject f 3).takeFrame a { f with type := 0 } raw))
      else
        let s1 := (if a.ce then s0.bump Reg.FAB_ECNRX 1 else s0).peerHeard f.src
        let s2 := if s1.isPairPort a.port && decide (6 ≤ f.cls) && f.src == s1.partner then s1.heartbeat else s1
        if f.sequenced then
          let s3 := s2.takeFrame a f raw
          (some f, if s3.pairState = 7 then s3.fenceReset else s3)
        else (some f, s2)

/-- Does an arrival belong to a row: its type and subtype, or a type that no row has. -/
def rowFits (a : Arrival) (type : Nat) (sub : Option (Nat × Nat)) : Bool :=
  let f := Frame.parse a.bytes
  let known := decide (1 ≤ f.type ∧ f.type ≤ 12)
  !known || (f.type == type && (match sub with | none => true | some x => fieldAt f.area x.1 1 == x.2))

/-- The row of a sequenced frame type. -/
def seqRow (type : Nat) (sub : Option (Nat × Nat)) (a : Arrival) (raw : Option (List Byte)) (s : State) : State :=
  if rowFits a type sub then (s.frameIn a raw).2 else s

/-- The row of an unsequenced frame type: its effect on a valid frame. -/
def plainRow (type : Nat) (sub : Option (Nat × Nat)) (a : Arrival) (k : State → Frame → State) (s : State) : State :=
  if !rowFits a type sub then s
  else match s.frameIn a none with
    | (some f, t) => if f.type = type then k t f else t
    | (none, t) => t

end State

end Sys2Proof.Machine
end

