-- ==== Sys2Proof/Machine/Fabric.lean ====
section
/-! DEFINITION. The Bexica fabric (chapter 13): the rows of its frames, its timers, loss and redirection, link states; the
COLL frames of chapter 14. -/

namespace Sys2Proof.Machine

/-! ### Operations at the target (R385 to R387, R390) -/

def execWriteFrame (a : Arrival) (s : State) : Result := .next (s.seqRow frWrite none a none)
def execReadFrame (a : Arrival) (s : State) : Result := .next (s.seqRow frRead none a none)
def execAtomic (a : Arrival) (s : State) : Result := .next (s.seqRow frAtomic none a none)

/-- R287, R390: `raw` is the training shard where this module serves the piece as understudy. -/
def execChunkReq (a : Arrival) (raw : Option (List Byte)) (s : State) : Result := .next (s.seqRow frChunkReq none a raw)

/-! ### COLL frames (R411) -/

def execCollData (a : Arrival) (s : State) : Result := .next (s.seqRow frColl (some (8, 1)) a none)
def execCollReport (a : Arrival) (s : State) : Result := .next (s.seqRow frColl (some (8, 3)) a none)
def execCollMask (a : Arrival) (s : State) : Result := .next (s.seqRow frColl (some (8, 4)) a none)
def execBypassReq (a : Arrival) (s : State) : Result := .next (s.seqRow frColl (some (8, 5)) a none)
def execCollCopy (a : Arrival) (s : State) : Result := .next (s.seqRow frColl (some (8, 6)) a none)
def execWithdraw (a : Arrival) (s : State) : Result := .next (s.seqRow frColl (some (8, 7)) a none)
def execCollRepairReq (a : Arrival) (s : State) : Result := .next (s.seqRow frColl (some (8, 8)) a none)
def execQuery (a : Arrival) (s : State) : Result := .next (s.seqRow frColl (some (8, 9)) a none)
def execAggUp (a : Arrival) (s : State) : Result := .next (s.plainRow frColl (some (8, 2)) a fun s f => (s.collIn f).collLoop 64)

/-! ### Answers at the requester -/

/-- The ranges `[o, o + n)` of a READ that are still missing, first one only. -/
def firstGap (len : Nat) (got : List (Nat × Nat)) : Option (Nat × Nat) :=
  let has := fun i => got.any fun g => decide (g.1 ≤ i ∧ i < g.1 + g.2)
  let starts := (0 :: got.map fun g => g.1 + g.2).filter fun i => decide (i < len) && !has i
  match starts with
  | [] => none
  | x :: xs =>
    let o := xs.foldl min x
    let e := (got.filter fun g => decide (o < g.1)).foldl (fun m g => min m g.1) len
    some (o, e - o)

/-- R389: mark the 64-byte pieces of `n` bytes that a poison mask names; byte `i` lies at `at_ i`. -/
def markRange (s : State) (pm n : Nat) (at_ : Nat → Nat) : State :=
  (List.range (ceilDiv n 64)).foldl (fun s i => if tbit pm i then s.markPoison (at_ (64 * i)) (min 64 (n - 64 * i)) else s) s

/-- R235: bytes of the copy of a KV block reach its frames, with their marks. -/
def readBlock (s : State) (b : KvBlock) (o : Nat) (bs : List Byte) (pm : Nat) : State :=
  if b.state ≠ 3 then s
  else markRange (s.blockWrite b o bs) pm bs.length fun i => b.frames.getD ((o + i) / 4096) 0 + (o + i) % 4096

/-- R386, R389: READ_RESP: data and poison marks reach stage memory; the last byte ends the wait. What no
context and no block waits for any more is dropped (R165). -/
def readResp (s : State) (f : Frame) : State :=
  let tag := fieldAt f.area 0 4
  match Tab.find? s.fab.reads tag with
  | none => s
  | some r =>
    let o := r.base + fieldAt f.area 4 4 - r.addr
    let n := f.payload.length
    if r.dst ≠ f.src || r.cls ≠ f.cls || decide (r.len < o + n) then s
    else
      let r1 := { r with got := (o, n) :: r.got, at_ := s.clk, timed := true }
      let full := (firstGap r.len r1.got).isNone
      let note := fun (s : State) => s.setFab { s.fab with reads := if full then Tab.drop s.fab.reads tag else Tab.setSome s.fab.reads tag r1 }
      let want := fun w => match w with | Await.read t _ => t == tag | _ => false
      match r.sink with
      | some (slot, pos, group) =>
        (match s.kvBlock slot pos group with
         | none => note s
         | some b =>
           let s1 := note (readBlock s b (r.stage + o) f.payload (fieldAt f.area 8 8))
           if full && !s1.fab.reads.any (fun x => x.2.sink == r.sink) then s1.fetchDone slot pos group else s1)
      | none =>
        if (s.awaiting want).isEmpty then note s
        else
          let s1 := note (markRange (s.writeBytes (r.stage + o) f.payload) (fieldAt f.area 8 8) n fun i => r.stage + o + i)
          if full then s1.dropAwait want else s1

def execReadResp (a : Arrival) (s : State) : Result := .next (s.plainRow frReadResp none a readResp)

/-- R386: READ_TIMEOUT: the missing range is asked for again with the same rtag. -/
def execReadTimeout (rtag : Nat) (s : State) : Result :=
  match Tab.find? s.fab.reads rtag with
  | none => .next s
  | some r =>
    match firstGap r.len r.got with
    | none => .next s
    | some g =>
      if !r.timed || s.clk < r.at_ + s.ackTo then .next s
      else
        let x := s.issue { type := frRead, flags := 2, cls := r.cls, src := s.roleOf r.tenant, dst := r.dst, tenant := r.tenant % 256
                           area := leBytes 8 (r.addr + g.1) ++ leBytes 4 g.2 ++ leBytes 4 rtag }
        let r1 := { r with base := r.addr + g.1, timed := false, at_ := s.clk, psn := x.1 }
        .next (x.2.setFab { x.2.fab with reads := Tab.setSome x.2.fab.reads rtag r1 })

/-- R387, R389: ATOMIC_RESP: the old value reaches stage memory; an answer with POISON stops the context. -/
def atomResp (s : State) (f : Frame) : State :=
  let psn := fieldAt f.area 0 4
  match s.fab.atoms.find? fun x => x.dst == s.opDst f.dst f.src && x.cls == f.cls && x.psn == psn with
  | none => s
  | some x =>
    let want := fun w => match w with | Await.atom c d p _ => c == x.cls && d == x.dst && p == psn | _ => false
    let s1 := s.setFab { s.fab with atoms := s.fab.atoms.erase x }
    let live := s1.awaiting want
    if live.isEmpty then s1
    else if tbit f.flags 2 then
      (live.foldl (fun s y => s.stopCtx y.1 y.2.1 y.2.2.1.eng y.2.2.1.stream causePoison y.2.2.1.word y.2.2.1.pc y.2.2.2) s1).dropAwait want
    else (s1.writeBytes x.stage (leBytes x.width (fieldAt f.area 8 8))).dropAwait want

def execAtomicResp (a : Arrival) (s : State) : Result := .next (s.plainRow frAtomicResp none a atomResp)

/-- R388: REJECT: the requesting context stops as R224 states. -/
def rejected (s : State) (f : Frame) : State :=
  let psn := fieldAt f.area 0 4
  let s1 := s.bump Reg.FAB_REJRX 1
  let d0 := s.opDst f.dst f.src
  let tags := (s.fab.reads.filter fun r => r.2.dst == f.src && s.roleOf r.2.tenant == f.dst && r.2.cls == f.cls && r.2.psn == psn).map Prod.fst
  let want := fun w => match w with
    | Await.frame c d p _ => c == f.cls && d == d0 && p == psn
    | Await.atom c d p _ => c == f.cls && d == d0 && p == psn
    | Await.read t _ => tags.elem t
    | _ => false
  let sinks := s1.fab.reads.filterMap fun r => if tags.elem r.1 then r.2.sink else none
  let s2 := s1.setFab { s1.fab with
    reads := s1.fab.reads.filter fun r => !tags.elem r.1
    atoms := s1.fab.atoms.filter fun x => !(x.dst == d0 && x.cls == f.cls && x.psn == psn) }
  (s2.failAwait want).kvTargetFails (fun b => f.cls == 5 && b.copy / 2 ^ 44 == f.src && b.psns.elem psn) sinks

def execReject (a : Arrival) (s : State) : Result := .next (s.plainRow frReject none a rejected)

/-! ### CHUNK (R390, R304) -/

/-- R304, R389, R390: a fragment; once the chunk is complete, checked and free of poison it is written. -/
def chunkIn (s : State) (f : Frame) : State :=
  let num := s.keyAt f.dst (fieldAt f.area 0 4)
  let piece := fieldAt f.area 4 4
  let k := fieldAt f.area 8 4
  let frag := fieldAt f.area 12 2
  let n := fieldAt f.area 14 2
  match s.run? num with
  | none => s
  | some c =>
    match c.entries.find? fun p => p.piece == piece && p.dst == s.roleAt num with
    | none => s
    | some p =>
      let ck := Tab.get {} (Tab.get {} c.pieces piece).chunks k
      if p.chunks ≤ k || ck.done || ck.asked.isNone || !ck.acks.isEmpty || ck.parked.isSome || (pieceAddr s c p (k * 2 ^ 20)).isNone || n ≠ ceilDiv (p.chunkLen k) s.payLimit then s
      else
        let ck1 := { ck with frags := Tab.setSome ck.frags frag f.payload, poison := ck.poison || tbit f.flags 2 }
        if ck1.frags.length < n then s.putChunk num piece k ck1
        else
          let bs := ck1.frags.flatMap (·.2)
          let next := fun (s : State) => match s.run? num with | none => s | some c => s.issueChunks c
          if ck1.poison || bs.length ≠ p.chunkLen k || (crc64 bs).toNat ≠ fieldAt f.area 16 8 then
            next (s.chunkFail c p k Reg.RIG_CRCERR)
          else next (s.chunkDone c p k bs)

def execChunk (a : Arrival) (s : State) : Result := .next (s.plainRow frChunk none a chunkIn)

/-! ### Acknowledgement (R391, R394) -/

/-- R394: the congestion rule on an ACK. -/
def rateAck (s : State) (m ce rx : Nat) : State :=
  match Tab.find? s.fab.rates m with
  | none => s
  | some r =>
    if rx = 0 then s
    else
      let num := fun n : Nat => f32 (.fin false n 0)
      let g := s.regField Reg.FAB_RATE 0 8
      let alpha := fadd r.alpha (fdiv (fsub (fdiv (num ce) (num rx)) r.alpha) (num (2 ^ g)))
      let cut := decide (0 < ce) && r.cutAt.all fun t => decide (t + 10000 ≤ s.clk)
      let lower := fmul r.rate (fsub F32.one (fdiv alpha (num 2)))
      let r1 := if cut then { r with alpha := alpha, rate := fmax (num (s.regField Reg.FAB_RATE 8 8)) lower, cutAt := some s.clk }
        else { r with alpha := alpha }
      s.setFab { s.fab with rates := Tab.setSome s.fab.rates m r1 }

/-- R391, R393: an ACK covers frames of a flow. -/
def ackIn (s : State) (f : Frame) : State :=
  let cls := fieldAt f.area 4 1
  let cack := fieldAt f.area 0 4
  let k := flowKey f.dst f.src cls
  let fl := s.flow k
  let ranges := (List.range (fieldAt f.area 5 1)).map fun i => (fieldAt f.payload (8 * i) 4, fieldAt f.payload (8 * i + 4) 4)
  let inRange := fun p => ranges.any fun r => !psnBefore p r.1 && !psnBefore r.2 p
  let below := fl.unacked.filter fun x => psnBefore x.frame.psn cack
  let kept := (fl.unacked.filter fun x => !psnBefore x.frame.psn cack).map fun x => if inRange x.frame.psn then { x with seen := true } else x
  let planes := (below ++ kept.filter fun x => x.seen).filterMap (·.plane)
  let s1 := s.setFlow k { fl with unacked := kept }
  let d := s.serving f.src
  let s2 := planes.foldl (fun s p => let y := s.path d p; if y.losses = 0 then s else s.setPath d p { y with losses := 0 }) s1
  let psns := below.map (·.frame.psn)
  let s3 := (s2.setFab { s2.fab with reads := s2.fab.reads.map fun r =>
        if r.2.dst == f.src && s2.roleOf r.2.tenant == f.dst && r.2.cls == cls && psns.elem r.2.psn && !r.2.timed then (r.1, { r.2 with timed := true, at_ := s.clk }) else r }).dropAwait
          fun w => match w with | .frame c d p _ => c == cls && d == s2.opDst f.dst f.src && psns.elem p | _ => false
  let s4 := if cls ≤ 5 then rateAck s3 f.src (fieldAt f.area 8 4) (fieldAt f.area 12 4) else s3
  let s5 := s4.pump k
  if cls = 6 then s5.openGates.drainAll else if cls = 5 && f.dst = s.self then s5.spillAcked f.src psns else s5

def execAck (a : Arrival) (s : State) : Result := .next (s.plainRow frAck none a ackIn)

/-- R391: ACK_TIMER of a flow. -/
def execAckTimer (src dst cls : Nat) (s : State) : Result :=
  let k := flowKey src dst cls
  match (s.inFlow k).firstAt with
  | none => .next s
  | some t => .next (if t + 1000 ≤ s.clk then s.sendAck k else s)

/-! ### Retransmission and paths (R392, R393, R396) -/

/-- Send a frame of a flow again on the next up plane after its last one. -/
def resend (s : State) (k psn : Nat) : State :=
  let fl := s.flow k
  match fl.unacked.find? fun x => x.frame.psn == psn with
  | none => s
  | some x =>
    match State.nextPort (s.portsFor (State.flowCls k) (State.flowDst k)) (x.plane.getD 31) with
    | none => s
    | some p =>
      let f := { x.frame with flags := x.frame.flags / 2 * 2 + 1 }
      let s1 := s.setFlow k { fl with unacked := fl.unacked.map fun y =>
        if y.frame.psn == psn then { y with frame := f, plane := some p, at_ := s.clk } else y }
      (s1.sendOn p { f with fepoch := fl.fepoch }).bump Reg.FAB_RETX 1

/-- R396: probe a destination on up to 4 up paths, at most once per FAB_ACKTO. -/
def probePeer (s : State) (m : Nat) : State :=
  let pe := s.peer m
  if !s.member m || s.peerFails m || pe.probed.any fun t => s.clk < t + s.ackTo then s
  else ((s.upPlanes m).take 4).foldl (fun s p => s.sendCtrl m 1 0 0 0 (some p)) (s.setPeer m { pe with probed := some s.clk })

/-- R393: a path goes down for FAB_PATHHOLD; what was last sent on it goes again on other planes. -/
def pathDown (s : State) (m p : Nat) : State :=
  let s1 := (s.setPath m p { hold := some (s.clk + 1000000 * s.regField Reg.FAB_PATHHOLD 0 16) }).pathBit m p false
  let again := (s1.fab.flows.filter fun x => s.serving (State.flowDst x.1) == m).flatMap fun x =>
    (x.2.unacked.filter fun y => y.plane == some p && !y.seen).map fun y => (x.1, y.frame.psn)
  again.foldl (fun s x => resend s x.1 x.2) (s1.bump Reg.FAB_PATHDOWN 1)

/-- R392: RETRANSMIT a frame at its deadline. -/
def execRetransmit (src dst cls psn : Nat) (s : State) : Result :=
  let k := flowKey src dst cls
  match (s.flow k).unacked.find? fun x => x.frame.psn == psn with
  | none => .next s
  | some x =>
    match x.plane with
    | none => .next s
    | some p =>
      if x.seen || s.clk < x.at_ + s.ackTo || !s.flowOpen k then .next s
      else
        let d := s.serving dst
        let y := s.path d p
        let s1 := s.setPath d p { y with losses := y.losses + 1 }
        let s2 := if y.losses + 1 = 8 && !s.isPairPort p then pathDown s1 d p else resend s1 k psn
        .next (probePeer s2 dst)

/-- R393: PATH_HOLD_EXPIRY: a PROBE goes out on the path. -/
def execPathHoldExpiry (m p : Nat) (s : State) : Result :=
  let y := s.path m p
  match y.hold with
  | none => .next s
  | some t =>
    if s.clk < t || s.linkState p ≠ 4 then .next s
    else .next ((s.setPath m p { y with hold := none, probe := some s.clk }).sendCtrl m 1 0 0 0 (some p))

/-- R393: PATH_PROBE_TIMEOUT: no reply within FAB_ACKTO: the hold starts again. -/
def execPathProbeTimeout (m p : Nat) (s : State) : Result :=
  let y := s.path m p
  match y.probe with
  | none => .next s
  | some t =>
    if s.clk < t + s.ackTo then .next s
    else .next (s.setPath m p { hold := some (s.clk + 1000000 * s.regField Reg.FAB_PATHHOLD 0 16) })

/-- R394: RATE_INCREASE: 10 us without a cut raise the rate by I. -/
def execRateIncrease (m : Nat) (s : State) : Result :=
  match Tab.find? s.fab.rates m with
  | none => .next s
  | some r =>
    if s.clk < r.incAt + 10000 then .next s
    else
      let num := fun n : Nat => f32 (.fin false n 0)
      let cut := r.cutAt.any fun t => r.incAt ≤ t
      let rate := if cut then r.rate else fmin (num (s.linkRate m)) (fadd r.rate (num (s.regField Reg.FAB_RATE 24 8)))
      .next (s.setFab { s.fab with rates := Tab.setSome s.fab.rates m { r with rate := rate, incAt := r.incAt + 10000 } })

/-! ### PROBE and PROBE_REPLY (R396, R393, R433) -/

def execProbe (a : Arrival) (s : State) : Result :=
  .next (s.plainRow frCtrl (some (0, 1)) a fun s f => s.sendCtrl f.src 2 0 0 0 (some a.port))

/-- R393: the reply within FAB_ACKTO brings a path up. R433: the partner's shows that the pair link failed: SEVERED. -/
def probeReply (s : State) (f : Frame) (port : Nat) : State :=
  let y := s.path f.src port
  let s1 := match y.probe with
    | some t => if s.clk ≤ t + s.ackTo then (s.setPath f.src port {}).pathBit f.src port true else s
    | none => s
  let s2 := (s1.fab.flows.filter fun x => State.flowDst x.1 == f.src).foldl (fun s x => s.pump x.1) s1
  match s.pair.probeAt with
  | some t =>
    if f.src = s.partner && s.clk ≤ t + s.ackTo then
      let s3 := s2.setPair { s2.pair with probeAt := none }
      if s.pairState = 1 && !s.isPairPort port then
        ((s3.pairTo 2).bump Reg.PAI_SEVERS 1).dropRepairs
      else s3
    else s2
  | none => s2

def execProbeReply (a : Arrival) (s : State) : Result :=
  .next (s.plainRow frCtrl (some (0, 2)) a fun s f => probeReply s f a.port)

/-! ### Loss and takeover (R396 to R399) -/

/-- R434: the understudy of a lost module fences its partner before it takes over. -/
def lossHeard (s : State) (lost : Nat) : State :=
  if lost ≠ s.partner || s.pairState ≠ 1 || s.pair.fencing.isSome then s
  else
    let x := s.sendMirror 7 s.partner 0 0 0 [] false
    (x.2.setPair { x.2.pair with fencing := some x.1 }).bump Reg.PAI_FENCES 1

/-- Frames to a module without an acknowledgement. -/
def openTo (s : State) (m : Nat) : List SentFrame := (s.fab.flows.filter fun x => State.flowDst x.1 == m && State.flowCls x.1 != 6).flatMap (·.2.unacked)

/-- R396: LOSS_TIMEOUT: the silence of a destination has reached FAB_LOSSTO. It counts from the last valid frame, or from
the oldest open issue where that is later (log entry 22). -/
def execLossTimeout (m : Nat) (s : State) : Result :=
  let pe := s.peer m
  let open_ := openTo s m
  let from_ := match open_.map (·.issued) with
    | [] => max pe.heard (pe.probed.getD pe.heard)
    | x :: xs => max pe.heard (xs.foldl min x)
  if s.peerState m ≠ 1 || (open_.isEmpty && pe.probed.isNone) || s.clk < from_ + s.lossTo then .next s
  else
    let s1 := ((s.setPeerState m 2).setPeer m { pe with lostAt := s.clk, probed := none }).bump Reg.FAB_LOST 1
    let u := s.understudyOf m
    let s2 := if u = s.self then lossHeard s1 m else s1.sendCtrl u 3 m 0 0 none
    .next (s2.collLost m)

def execLossReport (a : Arrival) (s : State) : Result :=
  .next (s.plainRow frCtrl (some (0, 3)) a fun s f => lossHeard s (fieldAt f.area 4 4))

/-- R398: operations to a module fail: its contexts stop with cause TRANSLATION. -/
def failPeer (s : State) (m : Nat) : State :=
  let tags := (s.fab.reads.filter fun r => r.2.dst == m).map Prod.fst
  let sinks := s.fab.reads.filterMap fun r => if r.2.dst == m then r.2.sink else none
  let s1 := s.setFab { s.fab with reads := s.fab.reads.filter (fun r => r.2.dst != m), atoms := s.fab.atoms.filter fun x => x.dst % 8192 != m }
  (s1.failAwait fun w => match w with
    | .frame _ d _ _ => d % 8192 == m
    | .atom _ d _ _ => d % 8192 == m
    | .read t _ => tags.elem t
    | _ => false).kvTargetFails (fun b => b.copy / 2 ^ 44 == m && b.tier == 1) sinks

/-- R397, R398: UNREACHABLE_TIMEOUT: LOST for 5 FAB_LOSSTO without a TAKEOVER. -/
def execUnreachableTimeout (m : Nat) (s : State) : Result :=
  if s.peerState m ≠ 2 || s.clk < (s.peer m).lostAt + 5 * s.lossTo then .next s
  else .next (failPeer (s.setPeerState m 4) m)

/-- R399: a RESYNC for each flow to a module, with a new epoch. -/
def resyncFlows (s : State) (m : Nat) : State :=
  (s.fab.flows.filter fun x => State.flowDst x.1 == m && State.flowCls x.1 != 6).foldl (fun s x =>
    let fl := x.2
    let low := (fl.unacked.head?.map (·.frame.psn)).getD fl.next
    let e := (fl.fepoch + 1) % 65536
    (s.setFlow x.1 { fl with fepoch := e, syncing := true }).sendResync (x.1 / 65536) m (State.flowCls x.1) low e) s

/-- R397, R445: TAKEOVER from the understudy of a module, or from the module itself after a role split. -/
def takeoverIn (s : State) (f : Frame) : State :=
  let m := fieldAt f.area 4 4
  if m ≥ 8192 || !s.member m then s
  else if m = f.src then
    let s1 := (s.setPeerState m 1).setField (Reg.FAB_PEER m) 16 13 m
    (resyncFlows s1 m).sendCtrl f.src 5 m 0 0 none
  else if f.src ≠ s.understudyOf m then s
  else
    let s1 := if s.peerState m = 1 || s.peerState m = 2 || s.peerState m = 4 then
        resyncFlows (((s.setPeerState m 3).setField (Reg.FAB_PEER m) 16 13 f.src).bump Reg.FAB_TAKEOVER 1) m
      else s
    s1.sendCtrl f.src 5 m 0 0 none

def execTakeover (a : Arrival) (s : State) : Result := .next (s.plainRow frCtrl (some (0, 4)) a takeoverIn)

def execTakeoverAck (a : Arrival) (s : State) : Result :=
  .next (s.plainRow frCtrl (some (0, 5)) a fun s f =>
    s.setFab { s.fab with repeats := s.fab.repeats.filter fun r => !(r.member == f.src && r.failed == fieldAt f.area 4 4) })

/-- R397: TAKEOVER_REPEAT to a member that has not acknowledged: every 100 us, for 10 ms. -/
def execTakeoverRepeat (member : Nat) (s : State) : Result :=
  match s.fab.repeats.find? fun r => r.member == member with
  | none => .next s
  | some r =>
    if s.clk < r.last + 100000 then .next s
    else
      let rest := s.fab.repeats.erase r
      if r.since + 10000000 ≤ s.clk then .next (s.setFab { s.fab with repeats := rest })
      else .next ((s.setFab { s.fab with repeats := rest ++ [{ r with last := s.clk }] }).sendCtrl member 4 r.failed r.epoch 0 none)

/-- R399: RESYNC: the flow goes on at the given psn and epoch. -/
def execResync (a : Arrival) (s : State) : Result :=
  .next (s.plainRow frCtrl (some (0, 6)) a fun s f =>
    let cls := fieldAt f.area 4 4 % 8
    let k := flowKey f.src f.dst cls
    (s.setIn k { expect := fieldAt f.area 8 4, fepoch := fieldAt f.area 16 2, plane := a.port }).sendPlain
      { type := frCtrl, cls := 7, src := f.dst, dst := f.src
        area := State.ctrlArea 7 cls (fieldAt f.area 8 8) (fieldAt f.area 16 8) })

/-- R399: RESYNC_ACK: unacknowledged frames go out again in psn order. -/
def execResyncAck (a : Arrival) (s : State) : Result :=
  .next (s.plainRow frCtrl (some (0, 7)) a fun s f =>
    let k := flowKey f.dst f.src (fieldAt f.area 4 4 % 8)
    let fl := s.flow k
    if !fl.syncing || fieldAt f.area 16 8 ≠ fl.fepoch then s
    else
      let again := (fl.unacked.filter fun x => x.plane.isSome).length
      ((s.setFlow k { fl with syncing := false, unacked := fl.unacked.map fun x =>
          if x.plane.isSome then { x with plane := none, seen := false, frame := { x.frame with flags := x.frame.flags / 2 * 2 + 1 } } else x }).pump k).bump
        Reg.FAB_RETX again)

/-! ### Neighbours and foreign frames (R368, R370) -/

/-- R370: a solicitation for a fabric address of this module is answered. -/
def execNeighbourSolicitation (port addr : Nat) (s : State) : Result :=
  if s.linkState port = 4 && addr = s.fabAddr s.self port then .next (s.emit (.neighbour port addr)) else .next s

/-- R370: the next hop `addr` of a port is resolved. -/
def execNeighbourAdvertisement (port addr : Nat) (hop : List Byte) (s : State) : Result :=
  if s.linkState port = 4 then .next (s.setFab { s.fab with hops := Tab.setSome s.fab.hops (State.hopKey port addr) hop }) else .next s

/-- R368: any other frame is dropped and counted. -/
def execNonBexicaFrame (port : Nat) (s : State) : Result :=
  if s.linkState port = 4 then .next (s.bump (Reg.FAB_PDROP port) 1) else .next s

/-! ### Link states (R400) -/

namespace State

/-- The pair ports, in increasing number (R20). -/
def pairList (s : State) : List Nat := (List.range 32).filter s.isPairPort

/-- FAB_STATUS and PAI_STATUS.LINKS show the ports. -/
def showFab (s : State) : State :=
  let up := (List.range 32).filter fun p => s.linkState p == 4
  let ok := s.regBit Reg.FAB_STATUS 29 && s.fab.cak.isSome && up.any fun p => !s.isPairPort p
  let links := (s.pairList.mapIdx fun i p => bit (s.linkState p == 4) * 2 ^ i).sum
  ((s.setField Reg.FAB_STATUS 0 6 up.length).setField Reg.FAB_STATUS 31 1 (bit ok)).setField Reg.PAI_STATUS 24 2 links

/-- The members beside this module. -/
def otherMembers (s : State) : List Nat :=
  (List.range 256).flatMap fun i =>
    let w := s.regN (Reg.FAB_MEMB i)
    if w = 0 then [] else ((List.range 32).filter fun j => tbit w j && 32 * i + j != s.self).map fun j => 32 * i + j

/-- A port enters a link state. A plane port that reaches UP brings its paths up, one that leaves UP takes them down
(R393). -/
def setLink (s : State) (p st : Nat) : State :=
  let was := s.linkState p
  let s0 := if was = st then s else s.raise (768 + p) st
  let s1 := (s0.setField (Reg.FAB_PST p) 0 4 st).setFab { s.fab with since := Tab.set 0 s.fab.since p s.clk }
  let s2 :=
    if s.isPairPort p || (was = 4) = (st = 4) then s1
    else s1.otherMembers.foldl (fun s m => (s.setPath m p {}).pathBit m p (st == 4)) s1
  let s3 := s2.showFab
  if st = 4 then s3.fab.flows.foldl (fun s x => s.pump x.1) s3 else s3

def linkSince (s : State) (p : Nat) : Nat := Tab.get 0 s.fab.since p

end State

def execSignalDetected (port : Nat) (s : State) : Result :=
  if port < 32 && s.linkState port = 1 && !s.regBit Reg.CLK_PORTBAD port then .next (s.setLink port 2) else .next s

def execLockAchieved (port : Nat) (s : State) : Result :=
  if port < 32 && s.linkState port = 2 && decide (s.clk ≤ s.linkSince port + 500000000) then .next (s.setLink port 3) else .next s

def execTrainingTimeout (port : Nat) (s : State) : Result :=
  if port < 32 && s.linkState port = 2 && decide (s.linkSince port + 500000000 ≤ s.clk) then .next (s.setLink port 1) else .next s

/-- R400, R372, R373: UP needs a CAK, a live MKA peer with its key installed, and membership. -/
def execMkaPeerLive (port : Nat) (s : State) : Result :=
  if port < 32 && s.linkState port = 3 && s.fab.cak.isSome && s.regBit Reg.FAB_STATUS 29 then
    let s1 := s.setFab { s.fab with keyed := insertNat port s.fab.keyed, keys := Tab.set 0 s.fab.keys port (Tab.get 0 s.fab.keys port + 1) }
    .next (s1.setLink port 4)
  else .next s

def execSecuringTimeout (port : Nat) (s : State) : Result :=
  if port < 32 && s.linkState port = 3 && decide (s.linkSince port + 6000000000 ≤ s.clk) then .next (s.setLink port 1) else .next s

/-- R400, R403: loss of signal, lock or MKA peer, or too many codewords: the port goes DOWN. `uncorr` codewords could not be corrected. -/
def execLinkLoss (port uncorr : Nat) (s : State) : Result :=
  if port < 32 && decide (2 ≤ s.linkState port) then
    .next (((s.setFab { s.fab with keyed := s.fab.keyed.filter (· != port) }).bump (Reg.FAB_PUNCORR port) uncorr).setLink port 1)
  else .next s

/-- R373, R400: a new secure association key, without loss of frames. -/
def execSakInstall (port : Nat) (s : State) : Result :=
  if port < 32 && s.linkState port = 4 then
    .next (s.setFab { s.fab with keys := Tab.set 0 s.fab.keys port (Tab.get 0 s.fab.keys port + 1) })
  else .next s

/-- R373, R403: the key registers are zeroed by LOAD and CLEAR. -/
def State.zeroCak (s : State) : State := (List.range 8).foldl (fun s i => s.setRegN (Reg.FAB_CAK i) 0) s

/-- R373: FAB_CAKCTL.LOAD: the CAK is installed and MKA starts on every port; logged. -/
def State.cakLoad (s : State) : State :=
  let key := (List.range 8).flatMap fun i => leBytes 4 (s.regN (Reg.FAB_CAK i))
  let s1 := s.auditInternal { action := 0x20, okind := 0, origin := s.mgmtOrigin }
  let name := (leBytes 4 (s1.regN Reg.FAB_DOMAIN)).reverse
  let s2 := (((s1.zeroCak).setFab { s1.fab with cak := some key }).setField Reg.FAB_STATUS 30 1 1).showFab
  (List.range 32).foldl (fun s p => s.emit (.mka false p name (leNat (s.confBytes 2 7 1)))) s2

/-- R373, R400: FAB_CAKCTL.CLEAR: the CAK is erased and UP ports go to SECURING; logged. -/
def State.cakClear (s : State) : State :=
  let s1 := s.auditInternal { action := 0x21, okind := 0, origin := s.mgmtOrigin }
  let s2 := ((s1.zeroCak).setFab { s1.fab with cak := none, keyed := [] }).setField Reg.FAB_STATUS 30 1 0
  (((List.range 32).filter fun p => s2.linkState p == 4).foldl (fun s p => s.setLink p 3) s2).showFab

def execFabCakLoad (s : State) : Result := .next (if s.logRefuses then s else s.cakLoad)
def execFabCakClear (s : State) : Result := .next (if s.logRefuses then s else s.cakClear)

end Sys2Proof.Machine
end

