-- ==== Sys2Proof/Machine/BootOps.lean ====
section
/-! DEFINITION. Operations of boot and update that other families use (R479, R495, R498). -/

namespace Sys2Proof.Machine

namespace State

def setBoot (s : State) (b : BootSt) : State := { s with boot := b }
def setFlash (s : State) (f : FlashSt) : State := { s with boot := { s.boot with flash := f } }

/-- R479: the boot state and its cause in MGT_BOOT. -/
def bootState (s : State) : Nat := s.regField Reg.MGT_BOOT 28 4
def setBootState (s : State) (st : Nat) : State := s.setField Reg.MGT_BOOT 28 4 st
def setBootCause (s : State) (c : Nat) : State := s.setField Reg.MGT_BOOT 20 8 c

/-- R495: the update state, in the update record and in MGT_UPD.STATE; source 813 fires. -/
def updState (s : State) : Nat := s.boot.flash.upd
def setUpd (s : State) (st : Nat) : State :=
  ((s.setFlash { s.boot.flash with upd := st }).setField Reg.MGT_UPD 28 4 st).raise 813 st

/-- Bytes shown in consecutive registers. -/
def showBytes (s : State) (off : Nat → Nat) (n : Nat) (b : List Byte) : State :=
  (List.range n).foldl (fun s i => s.setRegN (off i) (fieldAt b (4 * i) 4)) s

/-- Bytes that consecutive registers hold. -/
def regBytes (s : State) (off : Nat → Nat) (n : Nat) : List Byte := (List.range n).flatMap fun i => leBytes 4 (s.regN (off i))

/-- R498: a fallback out of TRIAL: the loader writes a HANDOVER cue 1 ms ahead. -/
def startFallback (s : State) : State :=
  if s.updState ≠ 4 then s
  else
    let s1 := (s.setUpd 5).setRegN Reg.MGT_UPDTIME 0
    (s1.addCue (s1.now + 1000000) cueHandover 1 0 s1.self 0).getD s1

end State

end Sys2Proof.Machine
end

