-- ==== Sys2Proof/Machine/Nmv.lean ====
section
/-! DEFINITION. Near-memory matrix-vector units (R93 to R99, R114). -/

namespace Sys2Proof.Machine

/-- R95: the fields of a work item. -/
structure NmvDesc where
  w     : Nat
  sc    : Nat
  x     : Nat
  y     : Nat
  k     : Nat
  n     : Nat
  fmt   : Nat
  j     : Nat
  grp   : Nat
  tenant : Nat
  core  : Nat
  ctr   : Nat
  sig   : Bool
  ok    : Bool
  deriving DecidableEq, Repr

/-- R93: weight formats of the units. -/
def nmvFmt (f : Nat) : Bool := f == 1 || (decide (3 ≤ f) && decide (f ≤ 7))

/-- R95: read an item. `ok` is false when a field is outside its range or a reserved bit is set. -/
def nmvDesc (bs : List Byte) : NmvDesc :=
  let f := fieldAt bs
  let shape := f 41 1
  { w := f 0 8, sc := f 8 8, x := f 16 8, y := f 24 8, k := f 32 4, n := f 36 4, fmt := f 40 1, j := shape % 8
    grp := if field shape 4 2 = 0 then 4 else if field shape 4 2 = 1 then 8 else 16
    tenant := f 42 1, core := f 43 1, ctr := f 44 1, sig := tbit (f 45 1) 0
    ok := decide (f 0 8 < 2 ^ 44) && decide (f 8 8 < 2 ^ 44) && (f 40 1 != 1 || f 8 8 == 0) && decide (1 ≤ f 32 4 ∧ f 32 4 ≤ 65536) &&
      decide (1 ≤ f 36 4 ∧ f 36 4 ≤ 1048576) && nmvFmt (f 40 1) && decide (1 ≤ shape % 8 ∧ shape % 8 ≤ 4) &&
      field shape 4 2 != 3 && !tbit shape 3 && field shape 6 2 == 0 && decide (1 ≤ f 42 1) && decide (f 43 1 ≤ 127) && decide (f 44 1 ≤ 63) &&
      decide (f 45 1 ≤ 1) && f 46 2 == 0 && f 58 6 == 0 }

/-- Bytes of one row of W and of its scales. -/
def nmvRow (d : NmvDesc) : Nat := packedLen (fmtBits d.fmt) d.k
def nmvScales (d : NmvDesc) : Nat := if d.fmt = 1 then 0 else ceilDiv d.k 32

/-- R217, R95: are the ranges of an item assigned, and of the tiers that the layout names. -/
def nmvRanges (d : NmvDesc) : Bool :=
  let inTier := fun a n => (State.isHbm a && State.isHbm (a + n - 1)) || (State.isSram a && State.isSram (a + n - 1)) ||
    (State.isLoft a && State.isLoft (a + n - 1))
  inTier d.w (nmvRow d * d.n) && (d.fmt == 1 || inTier d.sc (nmvScales d * d.n)) &&
  State.isSram d.x && State.isSram (d.x + 2 * d.k * d.j - 1) &&
  ((State.isSram d.y && State.isSram (d.y + 4 * d.n * d.j - 1)) ||
   (State.isStage d.y && State.isStage (d.y + 4 * d.n * d.j - 1) &&
     (d.y - State.stageBase) / State.stageWindow == (d.y + 4 * d.n * d.j - 1 - State.stageBase) / State.stageWindow))

/-- A running FP32 value with the flags of R114. -/
structure NmvAcc where
  v   : Word32
  sat : Bool
  nan : Bool
  deriving DecidableEq, Repr

/-- R114: one FP32 addition of the unit. -/
def nmvAdd (a b : NmvAcc) : NmvAcc :=
  let r := faddHold a.v b.v
  { v := r.bits, sat := a.sat || b.sat || r.sat, nan := a.nan || b.nan || r.nan }

def nmvZero : NmvAcc := { v := 0#32, sat := false, nan := false }

/-- R114: the pairwise tree over 2^h positions; positions beyond K are +0. -/
def nmvTree : Nat → List NmvAcc → NmvAcc
  | 0, xs => xs.headD nmvZero
  | h + 1, xs => nmvAdd (nmvTree h (xs.take (2 ^ h))) (nmvTree h (xs.drop (2 ^ h)))

/-- R114: one product, formed exactly and rounded to FP32. The rule states the hold at the largest finite value for sums; it
is taken for products too (DESIGN CHOICE, log entry 98). -/
def nmvProduct (w x : Num) : NmvAcc :=
  let r := toF32 true (Num.mul w x)
  { v := r.bits, sat := r.sat, nan := r.nan }

/-- R114: one output. -/
def nmvDot (d : NmvDesc) (row scs col : List Byte) : NmvAcc :=
  let ps := (List.range d.k).map fun k =>
    let code := unpackAt (fmtBits d.fmt) row k
    let w := if d.fmt = 1 then elemVal 1 true code else mxVal d.fmt code (fieldAt scs (k / 32) 1)
    nmvProduct w (elemVal 1 true (fieldAt col (2 * k) 2))
  match (chunksOf d.grp (ps.length / d.grp + 1) ps).map (nmvTree (Nat.log2 d.grp)) with
  | [] => nmvZero
  | g :: gs => gs.foldl nmvAdd g

/-- R96: the rows in increasing order, as far as no poisoned weight or scale is read. -/
def nmvRows (s : State) (d : NmvDesc) (cols : List (List Byte)) : Nat → Nat → List NmvAcc → List NmvAcc × Bool
  | 0, _, acc => (acc, false)
  | fuel + 1, r, acc =>
    let wa := d.w + r * nmvRow d
    let sa := d.sc + r * nmvScales d
    if s.poisonedIn wa (nmvRow d) || s.poisonedIn sa (nmvScales d) then (acc, true)
    else nmvRows s d cols fuel (r + 1)
      (acc ++ cols.map fun c => nmvDot d (s.readN wa (nmvRow d)) (s.readN sa (nmvScales d)) c)

/-- The context whose counter an item signals (R167, R169). -/
def nmvSignal (s : State) (d : NmvDesc) : Option (Nat × Nat × Nat × Nat) :=
  if !d.sig then none
  else
    let per := 64 / s.coreP d.core
    (s.ctx d.core (d.ctr / per)).map fun c => (d.core, d.ctr / per, d.ctr % per, c.ctxid)

/-- R217: the context of the item's tenant whose stage memory holds all of Y. -/
def nmvOwner (s : State) (d : NmvDesc) : Option (Nat × Nat × Nat) :=
  let n := (d.y - State.stageBase) / State.stageWindow
  (s.core n).parts.findSome? fun p => match p.2.ctx with
    | none => none
    | some c =>
      if c.tenant = d.tenant && c.stageAt n 0 ≤ d.y && d.y + 4 * d.n * d.j ≤ c.stageAt n 0 + c.len then some (n, p.1, c.ctxid) else none

/-- R96: an item's work, from the memory as it stands. An item whose Y lies in stage memory of no context of its tenant writes
nothing: it is taken as out of range (R217; DESIGN CHOICE, log entry 103). -/
def nmvWork (s : State) (item : Nat) (slot : Option Nat) : NmvItem :=
  let d := nmvDesc (s.readN item 64)
  let base : NmvItem :=
    { item := item, yaddr := d.y, y := [], status := 0, sflags := 0, signal := nmvSignal s d, tenant := d.tenant, slot := slot
      reads := [(d.w, nmvRow d * d.n), (d.sc, nmvScales d * d.n), (d.x, 2 * d.k * d.j)]
      yctx := if State.isStage d.y then nmvOwner s d else none }
  if !d.ok || !nmvRanges d || (State.isStage d.y && (nmvOwner s d).isNone) then { base with status := 0x0A, reads := [] }
  else if !fmtAllowed (s.fmtMask d.tenant) d.fmt then { base with status := 0x09 }
  else if s.poisonedIn d.x (2 * d.k * d.j) then { base with status := 0x0F }
  else
    let cols := (List.range d.j).map fun j => s.readN (d.x + 2 * d.k * j) (2 * d.k)
    let r := nmvRows s d cols d.n 0 []
    { base with
      y := r.1.flatMap fun a => leBytes 4 a.v.toNat
      status := if r.2 then 0x0F else 0
      sflags := bit (r.1.any (·.sat)) + 2 * bit (r.1.any (·.nan)) }

/-- The NMV items that a context waits for. -/
def addNmv (s : State) (n p ctxid : Nat) (up : Bool) : State :=
  match s.ctx n p with
  | none => s
  | some c => if c.ctxid = ctxid then s.putCtx n p { c with nmv := if up then c.nmv + 1 else c.nmv - 1 } else s

/-- R95, R96: NMV_WORK_ITEM: unit `unit` takes the item at a shared-SRAM address of its base die, for request `slot`. -/
def execNmvWorkItem (unit item : Nat) (slot : Option Nat) (s : State) : Result :=
  let die := State.sramBase + unit / 4 * 0x10000000
  if 16 ≤ unit || item < die || die + 0x10000000 < item + 64 then .next s
  else
    let w := nmvWork s item slot
    let s1 := { s with nmv := Tab.set [] s.nmv unit (Tab.get [] s.nmv unit ++ [w]) }
    .next (match w.signal with
      | none => s1
      | some (n, p, _, id) => addNmv s1 n p id true)

/-- R169: the signal of an item, discarded where the context is no longer there. -/
def nmvDeliver (s : State) : Option (Nat × Nat × Nat × Nat) → State
  | none => s
  | some (n, p, i, id) =>
    match s.ctx n p with
    | none => s
    | some c => if c.ctxid = id then s.putCtx n p { c.signal i with nmv := c.nmv - 1 } else s

/-- R96, R264: an item that ends with FAULT or FORMAT_DENIED ends the request that owns it, with a fault record. -/
def nmvFault (s : State) (w : NmvItem) : State :=
  if w.status = 0x0F || w.status = 0x09 then
    let r : FaultRec :=
      { status := w.status, cause := if w.status = 0x09 then causeFormat else causePoison, eng := 0, stream := 0, part := 0
        shape := 0, word := 0#32, pc := 0#48, vaddr := 0#48, time := s.now }
    s.itemFault w.tenant w.slot 0 w.status r.bytes
  else s

/-- R217: Y of an item goes to its own context's stage memory only, nowhere once that context is gone. -/
def nmvMayWrite (s : State) (w : NmvItem) : Bool :=
  match w.yctx with
  | none => !State.isStage w.yaddr
  | some (n, p, id) => (s.ctx n p).any fun c => c.ctxid == id

/-- R96: NMV_COMPLETE: the outputs computed are written, then status and flags, then the signal. -/
def execNmvComplete (unit : Nat) (s : State) : Result :=
  match Tab.get [] s.nmv unit with
  | [] => .next s
  | w :: ws =>
    let s1 := { s with nmv := Tab.set [] s.nmv unit ws }
    let s2 := if w.y.isEmpty || !nmvMayWrite s w then s1 else s1.writeBytes w.yaddr w.y
    let s3 := s2.writeBytes (w.item + 56) (leBytes 1 w.status ++ leBytes 1 w.sflags)
    .next (nmvFault (nmvDeliver s3 w.signal) w)

end Sys2Proof.Machine
end

