-- ==== Sys2Proof/Machine/Product.lean ====
section
/-! DEFINITION. What the scheduler generates for a step (chapters 03, 07): the route and the split of each matrix product
(R98, R99), and the draws of sampling and speculative acceptance (R207 to R210, R337). -/

namespace Sys2Proof.Machine

/-! ### Products (R98, R99) -/

/-- R98: does a product over `cols` activation columns go to the NMV units. A W format that they do not take goes to the array, and
so does a K beyond the field of an item (R95). -/
def routeNmv (path fmt k cols : Nat) : Bool :=
  nmvFmt fmt && decide (1 ≤ k ∧ k ≤ 65536) && (path == 1 || (path == 2 && decide (1 ≤ cols ∧ cols ≤ 4)))

/-- A run of rows of W that lie one behind the other in memory: first row, count, address of the elements and of the scales. -/
structure RowRun where
  row0 : Nat
  n    : Nat
  w    : Nat
  sc   : Nat
  deriving DecidableEq, Repr

/-- R99: append row `r` to runs, the newest first: to the last one where it lies behind it, on the same base die. -/
def addRow (rb rs : Nat) (runs : List RowRun) (r w sc : Nat) : List RowRun :=
  match runs with
  | [] => [{ row0 := r, n := 1, w := w, sc := sc }]
  | x :: xs =>
    if x.row0 + x.n = r && x.w + x.n * rb = w && x.sc + x.n * rs = sc && State.granDie (x.w / 2 ^ 21) == State.granDie (w / 2 ^ 21) &&
        x.n < 1048576 then { x with n := x.n + 1 } :: xs
    else { row0 := r, n := 1, w := w, sc := sc } :: runs

/-- R99, R277: the rows of a generation shard that begins at byte `o` of the granules, as runs; and the rows that no item can name,
since they do not lie in one piece. -/
def shardRuns (grans : List Nat) (fmt nr nc : Nat) : List RowRun × List Nat :=
  let rb := storedRow fmt nc
  let rs := storedScales fmt nc
  let whole := fun o n => match wingAddr grans o, wingAddr grans (o + (n - 1)) with
    | some a, some b => if a + (n - 1) = b then some a else none
    | _, _ => none
  (List.range nr).foldl (fun acc r =>
    match whole (r * rb) rb, (if rs = 0 then some 0 else whole (nr * rb + r * rs) rs) with
    | some a, some b => (addRow rb rs acc.1 r a b, acc.2)
    | _, _ => (acc.1, acc.2 ++ [r])) ([], [])

/-- R99: the rows of a run over the four units of the base die that holds them. -/
def splitRun (rb rs : Nat) (x : RowRun) : List (Nat × RowRun) :=
  let q := ceilDiv x.n 4
  (List.range 4).filterMap fun i =>
    if x.n ≤ i * q then none
    else some (4 * State.granDie (x.w / 2 ^ 21) + i,
      { row0 := x.row0 + i * q, n := min q (x.n - i * q), w := x.w + i * q * rb, sc := if rs = 0 then 0 else x.sc + i * q * rs })

/-- R98: the columns of a step in groups of at most 4, in increasing order: first column and count. -/
def colGroups (cols : Nat) : List (Nat × Nat) := (List.range (ceilDiv cols 4)).map fun i => (4 * i, min 4 (cols - 4 * i))

/-- R98, R99: the product over one generation shard in a step of `cols` activation columns. -/
def shardProducts (grans : List Nat) (t : TensorRec) (x : ShardRec) (cols : Nat) : List Product :=
  let d := genDims t.gorder x.row0 x.nrows x.col0 x.ncols
  if cols = 0 then []
  else if !routeNmv t.path t.gfmt d.2.1 cols then [.array t.id 0 d.1]
  else
    let rb := storedRow t.gfmt d.2.1
    let rs := storedScales t.gfmt d.2.1
    let runs := shardRuns grans t.gfmt d.1 d.2.1
    (runs.1.reverse.flatMap fun r => (splitRun rb rs r).flatMap fun u => (colGroups cols).map fun c =>
      .nmv { tensor := t.id, unit := u.1, row0 := u.2.row0, n := u.2.n, w := u.2.w, sc := u.2.sc, k := d.2.1, fmt := t.gfmt
             group := t.group, col0 := c.1, cols := c.2 }) ++ runs.2.map fun r => .array t.id r 1

/-- R95: the item of a share: its activations lie at `x`, its results go to `y`, core and sync counter to signal. -/
def NmvShare.item (p : NmvShare) (tenant x y core ctr : Nat) : List Byte :=
  leBytes 8 p.w ++ leBytes 8 p.sc ++ leBytes 8 x ++ leBytes 8 y ++ leBytes 4 p.k ++ leBytes 4 p.n ++ leBytes 1 p.fmt ++
  leBytes 1 (p.cols + 16 * p.group) ++ leBytes 1 tenant ++ leBytes 1 core ++ leBytes 1 ctr ++ leBytes 1 1 ++ zeros 18

/-- R98: the products of a step of a model's epoch on the module of a role, in the order of the tensor records. -/
def Model.stepProducts (m : Model) (role epoch cols : Nat) : List Product :=
  let grans := ((m.live.find? fun e => e.number == epoch).map (·.grans)).getD []
  let xs := m.genShards role
  xs.zipIdx.flatMap fun p => shardProducts (grans.drop (wingStart xs p.2)) p.1.1 p.1.2 cols

/-! ### Adapters (R320) -/

/-- R320, R111, R112: an output of a BF16 product on the array in normal mode: full-tile slices of 64 in increasing K, the last one
padded with zero rows, added up in FP32. -/
def arrayDot (as xs : List Num) : Word32 :=
  let term := fun k => match as[k]?, xs[k]? with
    | some a, some x => Num.mul a x
    | _, _ => .fin false 0 0
  let slice := fun i => (toF32 true (((List.range 63).map fun r => term (64 * i + r + 1)).foldl Num.add (term (64 * i)))).bits
  (List.range (ceilDiv as.length 64 - 1)).foldl (fun acc i => (faddHold acc (slice (i + 1))).bits) (slice 0)

/-- R320: a record of scale `sigma` with matrices A and B, rows of BF16 codes, applied to the activation column `x`, for which the
tensor itself gives `y`. -/
def adapterCol (sigma : Word32) (a b : List (List Nat)) (x : List Num) (y : List Word32) : List Word32 :=
  let u := a.map fun row => decodeFp bf16 (cvtFp bf16 .rne false false (f32Val (arrayDot (row.map (decodeFp bf16)) x))).code
  List.zipWith (fun row v => ffma sigma (arrayDot (row.map (decodeFp bf16)) u) v) b y

/-- R320, R307: the records of an adapter version from byte `o` of its slot on, for tensors that the module of a role holds, applied to
the columns of a request. -/
def State.adapterShares (s : State) (m : Model) (role : Nat) (a : AdapterSlot) (slot col0 cols : Nat) : Nat → Nat → List Product
  | 0, _ => []
  | fuel + 1, o =>
    if a.length ≤ o then []
    else
      let h := (List.range 16).map fun j => (wingAddr a.grans (o + j)).elim 0 s.read8
      let k := fieldAt h 4 4
      match m.tensors.find? fun t => t.id == fieldAt h 0 4 with
      | none => []
      | some t =>
        let here := (m.genShards role).any fun x => x.1.id == t.id
        (if here then [.adapter slot t.id k (BitVec.ofNat 32 (fieldAt h 8 4)) (o + 16) (o + 16 + 2 * k * t.cols) col0 cols] else []) ++
          adapterShares s m role a slot col0 cols fuel (o + 16 + 2 * k * t.cols + 2 * t.rows * k)

/-- R320: the adapters of a step, whose requests have these columns, in order: slot and count. Each is applied on the version that its
request pins. -/
def State.adapterProducts (s : State) (m : Model) (role : Nat) : Nat → List (Nat × Nat) → List Product
  | _, [] => []
  | col0, (i, cols) :: rest =>
    (match s.req? i with
     | none => []
     | some r =>
       if r.adapter = 0 then []
       else match List.find? (fun (x : Nat × AdapterSlot) => x.2.model == r.model && x.2.adapter == r.adapter && x.2.version == r.aver) s.curtain.adapters with
         | none => []
         | some x => s.adapterShares m role x.2 i col0 cols (x.2.length / 16 + 1) 0) ++ adapterProducts s m role (col0 + cols) rest

/-! ### Sampling and acceptance (R207 to R210, R337) -/

/-- R207, R210: the token that `VX.GMAX` samples from scores at position `s`: stream `T`, draw slot `slot`, logical index
s * V + v. -/
def sampleTok (seed T slot s : Nat) (beta : Word32) (xs : List Word32) : Nat :=
  argMax argBeats (xs.zipIdx.map fun x =>
    gumbelScore beta x.1 (gumbelOf (draw (BitVec.ofNat 64 seed) (BitVec.ofNat 32 T) (s * xs.length + x.2) slot)))

/-- R208, R210: is a proposed token of probabilities `q` (draft) and `p` (large model) at position `s` accepted. -/
def acceptTok (seed s : Nat) (p q : Word32) : Bool :=
  flt (fmul (uniformOf (draw (BitVec.ofNat 64 seed) 0#32 s 2)) q) p

/-- R209: the scores of the replacement. -/
def residual (ps qs : List Word32) : List Word32 :=
  let xs := List.zipWith (fun p q => flog (fmax F32.zero (fsub p q))) ps qs
  if xs.all (· == F32.negInf) then ps.map flog else xs

/-- R319: token `v` with the natural logarithm of its probability under the large model. -/
def tokenOf (ps : List Word32) (v : Nat) : Token := { id := BitVec.ofNat 32 v, lp := flog (ps.getD v F32.zero) }

/-- R337, R208, R209: the tokens of a round from position `s` on, of which `d` are proposed: those accepted and one more. -/
def roundTokens (seed : Nat) (beta : Word32) : Nat → Nat → List PosRow → List Token
  | _, _, [] => []
  | s, 0, x :: _ => [tokenOf x.probs (sampleTok seed 0 0 s beta x.scores)]
  | s, d + 1, x :: xs =>
    let v := sampleTok seed 1 0 s beta x.dscores
    if acceptTok seed s (x.probs.getD v F32.zero) (x.dprobs.getD v F32.zero) then tokenOf x.probs v :: roundTokens seed beta (s + 1) d xs
    else [tokenOf x.probs (sampleTok seed 0 3 s F32.one (residual x.probs x.dprobs))]

end Sys2Proof.Machine
end

