-- ==== Sys2Proof/Machine/Serve.lean ====
section
/-! DEFINITION. Serving (chapter 11): GENERATE, RESUME, PAUSE, CANCEL, buckets, placement, overload windows, steps,
deadlines; movement of KV blocks (R235 to R237, R332); variants (R336). -/

namespace Sys2Proof.Machine

/-! ### Receive path -/

/-- R316, R317: are output reference and length of a segment within rules, for `maxnew` tokens. -/
def State.outputOk (s : State) (t ref len maxnew : Nat) (logprob : Bool) : Bool :=
  len % 8 == 0 && decide (64 + maxnew * (if logprob then 8 else 4) ≤ len) &&
  (s.hostRange t (refRegion ref) (refOff ref) len).isSome

/-- R210: does the longest position of a request stay within the keys. -/
def keysFit (m : Model) (positions : Nat) : Bool :=
  let v := Config.vocabulary m.desc
  decide ((positions - 1) * v + v - 1 < 2 ^ 56)

/-- R318: may `draft` name this model for a tenant. -/
def State.draftOk (s : State) (t d : Nat) : Bool :=
  match s.loftEntry (keyOf t d) with
  | none => false
  | some l => l.kind == 3 && tbit (leNat l.mask) (t % 256) && !s.loft.barred.elem (t % 256)

/-- R315: is the module of a role a member of a replica group of the model's generation layout. A loft model is on every module. -/
def Model.homeOf (m : Model) (role : Nat) : Bool := m.kind == 3 || !(m.genShards role).isEmpty

/-- R315, R316, R318: is a GENERATE within its rules. -/
def State.generateOk (s : State) (t : Nat) (i : Item) : Bool :=
  let d := i.desc
  let b := Desc.body d
  let f := fieldAt b
  let prompt := f 0 4
  let maxnew := f 4 4
  match s.model? (State.keyOf t (Desc.model d)) with
  | none => false
  | some m =>
    m.tenant == t && m.homeOf (s.roleOf t) && !Desc.fmtSet d &&
    decide (1 ≤ prompt ∧ prompt ≤ 1048576) && decide (1 ≤ maxnew ∧ maxnew ≤ 1048576) && decide (prompt + maxnew ≤ 1048576) &&
    field (f 8 4) 23 8 != 255 && decide (0 < f 16 4 ∧ f 16 4 ≤ 0x3F800000) &&
    (if f 20 4 = 0 then f 24 1 == 0 else decide (1 ≤ f 24 1 ∧ f 24 1 ≤ 8) && s.draftOk t (f 20 4)) &&
    decide (f 25 1 < 8) && decide (f 26 1 ≤ 16) && f 27 5 == 0 && f 44 20 == 0 &&
    ((List.range 16).drop (f 26 1)).all (fun k => f (64 + 4 * k) 4 == 0) &&
    (i.payload.getD []).length == 4 * prompt && keysFit m (prompt + maxnew) &&
    s.outputOk t (f 32 8) (f 40 4) maxnew (tbit (f 25 1) 2)

/-- R317, R318: is a RESUME of request `r` within its rules. -/
def State.resumeOk (s : State) (t : Nat) (i : Item) (r : Req) : Bool :=
  let b := Desc.body i.desc
  let f := fieldAt b
  let n := r.context.length + f 16 4 + f 20 4
  decide (n ≤ 1048576) && (s.model? r.model).all (fun m => keysFit m n) &&
  s.outputOk t (f 24 8) (f 32 4) (f 20 4) (tbit r.samp.gflags 2)

/-- R317, R318: what is checked of a RESUME whichever request it names. -/
def State.resumeForm (s : State) (t : Nat) (i : Item) : Bool :=
  let d := i.desc
  let f := fieldAt (Desc.body d)
  f 1 7 == 0 && f 36 4 == 0 && Desc.seed d == 0 && Desc.model d == 0 && Desc.adapter d == 0 && Desc.epoch d == 0 &&
  decide (f 16 4 ≤ 1048576) && decide (1 ≤ f 20 4 ∧ f 20 4 ≤ 1048576) && (i.payload.getD []).length == 4 * f 16 4 &&
  s.outputOk t (f 24 8) (f 32 4) (f 20 4) false

/-- R323 check 8, R328: the admission queue is full. An item of a tenant below its share takes the place of the newest
queued item of the tenant furthest above its share. Answers whether the arriving item may enter. -/
def State.makeRoom (s : State) (t : Nat) : Bool × State :=
  if s.serve.queue.length < s.regField Reg.ADM_QDEPTH 0 16 then (true, s)
  else if !s.below t then (false, s)
  else
    let excess := fun u => Tab.get 0 s.serve.workLast u - s.share u
    let top := s.serve.queue.foldl (fun b x =>
      if s.below x.tenant then b
      else match b with
        | none => some x
        | some y => if excess y.tenant < excess x.tenant || (y.tenant == x.tenant && y.order < x.order) then some x else b) (none : Option QItem)
    match top with
    | none => (false, s)
    | some x => (true, (s.unqueue x).refuseBusy x.tenant x.q x.seq 1000000 (s.regBit Reg.ADM_STATUS 30))

/-- R323: the checks of the receive path in order; an item that passes is debited and enters the admission queue. `m` is
its model, `slot` the slot of a resumed request, `ctx` its context with the new tokens. -/
def State.receive (s : State) (t q : Nat) (i : Item) (m : Option Model) (slot : Option Nat) (new ctx maxnew : Nat) : State :=
  let need := match m with | none => 0 | some m => s.granulesFor t (s.resvPages m slot ctx maxnew)
  let id := match slot with | none => State.keyOf t (Desc.model i.desc) | some k => ((s.req? k).map (·.model)).getD 0
  let rqr := s.regN (Reg.ADM_RQRATE (t % 256))
  let tkr := s.regN (Reg.ADM_TKRATE (t % 256))
  let mine := (s.serve.queue.filter fun x => x.tenant == t).length
  if Desc.deadline i.desc ≠ 0 && s.timeUnlocked then s.refuseBusy t q i.seq 10000000 false
  else if rqr ≠ 0xFFFFFFFF && decide (s.rqLevel t < 1000000) then s.refuseBusy t q i.seq (fillTime (s.rqLevel t) 1000000 rqr) false
  else if tkr ≠ 0xFFFFFFFF && decide (s.tkLevel t ≤ 0) then s.refuseBusy t q i.seq (fillTime (s.tkLevel t) 1 tkr) false
  else if s.regField (Reg.TNT_SLOTS t) 16 16 ≤ s.regField (Reg.TNT_SLOTS t) 0 16 + mine then s.refuseBusy t q i.seq 1000000 false
  else if 32768 - (s.serve.reqs.filter fun r => s.roleOf r.2.tenant == s.roleOf t).length ≤ (s.serve.queue.filter fun x => s.roleOf x.tenant == s.roleOf t).length then s.refuseBusy t q i.seq 1000000 false
  else if s.regField (Reg.TNT_GRANLIM t) 0 19 < s.regField (Reg.TNT_GRANUSE t) 0 19 + need then
    (s.bump Reg.ADM_NOMEM 1).finish t q i.seq { status := stNoMemory }
  else if s.quotaOf id < need then s.refuseBusy t q i.seq 1000000 false
  else
    let r := s.makeRoom t
    if !r.1 then s.refuseBusy t q i.seq 1000000 (s.regBit Reg.ADM_STATUS 30)
    else
      let s1 := r.2
      let x : QItem := { tenant := t, q := q, seq := i.seq, prio := Desc.prio i.desc, order := s1.serve.order + 1 }
      (s1.setServe { s1.serve with
        order := s1.serve.order + 1, queue := s1.serve.queue ++ [x]
        rq := Tab.setSome s1.serve.rq t (s1.rqLevel t - 1000000)
        tk := Tab.setSome s1.serve.tk t (max (s1.tkLevel t - (new : Int) * 1000000) (-(2 ^ 31 * 1000000))) }).showQueue.queueRec t

/-- R315 to R323: a GENERATE. -/
def generateAsk (s : State) (t q : Nat) (i : Item) : State :=
  let b := Desc.body i.desc
  if !s.generateOk t i then s.finish t q i.seq { status := stMalformed }
  else if !s.regBit Reg.ADM_STATUS 31 then s.refuseBusy t q i.seq 100000000 false
  else s.receive t q i (s.model? (State.keyOf t (Desc.model i.desc))) none (fieldAt b 0 4) (fieldAt b 0 4) (fieldAt b 4 4)

/-- R317, R318, R322, R323: a RESUME. -/
def resumeAsk (s : State) (t q : Nat) (i : Item) : State :=
  let b := Desc.body i.desc
  if !s.resumeForm t i then s.finish t q i.seq { status := stMalformed }
  else match s.namedReq t b with
    | none => s.finish t q i.seq { status := s.namedEnd t b }
    | some (slot, r) =>
      if r.st != 4 || !s.resumeOk t i r then s.finish t q i.seq { status := stMalformed }
      else if !s.regBit Reg.ADM_STATUS 31 then s.refuseBusy t q i.seq 100000000 false
      else s.receive t q i (s.model? r.model) (some slot) (fieldAt b 16 4) (r.context.length + fieldAt b 16 4) (fieldAt b 20 4)

/-! ### Pausing and cancelling -/

/-- R332: a request enters PAUSED (host): its segment has ended, what it had of the draft model goes, its time to live and its HOLD run. With a time to live
of 0 it ends TTL_EXPIRED. -/
def State.enterPaused (s : State) (slot : Nat) (r : Req) : State :=
  let ttl := s.regField (Reg.SRV_TTL (r.tenant % 256)) 0 12
  let due := s.now + ttl * 1000000000
  let s1 := s.putReq slot { r with
    drafted := 0, st := 4, left := 0, seg := none, ending := none, ttlAt := some due
    holdAt := some (s.clk + s.regField Reg.SRV_KVCFG 0 16 * 1000000) }
  if ttl = 0 then s1.endReq slot stTtl 0 false 0
  else s1.setKv (s1.serve.kv.map fun k => if k.slot == slot then { k with ttl := due } else k)

/-- R319: the running segment of a request ends with OK. -/
def State.segmentOk (s : State) (r : Req) (reason : Nat) : State := s.closeSegment r (fun n => { status := stOk, detail := n }) reason

/-- R327: L-hat moves by 1/64 of its distance to the length of a segment that is complete. -/
def State.learnLen (s : State) (r : Req) : State :=
  match r.seg with
  | none => s
  | some sg =>
    let k := s.coefOf r.model
    s.putCoef r.model { k with lhat := k.lhat + ((sg.tokens.length : Rat) - k.lhat) / 64 }

/-- R335: a PAUSE (3) or CANCEL (4) item that takes effect on a paused request. -/
def State.askPaused (s : State) (slot : Nat) (kind q seq : Nat) : State :=
  match s.req? slot with
  | none => s
  | some r =>
    if kind = 3 then
      let s1 := if r.st = 5 then (s.segmentOk r 3).enterPaused slot r else s
      s1.finish r.tenant q seq { status := stOk }
    else (s.endReq slot stOk 2 false 0).finish r.tenant q seq { status := stOk }

/-- The PAUSE and CANCEL items that a paused request still holds take effect in turn. -/
def State.askHeld (slot : Nat) : List (Nat × Nat × Nat) → State → State
  | [], s => s
  | a :: as, s => askHeld slot as (match s.req? slot with
    | none => s
    | some r => (s.putReq slot { r with asked := r.asked.drop 1 }).askPaused slot a.1 a.2.1 a.2.2)

/-- R322, R335: a PAUSE (3) or CANCEL (4). -/
def steerAsk (kind : Nat) (s : State) (t q : Nat) (i : Item) : State :=
  let b := Desc.body i.desc
  if fieldAt b 1 7 != 0 then s.finish t q i.seq { status := stMalformed }
  else match s.namedReq t b with
    | none => s.finish t q i.seq { status := s.namedEnd t b }
    | some (slot, r) =>
      if r.st = 4 || r.st = 5 then s.askPaused slot kind q i.seq
      else if r.st = 1 then
        (if kind = 3 then s.finishBusy t q i.seq 1000000
         else (s.endReq slot stOk 2 false 0).finish t q i.seq { status := stOk })
      else s.putReq slot { r with asked := r.asked ++ [(kind, q, i.seq)] }

def execGenerate (t q : Nat) (s : State) : Result := .next (s.runRow t q 1 fun s i => generateAsk s t q i)
def execResume (t q : Nat) (s : State) : Result := .next (s.runRow t q 2 fun s i => resumeAsk s t q i)
def execPause (t q : Nat) (s : State) : Result := .next (s.runRow t q 3 fun s i => steerAsk 3 s t q i)
def execCancel (t q : Nat) (s : State) : Result := .next (s.runRow t q 4 fun s i => steerAsk 4 s t q i)

/-! ### Buckets, placement, windows -/

/-- R324: one refill of a bucket. -/
def refill (v : Option Int) (rate burst : Nat) : Option Int :=
  match v with
  | none => none
  | some x =>
    let y := if rate = 0xFFFFFFFF then (burst : Int) * 1000000 else x + rate
    if (burst : Int) * 1000000 ≤ y then none else some y

/-- A table with an entry replaced or left out. -/
def Tab.put? {α : Type} (t : Tab α) (k : Nat) (v : Option α) : Tab α := match v with | none => t.drop k | some x => t.setSome k x

/-- R324: every bucket refills. A full bucket has no entry. -/
def execBucketRefill (s : State) : Result :=
  .next (s.setServe { s.serve with
    rq := s.serve.rq.foldl (fun l e => Tab.put? l e.1 (refill (some e.2) (s.regN (Reg.ADM_RQRATE (e.1 % 256))) (s.regField (Reg.ADM_RQBURST (e.1 % 256)) 0 16))) s.serve.rq
    tk := s.serve.tk.foldl (fun l e => Tab.put? l e.1 (refill (some e.2) (s.regN (Reg.ADM_TKRATE (e.1 % 256))) (s.regN (Reg.ADM_TKBURST (e.1 % 256))))) s.serve.tk })

/-- R325: a placement pass. -/
def execPlacementPass (s : State) : Result :=
  .next (State.passItems s.serve.queue.length s.serve.queue { s with boot := { s.boot with passed := true } })

/-- A rational as a register value. -/
def ratReg (r : Rat) : Nat := capAt (2 ^ 32 - 1) r.floor.toNat

/-- R328: the end of a 100 ms window. `waited`: admitted work waited for steps throughout. `quotas`: the admission quotas
in granules as the group's members rebalance them (R326). -/
def execOverloadWindow (waited : Bool) (quotas : List (Nat × Nat)) (s : State) : Result :=
  let d := s.serve.spent
  let sust := if waited then (3 * s.serve.sust + d) / 4 else max s.serve.sust d
  let back := ((s.serve.reqs.filter fun r => r.2.st == 1 || r.2.st == 2).map fun r => r.2.work).sum
  let calm := if back < sust / 20 then s.serve.calm + 1 else 0
  let on := s.regBit Reg.ADM_STATUS 30
  let s1 := s.setServe { s.serve with
    sust := sust, spent := 0, calm := calm, workLast := s.serve.workNow, workNow := []
    budget := s.budgetNow, budgetAt := s.clk
    quota := quotas.foldl (fun l x => Tab.setSome l x.1 x.2) s.serve.quota }
  let s2 := (s1.setRegN Reg.ADM_SUST (ratReg sust)).setRegN Reg.ADM_BACKLOG (ratReg back)
  .next (if !on && decide (sust / 5 < back) then (s2.setServe { s2.serve with budget := 0, calm := 0 }).setAdm 30 true
    else if on && decide (2 ≤ calm) then s2.setAdm 30 false else s2)

/-! ### Steps -/

namespace State

/-- R333: are all blocks of a request resident. -/
def blocksHere (s : State) (slot : Nat) : Bool := s.serve.kv.all fun k => k.slot != slot || k.state == 0

/-- R332: the resident blocks of a request begin to spill. -/
def beginSpill (s : State) (slot : Nat) (r : Req) : State :=
  let s1 := s.putReq slot { r with holdAt := none }
  s1.setKv (s1.serve.kv.map fun k => if k.slot == slot && k.state == 0 then { k with state := 1 } else k)

/-- R326: blocks for `n` positions of a request. Where memory lacks, a host-paused request of the tenant spills early. -/
def growKv (s : State) (slot n : Nat) : Bool × State :=
  match s.req? slot with
  | none => (false, s)
  | some r => match s.model? r.model with
    | none => (false, s)
    | some m =>
      let have_ := (s.serve.kv.filter fun k => k.slot == slot && k.group == 0).length
      match placeBlocks r.tenant (newBlocks m slot r.epoch (64 * have_) n) s with
      | some s1 => (true, s1)
      | none =>
        match List.find? (fun (x : Nat × Req) => x.2.tenant == r.tenant && x.2.st == 4 && s.serve.kv.any fun k => k.slot == x.1 && k.state == 0) s.serve.reqs with
        | none => (false, s)
        | some x => (false, s.beginSpill x.1 x.2)

/-- R337: draft depth of the next round of a request. -/
def roundDepth (r : Req) : Nat :=
  match r.seg with
  | none => 0
  | some sg => if r.samp.draft = 0 then 0 else min r.nextD (sg.maxnew - sg.tokens.length - 1)

/-- R331: no step formed at or after the deadline includes the request. -/
def inTime (s : State) (r : Req) : Bool := match r.seg with | none => false | some sg => sg.deadline == 0 || decide (s.now < sg.deadline)

/-- The requests of a model that a step of epoch `e` may take, in a state of their own. -/
def candidates (s : State) (id e : Nat) (m : Model) (p : Req → Bool) : List (Nat × Req) :=
  s.serve.reqs.filter fun r => r.2.model == id && (m.pinscope == 1 || r.2.epoch == e) && p r.2 && !r.2.inStep && r.2.ending.isNone && s.inTime r.2

/-- R329: does `a` go before `b`: prio, then least slack against the time-to-first-token goal. -/
def prefillBefore (a b : Req) : Bool :=
  let key := fun (r : Req) => match r.seg with
    | none => (0, 2 ^ 70)
    | some g => (g.prio, if g.gttft = 0 then 2 ^ 70 else g.accept + 1000 * g.gttft)
  decide ((key b).1 < (key a).1) || ((key a).1 == (key b).1 && decide ((key a).2 < (key b).2))

/-- Insert into a list in the order of prefillBefore, behind equals. -/
def insPrefill (x : Nat × Req) : List (Nat × Req) → List (Nat × Req)
  | [] => [x]
  | y :: ys => if prefillBefore x.2 y.2 then x :: y :: ys else y :: insPrefill x ys

/-- Take decode requests with their blocks, up to the batch limit. -/
def takeDecode (batch : Nat) : List (Nat × Req) → List Nat → State → List Nat × State
  | [], acc, s => (acc, s)
  | x :: xs, acc, s =>
    if batch ≤ acc.length then (acc, s)
    else if !s.blocksHere x.1 then takeDecode batch xs acc s
    else
      let g := s.growKv x.1 (x.2.context.length + roundDepth x.2)
      takeDecode batch xs (if g.1 then acc ++ [x.1] else acc) g.2

/-- Cut prefill chunks, at most `room` prompt tokens in all. -/
def takePrefill : Nat → List (Nat × Req) → List (Nat × Nat) → List (Nat × Nat)
  | _, [], acc => acc
  | room, x :: xs, acc =>
    let n := min room (promptLeft x.2)
    takePrefill (room - n) xs (if n = 0 then acc else acc ++ [(x.1, n)])

/-- R297, R334: the requests of a model that still run enter PAUSED (curtain); items that wait on them take effect. -/
def curtainPause (s : State) (id : Nat) : State :=
  (s.serve.reqs.filter fun r => r.2.model == id && (r.2.st == 2 || r.2.st == 3) && !r.2.inStep).foldl (fun s x =>
    let s1 := s.putReq x.1 { x.2 with drafted := 0, st := 5, left := x.2.st, holdAt := some (s.clk + s.regField Reg.SRV_KVCFG 0 16 * 1000000) }
    askHeld x.1 x.2.asked s1) s

end State

/-- R439: are shards of a model being rebuilt for a role of this pair. -/
def State.rebuilding (s : State) (model : Nat) : Bool :=
  s.curtain.runs.any fun c => c.2.rebuild && c.2.phase == 4 && c.2.model % 2 ^ 32 == model % 2 ^ 32

/-- R445: from 50 ms before the split cue no new step is formed for the role that is given back. -/
def State.splitNear (s : State) (model : Nat) : Bool :=
  decide (2 ^ 32 ≤ model) && s.pair.split.any fun t => decide (t ≤ s.now + 50000000)

/-- R283, R329: the scheduler forms a step of one epoch for the model's group and routes its products (R98, R99, R320). `batch` is the
batch limit of the model's layout. -/
def execStepFormation (model epoch batch : Nat) (s : State) : Result :=
  match s.model? model with
  | none => .next s
  | some m =>
    if (Tab.find? s.serve.steps model).isSome || m.fenced || s.rebuilding model || s.splitNear model then .next s
    else if m.pausing then .next (s.curtainPause model)
    else if (m.kind == 1 && !m.gen) || !(m.live.any fun e => e.number == epoch) || (m.pinscope == 1 && epoch != m.current) then .next s
    else if (s.variantOf model).isSome && !s.resident model then .next s
    else
      let d := State.takeDecode batch (s.candidates model epoch m fun r => r.st == 3) [] s
      let s1 := d.2
      let pre := (s1.candidates model epoch m fun r => r.st == 1 || r.st == 2).filter fun x => s1.blocksHere x.1
      let chunks := State.takePrefill (s.regField Reg.SRV_STEPCFG 0 16) (pre.foldl (fun l x => State.insPrefill x l) []) []
      let slots := d.1 ++ chunks.map Prod.fst
      if slots.isEmpty then .next s1
      else
        let k := s1.coefOf model
        let f := reefFraction s1.reefLevel
        let ctx := (d.1.map fun i => ((s1.req? i).map fun r => r.context.length).getD 0).sum
        let run : StepRun :=
          { model := model, epoch := epoch, slots := slots, chunks := chunks, formed := s1.now
            predP := (chunks.map fun c => State.prefillTime k (((s1.req? c.1).map fun r => r.filled).getD 0) c.2).sum / f
            predD := if d.1.isEmpty then 0 else State.decodeTime k d.1.length ctx / f }
        let cols := (d.1.map fun i => (i, 1 + (s1.req? i).elim 0 State.roundDepth)) ++ chunks
        let made := m.stepProducts (s1.roleAt model) epoch (cols.map Prod.snd).sum ++
          s1.adapterProducts m (s1.roleAt model) 0 cols
        let run := { run with products := made }
        let s2 := slots.foldl (fun s i => match s.req? i with
          | none => s
          | some r => s.putReq i { r with inStep := true, armed := r.asked.length, st := if r.st = 1 then 2 else r.st }) s1
        .next (s2.setServe { s2.serve with steps := Tab.setSome s2.serve.steps model run })

/-! ### Boundaries -/

namespace State

/-- Tokens up to and with the first stop token. -/
def cutStop (stops : List Nat) : List Token → List Token
  | [] => []
  | k :: ks => if stops.elem k.id.toNat then [k] else k :: cutStop stops ks

/-- R330: the measures of a segment at a boundary that delivers `ts`. -/
def measure (s : State) (sg : Segm) (ts : List Token) : Segm × State :=
  let sg1 := { sg with tokens := sg.tokens ++ ts, last := s.now }
  if sg.tokens.isEmpty then
    let miss := sg.gttft ≠ 0 && decide (sg.gttft < (s.now - sg.accept) / 1000)
    ({ sg1 with first := s.now }, if miss then s.bump Reg.SRV_TTFTMISS 1 else s)
  else
    let iv := (s.now - sg.last) / 1000
    let miss := sg.gtbt ≠ 0 && decide (sg.gtbt < iv)
    ({ sg1 with tbtmax := max sg.tbtmax iv, tbtsum := capAt (2 ^ 32 - 1) (sg.tbtsum + iv), tbtn := sg.tbtn + 1 },
      if miss then s.bump Reg.SRV_TBTMISS 1 else s)

/-- R234: valid counts of a request's blocks, and the epoch of those that the step wrote. R233: rows at or beyond the valid count
are zero. -/
def fillKv (s : State) (slot from_ upto epoch : Nat) : State :=
  let l := s.serve.kv.map fun k =>
    if k.slot == slot then
      { k with valid := min 64 (upto - k.pos), epoch := if decide (from_ < k.pos + 64 ∧ k.pos < upto) then epoch else k.epoch }
    else k
  let s1 := match (s.req? slot).bind fun r => s.model? r.model with
    | none => s
    | some m => (l.filter fun (k : KvBlock) => k.slot == slot && k.valid < 64).foldl (fun s k => s.zeroRows m k k.valid) s
  s1.setKv l

/-- R319, R321, R335: how a request goes on after its tokens are delivered. `stop`: its segment is complete, with this
reason. -/
def afterStep (s : State) (slot : Nat) (r : Req) (stop : Option Nat) : State :=
  match r.ending with
  | some (st, reason, flt, f) => (s.putReq slot r).endReq slot st reason flt f
  | none =>
    match stop with
    | some reason =>
      let s1 := s.learnLen r
      if tbit r.samp.gflags 0 then askHeld slot r.asked ((s1.segmentOk r reason).enterPaused slot { r with armed := 0 })
      else (s1.putReq slot r).endReq slot stOk reason false 0
    | none =>
      match r.asked.take r.armed, r.asked.drop r.armed with
      | [], _ => s.putReq slot { r with armed := 0 }
      | (kind, q, seq) :: more, later =>
        if kind = 4 then (s.putReq slot r).endReq slot stOk 2 false 0
        else
          let s1 := (s.segmentOk r 3).enterPaused slot { r with asked := later, armed := 0 }
          let s2 := ((kind, q, seq) :: more).foldl (fun s a => s.finish r.tenant a.2.1 a.2.2 { status := stOk }) s1
          askHeld slot later s2

/-- R329 to R331, R337 to R339: the boundary of a step for one of its requests. `pos`: what the step computed for it. -/
def boundaryOne (run : StepRun) (slot : Nat) (pos : List PosRow) (s : State) : State :=
  match s.req? slot with
  | none => s
  | some r0 =>
    if !r0.inStep then s
    else
      let r := { r0 with inStep := false }
      let chunk := ((run.chunks.find? fun c => c.1 == slot).map Prod.snd).getD 0
      match r.seg with
      | none => s.putReq slot r
      | some sg =>
        if sg.deadline ≠ 0 && decide (sg.deadline < s.now) then (s.putReq slot r).endReq slot stDeadline 4 false 0
        else if chunk ≠ 0 && decide (r.filled + chunk < r.context.length) then
          ((s.fillKv slot r.filled (r.filled + chunk) run.epoch).afterStep slot { r with filled := r.filled + chunk } none)
        else
          let d := if chunk = 0 then roundDepth r else 0
          let got := roundTokens r.seed r.samp.beta r.context.length d pos
          let a := got.length - 1
          let out := (cutStop r.samp.stops got).take (sg.maxnew - sg.tokens.length)
          let m := s.measure sg out
          let sg1 := { m.1 with proposed := sg.proposed + d, accepted := sg.accepted + a }
          let s1 := (m.2.bump Reg.SRV_PROPOSED d).bump Reg.SRV_ACCEPTED a
          let s2 := s1.fillKv slot r.filled (r.context.length + out.length - 1) run.epoch
          let alpha := if d = 0 then r.alpha else nextAlpha r.alpha a d
          let r1 := { r with
            st := 3, context := r.context ++ out.map (·.id.toNat), filled := r.context.length + out.length - 1, alpha := alpha
            drafted := if d = 0 then r.drafted else r.context.length + out.length - 1
            nextD := if d = 0 then r.nextD else bestDepth alpha s.rho r.samp.depth, seg := some sg1 }
          let s3 := if tbit r.samp.gflags 1 then s2.sendTokens r1 sg1 else s2
          let sg2 := if tbit r.samp.gflags 1 then { sg1 with sent := sg1.tokens.length } else sg1
          let stop := if out.any (fun k => r.samp.stops.elem k.id.toNat) then some 1
            else if sg.maxnew ≤ sg2.tokens.length then some 0 else none
          s3.afterStep slot { r1 with seg := some sg2 } stop

/-- Has a step computed every position of a request that must get a token: one more than a round proposes, with the draft
model's share of those that it proposes. -/
def rowReady (s : State) (run : StepRun) (rows : List StepRow) (slot : Nat) : Bool :=
  match s.req? slot with
  | none => true
  | some r =>
    let chunk := ((run.chunks.find? fun c => c.1 == slot).map Prod.snd).getD 0
    let d := if chunk = 0 then roundDepth r else 0
    !r.inStep || (chunk != 0 && decide (r.filled + chunk < r.context.length)) || ((rows.find? fun x => x.slot == slot).any fun x =>
      decide (d < x.pos.length) && x.pos.all (fun y => !y.scores.isEmpty && y.probs.length == y.scores.length) &&
      (x.pos.take d).all fun y => y.dscores.length == y.scores.length && y.dprobs.length == y.scores.length)

/-- R327: after a step each coefficient moves with the ratio of measured to predicted time of its terms. -/
def learnCost (k : Coef) (predP predD measP measD : Rat) : Coef :=
  let fp := if predP = 0 then 1 else 1 + (measP / predP - 1) / 16
  let fd := if predD = 0 then 1 else 1 + (measD / predD - 1) / 16
  { k with a0 := k.a0 * fp, a1 := k.a1 * fp, a2 := k.a2 * fp, b0 := k.b0 * fd, b1 := k.b1 * fd, b2 := k.b2 * fd }

end State

/-- R329: STEP_BOUNDARY: the last result of a model's step is written. `rows`: what the cores computed.
`preNs`, `decNs`: the measured times of its prefill and decode terms. -/
def execStepBoundary (model : Nat) (rows : List StepRow) (preNs decNs : Nat) (s : State) : Result :=
  match Tab.find? s.serve.steps model with
  | none => .next s
  | some run =>
    if !run.slots.all (fun i => s.rowReady run rows i) then .next s
    else
      let s1 := run.slots.foldl (fun s i => State.boundaryOne run i (((rows.find? fun x => x.slot == i).map (·.pos)).getD []) s) s
      let k := s1.coefOf model
      let k1 := State.learnCost k run.predP run.predD ((preNs : Rat) / 1000) ((decNs : Rat) / 1000)
      let s2 := (s1.putCoef model k1).setServe { (s1.putCoef model k1).serve with
        steps := Tab.drop s1.serve.steps model
        spent := s1.serve.spent + ((preNs + decNs : Nat) : Rat) / 1000 * (s1.groupCores model : Rat) }
      .next (if (s2.model? model).any (·.pausing) then s2.curtainPause model else s2)

/-- R331: a request in no running step passes its deadline. -/
def execDeadlineExpiry (slot : Nat) (s : State) : Result :=
  match s.req? slot with
  | none => .next s
  | some r => .next (if r.inStep || s.inTime r || r.seg.isNone then s else s.endReq slot stDeadline 4 false 0)

/-! ### Movement of KV blocks -/

/-- R237: the pool of a tenant on the understudy holds the copy of a block at `c`: granules that it lacks are asked for by STATE
records, within SRV_POOL. None where the pool is full. -/
def State.poolTake (s : State) (t c len : Nat) : Option State :=
  let gs := (List.range (ceilDiv (c % 2 ^ 21 + len) (2 ^ 21))).map (c % 2 ^ 44 / 2 ^ 21 + ·)
  let new := gs.filter fun g => (Tab.find? s.serve.pool g).isNone
  let held := (s.serve.pool.filter fun g => g.2.1 == t).length
  if s.regField (Reg.SRV_POOL (t % 256)) 0 17 < held + new.length then none
  else some (new.foldl (fun s g =>
    let x := s.sendMirror 4 s.self State.recPool 0 0 (leBytes 2 t ++ leBytes 2 1 ++ leBytes 4 g) false
    x.2.setServe { x.2.serve with pool := Tab.setSome x.2.serve.pool g (t, x.1) }) s)

/-- R237: is every granule under a copy acknowledged by the understudy. -/
def State.poolReady (s : State) (b : KvBlock) : Bool := s.serve.pool.all fun g => !s.holdsCopy g.1 b || s.mirAcked g.2.2

/-- R235 to R237: KV_SPILL of one block to the tenant's spill tier. `copy`: where the copy is to lie, as a global address in the
understudy's HBM that its scheduler names, or an offset in the host region; none when the understudy has no granule. -/
def execKvSpill (slot pos group : Nat) (copy : Option Nat) (s : State) : Result :=
  match s.req? slot, s.kvBlock slot pos group with
  | some r, some b =>
    let toHost := s.regField (Reg.SRV_TTL (r.tenant % 256)) 12 2 == 1
    let hreg := s.regField (Reg.SRV_TTL (r.tenant % 256)) 16 6
    let under := !b.psns.isEmpty || s.host.posts.any fun p => p.2 == .kv slot pos group
    if b.state != 1 || !State.Req.paused r || under then .next s
    else if b.frames.any fun a => s.poisonedIn a 4096 then .next (s.loseBlock slot)
    else
      let bs := s.blockBytes b
      let crc := (crc64 bs).toNat
      match copy with
      | none => .next (if toHost then s.loseBlock slot else s.spillLater r b)
      | some c =>
        if toHost then
          (if (s.hostRange r.tenant hreg c b.length).isNone then .next (s.loseBlock slot)
           else .next ((s.putBlock { b with tier := 2, copy := hreg * 2 ^ 58 + c, crc := crc }).regionWrite r.tenant hreg c bs (.kv slot pos group)))
        else if s.peerFails s.partner || !s.mirrored then .next (s.loseBlock slot)
        else
          let taken := s.serve.kv.any fun k => k.entry != b.entry && k.copy / 2 ^ 44 == s.partner && k.tier != 2 && k.copy != 0 &&
            State.overlaps k.copy k.length c b.length
          if c / 2 ^ 44 != s.partner || State.hbmEnd < c % 2 ^ 44 + b.length || taken then .next s
          else match s.poolTake r.tenant c b.length with
            | none => .next (s.spillLater r b)
            | some s1 =>
              let b1 := { b with copy := c, crc := crc }
              let s2 := s1.putBlock b1
              if !s2.poolReady b1 then .next s2
              else
                let x := s2.sendWrite 5 0 c bs
                .next (x.2.putBlock { b1 with tier := 1, psns := x.1 })
  | _, _ => .next s

/-- Is the HOLD of a paused request over. -/
def State.holdOver (s : State) (r : Req) : Bool := State.Req.paused r && r.holdAt.any fun t => decide (t ≤ s.clk)

/-- R332: KV_HOLD_EXPIRY: the blocks of a paused request begin to spill. -/
def execKvHoldExpiry (slot : Nat) (s : State) : Result :=
  match s.req? slot with
  | none => .next s
  | some r => .next (if s.holdOver r then s.beginSpill slot r else s)

/-- R237: KV_SPILL_RETRY: blocks that found the pool full try again after a further HOLD. -/
def execKvSpillRetry (slot : Nat) (s : State) : Result :=
  match s.req? slot with
  | none => .next s
  | some r =>
    let retry := s.serve.kv.any fun k => k.slot == slot && k.state == 0
    .next (if s.holdOver r && retry then s.beginSpill slot r else s)

/-- R235: KV_FETCH of one block: its frames are allocated and its copy is read. -/
def execKvFetch (slot pos group : Nat) (s : State) : Result :=
  match s.req? slot, s.kvBlock slot pos group with
  | some r, some b => .next (if b.state == 3 && b.frames.isEmpty then s.fetchBegin r b else s)
  | _, _ => .next s

/-- R332, R333, R236: TTL_EXPIRY of a host-paused request. A RESUME that was accepted before holds it back. -/
def execTtlExpiry (slot : Nat) (s : State) : Result :=
  match s.req? slot with
  | none => .next s
  | some r =>
    let resumed := (List.range 16).any fun q => (s.hq r.tenant q).items.any fun i =>
      i.kind == 2 && !i.refused && i.done.isNone && fieldAt (Desc.body i.desc) 0 1 == r.q0 && fieldAt (Desc.body i.desc) 8 8 == r.seq0
    .next (if r.st == 4 && r.ttlAt.any (fun t => decide (t ≤ s.now)) && !resumed then s.endReq slot stTtl 0 false 0 else s)

/-! ### Variants -/

namespace State

/-- Evict unpinned variants, idle longest first, while `need` says so. -/
def evictWhile (need : State → Bool) : Nat → State → State
  | 0, s => s
  | n + 1, s =>
    if !need s then s
    else
      let idle := s.serve.variants.filter fun v => !s.variantPinned v.1
      match idle.foldl (fun b v => match b with
          | none => some v
          | some w => if v.2.idleAt < w.2.idleAt then some v else b) (none : Option (Nat × Variant)) with
      | none => s
      | some v => evictWhile need n (s.evictVariant v.1)

/-- R336: copy `n` granules of a loft model into HBM granules, with their poison marks. -/
def copyLoft (l : LoftModel) (gs : List Nat) (n : Nat) (s : State) : State :=
  (List.range n).foldl (fun s k =>
    let src := loftBase + l.loff + k * 2 ^ 21
    let dst := granuleAddr (gs.getD k 0)
    let s := s.writeBytes dst (s.readN src (2 ^ 21))
    let marks := s.poison.filter fun w => decide (src / 64 ≤ w ∧ w < (src + 2 ^ 21) / 64)
    { s with poison := marks.foldl (fun p w => insertNat (w - src / 64 + dst / 64) p) s.poison }) s

end State

/-- R336: VARIANT_SWAP_IN of a variant that an admitted request waits for. -/
def execVariantSwapIn (model : Nat) (s : State) : Result :=
  match s.variantOf model, s.model? model with
  | some l, some m =>
    if s.resident model || !(s.serve.reqs.any fun r => r.2.model == model && r.2.st == 1) then .next s
    else
      let n := ceilDiv l.len (2 ^ 21)
      let tight := fun (s : State) =>
        decide (64 ≤ s.serve.variants.length) || decide (s.regField Reg.SRV_VARGRAN 0 19 < s.regField Reg.SRV_VARST 8 19 + n) ||
        decide (s.regField (Reg.TNT_GRANLIM m.tenant) 0 19 < s.regField (Reg.TNT_GRANUSE m.tenant) 0 19 + n) ||
        decide (s.regField Reg.MEM_FREE 0 19 < n)
      let s1 := State.evictWhile tight 64 s
      if tight s1 then .next s1
      else match s1.allocsFor m.tenant (State.mkGran m.tenant 1 false true false false 0) (fun _ => true) n with
        | none => .next s1
        | some (gs, s2) =>
          let s3 := State.copyLoft l gs n s2
          match State.mapPages m.tenant 21 (fun a => s3.leafTo a true false false false false) (gs.map State.granuleAddr) (State.loftVa l) s3 with
          | none => .next s1
          | some s4 =>
            let v : Variant := { model := model, tenant := m.tenant, grans := gs, idleAt := s4.clk }
            .next (((s4.setServe { s4.serve with variants := Tab.setSome s4.serve.variants model v }).showVariants).bump Reg.SRV_SWAPS 1)
  | _, _ => .next s

/-- R336: VARIANT_EVICT of an unpinned variant that has been idle for IDLE. -/
def execVariantEvict (model : Nat) (s : State) : Result :=
  match Tab.find? s.serve.variants model with
  | none => .next s
  | some v =>
    .next (if s.variantPinned model || decide (s.clk < v.idleAt + s.regField Reg.SRV_VARCFG 16 16 * 1000000000) then s
      else s.evictVariant model)

end Sys2Proof.Machine
end

