-- ==== Sys2Proof/Machine/Role.lean ====
section
/-! DEFINITION. The roles of a pair (chapter 15): taking up a role's mirrored state (R436, R445), the items of the role that
continue and those that return (R438), its generation shards (R439), giving a role back (R445). The state of the role that a
module serves for its partner stands beside its own under numbers of its own (log entry 88): tenants from 256, request slots
from 2^40, models, adapters, curtains and jobs from 2^32. -/

namespace Sys2Proof.Machine

/-- The numbers here of a tenant, a slot and a model, curtain or job of a role; `v`: it is the partner's role. -/
def upTenant (v : Bool) (t : Nat) : Nat := t + (if v then 256 else 0)
def upSlot (v : Bool) (i : Nat) : Nat := i + (if v then 2 ^ 40 else 0)
def upKey (v : Bool) (k : Nat) : Nat := k + (if v then 2 ^ 32 else 0)
def upRef (v : Bool) (r : Option ItemRef) : Option ItemRef := r.map fun x => (upTenant v x.1, x.2)

/-- A table under other numbers, which keep their order. -/
def Tab.renumber {α β : Type} (t : Tab α) (k : Nat → Nat) (f : α → β) : Tab β := t.map fun x => (k x.1, f x.2)

/-- Tables of two roles joined. -/
def Tab.join {α : Type} (a b : Tab α) : Tab α := b.foldl (fun t x => Tab.setSome t x.1 x.2) a

/-- R436: a granule of the role that is here: the one itself, or its mirror. None where it had no `MIR`. -/
def Handed.granHere (h : Handed) (v : Bool) (g : Nat) : Option Nat :=
  let w := Tab.get 0#64 h.grans g
  if State.gMir w then some (if v then State.gMgran w else g) else none

/-- Several granules, all or none. -/
def Handed.gransHere (h : Handed) (v : Bool) (l : List Nat) : Option (List Nat) := l.mapM (h.granHere v)

/-- The place here of a local HBM address of the role. -/
def Handed.addrHere (h : Handed) (v : Bool) (a : Nat) : Option Nat := (h.granHere v (a / 2 ^ 21)).map fun g => g * 2 ^ 21 + a % 2 ^ 21

/-- A KV block here: its frames, an interrupted spill or fetch starts again. None where its pages are lost (R438). -/
def Handed.block (h : Handed) (v : Bool) (entry : Nat) (b : KvBlock) : Option KvBlock :=
  let fs := if b.state = 3 then some [] else b.frames.mapM (h.addrHere v)
  fs.map fun fs => { b with
    slot := upSlot v b.slot, frames := fs, entry := entry, psns := [], asked := 0
    tier := if b.state = 1 then 0 else b.tier, copy := if b.state = 1 then 0 else b.copy }

/-- R438: the requests whose KV pages are lost. -/
def Handed.lostSlots (h : Handed) (v : Bool) : List Nat :=
  h.lost ++ (h.kv.filter fun b => (h.block v 0 b).isNone).map (·.slot)

/-- R439: the epochs of a model whose generation shards are lost here. -/
def Handed.lostEpochs (h : Handed) (v : Bool) (m : Model) : List Nat :=
  (m.live.filter fun e => (h.gransHere v e.grans).isNone).map (·.number)

/-- A model here: an epoch with lost shards goes, but for the current one, which is rebuilt (R439). -/
def Handed.model (h : Handed) (v : Bool) (m : Model) : Model :=
  { m with
    tenant := upTenant v m.tenant, unload := upRef v m.unload
    live := (m.live.filter fun e => e.number == m.current || (h.gransHere v e.grans).isSome).map fun e =>
      { e with grans := (h.gransHere v e.grans).getD [] } }

/-- A curtain here. Pieces and wings that were not mirrored are pulled again (R286, R311); chunks asked for are asked anew. -/
def Handed.run (h : Handed) (v : Bool) (c : Curtain) : Curtain :=
  let ws := h.gransHere v c.wings
  { c with
    num := upKey v c.num, model := upKey v c.model, tenant := upTenant v c.tenant, submit := upRef v c.submit, wings := ws.getD []
    pieces := c.pieces.map fun p => (p.1, if ws.isNone then {} else { p.2 with
      chunks := p.2.chunks.filter fun k => k.2.done || k.2.parked.isSome || !k.2.acks.isEmpty }) }

/-- A step item and a job here. -/
def upStep (v : Bool) (x : StepItem) : StepItem := { x with submit := upRef v x.submit }
def upJob (v : Bool) (j : Job) : Job :=
  { j with tenant := upTenant v j.tenant, model := upKey v j.model, run := j.run.map (upStep v), tail := j.tail.map (upStep v), waiting := j.waiting.map (upStep v) }

namespace State

/-- The role that is taken up: the partner's, or this module's own. -/
def roleNumber (s : State) (v : Bool) : Nat := if v then s.partner else s.self

/-- R436: registers of the tenant windows, queues, fault logs, resets, committed completions. Queue pairs end with the old module, and
tables are built anew (R437). -/
def takeHost (s : State) (v : Bool) (h : Handed) : State :=
  let s1 := (h.regs.filter fun r => decide (0x200000 ≤ r.1 ∧ r.1 < 0x300000)).foldl (fun s r =>
    s.setRegN (r.1 + (if v then 0x100000 else 0)) r.2) s
  let s2 := (List.range 256).foldl (fun s t =>
    let t := upTenant v t
    let s := ((s.setRegN (Reg.TNT_ROOTL t) 0).setRegN (Reg.TNT_ROOTH t) 0).setRegN (Reg.TNT_GRANUSE t) 0
    (List.range 16).foldl (fun s q => s.setRegN (Reg.TNT_RQST t q) 0) s) s1
  let s3 := s2.setHost { s2.host with
    queues := Tab.join s2.host.queues (Tab.renumber h.queues (fun k => 16 * upTenant v (k / 16) + k % 16) fun x => { x with unparsed := [], asking := [] })
    flogs := Tab.join s2.host.flogs (Tab.renumber h.flogs (upTenant v) id)
    resets := Tab.join s2.host.resets (Tab.renumber h.resets (upTenant v) id) }
  h.commits.foldl (fun s c => s.setHost { s.host with
    posts := Tab.setSome s.host.posts s.host.nextId (.record (upTenant v c.1) c.2.1 c.2.2.1 c.2.2.2.1 c.2.2.2.2), nextId := s.host.nextId + 1 }) s3

/-- R436: the role's ownership table: over the mirrors, or this module's own. Pages without `MIR` are gone. -/
def takeGrans (s : State) (v : Bool) (h : Handed) : State :=
  (h.grans.filter fun g => gMir g.2).foldl (fun s g => if v then s.putServed g.1 g.2 else s.putGran g.1 g.2) s

/-- R436: a leaf of the role's tables: pages of the role's own module lie in the mirrors, those of its loft in this module's; other
leaves stay as they are. -/
def takeLeaf (s : State) (v : Bool) (l : Nat × Nat × Nat × Nat) : State :=
  let t := upTenant v l.1
  let e := l.2.2.2
  let a := teFrame e % 2 ^ 44
  if !v || tbit e 7 || field (teFrame e) 44 13 != s.partner then (s.putLeaf t l.2.1 l.2.2.1 e).getD s
  else if tbit e 4 then (s.putLeaf t l.2.1 l.2.2.1 (e - s.partner * 2 ^ 44 + s.self * 2 ^ 44)).getD s
  else (List.range (if l.2.2.1 = 30 then 512 else 1)).foldl (fun s k =>
    match s.servedAt (a + k * 2 ^ 21) with
    | none => s
    | some x => (s.putLeaf t (l.2.1 + k * 2 ^ 21) (min l.2.2.1 21) (e % 4096 + s.self * 2 ^ 44 + x.1)).getD s) s

/-- R436: the request table, the admission queue, KV blocks, buckets, coefficients. Steps do not survive: a request goes on from its
last mirrored boundary. -/
def takeServe (s : State) (v : Bool) (h : Handed) : State :=
  let s1 := s.setServe { s.serve with
    reqs := Tab.join s.serve.reqs (Tab.renumber h.reqs (upSlot v) fun r => { r with
      tenant := upTenant v r.tenant, model := upKey v r.model, inStep := false, armed := 0 })
    ended := Tab.join s.serve.ended (Tab.renumber h.ended (upSlot v) fun e => { e with tenant := upTenant v e.tenant })
    queue := s.serve.queue ++ h.waiting.zipIdx.map fun x => { x.1 with tenant := upTenant v x.1.tenant, order := s.serve.order + x.2 + 1 }
    order := s.serve.order + h.waiting.length
    rq := Tab.join s.serve.rq (Tab.renumber h.rq (upTenant v) id)
    tk := Tab.join s.serve.tk (Tab.renumber h.tk (upTenant v) id)
    coef := Tab.join s.serve.coef (Tab.renumber h.coef (upKey v) id) }
  let s2 := h.kv.foldl (fun s b =>
    match s.kvEntry with
    | none => s
    | some (e, s1) => match h.block v e b with
      | none => s1
      | some x => s1.setKv (s1.serve.kv ++ [x])) s1
  ((h.reqs.map fun r => upTenant v r.2.tenant).foldl (fun s t => s.showSlots t) s2).showQueue

/-- R436: models, adapters, curtains, jobs, the stage manager's requests. An adapter version whose pages are lost goes. -/
def takeCurtain (s : State) (v : Bool) (h : Handed) : State :=
  let ads := h.adapters.filterMap fun a => (h.gransHere v a.2.grans).map fun l =>
    (upKey v a.1, { a.2 with tenant := upTenant v a.2.tenant, model := upKey v a.2.model, grans := l })
  let s1 := s.setCurtain { s.curtain with
    models := Tab.join s.curtain.models (Tab.renumber h.models (upKey v) (h.model v))
    adapters := Tab.join s.curtain.adapters ads
    blobs := s.curtain.blobs ++ h.blobs.map fun b => { b with model := upKey v b.model }
    runs := Tab.join s.curtain.runs (Tab.renumber h.runs (upKey v) (h.run v))
    queue := s.curtain.queue ++ h.asks.map fun r => { r with submit := upRef v r.submit, model := upKey v r.model }
    running := if h.running.isSome then h.running.map (upKey v) else s.curtain.running
    number := max s.curtain.number h.number
    revokes := s.curtain.revokes ++ h.revokes.map fun r => { r with model := upKey v r.model, submit := upRef v r.submit } }
  (s1.setTrain { s1.train with jobs := Tab.join s1.train.jobs (Tab.renumber h.jobs (upKey v) (upJob v)) }).showQueued

/-- R436: the pending cue-sheet entries of the role. -/
def takeCues (s : State) (v : Bool) (h : Handed) : State :=
  h.cues.foldl (fun s c => (s.addCue c.1 c.2.1 c.2.2.1 c.2.2.2.1 (s.roleNumber v) c.2.2.2.2).getD s) s

/-- R438: an item returns PAIR_RECOVERED, counted in PAI_RECOVERED. -/
def returnItem (s : State) (t q seq : Nat) : State := (s.finish t q seq { status := stRecovered }).bump Reg.PAI_RECOVERED 1

/-- R438, R439: a request ends with PAIR_RECOVERED; its pins go with it. -/
def endRecovered (s : State) (slot : Nat) : State :=
  match s.req? slot with
  | none => s
  | some r =>
    let s1 := match r.seg with | none => s | some g => s.returnItem r.tenant g.q g.seq
    (s1.putReq slot { r with seg := none }).endReq slot stRecovered 0 false 0

/-- R438: the items that never continue: REG_READ, REG_WRITE, IMAGE. -/
def returnItems (s : State) (v : Bool) (h : Handed) : State :=
  h.queues.foldl (fun s x =>
    let t := upTenant v (x.1 / 16)
    let q := x.1 % 16
    ((s.hq t q).items.filter fun i => !i.refused && i.done.isNone && (i.kind == 0x40 || i.kind == 0x41 || i.kind == 0x42)).foldl (fun s i =>
      s.returnItem t q i.seq) s) s

/-! ### Generation shards (R439) -/

/-- The number of the curtain under which a model's shards are rebuilt. -/
def rebuildNum (v : Bool) (k : Nat) : Nat := upKey v (2 ^ 31 + k % 2 ^ 31)

/-- R439: the rebuild of the current epoch's shards of a role. -/
def rebuildOf (s : State) (v : Bool) (k : Nat) (m : Model) : Curtain :=
  let role := s.roleNumber v
  let es := (weightPieces s m).filter fun p => p.dst == role
  { num := rebuildNum v k, dir := 0, model := k, epoch := m.current, aver := 0, tenant := m.tenant, cues := [0, 0, 0, 0, 0], entries := es
    members := es.foldl (fun l p => insertNat p.src l) [role], phase := 4
    pieces := es.foldl (fun t p => Tab.setSome t p.piece {}) [], chunkTo := s.regField Reg.CUR_CHUNKTO 0 16 }

/-- R439: does some piece have its only source in lost pages of the role. -/
def sourceLost (s : State) (c : Curtain) : Bool :=
  c.entries.any fun p => p.src == s.roleAt c.num && (servePiece s c p none).isNone

/-- Does a model's replica group here need the module `f`: no other module holds one of its shards. -/
def needsModule (m : Model) (f : Nat) : Bool :=
  (m.genShards f).any fun q => !(m.shardsOf q.1 true).any fun x =>
    x.module != f && x.row0 == q.2.row0 && x.col0 == q.2.col0 && x.nrows == q.2.nrows && x.ncols == q.2.ncols

/-- End the requests of a model with PAIR_RECOVERED. -/
def endModelReqs (s : State) (k : Nat) (p : Req → Bool) : State :=
  (s.serve.reqs.filter fun r => r.2.model == k && p r.2).foldl (fun s r => s.endRecovered r.1) s

/-- R439: the pieces are pulled from their training sources, without a ready mask; each source gets its manifest. -/
def startRebuild (s : State) (v : Bool) (k : Nat) (m : Model) : State :=
  let c := s.rebuildOf v k m
  if s.sourceLost c then
    let s1 := s.endModelReqs k fun _ => true
    let other := if v then k - 2 ^ 32 else k + 2 ^ 32
    let s2 := if (s1.model? other).any (fun x => needsModule x (s.roleNumber v)) then s1.endModelReqs other fun _ => true else s1
    s2.setCurtain { s2.curtain with models := Tab.drop s2.curtain.models k }
  else match s.allocWings c m with
    | none => s.endModelReqs k fun _ => true
    | some (l, s1) =>
      let c1 := { c with wings := l }
      let s2 := (c.members.filter (· != s.roleNumber v)).foldl (fun s x =>
        s.emit (.manifest x (manifestBytes c (c.entries.filter fun p => p.src == x)) 0 c.members)) (s1.putRun c1)
      let s3 := (c.entries.filter fun p => p.src == s.roleNumber v).foldl (fun s p =>
        match servePiece s c1 p none, s.run? c1.num with
        | some d, some c => s.putRun (c.enterDigest p.piece (sha3 d.bytes))
        | _, _ => s) s2
      match s3.run? c1.num with
      | none => s3
      | some c => s3.issueChunks c

/-- R439: requests pinned to an epoch whose shards are lost, but for the current one, end; the current one's shards are rebuilt. -/
def takeShards (s : State) (v : Bool) (h : Handed) : State :=
  h.models.foldl (fun s x =>
    let k := upKey v x.1
    let gone := h.lostEpochs v x.2
    let s1 := s.endModelReqs k fun r => x.2.pinscope == 0 && r.epoch != x.2.current && gone.elem r.epoch
    match s1.model? k with
    | none => s1
    | some m => if gone.elem x.2.current then s1.startRebuild v k m else s1) s

/-- R286, R311: the wings of curtains that were not mirrored are allocated anew, and what the role still lacks is pulled. -/
def takeRuns (s : State) (v : Bool) (h : Handed) : State :=
  h.runs.foldl (fun s x =>
    match s.run? (upKey v x.1) with
    | none => s
    | some c =>
      let s1 := match (if (h.gransHere v x.2.wings).isNone then s.model? c.model else none) with
        | none => s
        | some m => match s.allocWings c m with
          | none => s.notReady { c with nomem := true } stNoMemory
          | some (l, s1) => s1.putRun { c with wings := l }
      match s1.run? (upKey v x.1) with
      | none => s1
      | some c => if c.phase = 4 then s1.issueChunks c else s1) s

/-- R436, R438, R439, R445: take up a role from its mirrored state. -/
def takeRole (s : State) (v : Bool) (h : Handed) : State :=
  let s1 := ((s.takeHost v h).takeGrans v h)
  let s2 := h.leaves.foldl (fun s l => s.takeLeaf v l) s1
  let s3 := ((s2.takeCurtain v h).takeServe v h).takeCues v h
  let s4 := (h.lostSlots v).foldl (fun s i => s.endRecovered (upSlot v i)) s3
  let s5 := (h.reqs.filter fun r => r.2.adapter != 0).foldl (fun s r =>
    if s.curtain.adapters.any (fun a => a.2.model == upKey v r.2.model && a.2.adapter == r.2.adapter && a.2.version == r.2.aver) then s
    else s.endRecovered (upSlot v r.1)) s4
  (((s5.returnItems v h).takeRuns v h).takeShards v h)

/-! ### What this module itself had under way toward the role (R399) -/

/-- A read of the partner's pages that was under way: the mirror answers it, or it fails (R388). -/
def ownRead (s : State) (tag : Nat) (r : ReadRun) : State :=
  let want := fun w => match w with | Await.read t _ => t == tag | _ => false
  let here := (List.range r.len).all fun j => (s.servedAt (r.addr + j)).isSome
  let s1 := s.setFab { s.fab with reads := Tab.drop s.fab.reads tag }
  if !here then s1.failAwait want
  else if (s1.awaiting want).isEmpty then s1
  else
    let bad := (List.range (ceilDiv r.len 64)).filter fun i => (s.servedAt (r.addr + 64 * i)).any fun x => s.poisoned x.1
    let s2 := bad.foldl (fun s i => s.markPoison (r.stage + 64 * i) (min 64 (r.len - 64 * i))) (s1.writeBytes r.stage (s.readRole s.partner r.addr r.len))
    s2.dropAwait want

/-- A WRITE that was under way. -/
def ownWrite (s : State) (k : Nat) (f : Frame) : State :=
  let a := fieldAt f.area 0 8 + fieldAt f.area 12 4
  let want := fun w => match w with | Await.frame c d p _ => c == f.cls && d == flowDst k && p == f.psn | _ => false
  match s.servedAt a with
  | none => if f.payload.isEmpty then s.dropAwait want else s.failAwait want
  | some x => (if gFv x.2 && gState x.2 == 1 then s.writeRole s.partner a f.payload else s).dropAwait want

/-- An atomic that was under way: applied once (R387). -/
def ownAtom (s : State) (x : AtomRun) (done : Option AtomRec) (f : Frame) : State :=
  let a := fieldAt f.area 0 8
  let want := fun w => match w with | Await.atom c d p _ => c == x.cls && d == x.dst && p == x.psn | _ => false
  let s1 := s.setFab { s.fab with atoms := s.fab.atoms.erase x }
  match s.servedAt a with
  | none => s1.failAwait want
  | some y =>
    let old := match done with | some r => r.old | none => s.readLe y.1 x.width
    let s2 := if done.isSome then s1
      else s1.writeRole s.partner a (leBytes x.width (atomicNew (fieldAt f.area 8 1) (8 * x.width) old (fieldAt f.payload 0 8) (fieldAt f.payload 8 8)))
    (s2.writeBytes x.stage (leBytes x.width old)).dropAwait want

/-- What this module had sent to its partner is answered here. -/
def ownOps (s : State) (h : Handed) : State :=
  let f := s.partner
  let mine := fun (k : Nat) => k / 65536 == s.self && flowDst k == f && flowCls k != 6 && flowCls k != 7
  let frames := (s.fab.flows.filter fun x => mine x.1).flatMap fun x => x.2.unacked.map fun y => (x.1, y.frame)
  let s1 := frames.foldl (fun s y => if y.2.type = frWrite then s.ownWrite y.1 y.2 else s) s
  let s2 := (s.fab.reads.filter fun r => r.2.dst == f && r.2.sink.isNone).foldl (fun s r => s.ownRead r.1 r.2) s1
  let s3 := (s.fab.atoms.filter fun x => x.dst == f).foldl (fun s x =>
    let done := (Tab.get [] h.atoms (s.self * 8192 + f)).find? fun r => r.cls == x.cls && r.psn == x.psn
    match frames.find? fun y => y.2.type == frAtomic && y.2.cls == x.cls && y.2.psn == x.psn with
    | some y => s.ownAtom x done y.2
    | none => match done with
      | some r => s.ownAtom x (some r) {type := frAtomic, cls := x.cls, src := s.self, dst := f}
      | none => s.failAwait fun w => match w with | Await.atom c d p _ => c == x.cls && d == x.dst && p == x.psn | _ => false) s2
  s3.setFab { s3.fab with flows := s3.fab.flows.filter fun x => !mine x.1, recs := Tab.join s3.fab.recs h.atoms }

/-! ### Giving a role back (R445) -/

/-- R88, R270: contexts of the tenant are discarded without a save and their partitions zeroed; what the scheduler had sent for
it does not start; moves, NMV items and fabric operations end. -/
def dropContexts (s : State) (t : Nat) : State :=
  let places := (List.range 128).flatMap fun n => ((s.core n).parts.filter fun p => match p.2.ctx with
    | none => false
    | some c => c.tenant == t).map fun p => (n, p.1)
  let at_ := fun (n p : Nat) => places.elem (n, p)
  let s1 := places.foldl (fun s x => s.zeroPart x.1 x.2) s
  let keep : Dispatch → Bool := fun d => match d with
    | .start _ x _ _ _ _ _ => x != t
    | .restore _ x _ _ _ => x != t
    | _ => true
  let s2 := (List.range 128).foldl (fun s n => s.setCore n { s.core n with waiting := (s.core n).waiting.filter fun w => keep w.entry }) s1
  let posts := s2.host.posts.filter fun p => match p.2 with
    | .moveOut c q _ => !at_ c q
    | .moveIn c q _ _ => !at_ c q
    | _ => true
  let fab := { s2.fab with reads := s2.fab.reads.filter fun r => r.2.tenant != t, atoms := s2.fab.atoms.filter fun a => !at_ a.core a.part
                           flows := s2.fab.flows.map fun k => if k.1 / 65536 = s2.roleOf t then (k.1, k.2.endTenant (t % 256)) else k }
  { s2 with host := { s2.host with posts := posts }, fab := fab
            nmv := (s2.nmv.map fun u => (u.1, u.2.filter fun w => w.tenant != t)).filter fun u => !u.2.isEmpty }

/-- R445: registers of the role's tenant windows, its collectives, its ownership table. -/
def clearRole (s : State) (f : Nat) : State :=
  { s with
    regs := s.regs.filter fun r => !decide (0x300000 ≤ r.1 ∧ r.1 < 0x400000)
    coll := { s.coll with runs := s.coll.runs.filter fun r => r.2.role != f }
    pair := { s.pair with grans := [], unit := [] } }

/-- R445: the state of the partner's role leaves this module. Its mirrors stay mirrors. -/
def dropRole (s : State) : State :=
  let s1 := (List.range 256).foldl (fun s t => s.dropContexts (t + 256)) s
  let s2 := (s1.host.qps.filter fun x => decide (256 ≤ x.2.tenant)).foldl (fun s x => s.closeQp x.1) s1
  let low := fun (k : Nat) => decide (k < 2 ^ 32)
  let f := s.partner
  let keep : Post → Bool := fun p => match p with
    | .results t _ _ => decide (t < 256)
    | .record t _ _ _ _ => decide (t < 256)
    | .consumer t _ => decide (t < 256)
    | .payload t _ _ => decide (t < 256)
    | .kv i _ _ => decide (i < 2 ^ 40)
    | _ => true
  let s3 := s2.setHost { s2.host with
    queues := s2.host.queues.filter fun x => decide (x.1 < 4096), flogs := s2.host.flogs.filter fun x => decide (x.1 < 256)
    resets := s2.host.resets.filter fun x => decide (x.1 < 256), posts := s2.host.posts.filter fun p => keep p.2 }
  let s4 := s3.setServe { s3.serve with
    reqs := s3.serve.reqs.filter fun r => decide (r.1 < 2 ^ 40), ended := s3.serve.ended.filter fun r => decide (r.1 < 2 ^ 40)
    queue := s3.serve.queue.filter fun x => decide (x.tenant < 256), kv := s3.serve.kv.filter fun b => decide (b.slot < 2 ^ 40)
    rq := s3.serve.rq.filter fun x => decide (x.1 < 256), tk := s3.serve.tk.filter fun x => decide (x.1 < 256)
    coef := s3.serve.coef.filter fun x => low x.1, steps := s3.serve.steps.filter fun x => low x.1
    variants := s3.serve.variants.filter fun x => low x.1 }
  let s5 := s4.setCurtain { s4.curtain with
    models := s4.curtain.models.filter fun x => low x.1, adapters := s4.curtain.adapters.filter fun x => low x.1
    blobs := s4.curtain.blobs.filter fun x => low x.model, runs := s4.curtain.runs.filter fun x => low x.1
    revokes := s4.curtain.revokes.filter fun x => low x.model }
  let s6 := (s5.setTrain { s5.train with jobs := s5.train.jobs.filter fun x => low x.1 }).dropCues fun c => c.role == f
  s6.clearRole f

end State

end Sys2Proof.Machine
end

