-- ==== Sys2Proof/Machine/Pair.lean ====
section
/-! DEFINITION. The understudy pair (chapter 15): HELLO and heartbeats, failure and takeover, mirrors, resynchronisation and
the role split. -/

namespace Sys2Proof.Machine

namespace State

/-- R426: the recovery epoch after `e`. -/
def nextRepoch (e : Nat) : Nat := if e = 65535 then 1 else e + 1

/-- R432: the payload of HELLO. -/
def helloBytes (s : State) : List Byte :=
  leBytes 4 (s.regN Reg.FAB_DOMAIN) ++ zeros 4 ++ s.regBytes Reg.MGT_CFGDIG 8 ++ s.regBytes Reg.MGT_FWDIG 8 ++ s.unitId

/-- A HELLO for a role: its own, or in SOLO the role of the partner that this module serves (log entry 23). -/
def sendHello (s : State) (role : Nat) : State :=
  s.sendPlain { type := frMirror, cls := 6, src := s.self, dst := s.partner
                area := mirrorArea 1 role (s.roleEpoch role) 0 0 0, payload := s.helloBytes }

/-- R428, R435: what was held back goes out in its order. -/
def releaseHeld (s : State) : State :=
  (s.setPair { s.pair with gates := [], held := [] }).sendOut (s.pair.gates.map Prod.snd ++ s.pair.held)

/-- Granules whose pages a copy takes to the new member (R444): local address and address on the receiver, with the role.
F's mirrors go to F's own granules, this module's MIR granules to the mirrors that the new member allocated. -/
def copySet (s : State) (mirs : List (Nat × Nat)) : List (Nat × Nat × Nat) :=
  ((s.pair.grans.filter fun g => gMir g.2).map fun g => (gMgran g.2 * 2 ^ 21, granuleAddr g.1, s.partner)) ++
  (mirs.filter fun m => gMir (s.gran m.1)).map fun m => (granuleAddr m.1, granuleAddr m.2, s.self)

/-- R391: the pair's class-6 flows begin anew: the member that announces itself has been reset. -/
def freshPair (s : State) : State :=
  let a := flowKey s.self s.partner 6
  let b := flowKey s.partner s.self 6
  s.setFab { s.fab with flows := s.fab.flows.filter (fun x => x.1 != a), inn := s.fab.inn.filter fun x => x.1 != b }

/-- R444: the serving member enters RESYNCING: mirrors are paired and every page is sent as COPY frames. -/
def startCopy (s : State) (mirs : List (Nat × Nat)) : State :=
  let s1 := mirs.foldl (fun s m => if gMir (s.gran m.1) then s.pairGran m.1 m.2 else s) (s.freshPair.pairTo 5)
  let set := s1.copySet mirs
  let s2 := set.foldl (fun s c => (cutPages s.payLimit (2 ^ 21) c.1 0 (2 ^ 21)).foldl (fun s p =>
    ((s.sendMirror 8 c.2.2 0 (c.2.1 + p.1) 0 (s.readN (c.1 + p.1) p.2) false).2).addMirBytes p.2) s) s1
  s2.setPair { s2.pair with total := 512 * set.length, todo := 512 * set.length, lead := true }

/-- R427: a HELLO with equal domain tag, configuration digest and firmware digest. -/
def helloIn (s : State) (f : Frame) (mirs : List (Nat × Nat)) : State :=
  let p := f.payload
  let fw := sliceBytes p 40 32
  let s0 := s.setBoot { s.boot with partnerFw := fw }
  let s1 := if s0.updState = 4 && fw = s0.boot.flash.updOld then s0.startFallback else s0
  let same := fieldAt p 0 4 = s.regN Reg.FAB_DOMAIN && sliceBytes p 8 32 = s.regBytes Reg.MGT_CFGDIG 8 && fw = s.regBytes Reg.MGT_FWDIG 8
  if f.src ≠ s.partner || !same then s1
  else
    let served := fieldAt f.area 2 2 == s.self
    match s1.pairState with
    | 0 =>
      if served then ((s1.pairTo 5).setField Reg.PAI_RESYNC 31 1 1).setField Reg.PAI_REPOCH 0 16 (fieldAt f.area 4 2)
      else ((s1.pairTo 1).setField Reg.PAI_STATUS 26 1 1).sendHello s.self |> fun t => t.setPair { t.pair with beatAt := t.clk }
    | 4 =>
      if served then ((s1.pairTo 5).setField Reg.PAI_RESYNC 31 1 1).setField Reg.PAI_REPOCH 0 16 (fieldAt f.area 4 2)
      else (s1.sendHello s.self).startCopy mirs
    | 3 => (s1.sendHello s.partner).startCopy mirs
    | _ => s1

end State

/-- R427, R443: HELLO. `mirs` names the mirror granules that the new member allocates for this module's MIR granules. -/
def execHello (a : Arrival) (mirs : List (Nat × Nat)) (s : State) : Result :=
  .next (s.plainRow frMirror (some (0, 1)) a fun s f => s.helloIn f mirs)

/-- R432: HELLO_TICK: every 1 ms in FORMING and ALONE. -/
def execHelloTick (s : State) : Result := .next (if s.pairState = 0 || s.pairState = 4 then s.sendHello s.self else s)

/-- R433: BEAT_TICK: every 2 us on every up pair port. -/
def execBeatTick (s : State) : Result :=
  if !s.mirrored then .next s
  else
    let f : Frame := { type := frMirror, cls := 6, src := s.self, dst := s.partner
                       area := State.mirrorArea 2 s.self (s.roleEpoch s.self) 0 s.now 0 }
    .next (s.pairPorts.foldl (fun s p => s.sendOn p f) s)

/-- R433: BEAT: a heartbeat. -/
def execBeat (a : Arrival) (s : State) : Result := .next (s.plainRow frMirror (some (0, 2)) a fun s _ => s)

/-- R433: HEARTBEAT_SILENCE: 16 us without a heartbeat: the partner is probed on up to 4 plane paths. -/
def execHeartbeatSilence (s : State) : Result :=
  if !(s.pairState = 1 || s.pairState = 5 || s.pairState = 6) || s.pair.probeAt.isSome || s.clk < s.pair.beatAt + 16000 then .next s
  else
    let s1 := (s.setPair { s.pair with probeAt := some s.clk }).bump Reg.PAI_HBMISS 1
    .next (((s.upPlanes s.partner).take 4).foldl (fun s p => s.sendCtrl s.partner 1 0 0 0 (some p)) s1)

/-! ### Takeover (R434 to R438) -/

namespace State

/-- R436, R445: the recovery epoch of a role rises, this module serves it from its mirrored state, announces its host addresses and
tells every other member, but for `f`. -/
def serveRole (s : State) (v : Bool) (h : Handed) (f : Option Nat) (e : AuditArg) : State :=
  let role := s.roleNumber v
  let ep := nextRepoch (s.roleEpoch role)
  let s1 := (s.setField Reg.PAI_REPOCH (if v then 16 else 0) 16 ep).setField Reg.PAI_STATUS (if v then 27 else 26) 1 1
  let s2 := (s1.takeRole v h).emit (.hostAddr role true)
  let s3 := s2.auditInternal { e with object := role, detail := leBytes 2 role ++ leBytes 2 ep }
  let others := s3.otherMembers.filter fun m => some m != f
  let s4 := others.foldl (fun s m => s.sendCtrl m 4 role ep 0 none) s3
  s4.setFab { s4.fab with
    repeats := s4.fab.repeats ++ others.map fun m => { member := m, failed := role, epoch := ep, since := s.clk, last := s.clk } }

/-- R436: this module takes over its partner's role. R447: the member that was receiving its own role's state takes that too (`own`). -/
def takeover (s : State) (h own : Handed) (plans : List CollPlan) : State :=
  let f := s.partner
  let x := s.sendMirror 7 f 0 0 0 [] false
  let s1 := (x.2.bump Reg.PAI_FENCES 1).pairTo 3
  let s2 := (s1.setPeerState f 3).setField (Reg.FAB_PEER f) 16 13 s.self
  let s3 := s2.setPair { s2.pair with fencing := none, unit := h.unit, lead := false, split := none }
  let s4 := s3.dropRepairs.poolLost.releaseHeld.drainAll
  let s5 := if s.regField Reg.CUR_MGR 0 13 = f then s4.setField Reg.CUR_MGR 30 1 1 else s4
  let e : AuditArg := { action := 0x80, okind := 2, origin := agentMgmt, object := f }
  let s6 := (s5.serveRole true h (some f) e).ownOps h
  let s7 := if s6.regBit Reg.PAI_STATUS 26 then s6 else s6.serveRole false own (some f) e
  (((s7.bump Reg.PAI_TAKEOVERS 1).collTakeover f plans h.masks)).collLoop 64

/-- R447: in RESYNCING and SPLITTING the new member takes both roles: pages not copied yet are poisoned, the split cue goes. -/
def resyncFails (s : State) (missing : List Nat) : State :=
  let s1 := missing.foldl (fun s i => (List.range 32768).foldl (fun s j => s.markPoison (granuleAddr i + 64 * j) 64) s) s
  s1.dropCues fun c => c.action == cueSplit

/-- Has the fence of R434 been acknowledged, or have the heartbeats been silent for 16 us. -/
def fenced (s : State) : Bool := match s.pair.fencing with
  | none => false
  | some p => s.mirAcked p || decide (s.pair.beatAt + 16000 ≤ s.clk)

end State

/-- R433, R434, R436: FAILURE_DECLARED: no probe reply came, or the partner is fenced after a loss report. The handed state
is the role's mirrored state; `plans` its open collectives; `own` and `missing`, at a member that was receiving its own role: that
role's state, and the granules not copied yet (R447). -/
def execFailureDeclared (h own : Handed) (plans : List CollPlan) (missing : List Nat) (s : State) : Result :=
  let due := s.fenced || s.pair.probeAt.any fun t => decide (t + s.ackTo ≤ s.clk)
  if !due || !(s.pairState = 1 || s.pairState = 5 || s.pairState = 6) then .next s
  else
    let s1 := if s.pairState = 1 then s else s.resyncFails missing
    .next (s1.takeover h own plans)

/-! ### Mirrors (R430 to R432) -/

def execMirrorData (a : Arrival) (s : State) : Result := .next (s.seqRow frMirror (some (0, 3)) a none)
def execMirrorState (a : Arrival) (s : State) : Result := .next (s.seqRow frMirror (some (0, 4)) a none)
def execMirrorRepairReq (a : Arrival) (s : State) : Result := .next (s.seqRow frMirror (some (0, 5)) a none)

/-- R230: the repaired word lets the writes that waited for it go on. -/
def execRepairData (a : Arrival) (s : State) : Result := .next ((s.seqRow frMirror (some (0, 6)) a none).drainAll.chunksRetry)

/-- R427, R434: FENCE: the module is fenced, falls silent and resets. -/
def execFence (a : Arrival) (s : State) : Result := .next (s.seqRow frMirror (some (0, 7)) a none)

def execMirrorCopy (a : Arrival) (s : State) : Result := .next (s.seqRow frMirror (some (0, 8)) a none)

/-! ### Resynchronisation and split (R444, R445) -/

/-- R445: the serving member writes the split cue into both sheets, 100 ms ahead, unless HOLD is set. -/
def State.writeSplit (s : State) : State :=
  if s.regBit Reg.PAI_CTRL 0 || s.pair.split.isSome || s.pairState ≠ 6 || !s.pair.lead then s
  else
    let t := s.now + 100000000
    match s.addCue t cueSplit 2 0 s.partner 0 with
    | none => s
    | some s1 => ((s1.setPair { s1.pair with split := some t }).setReg64 Reg.PAI_SPLITL Reg.PAI_SPLITH t).emit (.cueTo s.partner cueSplit 0 0 t)

/-- R444: COPY_DONE. On the serving member (no arrival): every COPY frame is acknowledged; it tells the new member and writes
the split cue. On the new member: the frame ends the copy. -/
def execCopyDone (a : Option Arrival) (s : State) : Result :=
  match a with
  | some a => .next (s.seqRow frMirror (some (0, 9)) a none)
  | none =>
    let open_ := (s.flow (flowKey s.self s.partner 6)).unacked.any fun x => x.frame.type == frMirror && fieldAt x.frame.area 0 1 == 8
    if s.pairState ≠ 5 || !s.pair.lead || open_ then .next s
    else
      let x := s.sendMirror 9 s.partner 0 0 s.pair.total [] false
      let s1 := (x.2.pairTo 6).setRegN Reg.PAI_RESYNC 100
      .next ((s1.setPair { s1.pair with todo := 0 }).writeSplit)

/-- R445: PAI_CTRL.HOLD cleared: the split cue may be written. -/
def State.holdCleared (s : State) : State := (s.setField Reg.PAI_CTRL 0 1 0).writeSplit

def execHoldClear (s : State) : Result := .next s.holdCleared

/-- R427: FORMTO_EXPIRY. -/
def execFormtoExpiry (s : State) : Result :=
  if s.pairState = 0 && decide (s.pair.since + 1000000000 * s.regField Reg.PAI_CFG 0 16 ≤ s.clk) then
    .next ((s.pairTo 4).setField Reg.PAI_STATUS 26 1 1)
  else .next s

/-- R427, R435: SEVERTO_EXPIRY: the higher-numbered member fences itself; the lower-numbered one takes over 1 ms later. -/
def execSevertoExpiry (h : Handed) (plans : List CollPlan) (s : State) : Result :=
  let t := s.pair.since + 1000000 * s.regField Reg.PAI_CFG 16 16
  if s.pairState ≠ 2 then .next s
  else if s.partner < s.self then (if t ≤ s.clk then .next s.fenceReset else .next s)
  else if t + 1000000 ≤ s.clk then .next (s.takeover h {} plans)
  else .next s

/-- R445: the serving member gives the role back. -/
def giveRole (s : State) : State :=
  let f := s.partner
  let s1 := (((s.setField Reg.PAI_REPOCH 16 16 (State.nextRepoch (s.roleEpoch f))).setField Reg.PAI_STATUS 27 1 0).setPeerState f 1).setField
    (Reg.FAB_PEER f) 16 13 f
  let s2 := if s.servesPartner then (s1.dropRole.emit (.hostAddr f false)).setField Reg.CUR_MGR 30 1 0 else s1
  resyncFlows (s2.setFab { s2.fab with flows := s2.fab.flows.filter fun x => x.1 / 65536 == s2.self }) f

/-- R445: SPLIT at the split cue. At the new member, the cue's time reaches it with its entry (`time`), its role's state as mirrored
by then with `h`. -/
def execSplit (time : Nat) (h : Handed) (s : State) : Result :=
  let s0 := if s.pairState = 6 && !s.pair.lead && s.pair.split.isNone then
      ((s.addCue time cueSplit 2 0 s.self 0).map fun t =>
        (t.setPair { t.pair with split := some time }).setReg64 Reg.PAI_SPLITL Reg.PAI_SPLITH time).getD s
    else s
  if s0.pairState ≠ 6 then .next s0
  else match s0.takeCue cueSplit 0 0 with
    | none => .next s0
    | some s1 =>
      let s2 := if s1.pair.lead then giveRole s1
        else s1.serveRole false h none { action := 0x81, okind := 2, origin := State.agentMgmt, object := s1.self }
      let s3 := (s2.pairTo 1).setRegN Reg.PAI_RESYNC 0
      .next (s3.setPair { s3.pair with split := none, lead := false })

end Sys2Proof.Machine
end

