-- ==== Sys2Proof/Machine/Power.lean ====
section
/-! DEFINITION. Power, clocks and temperature (R449 to R465). -/

namespace Sys2Proof.Machine

namespace State

def setPow (s : State) (p : PowSt) : State := { s with pow := p }

/-! ### Pins (R450) -/

/-- PWR_GOOD: released while the power-up sequence's domains are on. -/
def pinPwrGood (s : State) : Bool := s.pow.on
/-- ALERT_N: low while PWR_STATUS.ALERT is set. -/
def pinAlertN (s : State) : Bool := !s.regBit Reg.PWR_STATUS 0

/-- PWR_STATUS.ALERT; source 808 fires when ALERT_N falls (R505). -/
def setAlert (s : State) (on : Bool) : State :=
  let s1 := s.setField Reg.PWR_STATUS 0 1 (bit on)
  if on && !s.regBit Reg.PWR_STATUS 0 then s1.raise 808 0 else s1

/-! ### Reef level (R457, R458) -/

/-- R457: the level that is to be in force. -/
def level (s : State) : Nat := max s.pow.chosen (s.regField Reg.PWR_REEFMIN 0 3)

/-- R457: bring PWR_STATUS.LEVEL and the ratio targets to the level; source 807 fires on a change. -/
def showLevel (s : State) : State :=
  if s.reefLevel = s.level then s else ((s.setField Reg.PWR_STATUS 29 3 s.level).showTargets).raise 807 s.level

/-- R459: reef threshold and critical temperature of a sensor of PWR_TEMP, in units of 0.1 degrees. -/
def reefAt (i : Nat) : Int := if i < 12 then 1000 else if i < 24 then 900 else 800
def criticalAt (i : Nat) : Int := reefAt i + 100

/-- A temperature as PWR_TEMP shows it. -/
def temp (s : State) (i : Nat) : Int := ((s.reg (Reg.PWR_TEMP i)).setWidth 16).toInt

/-- Is some die above its reef threshold less `d`. -/
def hot (s : State) (d : Int) : Bool := (List.range 26).any fun i => decide (reefAt i - d < s.temp i)

/-- R458: may a cause tighten now: what it repeats after, in ns, has passed since it last did, and its condition holds as far as the
registers of PWR show it. Power is measured from MEM_HBMST.READY on (log entry 114). FAST, PRED and VIN come with the command. -/
def mayTighten (s : State) (c : Nat) : Bool :=
  let gap := [10000, 0, 1000000, 100000000, 10000000, 0].getD c 0
  (Tab.find? s.pow.tightAt c).all (fun t => decide (t + gap ≤ s.clk)) &&
  (match c with
   | 0 => s.regBit Reg.MEM_HBMST 31
   | 2 => s.regBit Reg.MEM_HBMST 31 && decide (15 ≤ s.pow.overs)
   | 3 => s.regBit Reg.MEM_HBMST 31 && decide (99 * s.regField Reg.PWR_LIMIT 0 16 < 100 * s.regField Reg.PWR_PAVG 0 16)
   | 4 => s.hot 0
   | _ => true)

/-- R458: tighten the chosen level to `l` for cause bit `c`; nothing where it is there already. -/
def tightenTo (s : State) (c l : Nat) : State :=
  let s0 := s.setPow { s.pow with since := s.clk, tightAt := Tab.setSome s.pow.tightAt c s.clk }
  if l ≤ s.pow.chosen then s0
  else
    let s1 := (s0.setPow { s0.pow with chosen := l }).bump Reg.PWR_TIGHTEN 1
    let s2 := if c = 2 then s1.bump Reg.PWR_EXCUR 1 else if c = 4 then s1.bump Reg.PWR_THERM 1 else s1
    (s2.setField Reg.PWR_STATUS 8 8 (2 ^ c)).showLevel

/-- R457, R460: a write of PWR_REEFMIN. A floor that lifts the level is a tightening with cause bit 6. -/
def setFloor (s : State) (l : Nat) : State :=
  let s1 := s.setField Reg.PWR_REEFMIN 0 3 l
  if s.reefLevel < s1.level then ((s1.bump Reg.PWR_TIGHTEN 1).setField Reg.PWR_STATUS 8 8 64).showLevel else s1.showLevel

/-- R456: power factors in hundredths. -/
def powerFactor (l : Nat) : Nat := [100, 52, 33, 23, 17, 13, 10, 7].getD l 7

/-! ### Clocks (R461 to R463) -/

/-- Is a PLL judged by a fixed count. -/
def fixedPll (p : Nat) : Bool := plls.elem p && (decide (p < 64) || p == 113)

/-- R465: the window of a measurement, ns. -/
def fmWindow (s : State) : Nat :=
  2 ^ s.regField Reg.CLK_FMSEL 24 5 * (match s.regField Reg.CLK_FMSEL 16 2 with | 0 => 10 | 1 => 100 | _ => 8)

/-- R476: does CLKSEL name a clock. -/
def fmClock (c : Nat) : Bool := plls.elem c || c == 114

/-- CLK_FMCTL.DONE and the result; source 819 fires. -/
def fmResult (s : State) (count : Nat) (ramp : Bool) : State :=
  let s1 := (s.setRegN Reg.CLK_FMCNT (capAt (2 ^ 32 - 1) count)).setRegN Reg.CLK_FMCTL (2 ^ 31 + 2 ^ 30 * bit ramp)
  (s1.setPow { s1.pow with fm := none, fmWait := false, fmRamp := false }).raise 819 0

/-- R462, R465: does a comparison of a PLL use the counter. -/
def comparing (s : State) : Bool :=
  s.pow.on && plls.any fun p => !fixedPll p && !s.pow.stable.elem p && decide (Tab.get 0 s.pow.fails p < 5)

/-- R465: a measurement that waited for a comparison starts once none runs. -/
def fmGo (s : State) : State :=
  if s.pow.fmWait && !s.comparing then s.setPow { s.pow with fm := some s.clk, fmWait := false, fmRamp := false } else s

/-- R465: the ratio of half-die `h` changes: the measurement of its clock that runs mixes ratios. -/
def fmMark (s : State) (h : Nat) : State :=
  if s.pow.fm.isSome && s.regField Reg.CLK_FMSEL 0 8 == h then s.setPow { s.pow with fmRamp := true } else s

/-- R462: is a comparison count within 20 ppm of the nominal count plus 1. SerDes PLL: 53.125 GHz / 512 over 1 ms. -/
def countOk (p count : Nat) : Bool :=
  if p = 112 then decide (2 * (count - 125000 : Int).natAbs ≤ 7)
  else decide (2 * (512 * count - 53125000 : Int).natAbs ≤ 3149)

/-- R462: a SerDes PLL is rejected: its port stays DOWN; source 818 fires. -/
def rejectPort (s : State) (p : Nat) : State :=
  if p < 96 then (s.setField Reg.CLK_PORTBAD (p - 64) 1 1).raise 818 (p - 64)
  else (s.setField Reg.CLK_STATUS (p - 96) 1 1).raise 818 (32 + (p - 96))

/-! ### Domains (R455) -/

/-- What a half-die loses when it is switched off: its cores' contexts and stage memories. -/
def clearHalf (s : State) (h : Nat) : State :=
  let lo := stageOf (8 * h)
  let hi := stageOf (8 * h + 8)
  let s1 := (List.range 8).foldl (fun s c =>
    let k := s.core (8 * h + c)
    s.setCore (8 * h + c) { retired := k.retired, gated := k.gated, parityAt := k.parityAt }) s
  { s1 with mem := s1.mem.filter fun c => !decide (lo ≤ c.1 ∧ c.1 < hi), poison := s1.poison.filter fun w => !decide (lo ≤ 64 * w ∧ 64 * w < hi) }

/-- R455: the request of a domain: is it to be on. -/
def domainWanted (s : State) (d : Nat) : Bool := if d < 16 then !s.halfOff d else !s.regBit Reg.PWR_DOMREQ d

/-- R463: is a real row of a half-die ready. -/
def rowsWait (s : State) (h : Nat) : Bool := (List.range 8).any fun c => (s.core (8 * h + c)).parts.any fun p => p.2.rowReady

/-- R463: is a partition in a gap that has outlasted the ghost-light horizon, or is predicted to (R89). -/
def longGap (s : State) (p : Part) : Bool :=
  !p.streaming && match p.ghost.gap with
    | none => true
    | some g => decide (g.1 + g.2 ≤ s.clk) || p.ghost.predicted g.2

/-- R463: is every partition of a half-die in a long gap. -/
def halfIdle (s : State) (h : Nat) : Bool := (List.range 8).all fun c => (s.core (8 * h + c)).parts.all fun p => s.longGap p.2

/-- R31: the management controller asks the home scheduler processor of each context of the half-dies that are to go off to
migrate it. -/
def askMigrate (s : State) : State :=
  (List.range 16).foldl (fun s h =>
    if !s.regBit Reg.PWR_DOMREQ h then s
    else (List.range 8).foldl (fun s c => (s.core (8 * h + c)).parts.foldl (fun s p => match p.2.ctx with
      | none => s
      | some x => s.emit (.migrate (8 * h + c) p.1 (homeOf x.slot x.tenant))) s) s) s

end State

/-! ### Input and reset -/

/-- R455: PWR_EN_RISE. -/
def execPwrEnRise (s : State) : Result :=
  if s.pow.en then .next s else .next (s.setPow { s.pow with en := true }).powerUp

/-- R454: PWR_EN_FALL: audit entries and the policy snapshot reach the flash, then the domains go off. -/
def execPwrEnFall (s : State) : Result :=
  if !s.pow.en then .next s
  else if !s.pow.on then .next (s.setPow { s.pow with en := false, thermal := false })
  else
    let snap : Snapshot := { unit := s.unitId, cfgdig := s.regBytes Reg.MGT_CFGDIG 8, coef := s.serve.coef, sust := s.serve.sust
                             alpha0 := s.regField Reg.SRV_SPEC 8 8 }
    let s1 := s.setBoot { s.boot with flushed := s.reg64 Reg.MGT_LOGHEADL Reg.MGT_LOGHEADH
                                      flash := { s.boot.flash with snapshot := some snap } }
    let s2 := (s1.moduleReset none).setField Reg.CLK_LASTRST 24 8 0
    .next (s2.setPow { s2.pow with en := false, thermal := false })

/-- R452: INPUT_VOLTAGE_STOP: `cv` in units of 10 mV, outside its limits for the stated time. -/
def execInputVoltageStop (cv : Nat) (s : State) : Result :=
  if 6000 < cv then .fault .damaged
  else if 3800 ≤ cv && cv ≤ 5200 then .next s
  else
    let s0 := s.setPow { s.pow with vin := false }
    .next (if s.pow.on then s0.moduleReset (some (6, 0)) else s0.showSupply)

/-- R452: INPUT_VALID: within 40 to 52 V for 10 ms. -/
def execInputValid (cv : Nat) (s : State) : Result :=
  if cv < 4000 || 5200 < cv then .next s else .next (((s.setPow { s.pow with vin := true }).setRegN Reg.PWR_VIN cv).showSupply).powerUp

namespace State

/-- R464: a reset; the module stays in reset until REF100_RETURN. -/
def reset464 (s : State) (cause pll : Nat) : State :=
  if !s.pow.on then s
  else
    let s1 := s.moduleReset (some (cause, pll))
    s1.setPow { s1.pow with held := true }

end State

/-- R464: RESET_N low for at least 10 us. -/
def execResetN (s : State) : Result := .next (s.reset464 4 0)

/-- R464: CLOCK_LOSS: cause 1 REF100, 2 a PLL in service, 3 the internal oscillator. -/
def execClockLoss (cause pll : Nat) (s : State) : Result :=
  if cause = 1 || cause = 3 then .next (s.reset464 cause 0)
  else if cause = 2 && s.pow.stable.elem pll then .next (s.reset464 2 pll)
  else .next s

/-- R464: REF100_RETURN: REF100 within tolerance for 10 ms and RESET_N high. -/
def execRef100Return (s : State) : Result :=
  if s.pow.held && s.pow.tbHeld.isNone then .next s.powerUp else .next s

/-- R462: TIME_BASE_RETRY: once per second the rejected time-base PLL is judged again, with this count. -/
def execTimeBaseRetry (count : Nat) (s : State) : Result :=
  match s.pow.tbHeld with
  | none => .next s
  | some t =>
    if s.clk < t + 1000000000 then .next s
    else if State.countOk 112 count then
      let s1 := s.powerUp
      .next (s1.setPow { s1.pow with stable := insertNat 112 s1.pow.stable })
    else .next (s.setPow { s.pow with tbHeld := some s.clk })

/-! ### PLLs and measurements -/

/-- R462: PLL_FIXED_COUNT: 65,536 REF100 cycles after it was enabled a PLL is stable. The management PLL starts the loader
(R479, R480). -/
def execPllFixedCount (p : Nat) (s : State) : Result :=
  if !s.pow.on || !State.fixedPll p || s.pow.stable.elem p || decide (s.clk < Tab.get 0 s.pow.enabled p + 655360) then .next s
  else
    let s1 := s.setPow { s.pow with stable := insertNat p s.pow.stable }
    if p = 113 && s.bootState = 0 && s.regBit Reg.CLK_STATUS 31 then
      let n := capAt 65535 (s1.boot.flash.powerUps + 1)
      let s2 := s1.setFlash { s1.boot.flash with powerUps := n }
      .next ((s2.setBootState 1).setField Reg.MGT_BOOT 0 16 n)
    else .next s1

/-- R462: PLL_COMPARISON: accepted, restarted (up to 4 times) or rejected. -/
def execPllComparison (p count : Nat) (s : State) : Result :=
  let n := Tab.get 0 s.pow.fails p
  if !s.pow.on || !State.plls.elem p || State.fixedPll p || s.pow.stable.elem p || 5 ≤ n ||
      decide (s.clk < Tab.get 0 s.pow.enabled p + 1000000) then .next s
  else if State.countOk p count then .next (s.setPow { s.pow with stable := insertNat p s.pow.stable }).fmGo
  else
    let s1 := s.setPow { s.pow with fails := Tab.set 0 s.pow.fails p (n + 1), enabled := Tab.setSome s.pow.enabled p s.clk }
    if n < 4 then .next s1
    else if p ≠ 112 then .next (s1.rejectPort p).fmGo
    else
      let s2 := s1.moduleReset (some (7, 0))
      .next (s2.setPow { s2.pow with held := true, tbHeld := some s2.clk })

namespace State

/-- R465: CLK_FMCTL.START: the measurement starts, or starts again; during a comparison of R462 it waits. -/
def fmStart (s : State) : State :=
  let s1 := s.setRegN Reg.CLK_FMCTL 0
  if !fmClock (s.regField Reg.CLK_FMSEL 0 8) then s1.fmResult 0 false
  else if s.comparing then s1.setPow { s1.pow with fm := none, fmWait := true, fmRamp := false }
  else s1.setPow { s1.pow with fm := some s1.clk, fmWait := false, fmRamp := false }

end State

/-- R465: FM_START. -/
def execFmStart (s : State) : Result := .next s.fmStart

/-- R465: FM_DONE: the window ends with this count. -/
def execFmDone (count : Nat) (s : State) : Result :=
  match s.pow.fm with
  | none => .next s
  | some t => if s.clk < t + s.fmWindow then .next s else .next (s.fmResult count s.pow.fmRamp)

/-! ### Domains, dividers, ramps -/

/-- R455, R31: HDOFF: a write of PWR_DOMREQ.HDOFF. -/
def execHdoff (mask : BitVec 16) (s : State) : Result := .next ((s.setField Reg.PWR_DOMREQ 0 16 mask.toNat).showTargets).askMigrate

/-- R455: LOFTOFF: a write of PWR_DOMREQ.LOFTOFF. -/
def execLoftoff (off : Bool) (s : State) : Result := .next (s.setField Reg.PWR_DOMREQ 20 1 (bit off))

/-- R455: DOMAIN_SWITCHED. A half-die goes off once it holds no context and its clock has reached the bypass; the loft once no
tenant maps it and no installation runs. Switched on again, the loft maps nothing until it is verified (R241). -/
def execDomainSwitched (d : Nat) (s : State) : Result :=
  let on := s.regBit Reg.PWR_DOMST d
  if !s.pow.on || !(decide (d < 16) || d == 20) || on == s.domainWanted d then .next s
  else if on then
    if d < 16 then
      if s.halfEmpty d && s.regBit (Reg.CLK_RATIO d) 16 then .next ((s.clearHalf d).setField Reg.PWR_DOMST d 1 0) else .next s
    else if s.loftMapped || s.loft.inst.isSome then .next s
    else
      let s1 := ({ s with loft := { s.loft with verified := false } }).setField Reg.PWR_DOMST 20 1 0
      .next (if s.loft.dir.isEmpty then s1 else s1.loftState 2)
  else .next ((s.setField Reg.PWR_DOMST d 1 1).showTargets)

/-- R458: REEF_TIGHTEN: cause bits 0 FAST, 1 PRED, 2 EXCUR, 3 AVG1S, 4 TEMP, 5 VIN. VIN, and EXCUR at 19 ms, go straight to level 7. -/
def execReefTighten (cause : Nat) (s : State) : Result :=
  if !s.pow.on || 6 ≤ cause || !s.mayTighten cause then .next s
  else
    let s1 := if cause = 5 then s.setAlert true else s
    .next (s1.tightenTo cause (if cause = 5 || (cause = 2 && decide (19 ≤ s.pow.overs)) then 7 else capAt 7 (s.pow.chosen + 1)))

/-- R458: REEF_RELAX: `pin` is the measured input power and `pvar` that of the compute-die and HBM rails, W. -/
def execReefRelax (pin pvar : Nat) (s : State) : Result :=
  let l := s.pow.chosen
  let k := State.powerFactor l
  if s.pow.on && s.regBit Reg.MEM_HBMST 31 && decide (0 < l) && decide (s.regField Reg.PWR_REEFMIN 0 3 < l) &&
      decide (s.pow.since + 100000000 ≤ s.clk) && !s.hot 50 && decide (4000 ≤ s.regField Reg.PWR_VIN 0 16) &&
      decide (100 * ((pin - pvar) * k + pvar * State.powerFactor (l - 1)) ≤ 97 * s.regField Reg.PWR_LIMIT 0 16 * k) then
    .next ((s.setPow { s.pow with chosen := l - 1, since := s.clk }).bump Reg.PWR_RELAX 1).showLevel
  else .next s

/-- R463: DIVIDER_STEP: each 1 us one unit step toward the target, or one change of source at ratio 16. A ready row ends an
idle ramp; a ramp to ratio 16 ends ghost-light operations (R92). -/
def execDividerStep (h : Nat) (s : State) : Result :=
  if 16 ≤ h || !s.regBit Reg.PWR_DOMST h || decide (s.clk < Tab.get 0 s.pow.stepped h + 1000) then .next s
  else
    let s0 := if s.rowsWait h then (s.setPow { s.pow with idle := s.pow.idle.filter (· != h) }).showTargets else s.showTargets
    let s2 := if s0.regField (Reg.CLK_RATIO h) 8 5 = 16 then s0.endGhosts h else s0
    let s1 := s2.setPow { s2.pow with stepped := Tab.setSome s2.pow.stepped h s2.clk }
    let r := s1.regField (Reg.CLK_RATIO h) 0 5
    let t := s1.regField (Reg.CLK_RATIO h) 8 5
    let off := s1.halfOff h && s1.halfEmpty h
    if s1.regBit (Reg.CLK_RATIO h) 16 then
      .next (if !off && s1.pow.stable.elem h then (s1.fmMark h).setField (Reg.CLK_RATIO h) 16 1 0 else s1)
    else if r < t then .next ((s1.fmMark h).setField (Reg.CLK_RATIO h) 0 5 (r + 1))
    else if t < r then .next ((s1.fmMark h).setField (Reg.CLK_RATIO h) 0 5 (r - 1))
    else .next (if off && r = 16 then (s1.fmMark h).setField (Reg.CLK_RATIO h) 16 1 1 else s1)

/-- R463, R92: IDLE_RAMP: every partition of the half-die is in a long gap and no row is ready; its ghost-light operations
end. -/
def execIdleRamp (h : Nat) (s : State) : Result :=
  if 16 ≤ h || s.rowsWait h || !s.halfIdle h || s.pow.idle.elem h then .next s
  else .next (((s.setPow { s.pow with idle := insertNat h s.pow.idle }).showTargets).endGhosts h)

/-- R459: TEMPERATURE_READ: the sensors in units of 0.1 degrees, with the input voltage (10 mV), the 1 ms average, the peak of
the 10 us averages and the 1 s average of the input power (W). A critical temperature stops the module. -/
def execTemperatureRead (temps : List (BitVec 16)) (cv avg peak sec : BitVec 16) (s : State) : Result :=
  if !s.pow.on then .next s
  else
    let s1 := (List.range 26).foldl (fun s i => s.setRegN (Reg.PWR_TEMP i) ((temps[i]?).getD 0#16).toNat) s
    let s2 := ((s1.setRegN Reg.PWR_VIN cv.toNat).setRegN Reg.PWR_PIN (peak.toNat * 2 ^ 16 + avg.toNat)).setRegN Reg.PWR_PAVG sec.toNat
    let above := s2.regBit Reg.MEM_HBMST 31 && decide (s2.regField Reg.PWR_LIMIT 0 16 < avg.toNat)
    let s2 := s2.setPow { s2.pow with overs := if above then s2.pow.overs + 1 else 0 }
    let s3 := if 0 < s2.reefLevel then s2.bump Reg.PWR_REEFMS 1 else s2
    let s4 := s3.setAlert (s3.hot 0 || decide (cv.toNat < 4000) || decide (5200 < cv.toNat))
    match (List.range 26).find? fun i => decide (State.criticalAt i ≤ s4.temp i) with
    | none => .next s4
    | some i =>
      let s5 := (s4.setFlash { s4.boot.flash with thermals := (s4.now, i) :: s4.boot.flash.thermals.take 15 }).moduleReset (some (5, 0))
      .next (s5.setPow { s5.pow with thermal := true })

end Sys2Proof.Machine
end

