-- ==== Sys2Proof/Machine/RegRange.lean ====
section
/-! DEFINITION. The bits of register space that the configuration image fills ("image" in the Reset columns), and the values
that a register takes (R11; the Description columns). -/

namespace Sys2Proof.Machine

/-- Families of registers with "image" fields: base, stride, count, bits. -/
def imageRows : List (Nat × Nat × Nat × Nat) :=
  [ (Reg.MGT_SVN, 4, 1, 0xFFFF0000), (Reg.MGT_UPDCFG, 4, 1, 0xFFFFFFFF)
  , (Reg.PWR_LIMIT, 4, 1, 0xFFFF), (Reg.PWR_GHOST, 4, 1, 0xFFFF)
  , (Reg.TIM_SRCCFG, 4, 1, 0xFFFFFFFF), (Reg.TIM_HOLD, 4, 1, 0xFFFF)
  , (Reg.EVC_HOSTQ, 4, 1, 0xF), (0x41000, 4, 821, 0x8F0000FF)
  , (Reg.IST_CFG, 4, 1, 0xFFFFFF3F), (Reg.IST_EYETHR, 4, 1, 0xFF)
  , (Reg.PAI_STATUS, 4, 1, 0x1FFF), (Reg.PAI_CFG, 4, 1, 0xFFFFFFFF) ] ++
  [ (Reg.ADM_QDEPTH, 4, 1, 0xFFFF), (Reg.ADM_SUST, 4, 1, 0xFFFFFFFF)
  , (Reg.ADM_RQRATE 0, 16, 256, 0xFFFFFFFF), (Reg.ADM_RQBURST 0, 16, 256, 0xFFFF)
  , (Reg.ADM_TKRATE 0, 16, 256, 0xFFFFFFFF), (Reg.ADM_TKBURST 0, 16, 256, 0xFFFFFFFF)
  , (Reg.SRV_KVCFG, 4, 1, 0xFFFFFFFF), (Reg.SRV_STEPCFG, 4, 1, 0xFFFF), (Reg.SRV_SPEC, 4, 1, 0xFFFFFFF0)
  , (Reg.SRV_VARCFG, 4, 1, 0xFFFF0000), (Reg.SRV_VARGRAN, 4, 1, 0x7FFFF)
  , (Reg.SRV_TTL 0, 4, 256, 0x3F3FFF), (Reg.SRV_POOL 0, 4, 256, 0x1FFFF)
  , (Reg.CUR_MGR, 4, 1, 0x80001FFF), (Reg.CUR_CFG, 4, 1, 0xFFFFFFFF), (Reg.CUR_CHUNKTO, 4, 1, 0xFFFF)
  , (Reg.MEM_SCRUBCFG, 4, 1, 0xFF), (Reg.MEM_RETTHR, 4, 1, 0xFF), (Reg.LFT_SCRUBCFG, 4, 1, 0xFF) ] ++
  [ (Reg.FAB_STATUS, 4, 1, 0x20000000), (Reg.FAB_SELF, 4, 1, 0x1FFF), (Reg.FAB_DOMAIN, 4, 1, 0xFFFFFFFF)
  , (Reg.FAB_CFG, 4, 1, 0xFFFF0300), (Reg.FAB_ACKTO, 4, 1, 0xFF), (Reg.FAB_LOSSTO, 4, 1, 0xFFFF)
  , (Reg.FAB_PATHHOLD, 4, 1, 0xFFFF), (Reg.FAB_RATE, 4, 1, 0xFFFFFFFF), (Reg.FAB_DSCP0, 4, 2, 0x3F3F3F3F)
  , (Reg.FAB_PFX0, 4, 2, 0xFFFFFFFF), (Reg.FAB_PST 0, 0x40, 32, 0x100), (Reg.FAB_MEMB 0, 4, 256, 0xFFFFFFFF)
  , (Reg.FAB_PEER 0, 4, 8192, 0xE0001FFF)
  , (Reg.COL_AGGCFG, 4, 1, 0x3FFFFFFF), (Reg.COL_AGGTHR, 4, 1, 0xFFFF), (Reg.COL_RPTWIN, 4, 1, 0xFFFF)
  , (Reg.HST_PST 0, 0x100, 4, 0x60000000)
  , (Reg.TNT_STATE 0, 0x1000, 256, 3), (Reg.TNT_POLICY 0, 0x1000, 256, 0xFFFFFF07)
  , (Reg.TNT_SLOTS 0, 0x1000, 256, 0xFFFF0000), (Reg.TNT_GRANLIM 0, 0x1000, 256, 0x7FFFF) ]

/-- The "image" bits of the register at an offset. -/
def imageMask (off : Nat) : Nat :=
  match imageRows.find? fun r => decide (r.1 ≤ off) && (off - r.1) % r.2.1 == 0 && decide ((off - r.1) / r.2.1 < r.2.2.1) with
  | none => 0
  | some r => r.2.2.2

/-- The registers that section 7 of the image fills; the other "image" fields come from sections of their own. -/
def tripleRegs : List Nat :=
  [Reg.MGT_UPDCFG, Reg.PWR_LIMIT, Reg.PWR_GHOST, Reg.TIM_HOLD, Reg.EVC_HOSTQ] ++ (List.range 821).map (0x41000 + 4 * ·) ++
  [Reg.IST_CFG, Reg.IST_EYETHR, Reg.PAI_CFG, Reg.ADM_QDEPTH, Reg.ADM_SUST, Reg.SRV_KVCFG, Reg.SRV_STEPCFG, Reg.SRV_SPEC,
    Reg.SRV_VARCFG, Reg.SRV_VARGRAN, Reg.CUR_CFG, Reg.CUR_CHUNKTO, Reg.MEM_SCRUBCFG, Reg.MEM_RETTHR, Reg.LFT_SCRUBCFG,
    Reg.FAB_ACKTO, Reg.FAB_LOSSTO, Reg.FAB_PATHHOLD, Reg.FAB_RATE, Reg.COL_AGGCFG, Reg.COL_AGGTHR, Reg.COL_RPTWIN]

def inRange (lo hi v : Nat) : Bool := decide (lo ≤ v ∧ v ≤ hi)

/-- Does the register at an offset take the value `v`: where its description ignores a write outside a range, the value must
lie inside it. -/
def rangeOk (off v : Nat) : Bool :=
  let f := field v
  if off = Reg.PWR_LIMIT then inRange 500 2000 (f 0 16)
  else if off = Reg.PWR_GHOST then inRange 0 200 (f 0 16)
  else if off = Reg.TIM_HOLD then inRange 0 60000 (f 0 16)
  else if off = Reg.CLK_FMSEL then inRange 4 24 (f 24 5)
  else if off = Reg.IST_CFG then inRange 1 168 (f 24 8) && inRange 0 168 (f 16 8)
  else if off = Reg.PAI_CFG then inRange 1 1000 (f 16 16) && inRange 1 3600 (f 0 16)
  else if off = Reg.ADM_QDEPTH then inRange 64 32768 (f 0 16)
  else if off = Reg.CUR_CHUNKTO then inRange 20 65535 (f 0 16)
  else if off = Reg.MEM_SCRUBCFG || off = Reg.LFT_SCRUBCFG then inRange 1 168 (f 0 8)
  else if off = Reg.FAB_ACKTO then inRange 5 255 (f 0 8)
  else if off = Reg.FAB_LOSSTO then inRange 50 10000 (f 0 16)
  else if off = Reg.FAB_PATHHOLD then inRange 1 1000 (f 0 16)
  else if off = Reg.FAB_RATE then inRange 1 255 (f 24 8) && inRange 1 64 (f 16 8) && inRange 1 255 (f 8 8) && inRange 1 8 (f 0 8)
  else if off = Reg.COL_RPTWIN then inRange 5 65535 (f 0 16)
  else if off = Reg.MGT_UPDCFG then inRange 10 3600 (f 16 16) && inRange 1 (f 16 16 - 1) (f 0 16)
  else if 0x41000 ≤ off ∧ off < 0x42000 then inRange 0 0x85 (f 0 8)
  else if Reg.ADM_RQBURST 0 ≤ off ∧ off < Reg.ADM_RQBURST 256 ∧ (off - Reg.ADM_RQBURST 0) % 16 = 0 then inRange 1 65535 (f 0 16)
  else true

end Sys2Proof.Machine
end

