-- ==== Sys2Proof/Machine/Tenant.lean ====
section
/-! DEFINITION. Tenant reset (R249, R268, R270 to R272). -/

namespace Sys2Proof.Machine

namespace State

/-- The tenant that owns the granule of a local address. -/
def tenantAt (s : State) (a : Nat) : Nat :=
  match (granuleOf a).bind s.servedIndex with
  | some k => gOwner (Tab.get 0#64 s.pair.grans k) + 256
  | none => gOwner (s.granAt a)

/-- The tenant that owns a collective: of its job, of its curtain, else of the granule it reduces (R423). -/
def collTenant (s : State) (p : CollPlan) : Nat :=
  let job := fun k => match Tab.find? s.train.jobs k with | none => 0 | some j => j.tenant
  match p.use with
  | .plain => s.tenantAt p.src
  | .curtain n => match Tab.find? s.curtain.runs n with | none => 0 | some c => c.tenant
  | .rscat k _ _ => job k
  | .normSum k => job k
  | .normMax k => job k
  | .done k => job k

/-- R423, R475: the collectives of a tenant are discarded, and its SLOT and PIPELINE cues go. A pipeline table belongs to the
tenant whose waiting or running job it serves, or to the owner of its granule. -/
def dropPlans (s : State) (t : Nat) : State :=
  let mine := s.coll.runs.filter fun r => s.collTenant r.2.plan == t
  let s1 := s.dropCues fun c => c.owner == 2 &&
    ((c.action == cueSlot && mine.any fun r => r.2.plan.cid == c.arg) || (c.action == cuePipeline && s.tenantAt c.arg == t))
  let gone := mine.map fun r => r.1
  { s1 with coll := { s1.coll with runs := s1.coll.runs.filter fun r => !gone.elem r.1 } }

/-- R270: every request of the tenant ends with TENANT_RESET; R319 gives no reason code for it, an open value. -/
def dropRequests (s : State) (t : Nat) : State :=
  let s1 := s.setServe { s.serve with queue := s.serve.queue.filter fun x => x.tenant != t }
  let s2 := (s1.serve.reqs.filter fun r => r.2.tenant == t).foldl (fun s r =>
    let f := s.fresh
    f.2.endReq r.1 stReset (f.1.toNat % 256) false 0) s1
  (s2.setRegN Reg.ADM_QLEN s2.serve.queue.length)

/-- R270, R227: the tenant's tables are emptied and its granules freed. Nothing is in flight any more. -/
def dropMemory (s : State) (t : Nat) : State :=
  let s1 := if s.root t = 0 then s else s.writeBytes (s.root t) (zeros 4096)
  let s2 := { s1 with loft := { s1.loft with changes := s1.loft.changes.filter fun c => c.1 != t } }
  ((s2.gransOf t).map Prod.fst).foldl (fun s g => s.freeFor t t g) s2

/-- R270, R272, R364: models, adapters and jobs of the tenant go with their granules; a curtain before COMMIT is not ready. -/
def dropModels (s : State) (t : Nat) : State :=
  let runs := s.curtain.runs.filter fun c => c.2.tenant == t && decide (1 ≤ c.2.phase ∧ c.2.phase < 6) && c.2.reason == 0
  let s1 := runs.foldl (fun s c => s.notReady c.2 stReset) s
  let ids := (s1.curtain.models.filter fun m => m.2.tenant == t).map Prod.fst
  let s2 := s1.setCurtain { s1.curtain with
    models := s1.curtain.models.filter fun m => m.2.tenant != t
    adapters := s1.curtain.adapters.filter fun a => a.2.tenant != t
    blobs := s1.curtain.blobs.filter fun b => !ids.elem b.model
    revokes := s1.curtain.revokes.filter fun r => !ids.elem r.model }
  let s3 := s2.setServe { s2.serve with
    variants := s2.serve.variants.filter fun v => v.2.tenant != t
    steps := s2.serve.steps.filter fun x => !ids.elem x.1 }
  (s3.setTrain { s3.train with jobs := s3.train.jobs.filter fun j => j.2.tenant != t }).showVariants

/-- R270: every accepted item of the tenant that is not complete completes with TENANT_RESET. -/
def endItems (s : State) (t : Nat) : State :=
  (List.range 16).foldl (fun s q => ((s.hq t q).items.filter fun i => !i.refused && i.done.isNone).foldl (fun s i =>
    s.finish t q i.seq { status := stReset }) s) s

/-- R270, R271: a tenant reset starts; a second one merges into it (R272). `own`: the tenant asked for it itself. -/
def resetTenant (s : State) (t : Nat) (absent own : Bool) : State :=
  if t % 256 = 0 || (256 ≤ t && !s.servesPartner) || s.tntState t = 0 then s
  else match Tab.find? s.host.resets t with
    | some r => s.setHost { s.host with resets := Tab.setSome s.host.resets t { r with absent := r.absent || absent } }
    | none =>
      let s1 := ((s.setRegN (Reg.TNT_STATE t) 2).setHost { s.host with
        resets := Tab.setSome s.host.resets t { t0 := s.clk, absent := absent, own := own } }).tenantRec t 0 6 (leBytes 1 2 ++ leBytes 8 s.clk)
      ((((((s1.dropPlans t).dropRequests t).dropContexts t).dropModels t).dropMemory t).endItems t)

/-- R249: what a tenant that becomes ABSENT loses. A delta that made it present again meanwhile starts it anew. -/
def forgetTenant (s : State) (t : Nat) : State :=
  let s1 := (List.range 16).foldl (fun s q => s.dropQueue t q) s
  let s2 := (s1.host.qps.filter fun x => x.2.tenant == t).foldl (fun s x => s.closeQp x.1) s1
  let s3 := s2.setHost { s2.host with flogs := Tab.drop s2.host.flogs t }
  let s4 := (List.range 64).foldl (fun s i =>
    [Reg.TNT_HRCFG t i, Reg.TNT_HRKEY t i, Reg.TNT_HRBASEL t i, Reg.TNT_HRBASEH t i, Reg.TNT_HRLENL t i, Reg.TNT_HRLENH t i].foldl
      (fun s o => s.setRegN o 0) s) s3
  let s5 := { s4.setServe { s4.serve with rq := Tab.drop s4.serve.rq t, tk := Tab.drop s4.serve.tk t } with
    loft := { s4.loft with barred := insertNat (t % 256) s4.loft.barred } }
  ((s5.setRegN (Reg.TNT_LOFTL t) 0).setRegN (Reg.TNT_LOFTH t) 0).setRegN (Reg.TNT_STATE t) (leNat (s5.confBytes 5 (1376 * (t % 256)) 1) % 2)

end State

/-- R270, R268: RESET: a tenant's own descriptor resets the tenant; tenant 0's re-initialises its queue. A reset whose audit
entry would reach the reserve is refused (R503). -/
def execResetDesc (t q : Nat) (s : State) : Result :=
  .next (s.runRow t q 0x34 fun s i =>
    if t % 256 = 0 then
      ((s.hq t q).items.filter fun j => !j.refused && j.done.isNone && j.seq != i.seq).foldl (fun s j =>
        s.finish t q j.seq { status := stReset }) (s.finish t q i.seq { status := stOk })
    else if s.logRefuses then s.finish t q i.seq { status := stLogFull }
    else s.resetTenant t false true)

/-- R270: TNT_CTRL_RESET: management software writes 1 to TNT_CTRL.RESET. -/
def execTntCtrlReset (t : Nat) (s : State) : Result := .next (if s.logRefuses then s else s.resetTenant t false false)

/-- R271: is every TENANT_RESET completion of a tenant written. -/
def State.resetWritten (s : State) (t : Nat) : Bool :=
  (List.range 16).all fun q => (s.hq t q).items.all fun i => !(i.done.any fun d => d.status == stReset)

/-- R271: TENANT_RESET_COMPLETE: event messages, the audit entry, TNT_RESETS, and ACTIVE, or ABSENT under R249. -/
def execTenantResetComplete (t : Nat) (s : State) : Result :=
  match Tab.find? s.host.resets t with
  | none => .next s
  | some r =>
    if !s.resetWritten t then .next s
    else
    let s1 := (List.range 16).foldl (fun s q => s.sendRing t q (s.eventMsg 3 t q 0 0 (s.lastSeq t q) 0)) s
    let s2 := (s1.setHost { s1.host with resets := Tab.drop s1.host.resets t }).bump (Reg.TNT_RESETS t) 1
    let s3 := s2.auditInternal { action := 0x30, okind := if r.own then 1 else 0, origin := if r.own then leBytes 1 (t % 256) else s.mgmtOrigin, object := t % 256 }
    let s4 := if r.absent then s3.forgetTenant t else s3.setRegN (Reg.TNT_STATE t) 1
    .next (s4.tenantRec t 0 6 (leBytes 1 (s4.tntState t) ++ zeros 8))

end Sys2Proof.Machine
end

