-- ==== Sys2Proof/Machine/Conf.lean ====
section
/-! DEFINITION. Configuration images and deltas (R485 to R489, R491): their parts, their checks, their digests. -/

namespace Sys2Proof.Machine

/-- The parts of a configuration: the header, the contents of its sections by type, its digest and whether deltas patched it. -/
structure Conf where
  head   : List Byte
  secs   : Tab (List Byte)
  digest : List Byte
  deriving DecidableEq, Repr

namespace Conf

def magic : Nat := 0x46474343
def nsect (b : List Byte) : Nat := fieldAt b 6 2
def sigoff (b : List Byte) : Nat := fieldAt b 0x48 8

/-- The section table: type, offset, length (R485). -/
def table (b : List Byte) : List (Nat × Nat × Nat) :=
  (List.range (capAt 32 (nsect b))).map fun i => (fieldAt b (0x80 + 16 * i) 2, fieldAt b (0x88 + 16 * i) 8, fieldAt b (0x84 + 16 * i) 4)

/-- R485: is the header consistent with an image of these bytes, and its reserved part zero. -/
def headOk (b : List Byte) : Bool :=
  let z := fun o n => allZero (sliceBytes b o n)
  decide (640 ≤ b.length) && fieldAt b 0 4 == magic && fieldAt b 4 2 == 1 && inRange 5 32 (nsect b) &&
  fieldAt b 0x20 8 == b.length && decide (b.length ≤ 2 ^ 24) && sigoff b + 2420 == b.length && decide (640 ≤ sigoff b) &&
  field (fieldAt b 0xC 1) 4 4 == 0 && z 0xD 3 && field (fieldAt b 0x44 2) 13 2 == 0 && z 0x46 2 && z 0x50 48 &&
  (!z 0x10 16 || z 0x44 2) && (List.range (capAt 32 (nsect b))).all (fun i => z (0x82 + 16 * i) 2) &&
  z (0x80 + 16 * capAt 32 (nsect b)) (16 * (32 - capAt 32 (nsect b)))

/-- R486: the length of a section type; none for an unknown type. `n` is the count in its first word. -/
def secLen (ty n : Nat) : Option Nat :=
  match ty with
  | 1 => some 1312 | 2 => some 17472 | 3 => some 262144 | 4 => some 8388608 | 5 => some 352256 | 6 => some 5256
  | 7 => some (8 + 12 * n) | 8 => some 64 | 9 => some (8 + 48 * n) | _ => none

/-- Do the sections lie apart. -/
def apart : List (Nat × Nat × Nat) → Bool
  | [] => true
  | x :: xs => xs.all (fun y => x.1 != y.1 && decide (x.2.1 + x.2.2 ≤ y.2.1 ∨ y.2.1 + y.2.2 ≤ x.2.1)) && apart xs

/-- R486, R489: do the sections lie within the image, without overlap, with the stated lengths, types 1 to 5 present. -/
def tableOk (b : List Byte) : Bool :=
  (table b).all (fun x => x.2.1 % 64 == 0 && decide (640 ≤ x.2.1 ∧ x.2.1 + x.2.2 ≤ sigoff b) && secLen x.1 (fieldAt b x.2.1 4) == some x.2.2) &&
  apart (table b) && [1, 2, 3, 4, 5].all fun t => (table b).any fun x => x.1 == t

/-- The digest of an image (R489, R492): unit and selfmod are taken as zero, and the signature, which covers them, is left out
(log entry 26). -/
def imageDigest (b : List Byte) : List Byte :=
  sha3 (putBytes (putBytes (b.take (sigoff b)) 0x10 (zeros 16)) 0x44 (zeros 2))

/-- The parts of an image whose table is right. -/
def parse (b : List Byte) : Conf :=
  { head := b.take 640, digest := imageDigest b
    secs := (table b).foldl (fun t x => Tab.setSome t x.1 (sliceBytes b x.2.1 x.2.2)) [] }

def sec (c : Conf) (t : Nat) : List Byte := Tab.get [] c.secs t
def fld (c : Conf) (t o n : Nat) : Nat := fieldAt (c.sec t) o n
def zero (c : Conf) (t o n : Nat) : Bool := allZero (sliceBytes (c.sec t) o n)
def unit (c : Conf) : List Byte := sliceBytes c.head 0x10 16
def serial (c : Conf) : Nat := fieldAt c.head 0x28 8
def owner (c : Conf) : List Byte := keyId (c.sec 1)
def minsvn (c : Conf) : Nat := fieldAt c.head 0x40 4
def fwrevoke (c : Conf) : Nat := fieldAt c.head 0xC 1

/-- R489: the module number that the configuration gives a unit. -/
def moduleOf (c : Conf) (unit : List Byte) : Option Nat :=
  let sm := fieldAt c.head 0x44 2
  if !allZero c.unit && c.unit == unit && tbit sm 15 then some (sm % 8192)
  else match (List.range 8192).filter fun i => sliceBytes (c.sec 3) (32 * i) 16 == unit && !allZero unit with
    | [i] => some (fieldAt (c.sec 3) (32 * i + 16) 2 % 8192)
    | _ => none

/-- The record of a module (R487). -/
def present (c : Conf) (m : Nat) : Bool := tbit (c.fld 4 (1024 * m) 4) 0
/-- R486: is a module a member. -/
def member (c : Conf) (m : Nat) : Bool := tbit (c.fld 2 (64 + m / 8) 1) (m % 8)

/-- R486, R487: are the reserved bytes of the sections zero. -/
def reservedOk (c : Conf) : Bool :=
  c.zero 2 18 6 && c.zero 2 32 32 &&
  (List.range 8192).all (fun i => field (c.fld 3 (32 * i + 16) 2) 13 3 == 0 && c.zero 3 (32 * i + 18) 14) &&
  (List.range 8192).all (fun i => let o := 1024 * i
    field (c.fld 4 o 4) 9 23 == 0 && c.zero 4 (o + 8) 8 && c.zero 4 (o + 104) 24 && c.zero 4 (o + 644) 380) &&
  ((c.sec 6).isEmpty || (decide (c.fld 6 0 4 ≤ 4) && c.zero 6 4 4 && c.zero 6 (8 + 1312 * c.fld 6 0 4) (1312 * (4 - c.fld 6 0 4))))

/-- R486: the reserved words of sections 7 to 9. -/
def optionalOk (c : Conf) : Bool :=
  ((c.sec 7).isEmpty || c.zero 7 4 4) &&
  ((c.sec 8).isEmpty || (c.zero 8 5 3 && c.zero 8 56 8 && decide (c.fld 8 3 1 ≤ 127) && decide (c.fld 8 4 1 ≤ 1))) &&
  ((c.sec 9).isEmpty || (c.zero 9 4 4 && (List.range (c.fld 9 0 4)).all fun i => c.zero 9 (12 + 48 * i) 4 && c.zero 9 (44 + 48 * i) 12))

/-- The triples of section 7: offset, mask, value. -/
def triples (c : Conf) : List (Nat × Nat × Nat) :=
  if (c.sec 7).isEmpty then []
  else (List.range (c.fld 7 0 4)).map fun i => (c.fld 7 (8 + 12 * i) 4, c.fld 7 (12 + 12 * i) 4, c.fld 7 (16 + 12 * i) 4)

/-- R486: a triple sets only bits of "image" fields. -/
def tripleOk (x : Nat × Nat × Nat) : Bool := x.2.1 &&& imageMask x.1 == x.2.1 && (imageMask x.1 != 0)

/-- R248, R488: is a tenant entry in its ranges. -/
def tenantOk (c : Conf) (t : Nat) : Bool :=
  let o := 1376 * t
  let f := fun k n => c.fld 5 (o + k) n
  if t = 0 then f 0 2 == 0 && inRange 1 16 (f 2 1) && c.zero 5 (o + 3) 61
  else
    field (f 0 1) 1 7 == 0 && c.zero 5 (o + 22) 2 && c.zero 5 (o + 36) 28 &&
    (!tbit (f 0 1) 0 ||
      (decide (f 1 1 < 8) && inRange 1 16 (f 2 1) && inRange 1 65535 (f 4 2) && decide (f 6 2 ≤ 3600) && decide (f 8 4 ≤ 32768) &&
        decide (f 12 4 ≤ 393216) && inRange 1 65535 (f 20 2) && decide (f 32 4 ≤ 65536)))

/-- R489: the checks after the signature: 0 valid, else the cause. `type` is the unit's type code. -/
def cause (c : Conf) (type : Nat) (unit : List Byte) : Nat :=
  let ty := fieldAt c.head 8 4
  if !(field ty 16 16 == field type 16 16 && (field ty 0 16 &&& field type 0 16) != 0) || !(allZero c.unit || c.unit == unit) then 3
  else match c.moduleOf unit with
    | none => 3
    | some m =>
      let p0 := c.fld 4 (1024 * m + 4) 1
      let p1 := c.fld 4 (1024 * m + 5) 1
      if !(c.member m && c.present m) || 32 ≤ p0 || 32 ≤ p1 || p0 % 4 == p1 % 4 then 4
      else if !(c.triples.all tripleOk && (List.range 256).all c.tenantOk) then 4
      else if !(List.range 8192).all (fun i => !c.present i || field (c.fld 4 (1024 * i) 4) 1 4 != 15) then 4
      else if !(c.reservedOk && c.optionalOk) then 4 else 0

end Conf

/-- R489: the cause with which an image is invalid, 0 where it is valid; and whether its format and signature are right. -/
def imageCause (b : List Byte) (type : Nat) (unit : List Byte) : Nat × Bool :=
  if !Conf.headOk b || !Conf.tableOk b then (4, false)
  else
    let c := Conf.parse b
    let sig := sliceBytes c.head 0x30 16 == c.owner && Config.mldsaVerify (c.sec 1) (sha3 (b.take (Conf.sigoff b))) (b.drop (Conf.sigoff b))
    if !(c.reservedOk && c.optionalOk) then (4, sig)
    else if !sig then (2, false)
    else (c.cause type unit, true)

namespace Delta

def seq (b : List Byte) : Nat := fieldAt b 16 4
def count (b : List Byte) : Nat := fieldAt b 6 2

/-- R491: the records of a delta, section, offset, data, and where they end; none where they do not lie before the signature. -/
def records (b : List Byte) : Nat → Nat → Option (List (Nat × Nat × List Byte))
  | 0, o => if o + 2420 = b.length then some [] else none
  | n + 1, o =>
    let len := fieldAt b (o + 4) 4
    if b.length < o + 16 + len || fieldAt b (o + 2) 2 != 0 then none
    else match records b n (o + 16 + roundUp len 8) with
      | none => none
      | some rs => some ((fieldAt b o 2, fieldAt b (o + 8) 8, sliceBytes b (o + 16) len) :: rs)

/-- R491: the format of a delta's header. -/
def headOk (b : List Byte) : Bool :=
  decide (64 ≤ b.length) && fieldAt b 0 4 == 0x544C4443 && fieldAt b 4 2 == 1 && fieldAt b 20 4 == 0 && fieldAt b 24 8 == b.length &&
  allZero (sliceBytes b 48 16)

/-- The configuration that a delta makes of `c` (R491, R492). None where a record does not lie within its section. -/
def patch (c : Conf) (b : List Byte) : Option Conf :=
  match records b (count b) 64 with
  | none => none
  | some rs =>
    if rs.all fun r => (Tab.find? c.secs r.1).any fun s => decide (r.2.1 + r.2.2.length ≤ s.length) then
      some { head := c.head, digest := sha3 (c.digest ++ sha3 b)
             secs := rs.foldl (fun t r => Tab.setSome t r.1 (putBytes (Tab.get [] t r.1) r.2.1 r.2.2)) c.secs }
    else none

/-- R491: the cause with which a delta is refused, 0 where it is accepted. `last` is the journal's last sequence number. -/
def cause (c : Conf) (b : List Byte) (last type : Nat) (unit : List Byte) : Nat :=
  if !headOk b then 5
  else if !(sliceBytes b 32 16 == c.owner && Config.mldsaVerify (c.sec 1) (sha3 (b.take (b.length - 2420))) (b.drop (b.length - 2420))) then 2
  else if fieldAt b 8 8 != c.serial || seq b != last + 1 then 5
  else match patch c b with
    | none => 5
    | some c1 => c1.cause type unit

end Delta

end Sys2Proof.Machine
end

