-- ==== Sys2Proof/Machine/TimeOps.lean ====
section
/-! DEFINITION. Domain time (R466 to R470) and the cue sheet's registers (R472, R476). -/

namespace Sys2Proof.Machine

namespace State

/-- TIM_FREQ: the frequency correction in force, 500 ppm while a correction is slewed (R469; log entry 24). -/
def showFreq (s : State) : State :=
  s.setReg Reg.TIM_FREQ (if s.time.slew = 0 then 0#32 else BitVec.ofInt 32 (if 0 < s.time.slew then 500000 else -500000))

/-- One ns of the module's clock. Domain time runs with it; a correction is slewed at 500 ppm, 1 ns in 2,000 (R469). -/
def tick (s : State) : State :=
  let c := s.clk + 1
  if s.time.slew = 0 || c % 2000 ≠ 0 then { s with clk := c, now := (s.now + 1) % 2 ^ 64 }
  else if 0 < s.time.slew then
    ({ s with clk := c, now := (s.now + 2) % 2 ^ 64, time := { s.time with slew := s.time.slew - 1 } }).showFreq
  else ({ s with clk := c, time := { s.time with slew := s.time.slew + 1 } }).showFreq

/-- PPS_OUT (R450): high for 1 ms from each whole second while time is locked. -/
def pinPpsOut (s : State) : Bool := !s.timeUnlocked && decide (s.now % 1000000000 < 1000000)

/-- TIM_STATUS.STATE: 0 FREE, 1 LOCKED, 2 HOLDOVER, 3 UNLOCKED. -/
def timeState (s : State) : Nat := s.regField Reg.TIM_STATUS 30 2

/-- R469: the servo enters a state: the flags follow, source 809 fires, runs of offsets start again. -/
def timeTo (s : State) (st : Nat) : State :=
  let un := st == 0 || st == 3
  let s1 := s.setTime { s.time with good := 0, bad := 0, holdAt := s.clk, ever := s.time.ever || st == 1 }
  let s2 := ((s1.setField Reg.TIM_STATUS 30 2 st).setField Reg.TIM_STATUS 29 1 (bit un)).setAdm 29 (!un)
  (if st = 3 then s2.bump Reg.TIM_UNLOCKS 1 else s2).raise 809 st

/-- R467: a source of TIM_SRCCFG: its kind, 0 none, 1 PTP on a host port, 2 PTP on a plane port, 3 PPS_IN with REF10. -/
def srcKind (s : State) (i : Nat) : Nat := s.regField Reg.TIM_SRCCFG (8 * i + 6) 2

/-- R467: the highest-priority qualified source, 3 for none. -/
def selected (s : State) : Nat := (([0, 1, 2].find? fun i => s.time.qualified.elem i && s.srcKind i != 0)).getD 3

def showSource (s : State) : State := s.setField Reg.TIM_STATUS 27 2 s.selected

/-- R469: the correction of a measured offset: stepped or slewed. -/
def correct (s : State) (off : Int) : State :=
  if (s.timeState = 0 && decide (1000000 < off.natAbs) && (!s.time.ever || decide (off < 0))) || (s.timeState = 3 && decide (off < -1000)) then
    let n := (((s.now : Int) - off) % 2 ^ 64).toNat
    let cues := s.time.cues.map fun c => if s.now ≤ c.time && c.time < n then { c with late := true } else c
    (({ s with now := n, time := { s.time with slew := 0, cues := cues } }).bump Reg.TIM_STEPS 1).showFreq
  else (s.setTime { s.time with slew := -off }).showFreq

/-- R469: an offset of the selected source: the servo's state and the correction. The state in which it was measured
decides the correction. -/
def offset (s : State) (off : Int) : State :=
  let sat := if off < -(2 ^ 31) then -(2 ^ 31) else if 2 ^ 31 ≤ off then 2 ^ 31 - 1 else off
  let s1 := (s.setReg Reg.TIM_OFFSET (BitVec.ofInt 32 sat)).correct off
  let good := if off.natAbs ≤ 20 then s.time.good + 1 else 0
  let bad := if 25 < off.natAbs then s.time.bad + 1 else 0
  let s2 := s1.setTime { s1.time with good := good, bad := bad }
  match s.timeState with
  | 1 => if 4 ≤ bad then s2.timeTo 3 else s2
  | 2 => s2.timeTo (if off.natAbs ≤ 25 then 1 else 3)
  | _ => if 8 ≤ good then s2.timeTo 1 else s2

/-- The selected source was lost: HOLDOVER where no other source is qualified (R469). -/
def sourceGone (s : State) : State :=
  let s1 := s.showSource
  if s1.selected = 3 && s1.timeState = 1 then s1.timeTo 2 else s1

/-- R476: a write of TIM_CCUECTL: ARM and CANCEL together do neither. None: the quota is full (R472). -/
def ccueCtl (s : State) (arm cancel : Bool) : Option State :=
  let arg := s.regN Reg.TIM_CCUEARG
  if arm && cancel then some s
  else if arm then s.addCue (s.reg64 Reg.TIM_CCUEL Reg.TIM_CCUEH) cueConfig 0 0 s.self arg
  else if cancel then some (s.dropCues fun c => c.action == cueConfig && c.owner == 0 && c.role == s.self && c.arg == arg)
  else some s

/-- R467: TIM_TODL and TIM_TODH give the integer second of the next pulse. -/
def setTod (s : State) : State := s.setTime { s.time with tod := some (s.reg64 Reg.TIM_TODL Reg.TIM_TODH) }

end State

/-- R468: a PTP message without the MACsec protection that its port asks for is dropped and counted. -/
def State.syncDrop (s : State) (src : Nat) (macsec : Bool) : Option State :=
  let p := s.regField Reg.TIM_SRCCFG (8 * src) 6
  if macsec then none
  else if s.srcKind src = 2 then some (s.bump Reg.FAB_MACSECDROP 1)
  else if s.srcKind src = 1 && s.regBit (Reg.HST_PST p) 30 then some (s.bump (Reg.HST_DROP p) 1)
  else none

/-- R469: SYNC: a Sync of PTP source `src`, with its time at this instant; `macsec`: its protection verifies. -/
def execSync (src time : Nat) (macsec : Bool) (s : State) : Result :=
  if let some t := s.syncDrop src macsec then .next t
  else if s.selected = src && (s.srcKind src = 1 || s.srcKind src = 2) then .next (s.offset ((s.now : Int) - time)) else .next s

/-- R469: PPS_PULSE: an edge of PPS_IN marks the second that was announced. -/
def execPpsPulse (s : State) : Result :=
  let s0 := s.setField Reg.CLK_STATUS 29 1 1
  match s0.time.tod with
  | none => .next s0
  | some sec =>
    let s1 := s0.setTime { s0.time with tod := some (sec + 1) }
    .next (if s1.selected < 3 && s1.srcKind s1.selected = 3 then s1.offset ((s1.now : Int) - sec * 1000000000) else s1)

/-- R467: SOURCE_QUALIFIED: source `src` has met its conditions for 4 s. The PPS source also needs the time of day, given or
taken from a qualified PTP source whose time at the last pulse was `ptp`, within 100 ns of the second. -/
def execSourceQualified (src : Nat) (ptp : Option Nat) (s : State) : Result :=
  if 3 ≤ src || s.srcKind src = 0 || s.time.qualified.elem src then .next s
  else if s.srcKind src ≠ 3 then .next (s.setTime { s.time with qualified := insertNat src s.time.qualified }).showSource
  else
    let s0 := (s.setField Reg.CLK_STATUS 29 1 1).setField Reg.CLK_STATUS 30 1 1
    let anyPtp := s.time.qualified.any fun i => s.srcKind i == 1 || s.srcKind i == 2
    let tod := match s.time.tod, ptp with
      | some x, _ => some x
      | none, some t => if anyPtp && ((t + 100) % 1000000000 ≤ 200) then some ((t + 100) / 1000000000 + 1) else none
      | none, none => none
    match tod with
    | none => .next s0
    | some x => .next (s0.setTime { s0.time with qualified := insertNat src s0.time.qualified, tod := some x }).showSource

/-- R467, R469: SOURCE_LOST: 4 Sync intervals were missed, or no pulse for 1.5 s; `ref10`: is REF10 still there. A lost PPS
source loses its time of day. -/
def execSourceLost (src : Nat) (ref10 : Bool) (s : State) : Result :=
  if 3 ≤ src || s.srcKind src = 0 then .next s
  else
    let was := s.selected
    let s1 := if s.srcKind src = 3 then
        ((s.setField Reg.CLK_STATUS 29 1 0).setField Reg.CLK_STATUS 30 1 (bit ref10)).setTime { s.time with tod := none }
      else s
    let s2 := s1.setTime { s1.time with qualified := s1.time.qualified.filter (· != src) }
    .next (if was = src then s2.sourceGone else s2)

/-- R469: HOLDOVER_EXPIRY: TIM_HOLD has elapsed. -/
def execHoldoverExpiry (s : State) : Result :=
  if s.timeState = 2 && decide (s.time.holdAt + 1000000 * s.regField Reg.TIM_HOLD 0 16 ≤ s.clk) then .next (s.timeTo 3) else .next s

/-- R467: TIM_TOD: management software writes TIM_TODL and TIM_TODH. -/
def execTimTod (sec : BitVec 64) (s : State) : Result :=
  .next (s.setReg64 Reg.TIM_TODL Reg.TIM_TODH sec.toNat).setTod

/-- R472: TIM_CCUE_ARM; with the quota full nothing is written. -/
def execTimCcueArm (s : State) : Result := .next ((s.ccueCtl true false).getD s)

/-- R472: TIM_CCUE_CANCEL. -/
def execTimCcueCancel (s : State) : Result := .next ((s.ccueCtl false true).getD s)

end Sys2Proof.Machine
end

