-- ==== Sys2Proof/Machine/ConfLoad.lean ====
section
/-! DEFINITION. Loading a configuration into the machine (R486 to R488, R492; the owning chapters' rules for changed values). -/

namespace Sys2Proof.Machine

namespace State

/-- R486: a register that section 7 fills takes its stated default with the triples' bits; a value outside the register's range
leaves the default (log entry 26). -/
def loadReg (s : State) (c : Conf) (off : Nat) : State :=
  let mask := imageMask off
  let dflt := (regReset off).toNat
  let v := (c.triples.filter fun x => x.1 == off).foldl (fun v x => (v - (v &&& x.2.1)) + (x.2.2 &&& x.2.1)) dflt
  let w := if rangeOk off v then v else dflt
  s.setRegN off (s.regN off - (s.regN off &&& mask) + (w &&& mask))

/-- Section 7: the registers, and the event masks that they put in force. -/
def loadRegs (s : State) (c : Conf) : State :=
  let s1 := tripleRegs.foldl (fun s o => s.loadReg c o) s
  { s1 with evc := { s1.evc with mask := (List.range 821).filter fun i => s1.regBit (0x41000 + 4 * i) 31 } }

/-- R324: a full bucket keeps its level when its burst changes. -/
def keepLevel (s : State) (t rqBurst tkBurst : Nat) : State :=
  let r := s.regField (Reg.ADM_RQBURST (t % 256)) 0 16
  let k := s.regN (Reg.ADM_TKBURST (t % 256))
  let rq := if r = rqBurst || (Tab.find? s.serve.rq t).isSome then s.serve.rq else Tab.setSome s.serve.rq t ((r : Int) * 1000000)
  let tk := if k = tkBurst || (Tab.find? s.serve.tk t).isSome then s.serve.tk else Tab.setSome s.serve.tk t ((k : Int) * 1000000)
  s.setServe { s.serve with rq := rq, tk := tk }

/-- The same for a tenant number of each role that this module serves. -/
def keepLevels (s : State) (t rqBurst tkBurst : Nat) : State :=
  let s1 := s.keepLevel t rqBurst tkBurst
  if s.servesPartner then s1.keepLevel (t + 256) rqBurst tkBurst else s1

/-- R249: queues at or above a lowered count close; one without outstanding items goes at once. -/
def closeQueues (s : State) (t old new : Nat) : State :=
  ((List.range old).drop new).foldl (fun s q => (s.setHq t q { s.hq t q with closed := true }).reapQueue t q) s

/-- R248, R249, R488: a tenant's entry. -/
def loadTenant (s : State) (c : Conf) (t : Nat) : State :=
  let f := fun k n => c.fld 5 (1376 * (t % 256) + k) n
  let old := s.tntQueues t
  if t % 256 = 0 then (s.closeQueues t old (f 2 1)).setField (Reg.TNT_POLICY t) 8 8 (f 2 1)
  else
    let was := s.tntState t != 0
    let s1 := if !tbit (f 0 1) 0 then (if was then s.resetTenant t true false else s)
      else if was then (s.closeQueues t old (f 2 1)).keepLevel t (f 20 2) (f 28 4)
      else s.setRegN (Reg.TNT_STATE t) 1
    let s2 := s1.setRegN (Reg.TNT_POLICY t) (f 4 2 * 2 ^ 16 + f 2 1 * 2 ^ 8 + f 1 1 % 8)
    let s3 := (s2.setField (Reg.TNT_SLOTS t) 16 16 (f 8 4)).setRegN (Reg.TNT_GRANLIM t) (f 12 4)
    if 256 ≤ t then s3
    else
    let s3 := s3.setRegN (Reg.SRV_TTL t) (f 3 1 / 4 * 2 ^ 16 + f 3 1 % 2 * 2 ^ 12 + f 6 2)
    let s4 := ((s3.setRegN (Reg.SRV_POOL t) (f 32 4)).setRegN (Reg.ADM_RQRATE t) (f 16 4)).setRegN (Reg.ADM_RQBURST t) (f 20 2)
    (s4.setRegN (Reg.ADM_TKRATE t) (f 24 4)).setRegN (Reg.ADM_TKBURST t) (f 28 4)

/-- R372, R397: membership and peers. A module that leaves the domain fails what was sent to it (R398). -/
def loadPeer (c : Conf) (m : Nat) (s : State) (i : Nat) : State :=
  let was := s.peerState i
  let now := if i = m then 5 else if !c.member i then 0 else if was = 0 then 1 else was
  let s1 := (s.setField (Reg.FAB_PEER i) 0 13 (c.fld 2 (1088 + 2 * i) 2)).setPeerState i now
  let up := (List.range 32).filter fun p => s1.linkState p == 4 && !s1.isPairPort p
  if was ≠ 0 && now = 0 then failPeer (up.foldl (fun s p => s.pathBit i p false) s1) i
  else if was = 0 && now = 1 then up.foldl (fun s p => s.pathBit i p true) s1
  else s1

/-- Sections 2 and 4: the domain, this module's record and its ports (R400: an enabled port starts in DOWN). -/
def loadDomain (s : State) (c : Conf) (m : Nat) : State :=
  let o := 1024 * m
  let s1 := ((s.setRegN Reg.FAB_SELF m).setRegN Reg.FAB_DOMAIN (c.fld 2 0 4)).setReg64 Reg.FAB_PFX0 Reg.FAB_PFX1 (c.fld 2 8 8)
  let s2 := ((s1.setField Reg.FAB_CFG 16 16 (c.fld 2 4 2)).setField Reg.FAB_CFG 8 2 (c.fld 2 6 1)).setReg64 Reg.FAB_DSCP0 Reg.FAB_DSCP1 (c.fld 2 24 8)
  let s3 := (List.range 256).foldl (fun s i => s.setRegN (Reg.FAB_MEMB i) (c.fld 2 (64 + 4 * i) 4)) s2
  let s4 := (s3.setField Reg.FAB_STATUS 29 1 (bit (c.member m))).setField Reg.PAI_STATUS 0 13 (c.fld 2 (1088 + 2 * m) 2)
  let s5 := (List.range 32).foldl (fun s p =>
    s.setField (Reg.FAB_PST p) 8 1 (bit (p == c.fld 4 (o + 4) 1 || p == c.fld 4 (o + 5) 1))) s4
  let s6 := (List.range 8192).foldl (loadPeer c m) s5
  let s7 := (List.range 32).foldl (fun s p =>
    let on := tbit (c.fld 4 (o + 640) 4) p
    if on && s.linkState p == 0 then s.setLink p 1 else if !on && s.linkState p != 0 then s.setLink p 0 else s) s6
  (List.range 4).foldl (fun s h =>
    let w := c.fld 4 o 4
    ((s.setField (Reg.HST_PST h) 30 1 (bit (tbit w (1 + h)))).setField (Reg.HST_PST h) 29 1 (bit (tbit w (5 + h)))).showPort h) s7

/-- Section 8: the time sources (R467). A source whose code changed is qualified anew. -/
def loadTime (s : State) (c : Conf) : State :=
  let v := if (c.sec 8).isEmpty then 0 else c.fld 8 0 3 + c.fld 8 3 1 * 2 ^ 24
  let w := if v &&& 0xC0C0C0 = 0 then 0 else v
  let old := s.regN Reg.TIM_SRCCFG
  if old = w then s
  else
    let keep := s.time.qualified.filter fun i => field old (8 * i) 8 == field w (8 * i) 8 && field old 24 8 == field w 24 8
    ((s.setRegN Reg.TIM_SRCCFG w).setTime { s.time with qualified := keep }).sourceGone

/-- R479, R492: a configuration comes into force for module number `m`. -/
def loadConf (s : State) (c : Conf) (m : Nat) : State :=
  let s1 := s.setBoot { s.boot with conf := c.secs.map fun x => (x.1, Memory.writeN [] 0 x.2)
                                    flash := { s.boot.flash with recovery := c.owner } }
  let s2 := ((s1.showBytes Reg.MGT_CFGDIG 8 c.digest).showBytes Reg.MGT_OWNER 4 c.owner).setField Reg.MGT_SVN 16 16 c.minsvn
  let s3 := (s2.loadRegs c).loadDomain c m
  (((s3.tenants.drop 256 ++ List.range 256).foldl (fun s t => s.loadTenant c t) s3).loadTime c).loadMgr

end State

end Sys2Proof.Machine
end

