-- ==== Sys2Proof/Machine/Update.lean ====
section
/-! DEFINITION. Live changes and firmware update (R490 to R498). -/

namespace Sys2Proof.Machine

namespace State

/-- R493: the type code of this unit. -/
def typeCode (s : State) : Nat := s.regN Reg.MGT_TYPE

/-! ### Configuration (R489 to R492) -/

/-- The configuration in force: the active slot with its applied deltas (R492). -/
def confNow (s : State) : Option Conf :=
  match Tab.find? s.boot.flash.slots s.boot.flash.active with
  | none => none
  | some b =>
    if Conf.headOk b && Conf.tableOk b then
      some ((s.boot.flash.journal.filter (·.applied)).foldl (fun c d => (Delta.patch c d.bytes).getD c) (Conf.parse b))
    else none

/-- R489, R491: the cause with which the active slot or one of its applied deltas is invalid, 0 where all are valid; the
configuration as far as it verified. -/
def confCheck (s : State) : Nat × Option Conf :=
  match Tab.find? s.boot.flash.slots s.boot.flash.active with
  | none => (4, none)
  | some b =>
    let r := imageCause b s.typeCode s.unitId
    if r.1 ≠ 0 then (r.1, if r.2 then some (Conf.parse b) else none)
    else (s.boot.flash.journal.filter (·.applied)).foldl (fun a d =>
      match a.1, a.2 with
      | 0, some c => (match Delta.patch c d.bytes with
        | some c1 => if Delta.cause c d.bytes (Delta.seq d.bytes - 1) s.typeCode s.unitId = 0 then (0, some c1) else (5, some c)
        | none => (5, some c))
      | _, _ => a) (0, some (Conf.parse b))

/-- The pending changes by handle: a delta's bytes, none for the image in the inactive slot. -/
def pendings (s : State) : List (Nat × Option (List Byte)) :=
  let ds := (s.boot.flash.journal.filter fun d => !d.applied).map fun d => (d.seq, some d.bytes)
  match s.boot.flash.pending with
  | none => ds
  | some h => (ds.filter fun d => decide (d.1 < h)) ++ (h, none) :: ds.filter fun d => decide (h < d.1)

/-- MGT_CFGPEND shows the pending changes, MGT_CFGSEQ the last one applied. -/
def showPend (s : State) : State := (s.setRegN Reg.MGT_CFGPEND s.pendings.length).setRegN Reg.MGT_CFGSEQ s.boot.flash.applied

/-- R492: a change takes effect: its mark in flash, its audit entries, the live configuration. -/
def applyChange (s : State) (x : Nat × Option (List Byte)) : State :=
  let f := s.boot.flash
  let old := s.confNow
  let f1 := match x.2 with
    | some _ => { f with journal := f.journal.map fun d => if d.seq = x.1 then { d with applied := true } else d, applied := x.1 }
    | none => { f with active := 1 - f.active, pending := none, journal := [], applied := x.1 }
  let s1 := (s.setFlash f1).showPend
  match s1.confNow with
  | none => s1
  | some c =>
    let od := (old.map (·.digest)).getD []
    let s2 := s1.auditPut { action := if x.2.isSome then 0x02 else 0x01, okind := 0, origin := s.mgmtOrigin, object := x.1, old := od, new := c.digest }
    let s3 := if (old.map (·.owner)).any (· != c.owner) then
        s2.auditInternal { action := 0x03, okind := 0, origin := s.mgmtOrigin, object := x.1
                           old := (old.map (·.owner)).getD [], new := c.owner }
      else s2
    match c.moduleOf s.unitId with
    | none => s3
    | some m => s3.loadConf c m

/-- R492, R503: the pending changes up to a handle in order; one whose audit entry cannot be written stays, with those after it. -/
def applyUpTo (h : Nat) : List (Nat × Option (List Byte)) → State → State
  | [], s => s
  | x :: xs, s => if h < x.1 || s.logRefuses then s else applyUpTo h xs (s.applyChange x)

/-- R479: in MAINTENANCE an accepted image that leaves both a valid configuration and valid firmware starts the reset. -/
def leaveMaint (s : State) (ok : Bool) : State := if ok then s.setBoot { s.boot with leaveAt := some s.clk } else s

/-! ### Firmware (R493, R494) -/

def fwZero (b : List Byte) (o n : Nat) : Bool := allZero (sliceBytes b o n)

/-- R493: the format of a firmware image. -/
def fwFormatOk (b : List Byte) : Bool :=
  let n := fieldAt b 6 2
  let sig := fieldAt b 0x28 8
  decide (512 + 1312 ≤ b.length) && fieldAt b 0 4 == 0x49574643 && fieldAt b 4 2 == 1 && inRange 1 16 n &&
  fieldAt b 0x20 8 == b.length && decide (b.length ≤ 2 ^ 25) && sig + 2420 == b.length && decide (512 + 1312 ≤ sig) &&
  fwZero b 0x44 60 && fwZero b (0x80 + 24 * capAt 16 n) (24 * (16 - capAt 16 n)) &&
  (List.range (capAt 16 n)).all fun i =>
    let o := 0x80 + 24 * i
    inRange 1 2 (fieldAt b o 1) && fwZero b (o + 1) 7 && decide (512 + 1312 ≤ fieldAt b (o + 8) 8) &&
    decide (fieldAt b (o + 8) 8 + fieldAt b (o + 16) 8 ≤ sig)

def fwKey (b : List Byte) : List Byte := sliceBytes b 512 1312
def fwSvn (b : List Byte) : Nat := fieldAt b 0xC 4

/-- R494: the cause with which a firmware image is refused, 0 where it is valid. `run`: the running image, for a live update. -/
def fwCause (s : State) (b : List Byte) (run : Option (List Byte)) : Nat :=
  let c := s.confNow
  let revoked := (c.map Conf.fwrevoke).getD 0
  let signer := sliceBytes b 0x30 16
  if !fwFormatOk b then 6
  else if !(signer == keyId (fwKey b) && (List.range 4).any (fun k => Config.romKey k == signer && !tbit revoked k) &&
      Config.mldsaVerify (fwKey b) (sha3 (b.take (fieldAt b 0x28 8))) (b.drop (fieldAt b 0x28 8))) then 6
  else if !s.typeOk (fieldAt b 8 4) || !(fwZero b 0x10 16 || sliceBytes b 0x10 16 == s.unitId) then 6
  else if fwSvn b < (c.map Conf.minsvn).getD 0 then 8
  else match run with
    | none => 0
    | some r => if inRange (field (fieldAt r 0x40 2) 0 8) (field (fieldAt r 0x40 2) 8 8) (fieldAt b 0x42 2) then 0 else 6

/-- MGT_FWDIG and MGT_SVN.RUN show the running image. -/
def runFw (s : State) (b : List Byte) : State :=
  ((s.setBoot { s.boot with fwRun := b }).showBytes Reg.MGT_FWDIG 8 (sha3 b)).setField Reg.MGT_SVN 0 16 (fwSvn b)

/-- R495: the replaced image: the fallback area where its digest is right, else the copy in reserved HBM. -/
def oldFw (s : State) : List Byte :=
  let b := s.boot.flash.fwFallback.getD []
  if sha3 b = s.boot.flash.updOld || s.boot.fwOld.isEmpty then b else s.boot.fwOld

/-- R495: the active area is restored from the replaced image; the update is IDLE. -/
def restoreFw (s : State) : State :=
  let s1 := s.setFlash { s.boot.flash with fwActive := some s.oldFw, fwFallback := some s.oldFw }
  (s1.setBoot { s1.boot with fwNew := [], fwOld := [], trialAt := none }).setUpd 0

/-- R495, R498: the hand-back to the replaced image. -/
def handBack (s : State) : State :=
  let old := s.oldFw
  let s1 := (s.runFw old).auditInternal { action := 0x13, okind := 2, origin := agentLoader, old := s.boot.flash.updNew, new := sha3 old }
  (s1.setRegN Reg.MGT_UPDTIME 0).restoreFw

/-- R496: may the handover be armed. `mate`: the partner's update state, its new image's digest and its cue time. -/
def armOk (s : State) (mate : Option (Nat × List Byte × Nat)) : Bool :=
  let t := s.reg64 Reg.MGT_UPDCUEL Reg.MGT_UPDCUEH
  let pair := s.pairState
  s.updState == 2 && decide (s.now + 10000000 ≤ t) &&
  (pair == 3 || (pair == 1 && match mate with
    | none => false
    | some x => x.1 == 2 && x.2.1 == s.boot.flash.updNew && x.2.2 == t))

/-- The roles that this module serves. -/
def roles (s : State) : List Nat := s.self :: (if s.servesPartner then [s.partner] else [])

/-- R496: one HANDOVER entry for each role. None: refused. -/
def arm (s : State) (mate : Option (Nat × List Byte × Nat)) : Option State :=
  if !s.armOk mate then none
  else
    let t := s.reg64 Reg.MGT_UPDCUEL Reg.MGT_UPDCUEH
    (s.roles.foldl (fun r role => r.bind fun s => s.addCue t cueHandover 1 0 role 0) (some s)).map fun s1 => s1.setUpd 3

/-- R495: MGT_UPDCTL.DISCARD in READY or ARMED. -/
def discard (s : State) : State :=
  if s.updState = 2 || s.updState = 3 then (s.dropCues fun c => c.action == cueHandover).restoreFw else s

/-- R498: MGT_UPDCTL.FALLBACK is ignored outside TRIAL. -/
def fallback (s : State) : State := s.startFallback

end State

/-! ### IMAGE (R490) -/

/-- R490: the common checks of an IMAGE item; `k` runs on the image's bytes. -/
def imageItem (s : State) (t q : Nat) (i : Item) (bad : Nat) (k : State → List Byte → State) : State :=
  let b := Desc.body i.desc
  let img := i.payload.getD []
  if !allZero (sliceBytes b 1 7) || fieldAt b 8 8 != img.length then s.finish t q i.seq { status := stMalformed, detail := bad }
  else if s.logRefuses then s.finish t q i.seq { status := stLogFull }
  else k s img

/-- R490, R491: CONFIGURATION_IMAGE: PENDING in the inactive slot under the next handle. In MAINTENANCE it becomes the active
image at once, since the reset that follows takes nothing pending (log entry 27). -/
def execConfigurationImage (t q : Nat) (s : State) : Result :=
  .next (s.runRow t q (0x42 + 256 * 2) fun s i => imageItem s t q i 4 fun s img =>
    let f := s.boot.flash
    let c := imageCause img s.typeCode s.unitId
    let owned := s.bootState = 6 || (s.confNow.map (·.owner)).all fun o => o == (Conf.parse img).owner
    if s.bootState ≠ 6 && f.pending.isSome then s.finish t q i.seq { status := stBusy }
    else if c.1 ≠ 0 then s.finish t q i.seq { status := stMalformed, detail := c.1 }
    else if !owned then s.finish t q i.seq { status := stMalformed, detail := 2 }
    else
      let h := f.lastSeq + 1
      let f1 := { f with slots := Tab.setSome f.slots (1 - f.active) img, lastSeq := h }
      if s.bootState = 6 then
        let s1 := s.setFlash { f1 with active := 1 - f.active, pending := none, journal := [], applied := h }
        (s1.leaveMaint ((s1.boot.flash.fwActive.map fun b => s1.fwCause b none == 0).getD false)).finish t q i.seq { status := stOk, detail := h }
      else ((s.setFlash { f1 with pending := some h }).showPend).finish t q i.seq { status := stOk, detail := h })

/-- R491, R492: DELTA: PENDING in the journal; its handle is its sequence number. Several may be pending (DEDUCED, log entry 114). -/
def execDelta (t q : Nat) (s : State) : Result :=
  .next (s.runRow t q (0x42 + 256 * 3) fun s i => imageItem s t q i 5 fun s b =>
    let f := s.boot.flash
    match s.confNow with
    | none => s.finish t q i.seq { status := stMalformed, detail := 5 }
    | some c =>
      let cause := Delta.cause c b f.lastSeq s.typeCode s.unitId
      if cause ≠ 0 then s.finish t q i.seq { status := stMalformed, detail := cause }
      else if 4096 ≤ f.journal.length || 2 ^ 24 < (f.journal.map fun d => d.bytes.length).sum + b.length then
        s.finish t q i.seq { status := stNoMemory }
      else ((s.setFlash { f with journal := f.journal ++ [{ seq := Delta.seq b, bytes := b }], lastSeq := Delta.seq b }).showPend).finish
        t q i.seq { status := stOk, detail := Delta.seq b })

/-- R490, R494, R495: FIRMWARE_IMAGE: the update enters WRITING, with the running image in the fallback area, in reserved HBM and, over
the pair link, with the understudy (its records, log entry 104). In MAINTENANCE the
image is written to the active area. -/
def execFirmwareImage (t q : Nat) (s : State) : Result :=
  .next (s.runRow t q (0x42 + 256 * 4) fun s i => imageItem s t q i 6 fun s img =>
    let live := s.bootState ≠ 6
    let cause := s.fwCause img (if live then some s.boot.fwRun else none)
    let result := fun (s : State) (st c : Nat) => (s.setField Reg.MGT_UPD 20 8 st).setField Reg.MGT_UPD 16 4 c
    if live && s.updState ≠ 0 then s.finish t q i.seq { status := stBusy }
    else if cause ≠ 0 then (result s stMalformed cause).finish t q i.seq { status := stMalformed, detail := cause }
    else if !live then
      let s1 := s.setFlash { s.boot.flash with fwActive := some img }
      ((result s1 stOk 0).leaveMaint (s1.confCheck.1 == 0)).finish t q i.seq { status := stOk }
    else
      let s1 := s.setFlash { s.boot.flash with fwFallback := some s.boot.fwRun, updOld := sha3 s.boot.fwRun, updNew := sha3 img }
      let s2 := (s1.setBoot { s1.boot with fwNew := img, fwOld := s.boot.fwRun, fwItem := some (t, q, i.seq) }).mirrorRec State.recFw s.boot.fwRun
      ((result s2 0 0).setField Reg.MGT_UPD 0 7 0).setUpd 1)

/-- R495: FIRMWARE_WRITTEN: the new image is read back over the active area. -/
def execFirmwareWritten (ok : Bool) (s : State) : Result :=
  if s.updState ≠ 1 then .next s
  else
    let st := if ok then stOk else stFault
    let s1 := (s.setField Reg.MGT_UPD 0 7 100).setField Reg.MGT_UPD 20 8 st
    let s2 := if ok then
        ((s1.setFlash { s1.boot.flash with fwActive := some s1.boot.fwNew }).setUpd 2).auditInternal
          { action := 0x10, okind := 0, origin := s.mgmtOrigin, old := s1.boot.flash.updOld, new := s1.boot.flash.updNew }
      else s1.restoreFw
    .next ((s2.setBoot { s2.boot with fwItem := none }).endRef s.boot.fwItem { status := st })

/-! ### CONFIG and HANDOVER -/

/-- R492: a CONFIG cue. One that names no pending change has no effect. -/
def execConfigCue (handle : Nat) (s : State) : Result :=
  match s.takeCue cueConfig 0 handle with
  | none => .next s
  | some s1 => .next (if s1.pendings.any (fun x => x.1 == handle) then State.applyUpTo handle s1.pendings s1 else s1)

/-- R495, R498: a HANDOVER cue: to the new image in ARMED, `accepted` saying whether it took the handover block; back to the
replaced one in FALLBACK. -/
def execHandover (accepted : Bool) (s : State) : Result :=
  match s.takeCue cueHandover 0 0 with
  | none => .next s
  | some s1 =>
    if s1.updState = 5 then .next s1.handBack
    else if s1.updState ≠ 3 then .next s1
    else
      let s2 := (s1.runFw s1.boot.fwNew).auditInternal
        { action := 0x11, okind := 2, origin := State.agentMgmt, old := s1.boot.flash.updOld, new := s1.boot.flash.updNew }
      if accepted then
        .next ((s2.setBoot { s2.boot with trialAt := some s2.clk, trialWin := s2.regField Reg.MGT_UPDCFG 16 16, passed := false, cued := false
                                          trialMin := s2.regField Reg.MGT_UPDCFG 0 16 }).setUpd 4)
      else .next (s2.setUpd 5).handBack

/-- R496: UPD_ARM: a write of 1 to MGT_UPDCTL.ARM; a refused one changes nothing. `mate`: the partner's update state, new digest
and cue time. -/
def execUpdArm (mate : Option (Nat × List Byte × Nat)) (s : State) : Result := .next ((s.arm mate).getD s)

/-- R495: UPD_DISCARD. -/
def execUpdDiscard (s : State) : Result := .next s.discard

/-- R498: UPD_FALLBACK. -/
def execUpdFallback (s : State) : Result := .next s.fallback

/-- R498: UPDATE_CONFIRMED: MINRUN has passed, the pair is PAIRED on one firmware digest, a placement pass and a cue are done. -/
def execUpdateConfirmed (s : State) : Result :=
  match s.boot.trialAt with
  | none => .next s
  | some t =>
    if s.updState = 4 && decide (t + 1000000000 * s.boot.trialMin ≤ s.clk) && s.pairState = 1 &&
        s.boot.partnerFw = s.regBytes Reg.MGT_FWDIG 8 && s.boot.passed && s.boot.cued then
      let s1 := (s.setBoot { s.boot with trialAt := none, fwNew := [], fwOld := [] }).setUpd 0
      .next (s1.auditInternal { action := 0x12, okind := 2, origin := State.agentMgmt, old := s.boot.flash.updOld, new := s.boot.flash.updNew })
    else .next s

/-- R498: UPDATE_WINDOW_EXPIRY. -/
def execUpdateWindowExpiry (s : State) : Result :=
  match s.boot.trialAt with
  | none => .next s
  | some t => if s.updState = 4 && decide (t + 1000000000 * s.boot.trialWin ≤ s.clk) then .next s.startFallback else .next s

/-- R495: FIRMWARE_FAULT in TRIAL. -/
def execFirmwareFault (s : State) : Result := .next s.startFallback

end Sys2Proof.Machine
end

