-- ==== Sys2Proof/Machine/Boot.lean ====
section
/-! DEFINITION. Power-up, identity, attestation and the audit log's export (R341, R342, R479 to R484, R489, R494, R497,
R501, R502). -/

namespace Sys2Proof.Machine

namespace State

/-- R483, R517: the cores that the retirement record names. -/
def loadCores (s : State) : State :=
  s.boot.flash.cores.foldl (fun s x => ((s.setCore x.1 { s.core x.1 with retired := true, gated := true }).setField (Reg.IST_CORE x.1) 31
    1 1).setField Reg.IST_STATUS 0 8 s.boot.flash.cores.length) s

/-- R481: MAINTENANCE: fabric ports DISABLED, half-dies off, tenant 0 alone. A module without a configuration gives tenant 0 one
queue (log entry 28). -/
def toMaintenance (s : State) (cause : Nat) : State :=
  let s1 := (s.setBootState 6).setBootCause cause
  let s2 := (List.range 32).foldl (fun s p => if s.linkState p == 0 then s else s.setLink p 0) s1
  let s3 := (s2.setField Reg.PWR_DOMST 0 16 0).showTargets
  if s3.tntQueues 0 = 0 then s3.setField (Reg.TNT_POLICY 0) 8 8 1 else s3

/-- R342: the coefficients of section 9. -/
def imagePriors (s : State) : Tab Coef :=
  let n := leNat (s.confBytes 9 0 4)
  let f := fun i k => ratOf (BitVec.ofNat 32 (leNat (s.confBytes 9 (16 + 48 * i + 4 * k) 4)))
  if (Tab.get [] s.boot.conf 9).isEmpty then []
  else (List.range n).foldl (fun t i => Tab.setSome t (leNat (s.confBytes 9 (8 + 48 * i) 4))
    { a0 := f i 0, a1 := f i 1, a2 := f i 2, b0 := f i 3, b1 := f i 4, b2 := f i 5, lhat := f i 6 }) []

/-- R342: the priors come from the snapshot of this unit and configuration, else from the image. S is scaled to reef level 4. -/
def loadPriors (s : State) : State :=
  let own := fun (x : Snapshot) => x.unit == s.unitId && x.cfgdig == s.regBytes Reg.MGT_CFGDIG 8
  match s.boot.flash.snapshot with
  | some x =>
    if own x then
      ((s.setServe { s.serve with coef := x.coef, sust := x.sust * reefFraction 4, budget := 0, budgetAt := s.clk }).setField
        Reg.SRV_SPEC 8 8 x.alpha0).setRegN Reg.SRV_PRIOR 2
    else fromImage s
  | none => fromImage s
where
  fromImage (s : State) : State :=
    (s.setServe { s.serve with coef := s.imagePriors, sust := (s.regN Reg.ADM_SUST : Rat) * reefFraction 4, budget := 0, budgetAt := s.clk }).setRegN Reg.SRV_PRIOR 1

/-- R484: the report's bytes 0 to 1,567. -/
def attestBody (s : State) (nonce : List Byte) : List Byte :=
  let dig := s.regField Reg.LFT_STATUS 0 4
  leBytes 4 0x54414343 ++ leBytes 2 1 ++ zeros 2 ++ leBytes 4 s.typeCode ++ leBytes 1 (s.regField Reg.MGT_CAPS 16 2) ++ zeros 3 ++
  s.unitId ++ nonce ++ leBytes 8 s.now ++ leBytes 4 (fwSvn s.boot.fwRun) ++ leBytes 4 ((s.confNow.map Conf.minsvn).getD 0) ++
  s.regBytes Reg.MGT_FWDIG 8 ++ s.regBytes Reg.MGT_CFGDIG 8 ++ s.regBytes Reg.MGT_OWNER 4 ++
  (if dig = 3 || dig = 5 then sha3 s.loft.dir else zeros 32) ++ leBytes 8 (s.reg64 Reg.MGT_LOGHEADL Reg.MGT_LOGHEADH) ++ s.auditPrev ++
  leBytes 2 s.bootState ++ zeros 22 ++ sliceBytes (Config.mldsaPublic (s.boot.seed.getD [])) 0 1312

/-- R484: MGT_ATTCTL.START. -/
def attStart (s : State) : State :=
  (s.setBoot { s.boot with signing := some (s.regBytes Reg.MGT_ATTNONCE 8) }).setRegN Reg.MGT_ATTCTL 0

/-- R502: the export mark. Ignored below the current mark and above the newest entry. -/
def exportTo (s : State) (v : Nat) : State :=
  if v < s.reg64 Reg.MGT_LOGEXPL Reg.MGT_LOGEXPH || s.reg64 Reg.MGT_LOGHEADL Reg.MGT_LOGHEADH < v then s
  else (s.setReg64 Reg.MGT_LOGEXPL Reg.MGT_LOGEXPH v).logShow

end State

/-- R479, R482: IDENTITY: the PUF reproduced the seed, or failed 3 attempts. -/
def execIdentity (ok : Bool) (s : State) : Result :=
  if s.bootState ≠ 1 then .next s
  else if !ok then .next ((s.setBootState 7).setBootCause 1)
  else
    let s1 := (s.setBoot { s.boot with seed := some Config.pufSeed }).showBytes Reg.MGT_UNIT 4 (keyId (Config.mldsaPublic Config.pufSeed))
    let s2 := s1.auditInternal { action := 0x90, okind := 2, origin := State.agentLoader, object := s.regField Reg.CLK_LASTRST 24 8 }
    .next ((s2.loadCores).setBootState 2)

/-- R479, R489, R492: CONFIG_VERIFY: the active slot's image and its applied deltas. What the flash holds of them before the
module has read it comes as operands (log entry 3). Pending changes are discarded. -/
def execConfigVerify (img : List Byte) (deltas : List (List Byte)) (s : State) : Result :=
  if s.bootState ≠ 2 then .next s
  else
    let f := s.boot.flash
    let f1 := if (Tab.find? f.slots f.active).isSome then
        { f with journal := f.journal.filter (·.applied), pending := none, slots := Tab.drop f.slots (1 - f.active), lastSeq := f.applied }
      else
        let js := deltas.map fun b => ({ seq := Delta.seq b, bytes := b, applied := true } : DeltaEnt)
        let last := js.foldl (fun m d => max m d.seq) f.applied
        { f with slots := Tab.setSome f.slots f.active img, journal := js, applied := last, lastSeq := last }
    let s1 := (s.setFlash f1).showPend
    match s1.confCheck with
    | (0, some c) => match c.moduleOf s1.unitId with
      | some m => .next (((s1.loadConf c m).setBootState 3).setBootCause 0)
      | none => .next (s1.toMaintenance 3)
    | (cause, some c) => .next ((s1.setBoot { s1.boot with conf := [(5, Memory.writeN [] 0 (c.sec 5))] }).toMaintenance cause)
    | (cause, none) => .next (s1.toMaintenance cause)

/-- R479, R494, R497: FIRMWARE_VERIFY: the update record, then the active image, then the fallback. What the flash holds of them
before the module has read it comes as operands (log entry 3). A fallback area that fails its digest check is replaced by the
understudy's copy `mate`, once the pair link is up (R495). -/
def execFirmwareVerify (active fallback : List Byte) (mate : Option (List Byte)) (s : State) : Result :=
  if s.bootState ≠ 3 then .next s
  else
    let f := s.boot.flash
    let f1 := { f with fwActive := some (f.fwActive.getD active), fwFallback := some (f.fwFallback.getD fallback) }
    let s1 := s.setFlash f1
    let a := f.fwActive.getD active
    let b := f.fwFallback.getD fallback
    if f.upd ≠ 0 && sha3 b != f.updOld then
      match mate with
      | none => .next s1
      | some m =>
        if s1.pairPorts.isEmpty || sha3 m != f.updOld then .next s1
        else .next (((s1.setFlash { f1 with fwFallback := some m }).restoreFw.auditInternal
          { action := 0x13, okind := 2, origin := State.agentLoader, old := f.updNew, new := sha3 m }).setBootCause 9)
    else if f.upd ≠ 0 then
      .next ((s1.restoreFw.auditInternal { action := 0x13, okind := 2, origin := State.agentLoader, old := f.updNew, new := sha3 b }).setBootCause 9)
    else if s1.fwCause a none = 0 then .next ((s1.runFw a).setBootState 4)
    else if s1.fwCause b none = 0 then .next (((s1.setFlash { f1 with fwActive := some b }).runFw b).setBootState 4)
    else .next (s1.toMaintenance 7)

/-- R244, R480, R232: HBM_TRAINED: all 12 stacks. The HBM granules are free, but for those that the record retires
and those of the ownership table. -/
def execHbmTrained (s : State) : Result :=
  if s.bootState ≠ 4 || s.regBit Reg.MEM_HBMST 31 then .next s
  else
    let s1 := ((s.setRegN Reg.MEM_HBMST (2 ^ 31 + 4095)).setRegN Reg.MEM_FREE 393216).setPow { s.pow with since := s.clk }
    let s2 := s1.boot.retired.foldl (fun s g => s.putGran g.1 (State.mkGran 0 3 false false false false 0)) s1
    let own := ((List.range (4096 + State.ownerGrans)).filter fun g => State.gState (s2.gran g) == 0).take State.ownerGrans
    let s3 := own.foldl (fun s g => s.putGran g (State.mkGran 0 2 false false false false 0)) s2
    .next (s3.setRegN Reg.MEM_RETIRED s2.boot.retired.length)

/-- R341, R342: ADMISSION_OPEN. -/
def execAdmissionOpen (s : State) : Result :=
  if s.bootState = 4 && s.regBit Reg.MEM_HBMST 31 && s.loft.verified then .next ((s.loadPriors.setBootState 5).setAdm 31 true) else .next s

/-- R479: MAINTENANCE_RESET: within 1 s of the IMAGE that completed the pair of valid images. -/
def execMaintenanceReset (s : State) : Result :=
  if s.bootState = 6 && s.boot.leaveAt.isSome then .next (((s.moduleReset none).setField Reg.CLK_LASTRST 24 8 0).powerUp) else .next s

/-- R484: ATT_START. -/
def execAttStart (s : State) : Result := .next s.attStart

/-- R484: ATTESTATION_DONE: MGT_ATTREP holds the report; source 820 fires. -/
def execAttestationDone (s : State) : Result :=
  match s.boot.signing with
  | none => .next s
  | some nonce =>
    let f := s.fresh
    let body := s.attestBody nonce
    let sig := sliceBytes (Config.mldsaSign (s.boot.seed.getD []) f.1 (sha3 body)) 0 2420
    .next (((f.2.setBoot { f.2.boot with signing := none, report := body ++ sig ++ zeros 108 }).setRegN Reg.MGT_ATTCTL (2 ^ 31)).raise 820 0)

/-- R502: LOG_EXPORT: MGT_LOGEXPL and MGT_LOGEXPH are written, low word first. -/
def execLogExport (mark : BitVec 64) (s : State) : Result := .next (s.exportTo mark.toNat)

/-- R501: AUDIT_FLUSH: the mirrored entries are in flash. -/
def execAuditFlush (s : State) : Result :=
  .next (s.setBoot { s.boot with flushed := s.reg64 Reg.MGT_LOGHEADL Reg.MGT_LOGHEADH })

end Sys2Proof.Machine
end

