-- ==== Sys2Proof/Machine/Events.lean ====
section
/-! DEFINITION. The event controller (R505 to R512): arrivals, the mask and its delay, delivery and acknowledgement. -/

namespace Sys2Proof.Machine

namespace State

def setEvc (s : State) (x : EvcSt) : State := { s with evc := x }

/-- Fields of EVC_CFG and EVC_STAT of a source (R519). -/
def evTarget (s : State) (src : Nat) : Nat := s.regField (Reg.EVC_CFG src) 0 8
def evPrio (s : State) (src : Nat) : Nat := s.regField (Reg.EVC_CFG src) 24 4
def evPend (s : State) (src : Nat) : Bool := s.regBit (Reg.EVC_STAT src) 31
def evCount (s : State) (src : Nat) : Nat := s.regField (Reg.EVC_STAT src) 16 8
def evData (s : State) (src : Nat) : Nat := s.regField (Reg.EVC_STAT src) 0 16

/-- The tenant notices, which only R507 sets. -/
def isNotice (src : Nat) : Bool := decide (512 ≤ src ∧ src ≤ 767)

/-- R511: the tenant and queue of a host message. -/
def evQueue (s : State) (src : Nat) : Nat × Nat :=
  if isNotice src then (src - 512, 0) else (0, s.regField Reg.EVC_HOSTQ 0 4)

/-- R511: is the target of a source ready. A host queue is ready when it has a ring with a live event queue pair on which no
message awaits a host receive (assumption log, entry 34). -/
def evReady (s : State) (src : Nat) : Bool :=
  let t := s.evTarget src
  if t = 0x85 then
    match s.eventQp (s.evQueue src).1 (s.evQueue src).2 with
    | none => false
    | some k => match s.qp? k with
      | none => false
      | some x => !x.await
  else !s.evc.busy.elem t

/-- R509: is a source masked now: as the last mask write that landed 32 ns ago or earlier left it. -/
def evMasked (s : State) (src : Nat) : Bool :=
  match (s.evc.waits.filter fun w => w.1 == src && decide (w.2.2 + 32 ≤ s.clk)).getLast? with
  | some w => w.2.1
  | none => s.evc.mask.elem src

/-- R508: pending, unmasked, its target ready. -/
def evDeliverable (s : State) (src : Nat) : Bool := s.evPend src && !s.evMasked src && s.evReady src

/-- R508: the source that is delivered to a target: highest priority, then lowest number. -/
def evPick (s : State) (target : Nat) : Option Nat :=
  ((List.range 821).filter fun i => s.evTarget i == target && s.evDeliverable i).foldl
    (fun b i => match b with
      | none => some i
      | some j => if s.evPrio j < s.evPrio i then some i else some j) none

/-- R508, R510: pending and count become 0. The data word stays. -/
def evClear (s : State) (src : Nat) : State :=
  let was := s.evPend src
  let s1 := s.setRegN (Reg.EVC_STAT src) (s.evData src)
  if was then s1.setRegN Reg.EVC_STATUS (s1.regN Reg.EVC_STATUS - 1) else s1

/-- R508, R511: deliver a source. -/
def evDeliver (s : State) (src : Nat) : State :=
  let t := s.evTarget src
  let cnt := s.evCount src
  let data := s.evData src
  let s1 := (s.evClear src).bump Reg.EVC_DELIV 1
  if t = 0x85 then
    let q := s.evQueue src
    s1.sendRing q.1 q.2 (s1.eventMsg 1 q.1 q.2 0 src (s1.lastSeq q.1 q.2) 0)
  else (s1.emit (.deliver t src cnt data)).setEvc { s1.evc with busy := insertNat t s1.evc.busy }

/-- R507: an arrival set by software. A reserved source is none. -/
def evSet (s : State) (src data : Nat) : State := s.raise src data

/-- R509: a mask write lands. -/
def evMask (s : State) (src : Nat) (on : Bool) : State :=
  s.setEvc { s.evc with waits := s.evc.waits ++ [(src, on, s.clk)] }

/-- R510: a write of 1 to PEND of EVC_STAT. Reserved sources have none. -/
def evW1c (s : State) (src : Nat) : State := if 820 < src then s else s.evClear src

end State

/-- EVENT_ARRIVAL (R506): the hardware behind a source fires. Tenant notices are set by software alone (R505). -/
def execEventArrival (src data : Nat) (s : State) : Result := .next (if State.isNotice src then s else s.raise src data)

/-- EVC_SETPEND (R507): a software-set arrival. -/
def execEvcSetpend (src data : Nat) (s : State) : Result := .next (s.evSet src data)

/-- EVENT_DELIVERY (R508, R511): the first deliverable source of a target is delivered. -/
def execEventDelivery (target : Nat) (s : State) : Result :=
  .next (match s.evPick target with
    | none => s
    | some i => s.evDeliver i)

/-- EVENT_ACK (R511): an internal target acknowledges and becomes ready. -/
def execEventAck (target : Nat) (s : State) : Result :=
  .next (s.setEvc { s.evc with busy := s.evc.busy.filter (· != target) })

/-- EVC_MASK_EFFECT (R509): the oldest mask write of a source takes effect, 32 ns after it landed. -/
def execEvcMaskEffect (src : Nat) (s : State) : Result :=
  .next (match s.evc.waits.find? fun w => w.1 == src with
    | none => s
    | some w =>
      if w.2.2 + 32 ≤ s.clk then
        s.setEvc { s.evc with mask := if w.2.1 then insertNat src s.evc.mask else s.evc.mask.filter (· != src)
                              waits := s.evc.waits.erase w }
      else s)

/-- PEND (R510): a write of 1 to PEND clears pending and count; an arrival in the same cycle is counted after the clear. -/
def execPend (src : Nat) (arrival : Option Nat) (s : State) : Result :=
  .next (match arrival with
    | none => s.evW1c src
    | some d => (s.evW1c src).raise src d)

end Sys2Proof.Machine
end

