-- ==== Sys2Proof/Machine/Host.lean ====
section
/-! DEFINITION. Commands of the host ports (chapter 09): SEND, connections, congestion, BIND, REGION_SET, RING_SET,
FAULTLOG_SET, completions, acknowledgements, keys. -/

namespace Sys2Proof.Machine

/-- R252, R255, R262: SEND arrives on a queue pair. Where the ring lacks room by the last known consumer count, the message waits
for a read of the consumer word. -/
def execSend (k : HostPkt) (msg : List Byte) (s : State) : Result :=
  let key := State.qpKey k.port k.qpn
  let r := s.hostIn k
  let s := r.2
  if !r.1 then .next s
  else match s.qp? key with
    | none => .next (s.bump (Reg.HST_DROP k.port) 1)
    | some x =>
      let t := x.tenant
      let q := x.queue
      if x.doomed then .next s
      else if !x.bound then .next ((s.bump (Reg.HST_RXMSG k.port) 1).bindTry key x msg)
      else if 32 ≤ (s.hq t q).unparsed.length then .next (s.takeSend t q key msg false)
      else if s.ringRoom t q && (s.hq t q).asking.isEmpty then .next (State.acceptJunk t q 33 (s.takeSend t q key msg true))
      else
        let s1 := (s.setHq t q { s.hq t q with asking := (s.hq t q).asking ++ [(key, msg)] }).askConsumer t q
        .next (if s1.host.posts.any (fun p => p.2 == .consumer t q) then s1 else State.acceptJunk t q 33 (s1.takeAsking t q))

/-- R252: CONNECTION_REQUEST with a service ID, to an address of the role `role` (R437); `qpn` is the queue pair that the module
would use. -/
def execConnectionRequest (k : HostPkt) (role service : Nat) (s : State) : Result :=
  let port := k.port
  let qpn := k.qpn
  let t := field service 8 8 + (if role = s.self then 0 else 256)
  let q := field service 0 4
  let key := State.qpKey port qpn
  let r := s.hostIn k
  let s := r.2
  if !r.1 || !(role == s.self || (role == s.partner && s.servesPartner)) then .next s
  else if (s.regField Reg.MGT_BOOT 28 4 == 6 && (t != 0 || port != 0)) || field service 16 48 != 0x4356 || field service 4 4 != 0 || !s.present t || s.tntQueues t ≤ q || (s.qp? key).isSome ||
      1024 ≤ s.regField (Reg.HST_PST port) 0 11 || 4096 ≤ s.host.qps.length || qpn == 0 || 2 ^ 24 ≤ qpn then
    .next (s.emit (.hostReject port qpn))
  else
    let n0 := s.fresh
    let n1 := n0.2.fresh
    let n2 := n1.2.fresh
    let n3 := n2.2.fresh
    let nonce := [n0.1, n1.1, n2.1, n3.1].flatMap fun w => leBytes 8 w.toNat
    .next (((n3.2.setQp key { tenant := t, queue := q, nonce := nonce }).regAdd (Reg.HST_PST port) 1).emit (.hostReply port qpn nonce))

/-- R245: a congestion notification lowers the send rate of the queue pair it names. -/
def execCnp (k : HostPkt) (s : State) : Result :=
  let key := State.qpKey k.port k.qpn
  let r := s.hostIn k
  if !r.1 then .next r.2
  else
    let s1 := r.2.bump (Reg.HST_CNPRX k.port) 1
    match s1.qp? key with
    | none => .next s1
    | some x => .next (s1.setQp key { x with cuts := x.cuts + 1 })

/-- R253: BIND as the first SEND on a queue pair. -/
def execBind (k : HostPkt) (msg : List Byte) (s : State) : Result :=
  let key := State.qpKey k.port k.qpn
  let r := s.hostIn k
  if !r.1 then .next r.2
  else match r.2.qp? key with
    | none => .next (r.2.bump (Reg.HST_DROP k.port) 1)
    | some x =>
      if x.doomed || x.bound then .next r.2
      else .next ((r.2.bump (Reg.HST_RXMSG k.port) 1).bindTry key x msg)

/-- R260: does a page of the tenant map a host region. -/
def State.regionMapped (s : State) (t i : Nat) : Bool := (s.leaves t).any fun l => tbit l.2.2 7 && field l.2.2 58 6 == i

/-- R260: the effect of REGION_SET. -/
def regionSet (s : State) (t q : Nat) (i : Item) : State :=
  let b := Desc.body i.desc
  let r := fieldAt b 0 1
  let port := fieldAt b 1 1
  let qpn := fieldAt b 4 4
  if 64 ≤ r || 4 ≤ port || fieldAt b 2 2 != 0 || fieldAt b 12 4 != 0 || 2 ^ 24 ≤ qpn then s.finishSt t q i.seq stMalformed
  else
    let was := s.regBit (Reg.TNT_HRCFG t r) 31
    let same := s.regN (Reg.TNT_HRKEY t r) == fieldAt b 8 4 &&
      s.reg64 (Reg.TNT_HRBASEL t r) (Reg.TNT_HRBASEH t r) == fieldAt b 16 8 &&
      s.reg64 (Reg.TNT_HRLENL t r) (Reg.TNT_HRLENH t r) == fieldAt b 24 8
    let len := fieldAt b 24 8
    let v := if len = 0 then 0 else 2 ^ 31 + port * 2 ^ 24 + qpn
    if was && s.regionMapped t r && !(same && (s.repochOf t != 1 || s.regN (Reg.TNT_HRCFG t r) == v)) then s.finishBusy t q i.seq 0
    else
      let s1 := (s.setRegN (Reg.TNT_HRCFG t r) v).setRegN (Reg.TNT_HRKEY t r) (if len = 0 then 0 else fieldAt b 8 4)
      let s2 := s1.setReg64 (Reg.TNT_HRBASEL t r) (Reg.TNT_HRBASEH t r) (if len = 0 then 0 else fieldAt b 16 8)
      ((s2.setReg64 (Reg.TNT_HRLENL t r) (Reg.TNT_HRLENH t r) len).tenantRec t r 3 (leBytes 4 v ++ sliceBytes b 8 24)).finishSt t q i.seq stOk

/-- Is `n` a power of two from `lo` to `hi`. -/
def powIn (lo hi n : Nat) : Bool := decide (lo ≤ n ∧ n ≤ hi) && 2 ^ Nat.log2 n == n

/-- R260: the records of refused descriptors that the old ring of a queue still gets. -/
def flushRefused (t q : Nat) : Nat → State → State
  | 0, s => s
  | n + 1, s => if ((s.hq t q).items.any (·.refused)) then flushRefused t q n (s.writeRecord t q) else s

/-- R260: the effect of RING_SET. -/
def ringSet (s : State) (t q : Nat) (i : Item) : State :=
  let b := Desc.body i.desc
  let rq := fieldAt b 0 1
  let e := fieldAt b 4 4
  let ref := fieldAt b 8 8
  let cref := fieldAt b 16 8
  let place := s.hostRange t (refRegion ref) (refOff ref) (32 * e)
  if s.tntQueues t ≤ rq || fieldAt b 1 3 != 0 || !powIn 64 65536 e || place.isNone || place.any (fun p => p.2.2.2 % 32 != 0) ||
      (s.hostRange t (refRegion cref) (refOff cref) 8).isNone then s.finishSt t q i.seq stMalformed
  else
    let x := s.hq t rq
    if x.items.any fun j => !j.refused && !(rq == q && j.seq == i.seq) then s.finishBusy t q i.seq 0
    else
      let s := flushRefused t rq x.items.length s
      let x := s.hq t rq
      let r : Ring := { entries := e, region := refRegion ref, off := refOff ref, cregion := refRegion cref, coff := refOff cref
                        evqp := fieldAt b 24 4, modCount := fieldAt b 28 2, modTime := fieldAt b 30 2 }
      let s1 := ((s.setHq t rq { x with ring := some r }).setRegN (Reg.TNT_RQRING t rq) (Nat.log2 e)).tenantRec t rq 2 (sliceBytes b 4 28)
      let s2 := if rq = q && x.ring.isNone then s1.sendOwn t q (s1.eventMsg 0 t q stOk 0 i.seq i.tag) else s1
      s2.finishSt t q i.seq stOk

/-- R260: the effect of FAULTLOG_SET. -/
def faultlogSet (s : State) (t q : Nat) (i : Item) : State :=
  let b := Desc.body i.desc
  let ref := fieldAt b 0 8
  let e := fieldAt b 8 4
  if !powIn 64 4096 e || fieldAt b 12 4 != 0 || (s.hostRange t (refRegion ref) (refOff ref) (32 * e)).isNone then
    s.finishSt t q i.seq stMalformed
  else
    ((s.setHost { s.host with flogs := Tab.setSome s.host.flogs t { region := refRegion ref, off := refOff ref, entries := e } }).tenantRec
      t 0 4 (zeros 8 ++ leBytes 8 ref ++ leBytes 4 e)).finishSt t q i.seq stOk

/-- R260: REGION_SET on a queue of a tenant. -/
def execRegionSet (t q : Nat) (s : State) : Result := .next (s.runRow t q 0x30 fun s i => regionSet s t q i)
/-- R260: RING_SET. -/
def execRingSet (t q : Nat) (s : State) : Result := .next (s.runRow t q 0x31 fun s i => ringSet s t q i)
/-- R260: FAULTLOG_SET. -/
def execFaultlogSet (t q : Nat) (s : State) : Result := .next (s.runRow t q 0x32 fun s i => faultlogSet s t q i)

/-- R340: a RoCE error on the output of an item: a running request ends FAILED with FAULT; else the item does. In a reset its result
stays (R272). -/
def outputError (s : State) (t q seq : Nat) : State :=
  if s.tntState t = 2 then s
  else match List.find? (fun (r : Nat × Req) => r.2.tenant == t && r.2.seg.any fun g => g.q == q && g.seq == seq) s.serve.reqs with
  | some r => if r.2.inStep then s.putReq r.1 { r.2 with ending := some (stFault, 6, false, 0) } else s.endReq r.1 stFault 6 false 0
  | none => s.updItem t q seq fun i => { i with done := i.done.map fun _ => { status := stFault } }

/-- R263, R265, R225: the host's adapter answers a request of the module: results, a record, an event message, a store to
a host page. `ok` is false for a RoCE error, after which a record is written again at its entry (log entry 62). An acknowledged
record is mirrored as such (R429). -/
def execHostWriteAck (k : HostPkt) (id : Nat) (ok : Bool) (s : State) : Result :=
  let h := s.hostIn k
  let s := h.2
  if !h.1 then .next s
  else match Tab.find? s.host.posts id with
  | none => .next s
  | some p =>
    let s1 := s.setHost { s.host with posts := Tab.drop s.host.posts id }
    match p with
    | .consumer _ _ => .next s
    | .payload _ _ _ => .next s
    | .moveIn _ _ _ _ => .next s
    | .loft => .next s
    | .kv slot pos group => .next (if ok then s1.spillDone slot pos group else s1.loseBlock slot)
    | .moveOut _ _ va =>
      let p := fun a => a == Await.host id va
      .next (if ok then s1.dropAwait p else s1.failAwait p)
    | .results t q seq => .next (if ok then s1 else outputError s1 t q seq)
    | .event key =>
      match s1.qp? key with
      | none => .next s1
      | some x =>
        let s2 := s1.setQp key { x with await := false, merged := none }
        if x.doomed && x.merged.isNone then .next (s2.closeQp key)
        else match x.merged with
          | none => .next s2
          | some m => .next (s2.sendMsg key m)
    | .record t _ region off b => .next (if ok then s1.roleRec (s.roleOf t) State.recAcked b else s1.regionWrite t region off b p)
    | .plain => .next s1

/-- R262: the next completion record of a queue is written. -/
def execCompletionWrite (t q : Nat) (s : State) : Result := .next (s.writeRecord t q)

/-- R265: the moderation count is reached, or the moderation time has passed since the first record not notified. -/
def execCompletionNotice (t q : Nat) (s : State) : Result :=
  match (s.hq t q).ring with
  | none => .next s
  | some r =>
    if r.since != 0 && ((r.modCount != 0 && decide (r.modCount ≤ r.since)) ||
        (r.modTime != 0 && decide (r.firstAt + 1000 * r.modTime ≤ s.clk))) then
      .next (s.notify t q stOk (s.lastSeq t q))
    else .next s

/-- R246: HST_CAKCTL.LOAD. Ignored where MACsec is disabled, refused where the audit log is full (R503). -/
def execHstCakLoad (port : Nat) (s : State) : Result :=
  if 4 ≤ port || !s.regBit (Reg.HST_PST port) 30 || s.logRefuses then .next s
  else .next ((s.auditPut { action := 0x20, okind := 0, origin := s.mgmtOrigin, object := port }).cakEffect port true)

/-- R274: HST_CAKCTL.CLEAR. -/
def execHstCakClear (port : Nat) (s : State) : Result :=
  if 4 ≤ port || s.logRefuses then .next s
  else .next ((s.auditPut { action := 0x21, okind := 0, origin := s.mgmtOrigin, object := port }).cakEffect port false)

/-- R247: an RDMA WRITE, RDMA READ or atomic from a host is answered with a remote access error and not executed. -/
def execHostRdmaRequest (k : HostPkt) (s : State) : Result :=
  let r := s.hostIn k
  if !r.1 then .next r.2
  else
    let s1 := r.2.bump (Reg.HST_DROP k.port) 1
    match s1.qp? (State.qpKey k.port k.qpn) with
    | none => .next s1
    | some _ => .next (s1.emit (.hostNak k.port k.qpn))

/-- R262, R256, R225: the response to an RDMA READ of a consumer word, of a referenced payload or of a load from a host
page; none for a RoCE error: an item whose payload cannot be read ends with FAULT (log entry 62). -/
def execRdmaReadResponse (k : HostPkt) (id : Nat) (resp : Option (List Byte)) (s : State) : Result :=
  let h := s.hostIn k
  let s := h.2
  if !h.1 then .next s
  else match Tab.find? s.host.posts id with
  | none => .next s
  | some p =>
    let s1 := s.setHost { s.host with posts := Tab.drop s.host.posts id }
    match p, resp with
    | .loft, _ => .next (s1.loftRead resp)
    | .kv slot _ _, none => .next (s1.loseBlock slot)
    | .kv slot pos group, some data =>
      match s1.kvBlock slot pos group with
      | none => .next s1
      | some b => .next (if b.state == 3 then (s1.blockWrite b 0 data).fetchDone slot pos group else s1)
    | .moveIn _ _ va _, none => .next (s1.failAwait fun a => a == Await.host id va)
    | .moveIn _ _ va stage, some data =>
      let want := fun a => a == Await.host id va
      .next (if (s1.awaiting want).isEmpty then s1 else (s1.writeBytes stage data).dropAwait want)
    | .consumer t q, none => .next (State.acceptJunk t q 33 (s1.takeAsking t q))
    | .payload t q seq, none => .next (s1.finishSt t q seq stFault)
    | .consumer t q, some data =>
      match (s1.hq t q).ring with
      | none => .next s1
      | some r =>
        let s2 := (s1.setHq t q { s1.hq t q with ring := some { r with consumed := fieldAt data 0 8 } }).tenantRec t q 5 (sliceBytes data 0 8)
        .next (State.acceptJunk t q 33 (s2.takeAsking t q))
    | .payload t q seq, some data => .next (s1.updItem t q seq fun i => { i with payload := some data })
    | _, _ => .next s

/-- R274: a host port's link and MKA peer come up or go down. -/
def execHostLinkChange (port : Nat) (link mka : Bool) (s : State) : Result :=
  if 4 ≤ port then .next s
  else
    let f := fun (on : Bool) (l : List Nat) => if on then insertNat port l else l.filter (· != port)
    .next ((s.setHost { s.host with links := f (link && !s.regBit Reg.CLK_STATUS port) s.host.links, mka := f (mka && s.regBit (Reg.HST_PST port) 28) s.host.mka }).showPort port)

end Sys2Proof.Machine
end

