-- ==== Sys2Proof/Machine/Ist.lean ====
section
/-! DEFINITION. The in-service test (R513 to R520): slices, cover, retirement of cores. A slice's command starts it where it
names no result, and ends the running slice with the result it names. -/

namespace Sys2Proof.Machine

namespace State

def setIst (s : State) (x : IstSt) : State := { s with ist := x }

/-- R514, R520: may a slice of a kind start. -/
def istMayStart (s : State) (kind : Nat) : Bool :=
  decide (s.reefLevel ≤ 5) && s.bootState == 5 && s.regBit Reg.IST_CFG (kind - 1)

/-- Is a core open to a slice: in service, under no other slice, claimed by no dispatch entry that waits (R30), its half-die
on. -/
def coreTestable (s : State) (n : Nat) : Bool :=
  let k := s.core n
  decide (n < 128) && !k.retired && !k.gated && k.testing.isNone && k.waiting.isEmpty && k.reshape.isNone && s.regBit Reg.PWR_DOMST (n / 8)

/-- Is a partition of a core open to a slice: no resident context, nothing running in it. -/
def partTestable (s : State) (n p : Nat) : Bool :=
  s.coreTestable n && decide (p < s.coreP n) && (s.part n p).empty && !(s.part n p).stopped

/-- The 16-column groups of a partition. -/
def colGroups (s : State) (n p : Nat) : List Nat := (List.range (s.coreW n / 16)).map (p * (s.coreW n / 16) + ·)

/-- R515: the coverage period, and the grace after it, in ns. -/
def istPeriod (s : State) : Nat := s.regField Reg.IST_CFG 24 8 * 3600000000000
def istGrace (s : State) : Nat := s.regField Reg.IST_CFG 16 8 * 3600000000000

/-- R515: the parts of a core's cover. -/
def coverParts : List Nat := [0, 1, 2, 3, 4] ++ (List.range 6).map (8 + ·) ++ (List.range 4).map (16 + ·) ++ (List.range 4).map (24 + ·)

/-- The kind of slice that covers a part. -/
def partKind (k : Nat) : Nat := if k < 4 then 1 else if k = 4 then 2 else 3

/-- R515: does a core lack a part of its cover that a kind of slice gives. -/
def istWants (s : State) (m kind : Nat) : Bool :=
  coverParts.any fun k => partKind k == kind && !(Tab.find? s.ist.passed (32 * m + k)).any fun t => decide (s.clk ≤ t + s.istPeriod)

/-- Has a core a resource that a kind of slice can take now. -/
def istOpen (s : State) (m kind : Nat) : Bool :=
  (List.range (s.coreP m)).any (s.partTestable m) ||
  (kind == 3 && s.coreTestable m && (List.range 6).any fun b => s.stageFree m (b * 2 ^ 20) (2 ^ 20))

/-- R515: cores are served oldest cover first: no core of an older cover lacks the kind and could take it. -/
def istTurn (s : State) (n kind : Nat) : Bool :=
  (List.range 128).all fun m => !(decide (Tab.get 0 s.ist.cover m < Tab.get 0 s.ist.cover n) && s.istWants m kind && s.istOpen m kind)

/-- R515: parts that passed; a core whose parts all passed within one period is covered. -/
def istPass (s : State) (n : Nat) (parts : List Nat) : State :=
  let passed := parts.foldl (fun t k => Tab.setSome t (32 * n + k) s.clk) s.ist.passed
  let all := coverParts.all fun k => (Tab.find? passed (32 * n + k)).any fun t => decide (s.clk ≤ t + s.istPeriod)
  if all then
    ((s.setIst { s.ist with passed := passed.filter fun x => x.1 / 32 != n, cover := Tab.setSome s.ist.cover n s.clk }).bump
      Reg.IST_COVERS 1).setField (Reg.IST_CORE n) 30 1 0
  else s.setIst { s.ist with passed := passed }

/-- R516, R520: a failed slice of a core; a failed rerun on the same resource retires it. -/
def istFail (s : State) (n kind res : Nat) : State :=
  let key := (n, 64 * kind + res)
  let s1 := s.bump Reg.IST_FAILS 1
  let s2 := (s1.setField (Reg.IST_CORE n) 24 3 kind).setField (Reg.IST_CORE n) 16 8 (capAt 255 (s1.regField (Reg.IST_CORE n) 16 8 + 1))
  if s2.ist.failed.elem key then (s2.setIst { s2.ist with failed := s2.ist.failed.filter (· != key) }).retireCore n
  else s2.setIst { s2.ist with failed := s2.ist.failed ++ [key] }

/-- A slice of a core ends (R505 sources 384 to 511, R515, R516). The event's data word names the kind; how it codes the result
is an open value. -/
def istEnd (s : State) (n kind res : Nat) (parts : List Nat) (ok : Bool) : State :=
  let s1 := ((s.setCore n { s.core n with testing := none }).bump Reg.IST_SLICES 1).showIst
  let s2 := s1.fresh.2.raise (384 + n) (kind * 256 + s1.fresh.1.toNat % 256)
  if ok then (s2.setIst { s2.ist with failed := s2.ist.failed.filter (· != (n, 64 * kind + res)) }).istPass n parts else s2.istFail n kind res

/-- Start a slice on a core. -/
def istBegin (s : State) (n kind res : Nat) : State := (s.setCore n { s.core n with testing := some (kind, res) }).showIst

/-- A slice of a core: start it, or end it where it runs; `clean` is what the end leaves in the resource. -/
def istSlice (s : State) (n kind res : Nat) (may : Bool) (parts : List Nat) (result : Option Bool) (clean : State → State) : State :=
  match result with
  | none => if s.istMayStart kind && may && s.istTurn n kind then s.istBegin n kind res else s
  | some ok => if (s.core n).testing = some (kind, res) then (clean s).istEnd n kind res parts ok else s

/-- Is a MiB of a core's stage memory in no context's allocation. -/
def stageMibFree (s : State) (n mib : Nat) : Bool := decide (mib < 6) && s.stageFree n (mib * 2 ^ 20) (2 ^ 20)

/-! ### Granules -/

/-- Free granules of a tier: MEM_FREE for HBM, the free ones of the 512 of shared SRAM. -/
def freeOfTier (s : State) (kind : Nat) : Nat :=
  if kind = 5 then s.regField Reg.MEM_FREE 0 19 else ((List.range 512).filter fun i => s.granFree (393216 + i)).length

/-- The base die of an HBM or shared-SRAM granule (R19, R216). -/
def testDie (g : Nat) : Nat := if g < 393216 then granDie g else (g - 393216) / 128

/-- R514: may a granule be taken out of the free list: it is free, at most 4 of its base die are held by slices of the kind, and
1,024 of its tier are free. -/
def granTestable (s : State) (kind g : Nat) : Bool :=
  (if kind = 5 then decide (g < 393216) else decide (393216 ≤ g ∧ g < 393728)) && s.granFree g &&
  decide ((s.ist.grans.filter fun x => x.1 == kind && testDie x.2 == testDie g).length < 4) && decide (1024 ≤ s.freeOfTier kind)

/-- BMARCH and HPAT: the slice ends with zero in the granule; a failed one retires it (R516). -/
def granSlice (s : State) (kind g : Nat) (result : Option Bool) : State :=
  match result with
  | none => if s.istMayStart kind && s.granTestable kind g then (s.setIst { s.ist with grans := s.ist.grans ++ [(kind, g)] }).showIst else s
  | some ok =>
    if s.ist.grans.elem (kind, g) then
      let s1 := (s.setIst { s.ist with grans := s.ist.grans.filter (· != (kind, g)) }).showIst
      let a := granuleAddr g
      let s2 := ({ s1.clearPoison a (2 ^ 21) with mem := Memory.clear s1.mem a (2 ^ 21) }).bump Reg.IST_SLICES 1
      if ok then s2 else (s2.bump Reg.IST_FAILS 1).retireGran g
    else s

/-! ### Retirement -/

/-- R517: predictions and S are scaled by the ratio of active cores when a core's retirement ends (log entry 30). -/
def scaleCosts (s : State) : State :=
  let left := 128 - (s.cores.filter fun c => c.2.retired && (Tab.find? s.ist.retiring c.1).isNone).length
  let coef := s.serve.coef.map fun (x : Nat × Coef) =>
    let g := 128 * s.groupSize x.1 - (128 - left)
    let r : Rat := if g = 0 then 1 else ((g + 1 : Nat) : Rat) / (g : Rat)
    (x.1, { x.2 with a0 := x.2.a0 * r, a1 := x.2.a1 * r, a2 := x.2.a2 * r, b0 := x.2.b0 * r, b1 := x.2.b1 * r, b2 := x.2.b2 * r })
  { s with serve := { s.serve with coef := coef, sust := s.serve.sust * (left : Rat) / ((left + 1 : Nat) : Rat) } }

/-- R517: the last save is done: partitions zeroed, clock gated, record, audit entry 0x70, source 815. -/
def retireDone (s : State) (n : Nat) : State :=
  let s1 := s.setCore n { s.core n with parts := [], gated := true }
  let s2 := s1.setIst { s1.ist with retiring := Tab.drop s1.ist.retiring n }
  let fl := s2.boot.flash
  let s3 := { s2 with boot := { s2.boot with flash := { fl with cores := if fl.cores.length < 128 then fl.cores ++ [(n, s2.now)] else fl.cores } } }.mirrorRec
    recRetired (leBytes 4 n ++ leBytes 8 s2.now)
  ((s3.auditInternal { action := 0x70, okind := 2, origin := agentIst, object := n }).raise 815 n).scaleCosts.showTargets

end State

/-- AKAT (R513): the known-answer slice of a partition's columns; at its end the partition is zeroed. -/
def execAkat (core part : Nat) (result : Option Bool) (s : State) : Result :=
  .next (s.istSlice core 1 part (s.partTestable core part) (s.colGroups core part) result fun s => s.setPart core part {})

/-- VKAT (R513): the known-answer slice of the vector engine, on the register share of an empty partition. -/
def execVkat (core part : Nat) (result : Option Bool) (s : State) : Result :=
  .next (s.istSlice core 2 part (s.partTestable core part) [4] result id)

/-- SMARCH (R513): March C- on a MiB of free stage memory or the accumulator slots or registers of an empty partition. -/
def execSmarch (core : Nat) (area : MarchArea) (result : Option Bool) (s : State) : Result :=
  match area with
  | .stage mib =>
    let a := State.stageOf core + mib * 2 ^ 20
    .next (s.istSlice core 3 (8 + mib) (s.coreTestable core && s.stageMibFree core mib) [8 + mib] result fun s =>
      { s.clearPoison a (2 ^ 20) with mem := Memory.clear s.mem a (2 ^ 20) })
  | .acc p =>
    .next (s.istSlice core 3 (16 + p) (s.partTestable core p) ((s.colGroups core p).map (16 + ·)) result fun s =>
      s.setPart core p { s.part core p with acc := [] })
  | .vregs p => .next (s.istSlice core 3 (24 + p) (s.partTestable core p) ((s.colGroups core p).map (24 + ·)) result id)

/-- BMARCH (R513, R514): March C- on a free shared-SRAM granule. The tier has 512 granules, so the condition of 1,024 free ones
keeps a slice from starting (log entry 31). -/
def execBmarch (gran : Nat) (result : Option Bool) (s : State) : Result := .next (s.granSlice 4 gran result)

/-- HPAT (R513, R514): patterns on a free HBM granule. -/
def execHpat (gran : Nat) (result : Option Bool) (s : State) : Result := .next (s.granSlice 5 gran result)

/-- EYE (R513, R520): the eye widths of a port's lanes. The narrowest is shown; below IST_EYETHR source 817 fires. -/
def execEye (port : Nat) (widths : List (BitVec 8)) (s : State) : Result :=
  let ws := widths.map BitVec.toNat
  let w := ws.foldl min 255
  if 36 ≤ port || widths.isEmpty || 4 < widths.length || !s.istMayStart 6 then .next s
  else
    let s1 := (s.setRegN (Reg.IST_EYE port) (ws.idxOf w * 2 ^ 16 + w)).bump Reg.IST_SLICES 1
    .next (if w < s1.regField Reg.IST_EYETHR 0 8 then s1.raise 817 port else s1)

/-- COVERAGE_OVERDUE (R515): a core was not covered in period and grace: it is overdue, source 816 fires once, and the scheduler
is asked to vacate a partition. -/
def execCoverageOverdue (core : Nat) (s : State) : Result :=
  if 128 ≤ core || (s.core core).retired || s.clk < Tab.get 0 s.ist.cover core + s.istPeriod + s.istGrace then .next s
  else
    let s1 := if s.regBit (Reg.IST_CORE core) 30 then s else (s.setField (Reg.IST_CORE core) 30 1 1).raise 816 core
    .next (s1.emit (.vacate core))

/-- IST_RETIRE (R516, R518): management software retires a core; one already retired stays as it is. -/
def execIstRetire (core : Nat) (s : State) : Result := .next (s.retireCore core)

/-- R517: the home scheduler of a context asks for its save through the core's dispatch queue. -/
def State.retireSave (s : State) (n p deadline addr : Nat) : State :=
  match s.ctx n p with
  | none => s
  | some c => s.dispatchEntry n (homeOf c.slot c.tenant) (.save p (some deadline) addr)

/-- CORE_RETIREMENT (R517, R518): from 1 µs after the decision saves of the resident contexts are requested, a pending one stands; once
none is resident the retirement completes. `saves`: the memory that the scheduler names for each partition. -/
def execCoreRetirement (core : Nat) (saves : List (Nat × Nat)) (s : State) : Result :=
  match Tab.find? s.ist.retiring core with
  | none => .next s
  | some t0 =>
    if s.clk < t0 + 1000 then .next s
    else if (s.core core).parts.all fun p => p.2.ctx.isNone then .next (s.retireDone core)
    else .next (saves.foldl (fun s x => s.retireSave core x.1 (t0 + 1000000 - s.clk) x.2) s)

end Sys2Proof.Machine
end

