-- ==== Sys2Proof/Machine/RegView.lean ====
section
/-! DEFINITION. What a read of a register returns (R11, R14, R15), with the registers whose value the state holds elsewhere: the
core window (R185), the windows of the audit log, the report and the cue sheet, ages and counts. -/

namespace Sys2Proof.Machine

namespace State

/-! ### The core window (R185) -/

/-- A 32-bit word of a byte image, zero beyond its end. -/
def wordAt (b : List Byte) (o : Nat) : Nat := fieldAt b o 4

def corState (s : State) (n : Nat) : Nat :=
  let k := s.core n
  let bits := fun (f : Part → Bool) => ((List.range 4).map fun p => bit (f (s.part n p)) * 2 ^ p).sum
  bits (fun p => p.ctx.any (·.fault.isSome)) * 2 ^ 8 + bits (·.ctx.isSome) * 2 ^ 4 + bit k.retired * 8 + k.shape % 4

/-- COR_CTX, COR_STRM, COR_PCL, COR_PCH, COR_FAULT: offset `o` from 0x100 + 0x40 p. -/
def corPart (c : Ctx) (o : Nat) : Nat :=
  if o = 0 then c.tenant % 256 * 2 ^ 16 + c.ctxid % 2 ^ 16
  else if o = 4 then bit c.more * 2 ^ 12 + (c.stream 2).st % 16 * 256 + (c.stream 1).st % 16 * 16 + (c.stream 0).st % 16
  else if o < 0x20 then
    let pc := (c.stream ((o - 8) / 8)).pc.toNat
    if o % 8 = 0 then pc % 2 ^ 32 else pc / 2 ^ 32
  else match c.fault with
    | none => 0
    | some f => wordAt f.bytes (o - 0x20)

/-- R189: the elements of a vector register as section 8 holds them. -/
def vregBytes (v : VReg) : List Byte :=
  let bs := packRow v.tag (v.elems.map BitVec.toNat)
  padTo 64 (leBytes 4 v.elems.length ++ leBytes 4 v.tag ++ leBytes 4 bs.length) ++ padTo 64 bs

/-- COR_APSEL.SPACE: the word at byte `o` of a space in the layout of the saved context; zero beyond the space. None for a
reserved space. -/
def aperture (s : State) (n p space o : Nat) : Option Nat :=
  let x := s.part n p
  let wd := s.coreW n
  let cell := fun (t : StatSet) =>
    let c := Tab.get {} t.cells (64 * (o / 4 / wd) + o / 4 % wd)
    c.group.toNat + c.scale.toNat * 2 ^ 24
  match space with
  | 0 => some (if o < 8192 * wd then (x.slot (o / 4 / wd) (o / 4 % wd)).toNat else 0)
  | 1 => some (match x.ctx with
      | none => 0
      | some c => wordAt ((List.range 16).flatMap fun i => vregBytes (c.vreg i)) o)
  | 2 => some (if o < 256 * wd then cell x.active else 0)
  | 3 => some (if o < 256 * wd then cell x.shadow else 0)
  | 4 => some (match x.ctx with
      | none => 0
      | some c => if o < 512 then wordAt (leBytes 8 (c.reg (o / 8)).toNat) (o % 8)
          else if o < 640 then (c.count ((o - 512) / 2)).toNat + (c.count ((o - 512) / 2 + 1)).toNat * 2 ^ 16 else 0)
  | 5 => some (match x.ctx with
      | none => 0
      | some c => if o < 64 then wordAt (leBytes 8 c.len) o
          else leNat (s.readN (stageOf n + c.base + (o - 64)) (min 4 (c.len - (o - 64)))))
  | _ => none

/-- A word of the window of core `n`. -/
def corWord (s : State) (n o : Nat) : Option Nat :=
  if o = 4 then some (s.corState n)
  else if o = 8 then some (s.core n).parity.toNat
  else if o = 0x2000 then some (s.regN (Reg.COR_APSEL n))
  else if 0x100 ≤ o ∧ o < 0x200 then some ((((s.part n ((o - 0x100) / 0x40)).ctx).map fun c => corPart c (o % 0x40)).getD 0)
  else if 0x1000 ≤ o ∧ o < 0x1200 then some ((s.part n ((o - 0x1000) / 0x80)).word (o % 0x80 / 4)).toNat
  else if 0x1400 ≤ o ∧ o < 0x1800 then
    some ((((s.part n ((o - 0x1400) / 0x100)).ctx).map fun c => ((c.summary (o % 0x100 / 0x20)).word (o % 0x20 / 4)).toNat).getD 0)
  else if 0x3000 ≤ o then
    let sel := s.regN (Reg.COR_APSEL n)
    s.aperture n (field sel 12 2) (field sel 16 3) (4096 * field sel 0 11 + (o - 0x3000))
  else some (s.regN (0x400000 + 0x4000 * n + o))

/-! ### Other values -/

/-- RIG_STATUS.ACTIVE (R287): the quarters with a piece of their wings under way. -/
def rigActive (s : State) : Nat :=
  let dies := s.curtain.runs.flatMap fun c => c.2.entries.filterMap fun p =>
    match Tab.find? c.2.pieces p.piece with
    | none => none
    | some r =>
      if r.chunks.any (fun k => k.2.asked.isSome && !k.2.done) then ((pieceAddr s c.2 p 0).bind granuleOf).map granDie else none
  ((List.range 4).map fun b => bit (dies.elem b) * 2 ^ b).sum

/-- MGT_UPDTIME: seconds left in the window during TRIAL. -/
def updLeft (s : State) : Nat :=
  match s.boot.trialAt with
  | none => 0
  | some t => if s.updState = 4 then s.boot.trialWin - (s.clk - t) / 1000000000 else 0

/-- MGT_LOGWIN: the entry of MGT_LOGSEL, zero where the ring does not hold it (R502). -/
def logEntry (s : State) : List Byte :=
  ((s.boot.audit.find? fun e => e.seq == s.reg64 Reg.MGT_LOGSELL Reg.MGT_LOGSELH).map auditBytes).getD []

/-- R519, R12: bits that read as zero: WO fields. -/
def readMask (r : RegRow) (v : Word32) : Word32 := v &&& ~~~r.wo

/-- The value that a read returns, and the state after it. None: no data, MALFORMED (R15). MAINTENANCE serves the MGT block
alone (R481). -/
def regRead (s : State) (off : Nat) : Option (Nat × State) :=
  if s.bootState = 6 && 0x10000 ≤ off then none
  else match regAt off with
    | none => none
    | some (r, i, _) =>
      let plain := (readMask r (s.reg off)).toNat
      if 0x400000 ≤ off then (s.corWord ((off - 0x400000) / 0x4000) ((off - 0x400000) % 0x4000)).map fun v => (v, s)
      else if off = Reg.TIM_NOWL then some (s.now % 2 ^ 32, s.setRegN Reg.TIM_NOWH (s.now / 2 ^ 32))
      else if 0x34000 ≤ off ∧ off < 0x38000 then some (wordAt (((s.time.cues[i / 8]?).map Cue.bytes).getD []) (4 * (i % 8)), s)
      else if off = Reg.MGT_UPDTIME then some (s.updLeft, s)
      else if Reg.MGT_LOGWIN 0 ≤ off ∧ off < Reg.MGT_LOGWIN 64 then some (wordAt s.logEntry (4 * i), s)
      else if Reg.MGT_ATTREP 0 ≤ off ∧ off < Reg.MGT_ATTREP 1024 then some (wordAt s.boot.report (4 * i), s)
      else if off = Reg.MEM_POISON then some (capAt (2 ^ 32 - 1) (s.poison.filter fun w => isHbm (64 * w)).length, s)
      else if off = Reg.LFT_UE then
        some (((s.poison.filter fun w => isLoft (64 * w)).foldl (fun l w => insertNat (w / 64) l) []).length, s)
      else if off = Reg.PAI_MIRGRAN then some ((s.grans.filter fun g => gState g.2 == 2 && gMir g.2).length, s)
      else if off = Reg.RIG_STATUS then some (s.rigActive, s)
      else if Reg.IST_CORE 0 ≤ off ∧ off < Reg.IST_CORE 128 then
        some (plain + capAt 65535 ((s.clk - Tab.get 0 s.ist.cover i) / 60000000000), s)
      else some (plain, s)

/-- Read `n` registers in increasing offset: the values, the state, and the offset that failed. -/
def regReads (off : Nat) : Nat → State → List Nat × State × Option Nat
  | 0, s => ([], s, none)
  | n + 1, s => match s.regRead off with
    | none => ([], s, some off)
    | some (v, s1) => let r := regReads (off + 4) n s1; (v :: r.1, r.2.1, r.2.2)

end State

end Sys2Proof.Machine
end

