-- ==== Sys2Proof/Machine/Regs.lean ====
section
/-! DEFINITION. Writes of registers by management software (R11 to R15, R32) with what each register's write does, and the
management window REG_READ and REG_WRITE (R267). -/

namespace Sys2Proof.Machine

/-- What came of a write: the state after it, or the status with which the item stops at the register. -/
inductive RegAns where
  | ok (s : State)
  | fail (status : Nat)
  deriving DecidableEq, Repr

namespace State

/-- R11, R12: the fields of a register after a write of `v`: RW and WO bits take it, W1C bits are cleared by 1, the others stay. -/
def regMerge (r : RegRow) (old v : Word32) : Word32 :=
  (((old &&& ~~~(r.rw ||| r.wo)) ||| (v &&& (r.rw ||| r.wo))) &&& ~~~(v &&& r.w1c))

/-- R267: is a register read-only for management software. EVC_CFG of reserved sources takes writes and ignores them (R519). -/
def regReadOnly (r : RegRow) (off : Nat) : Bool := r.rw == 0#32 && r.w1c == 0#32 && r.wo == 0#32 && !(0x41000 ≤ off && off < 0x42000)

/-- R511, R519: the target codes. -/
def targetOk (c : Nat) : Bool := decide (c ≤ 0x85)

/-- R509, R511, R519: a write of EVC_CFG. -/
def writeEvcCfg (s : State) (src : Nat) (v : Word32) : State :=
  if 820 < src || !targetOk (field v.toNat 0 8) then s
  else
    let s1 := s.setReg (Reg.EVC_CFG src) (v &&& 0x8F0000FF#32)
    if tbit v.toNat 31 == s.regBit (Reg.EVC_CFG src) 31 then s1 else s1.evMask src (tbit v.toNat 31)

/-- R495, R496, R498: a write of MGT_UPDCTL. -/
def writeUpdCtl (s : State) (v : Word32) (mate : Option (Nat × List Byte × Nat)) : RegAns :=
  let armed := if tbit v.toNat 0 then s.arm mate else some s
  match armed with
  | none => .fail stBusy
  | some s1 =>
    let s2 := if tbit v.toNat 1 then s1.discard else s1
    .ok (if tbit v.toNat 2 then s2.fallback else s2)

/-- R246, R274: a write of HST_CAKCTL. On the port that carries the REG_WRITE it takes effect after the item's completion. -/
def writeHostCak (s : State) (h : Nat) (v : Word32) (item : Option (Nat × Nat × Nat)) : RegAns :=
  let load := tbit v.toNat 0 && s.regBit (Reg.HST_PST h) 30
  let clear := tbit v.toNat 1
  if !load && !clear then .ok s
  else if s.logRefuses then .fail stLogFull
  else
    let own := item.any fun i => s.regField (Reg.TNT_RQST i.1 i.2.1) 24 2 == h
    let act := fun (s : State) (ld : Bool) =>
      let s1 := s.auditInternal { action := if ld then 0x20 else 0x21, okind := 0, origin := s.mgmtOrigin, object := h }
      match item with
      | some i =>
        if own then s1.setHost { s1.host with cakWait := s1.host.cakWait ++ [{ tenant := i.1, queue := i.2.1, seq := i.2.2, port := h, load := ld }] }
        else s1.cakEffect h ld
      | none => s1.cakEffect h ld
    let s1 := if load then act s true else s
    .ok (if clear then act s1 false else s1)

/-- R373: a write of FAB_CAKCTL. -/
def writeFabCak (s : State) (v : Word32) : RegAns :=
  if field v.toNat 0 2 = 0 then .ok s
  else if s.logRefuses then .fail stLogFull
  else
    let s1 := if tbit v.toNat 0 then s.cakLoad else s
    .ok (if tbit v.toNat 1 then s1.cakClear else s1)

/-- R239: a write of LFT_CTRL: ABORT stops a running installation, else START begins one. -/
def writeLftCtrl (s : State) (v : Word32) : State :=
  if tbit v.toNat 1 && s.loft.inst.isSome then s.loftAbort
  else if tbit v.toNat 0 then s.loftStart
  else s

/-- R270: a write of TNT_CTRL. Ignored for tenant 0 and for ABSENT tenants (R268). -/
def writeTntCtrl (s : State) (t : Nat) (v : Word32) : RegAns :=
  if !tbit v.toNat 0 || t = 0 || s.tntState t = 0 then .ok s
  else if s.logRefuses then .fail stLogFull
  else .ok (s.resetTenant t false false)

/-- A field-by-field update of a register that takes the value; none of its fields where the value lies outside its range. -/
def writeFields (s : State) (r : RegRow) (off : Nat) (v : Word32) : State :=
  if rangeOk off v.toNat then s.setReg off (regMerge r (s.reg off) v) else s

/-- R336: a lower SRV_VARGRAN evicts idle variants. -/
def trimVariants (s : State) : State :=
  State.evictWhile (fun s => decide (s.regField Reg.SRV_VARGRAN 0 19 < s.regField Reg.SRV_VARST 8 19)) 64 s

/-- A write that has an effect beside its fields; none for a register without behaviour of its own. `item`: the REG_WRITE item. -/
def regAct (s : State) (r : RegRow) (i off : Nat) (v : Word32) (x : RegExt) (item : Option (Nat × Nat × Nat)) : Option RegAns :=
  if off = Reg.MGT_UPDCTL then some (s.writeUpdCtl v x.mate)
  else if off = Reg.MGT_ATTCTL then some (.ok (if tbit v.toNat 0 then s.attStart else s))
  else if off = Reg.MGT_LOGEXPL then some (.ok (s.setBoot { s.boot with expLow := v.toNat }))
  else if off = Reg.MGT_LOGEXPH then some (.ok (s.exportTo (v.toNat * 2 ^ 32 + s.boot.expLow)))
  else if off = Reg.CLK_FMCTL then some (.ok (if tbit v.toNat 0 then s.fmStart else s))
  else if off = Reg.PWR_REEFMIN then some (.ok (s.setFloor (field v.toNat 0 3)))
  else if off = Reg.PWR_DOMREQ then some (.ok ((s.writeFields r off v).showTargets).askMigrate)
  else if off = Reg.TIM_TODH then some (.ok (s.writeFields r off v).setTod)
  else if off = Reg.TIM_CCUECTL then
    some (match s.ccueCtl (tbit v.toNat 31) (tbit v.toNat 30) with
      | none => .fail stBusy
      | some t => .ok t)
  else if off = Reg.EVC_SETPEND then some (.ok (s.evSet (field v.toNat 0 10) (field v.toNat 16 16)))
  else if 0x41000 ≤ off ∧ off < 0x42000 then some (.ok (s.writeEvcCfg ((off - 0x41000) / 4) v))
  else if 0x42000 ≤ off ∧ off < 0x43000 then some (.ok (if tbit v.toNat 31 then s.evW1c ((off - 0x42000) / 4) else s))
  else if off = Reg.IST_RETIRE then some (.ok (s.retireCore (field v.toNat 0 7)))
  else if off = Reg.PAI_CTRL then
    some (.ok (if !tbit v.toNat 0 && s.regBit Reg.PAI_CTRL 0 then s.holdCleared else s.writeFields r off v))
  else if off = Reg.FAB_CAKCTL then some (s.writeFabCak v)
  else if Reg.HST_CAKCTL 0 ≤ off ∧ off < Reg.HST_CAKCTL 4 ∧ off % 0x100 = 0x20 then some (s.writeHostCak i v item)
  else if off = Reg.LFT_CTRL then some (.ok (s.writeLftCtrl v))
  else if 0x200000 ≤ off ∧ off < 0x300000 ∧ off % 0x1000 = 4 then some (s.writeTntCtrl i v)
  else if Reg.ADM_RQBURST 0 ≤ off ∧ off < Reg.ADM_RQBURST 256 ∧ (off - Reg.ADM_RQBURST 0) % 16 = 0 then
    some (.ok ((if rangeOk off v.toNat then s.keepLevels i (field v.toNat 0 16) (s.regN (Reg.ADM_TKBURST i)) else s).writeFields r off v))
  else if Reg.ADM_TKBURST 0 ≤ off ∧ off < Reg.ADM_TKBURST 256 ∧ (off - Reg.ADM_TKBURST 0) % 16 = 0 then
    some (.ok ((s.keepLevels i (s.regField (Reg.ADM_RQBURST i) 0 16) v.toNat).writeFields r off v))
  else if off = Reg.SRV_VARGRAN then some (.ok (s.writeFields r off v).trimVariants)
  else none

/-- R15, R267, R481: a write of a register by management software. -/
def regWrite (s : State) (off : Nat) (v : Word32) (x : RegExt) (item : Option (Nat × Nat × Nat)) : RegAns :=
  if s.bootState = 6 && 0x10000 ≤ off then .fail stMalformed
  else match regAt off with
    | none => .fail stMalformed
    | some (r, i, _) =>
      if regReadOnly r off then .fail stMalformed
      else (s.regAct r i off v x item).getD (.ok (s.writeFields r off v))

/-- Write registers in increasing offset; the status and offset with which the item stops. -/
def regWrites (x : RegExt) (item : Nat × Nat × Nat) (off : Nat) : List Word32 → State → State × Option (Nat × Nat)
  | [], s => (s, none)
  | v :: vs, s => match s.regWrite off v x (some item) with
    | .fail st => (s, some (st, off))
    | .ok s1 => regWrites x item (off + 4) vs s1

/-- R267: offset and count of a register item's body, none where it is malformed. -/
def regBody (d : List Byte) : Option (Nat × Nat) :=
  let b := Desc.body d
  let off := fieldAt b 0 4
  let n := fieldAt b 4 2
  if off % 4 = 0 && inRange 1 1024 n && fieldAt b 6 2 == 0 then some (off, n) else none

end State

/-- R267: REG_READ. The values read go to the payload reference, or one value to `detail`. An access that R15 refuses stops it. -/
def regReadItem (s : State) (t q : Nat) (i : Item) : State :=
  match State.regBody i.desc with
  | none => s.finish t q i.seq { status := stMalformed }
  | some (off, n) =>
    let ref := fieldAt (i.payload.getD []) 0 8
    let room := fieldAt (i.payload.getD []) 8 4
    let far := Desc.hostPayload i.desc
    if (far && decide (room < 4 * n)) || (!far && (n != 1 || !(i.payload.getD []).isEmpty)) then s.finish t q i.seq { status := stMalformed }
    else
      let r := State.regReads off n s
      let bytes := r.1.flatMap (leBytes 4)
      let s1 := if far && !bytes.isEmpty then r.2.1.regionWrite t (refRegion ref) (refOff ref) bytes (.results t q i.seq) else r.2.1
      match r.2.2 with
      | some bad => s1.finish t q i.seq { status := stMalformed, detail := bad }
      | none => s1.finish t q i.seq { status := stOk, detail := if far then 0 else r.1.headD 0 }

/-- R267: REG_WRITE with its values inline. -/
def regWriteItem (s : State) (t q : Nat) (i : Item) (x : RegExt) : State :=
  match State.regBody i.desc with
  | none => s.finish t q i.seq { status := stMalformed }
  | some (off, n) =>
    let b := i.payload.getD []
    if Desc.hostPayload i.desc || b.length != 4 * n then s.finish t q i.seq { status := stMalformed }
    else
      let vs := (List.range n).map fun k => BitVec.ofNat 32 (fieldAt b (4 * k) 4)
      let r := State.regWrites x (t, q, i.seq) off vs s
      match r.2 with
      | some (st, bad) => r.1.finish t q i.seq { status := st, detail := bad }
      | none => r.1.finish t q i.seq { status := stOk }

/-- REG_READ (R267) on a queue of tenant 0. -/
def execRegRead (t q : Nat) (s : State) : Result := .next (s.runRow t q 0x40 fun s i => regReadItem s t q i)

/-- REG_WRITE (R267) on a queue of tenant 0. `x`: what the writes bring from outside. -/
def execRegWrite (t q : Nat) (x : RegExt) (s : State) : Result := .next (s.runRow t q 0x41 fun s i => regWriteItem s t q i x)

/-- REGISTER_WRITE (R11, R12): a write updates the fields of a register by access type, with the effects its description names. A
refused write changes nothing (R15). -/
def execRegisterWrite (off : Nat) (v : Word32) (x : RegExt) (s : State) : Result :=
  match s.regWrite off v x none with
  | .ok t => .next t
  | .fail _ => .next s

end Sys2Proof.Machine
end

