-- ==== Sys2Proof/Machine/Dispatch.lean ====
section
/-! DEFINITION. One arm per command: its meaning, or its refusal by name. -/

namespace Sys2Proof.Machine

def exec (i : Instr) (s : State) : Host.Outcome State Fault Refusal :=
  match i with
  | .instructionIssue l ext => Sys2Proof.Machine.execInstructionIssue l ext s
  | .instructionRetire core part eng => Sys2Proof.Machine.execInstructionRetire core part eng s
  | .ldT l => Sys2Proof.Machine.execLdT l s
  | .stT l => Sys2Proof.Machine.execStT l s
  | .stAt l => Sys2Proof.Machine.execStAt l s
  | .moveComplete core part k => Sys2Proof.Machine.execMoveComplete core part k s
  | .mxLds l => Sys2Proof.Machine.execMxLds l s
  | .mxSwap l => Sys2Proof.Machine.execMxSwap l s
  | .mxMac l => Sys2Proof.Machine.execMxMac l s
  | .sliceAccumulate core part => Sys2Proof.Machine.execSliceAccumulate core part s
  | .mxDrain l => Sys2Proof.Machine.execMxDrain l s
  | .drainEntryRead core part => Sys2Proof.Machine.execDrainEntryRead core part s
  | .tileQueuePush core part => Sys2Proof.Machine.execTileQueuePush core part s
  | .mxGhost l => Sys2Proof.Machine.execMxGhost l s
  | .ghostLightStart core part rows => Sys2Proof.Machine.execGhostLightStart core part rows s
  | .ghostLightEnd core part => Sys2Proof.Machine.execGhostLightEnd core part s
  | .vxLdv l => Sys2Proof.Machine.execVxLdv l s
  | .vxStv l => Sys2Proof.Machine.execVxStv l s
  | .vxAdd l => Sys2Proof.Machine.execVxAdd l s
  | .vxSub l => Sys2Proof.Machine.execVxSub l s
  | .vxMul l => Sys2Proof.Machine.execVxMul l s
  | .vxFma l => Sys2Proof.Machine.execVxFma l s
  | .vxMax l => Sys2Proof.Machine.execVxMax l s
  | .vxMin l => Sys2Proof.Machine.execVxMin l s
  | .vxAbs l => Sys2Proof.Machine.execVxAbs l s
  | .vxNeg l => Sys2Proof.Machine.execVxNeg l s
  | .vxDiv l => Sys2Proof.Machine.execVxDiv l s
  | .vxSqrt l => Sys2Proof.Machine.execVxSqrt l s
  | .vxRsqrt l => Sys2Proof.Machine.execVxRsqrt l s
  | .vxExp l => Sys2Proof.Machine.execVxExp l s
  | .vxLog l => Sys2Proof.Machine.execVxLog l s
  | .vxCmp l => Sys2Proof.Machine.execVxCmp l s
  | .vxSel l => Sys2Proof.Machine.execVxSel l s
  | .vxCvt l => Sys2Proof.Machine.execVxCvt l s
  | .vxRsum l => Sys2Proof.Machine.execVxRsum l s
  | .vxRmax l => Sys2Proof.Machine.execVxRmax l s
  | .vxRmin l => Sys2Proof.Machine.execVxRmin l s
  | .vxRarg l => Sys2Proof.Machine.execVxRarg l s
  | .vxRcnt l => Sys2Proof.Machine.execVxRcnt l s
  | .vxRdot l => Sys2Proof.Machine.execVxRdot l s
  | .vxEadd l => Sys2Proof.Machine.execVxEadd l s
  | .vxAdam l => Sys2Proof.Machine.execVxAdam l s
  | .vxTopk l => Sys2Proof.Machine.execVxTopk l s
  | .vxTopp l => Sys2Proof.Machine.execVxTopp l s
  | .vxGmax l => Sys2Proof.Machine.execVxGmax l s
  | .vxRnd l => Sys2Proof.Machine.execVxRnd l s
  | .tileQueuePop core part => Sys2Proof.Machine.execTileQueuePop core part s
  | .cpLi l w => Sys2Proof.Machine.execCpLi l w s
  | .cpLih l w => Sys2Proof.Machine.execCpLih l w s
  | .cpAdd l w => Sys2Proof.Machine.execCpAdd l w s
  | .cpSub l w => Sys2Proof.Machine.execCpSub l w s
  | .cpMul l w => Sys2Proof.Machine.execCpMul l w s
  | .cpAnd l w => Sys2Proof.Machine.execCpAnd l w s
  | .cpOr l w => Sys2Proof.Machine.execCpOr l w s
  | .cpXor l w => Sys2Proof.Machine.execCpXor l w s
  | .cpShl l w => Sys2Proof.Machine.execCpShl l w s
  | .cpShr l w => Sys2Proof.Machine.execCpShr l w s
  | .cpSra l w => Sys2Proof.Machine.execCpSra l w s
  | .cpCmp l w => Sys2Proof.Machine.execCpCmp l w s
  | .cpLd l w => Sys2Proof.Machine.execCpLd l w s
  | .cpSt l w => Sys2Proof.Machine.execCpSt l w s
  | .cpBr l w => Sys2Proof.Machine.execCpBr l w s
  | .cpJ l w => Sys2Proof.Machine.execCpJ l w s
  | .cpRss l w => Sys2Proof.Machine.execCpRss l w s
  | .cpScr l w => Sys2Proof.Machine.execCpScr l w s
  | .cpScw l w => Sys2Proof.Machine.execCpScw l w s
  | .cpGset l w => Sys2Proof.Machine.execCpGset l w s
  | .cpFork l w => Sys2Proof.Machine.execCpFork l w s
  | .cpEnd l w => Sys2Proof.Machine.execCpEnd l w s
  | .cpPark l w => Sys2Proof.Machine.execCpPark l w s
  | .cpQsh l w => Sys2Proof.Machine.execCpQsh l w s
  | .cpEvt l w => Sys2Proof.Machine.execCpEvt l w s
  | .cpNop l w => Sys2Proof.Machine.execCpNop l w s
  | .contextStop l eng cause word pc va => Sys2Proof.Machine.execContextStop l eng cause word pc va s
  | .partitionFault l cause word pc => Sys2Proof.Machine.execPartitionFault l cause word pc s
  | .parityError l word pc => Sys2Proof.Machine.execParityError l word pc s
  | .poisonConsumption l eng word pc => Sys2Proof.Machine.execPoisonConsumption l eng word pc s
  | .contextComplete core part => Sys2Proof.Machine.execContextComplete core part s
  | .dispatchEntry core sched d => Sys2Proof.Machine.execDispatchEntry core sched d s
  | .shapeChange core sched code => Sys2Proof.Machine.execShapeChange core sched code s
  | .saveRequest core sched part deadline addr => Sys2Proof.Machine.execSaveRequest core sched part deadline addr s
  | .contextSave core part => Sys2Proof.Machine.execContextSave core part s
  | .saveTimeout core part => Sys2Proof.Machine.execSaveTimeout core part s
  | .restore core sched addr tenant ctxid slot base => Sys2Proof.Machine.execRestore core sched addr tenant ctxid slot base s
  | .contextRelease core sched part => Sys2Proof.Machine.execContextRelease core sched part s
  | .partitionZeroed core part => Sys2Proof.Machine.execPartitionZeroed core part s
  | .nmvWorkItem unit item slot => Sys2Proof.Machine.execNmvWorkItem unit item slot s
  | .nmvComplete unit => Sys2Proof.Machine.execNmvComplete unit s
  | .translationChange tenant va shift entry => Sys2Proof.Machine.execTranslationChange tenant va shift entry s
  | .translationQuiesce tenant va => Sys2Proof.Machine.execTranslationQuiesce tenant va s
  | .granuleZeroing gran => Sys2Proof.Machine.execGranuleZeroing gran s
  | .mirrorRepair addr fixed => Sys2Proof.Machine.execMirrorRepair addr fixed s
  | .patrolScrub gran fixed bad => Sys2Proof.Machine.execPatrolScrub gran fixed bad s
  | .granuleRetirement gran => Sys2Proof.Machine.execGranuleRetirement gran s
  | .kvSpill slot pos group copy => Sys2Proof.Machine.execKvSpill slot pos group copy s
  | .kvSpillRetry slot => Sys2Proof.Machine.execKvSpillRetry slot s
  | .kvFetch slot pos group => Sys2Proof.Machine.execKvFetch slot pos group s
  | .kvHoldExpiry slot => Sys2Proof.Machine.execKvHoldExpiry slot s
  | .ttlExpiry slot => Sys2Proof.Machine.execTtlExpiry slot s
  | .lftStart => Sys2Proof.Machine.execLftStart s
  | .lftAbort => Sys2Proof.Machine.execLftAbort s
  | .loftInstallComplete backOk => Sys2Proof.Machine.execLoftInstallComplete backOk s
  | .loftVerification => Sys2Proof.Machine.execLoftVerification s
  | .loftScrub off fixed bad => Sys2Proof.Machine.execLoftScrub off fixed bad s
  | .send k msg => Sys2Proof.Machine.execSend k msg s
  | .connectionRequest k role service => Sys2Proof.Machine.execConnectionRequest k role service s
  | .cnp k => Sys2Proof.Machine.execCnp k s
  | .bind k msg => Sys2Proof.Machine.execBind k msg s
  | .generate t q => Sys2Proof.Machine.execGenerate t q s
  | .resume t q => Sys2Proof.Machine.execResume t q s
  | .pause t q => Sys2Proof.Machine.execPause t q s
  | .cancel t q => Sys2Proof.Machine.execCancel t q s
  | .trainStep t q fits => Sys2Proof.Machine.execTrainStep t q fits s
  | .modelLoad t q via => Sys2Proof.Machine.execModelLoad t q via s
  | .curtain t q via => Sys2Proof.Machine.execCurtain t q via s
  | .unload t q via => Sys2Proof.Machine.execUnload t q via s
  | .adapterLoad t q via => Sys2Proof.Machine.execAdapterLoad t q via s
  | .adapterRevoke t q via => Sys2Proof.Machine.execAdapterRevoke t q via s
  | .regionSet t q => Sys2Proof.Machine.execRegionSet t q s
  | .ringSet t q => Sys2Proof.Machine.execRingSet t q s
  | .faultlogSet t q => Sys2Proof.Machine.execFaultlogSet t q s
  | .resetDesc t q => Sys2Proof.Machine.execResetDesc t q s
  | .regRead t q => Sys2Proof.Machine.execRegRead t q s
  | .regWrite t q x => Sys2Proof.Machine.execRegWrite t q x s
  | .configurationImage t q => Sys2Proof.Machine.execConfigurationImage t q s
  | .delta t q => Sys2Proof.Machine.execDelta t q s
  | .firmwareImage t q => Sys2Proof.Machine.execFirmwareImage t q s
  | .firmwareWritten ok => Sys2Proof.Machine.execFirmwareWritten ok s
  | .registerWrite off v x => Sys2Proof.Machine.execRegisterWrite off v x s
  | .hostWriteAck k id ok => Sys2Proof.Machine.execHostWriteAck k id ok s
  | .completionWrite t q => Sys2Proof.Machine.execCompletionWrite t q s
  | .completionNotice t q => Sys2Proof.Machine.execCompletionNotice t q s
  | .tntCtrlReset t => Sys2Proof.Machine.execTntCtrlReset t s
  | .tenantResetComplete t => Sys2Proof.Machine.execTenantResetComplete t s
  | .hstCakLoad port => Sys2Proof.Machine.execHstCakLoad port s
  | .hstCakClear port => Sys2Proof.Machine.execHstCakClear port s
  | .bucketRefill => Sys2Proof.Machine.execBucketRefill s
  | .placementPass => Sys2Proof.Machine.execPlacementPass s
  | .overloadWindow waited quotas => Sys2Proof.Machine.execOverloadWindow waited quotas s
  | .stepFormation model epoch batch => Sys2Proof.Machine.execStepFormation model epoch batch s
  | .stepBoundary model rows preNs decNs => Sys2Proof.Machine.execStepBoundary model rows preNs decNs s
  | .deadlineExpiry slot => Sys2Proof.Machine.execDeadlineExpiry slot s
  | .variantSwapIn model => Sys2Proof.Machine.execVariantSwapIn model s
  | .variantEvict model => Sys2Proof.Machine.execVariantEvict model s
  | .epochFree module model epoch => Sys2Proof.Machine.execEpochFree module model epoch s
  | .curtainDequeue => Sys2Proof.Machine.execCurtainDequeue s
  | .curtainManifest bytes release adapter tenant members desc => Sys2Proof.Machine.execCurtainManifest bytes release adapter tenant members desc s
  | .announce num => Sys2Proof.Machine.execAnnounce num s
  | .seal num => Sys2Proof.Machine.execSeal num s
  | .chunkTimeout num piece chunk => Sys2Proof.Machine.execChunkTimeout num piece chunk s
  | .pieceVerify num piece digest => Sys2Proof.Machine.execPieceVerify num piece digest s
  | .verify num => Sys2Proof.Machine.execVerify num s
  | .commit num mask => Sys2Proof.Machine.execCommit num mask s
  | .release num => Sys2Proof.Machine.execRelease num s
  | .curtainAbort num time => Sys2Proof.Machine.execCurtainAbort num time s
  | .revoke model adapter version time => Sys2Proof.Machine.execRevoke model adapter version time s
  | .maskResend num member mask => Sys2Proof.Machine.execMaskResend num member mask s
  | .stageManagerRecovery num masks fenced => Sys2Proof.Machine.execStageManagerRecovery num masks fenced s
  | .pipeline job tenant model t0 addr desc tbl table parts => Sys2Proof.Machine.execPipeline job tenant model t0 addr desc tbl table parts s
  | .gather job => Sys2Proof.Machine.execGather job s
  | .fwd job att => Sys2Proof.Machine.execFwd job att s
  | .bwd job => Sys2Proof.Machine.execBwd job s
  | .rscat job plans ready => Sys2Proof.Machine.execRscat job plans ready s
  | .updateEntry job => Sys2Proof.Machine.execUpdateEntry job s
  | .norm job plans ready tnext => Sys2Proof.Machine.execNorm job plans ready tnext s
  | .doneEntry job plans ready others => Sys2Proof.Machine.execDoneEntry job plans ready others s
  | .writeFrame a => Sys2Proof.Machine.execWriteFrame a s
  | .readFrame a => Sys2Proof.Machine.execReadFrame a s
  | .readResp a => Sys2Proof.Machine.execReadResp a s
  | .readTimeout rtag => Sys2Proof.Machine.execReadTimeout rtag s
  | .atomic a => Sys2Proof.Machine.execAtomic a s
  | .atomicResp a => Sys2Proof.Machine.execAtomicResp a s
  | .reject a => Sys2Proof.Machine.execReject a s
  | .ack a => Sys2Proof.Machine.execAck a s
  | .ackTimer src dst cls => Sys2Proof.Machine.execAckTimer src dst cls s
  | .retransmit src dst cls psn => Sys2Proof.Machine.execRetransmit src dst cls psn s
  | .pathHoldExpiry m p => Sys2Proof.Machine.execPathHoldExpiry m p s
  | .rateIncrease m => Sys2Proof.Machine.execRateIncrease m s
  | .chunkReq a raw => Sys2Proof.Machine.execChunkReq a raw s
  | .chunk a => Sys2Proof.Machine.execChunk a s
  | .probe a => Sys2Proof.Machine.execProbe a s
  | .probeReply a => Sys2Proof.Machine.execProbeReply a s
  | .lossTimeout m => Sys2Proof.Machine.execLossTimeout m s
  | .lossReport a => Sys2Proof.Machine.execLossReport a s
  | .unreachableTimeout m => Sys2Proof.Machine.execUnreachableTimeout m s
  | .takeover a => Sys2Proof.Machine.execTakeover a s
  | .takeoverAck a => Sys2Proof.Machine.execTakeoverAck a s
  | .takeoverRepeat member => Sys2Proof.Machine.execTakeoverRepeat member s
  | .resync a => Sys2Proof.Machine.execResync a s
  | .resyncAck a => Sys2Proof.Machine.execResyncAck a s
  | .neighbourSolicitation port addr => Sys2Proof.Machine.execNeighbourSolicitation port addr s
  | .fabCakLoad => Sys2Proof.Machine.execFabCakLoad s
  | .fabCakClear => Sys2Proof.Machine.execFabCakClear s
  | .signalDetected port => Sys2Proof.Machine.execSignalDetected port s
  | .lockAchieved port => Sys2Proof.Machine.execLockAchieved port s
  | .trainingTimeout port => Sys2Proof.Machine.execTrainingTimeout port s
  | .mkaPeerLive port => Sys2Proof.Machine.execMkaPeerLive port s
  | .securingTimeout port => Sys2Proof.Machine.execSecuringTimeout port s
  | .linkLoss port uncorr => Sys2Proof.Machine.execLinkLoss port uncorr s
  | .sakInstall port => Sys2Proof.Machine.execSakInstall port s
  | .slot role cid plan ready => Sys2Proof.Machine.execSlot role cid plan ready s
  | .collData a => Sys2Proof.Machine.execCollData a s
  | .aggUp a => Sys2Proof.Machine.execAggUp a s
  | .collReport a => Sys2Proof.Machine.execCollReport a s
  | .collMask a => Sys2Proof.Machine.execCollMask a s
  | .bypassReq a => Sys2Proof.Machine.execBypassReq a s
  | .collCopy a => Sys2Proof.Machine.execCollCopy a s
  | .withdraw a => Sys2Proof.Machine.execWithdraw a s
  | .collRepairReq a => Sys2Proof.Machine.execCollRepairReq a s
  | .query a => Sys2Proof.Machine.execQuery a s
  | .collStepDeadline role cid step => Sys2Proof.Machine.execCollStepDeadline role cid step s
  | .collReportClose role cid => Sys2Proof.Machine.execCollReportClose role cid s
  | .collDataDeadline role cid => Sys2Proof.Machine.execCollDataDeadline role cid s
  | .hello a mirs => Sys2Proof.Machine.execHello a mirs s
  | .helloTick => Sys2Proof.Machine.execHelloTick s
  | .beatTick => Sys2Proof.Machine.execBeatTick s
  | .heartbeatSilence => Sys2Proof.Machine.execHeartbeatSilence s
  | .failureDeclared h own plans missing => Sys2Proof.Machine.execFailureDeclared h own plans missing s
  | .mirrorData a => Sys2Proof.Machine.execMirrorData a s
  | .mirrorState a => Sys2Proof.Machine.execMirrorState a s
  | .mirrorRepairReq a => Sys2Proof.Machine.execMirrorRepairReq a s
  | .repairData a => Sys2Proof.Machine.execRepairData a s
  | .fence a => Sys2Proof.Machine.execFence a s
  | .mirrorCopy a => Sys2Proof.Machine.execMirrorCopy a s
  | .copyDone a => Sys2Proof.Machine.execCopyDone a s
  | .formtoExpiry => Sys2Proof.Machine.execFormtoExpiry s
  | .severtoExpiry h plans => Sys2Proof.Machine.execSevertoExpiry h plans s
  | .split time h => Sys2Proof.Machine.execSplit time h s
  | .holdClear => Sys2Proof.Machine.execHoldClear s
  | .pwrEnRise => Sys2Proof.Machine.execPwrEnRise s
  | .pwrEnFall => Sys2Proof.Machine.execPwrEnFall s
  | .inputVoltageStop cv => Sys2Proof.Machine.execInputVoltageStop cv s
  | .inputValid cv => Sys2Proof.Machine.execInputValid cv s
  | .resetN => Sys2Proof.Machine.execResetN s
  | .clockLoss cause pll => Sys2Proof.Machine.execClockLoss cause pll s
  | .pllFixedCount pll => Sys2Proof.Machine.execPllFixedCount pll s
  | .pllComparison pll count => Sys2Proof.Machine.execPllComparison pll count s
  | .fmStart => Sys2Proof.Machine.execFmStart s
  | .fmDone count => Sys2Proof.Machine.execFmDone count s
  | .hdoff mask => Sys2Proof.Machine.execHdoff mask s
  | .loftoff off => Sys2Proof.Machine.execLoftoff off s
  | .domainSwitched domain => Sys2Proof.Machine.execDomainSwitched domain s
  | .reefTighten cause => Sys2Proof.Machine.execReefTighten cause s
  | .reefRelax pin pvar => Sys2Proof.Machine.execReefRelax pin pvar s
  | .dividerStep half => Sys2Proof.Machine.execDividerStep half s
  | .idleRamp half => Sys2Proof.Machine.execIdleRamp half s
  | .temperatureRead temps cv avg peak sec => Sys2Proof.Machine.execTemperatureRead temps cv avg peak sec s
  | .sync src time macsec => Sys2Proof.Machine.execSync src time macsec s
  | .ppsPulse => Sys2Proof.Machine.execPpsPulse s
  | .sourceQualified src ptp => Sys2Proof.Machine.execSourceQualified src ptp s
  | .sourceLost src ref10 => Sys2Proof.Machine.execSourceLost src ref10 s
  | .holdoverExpiry => Sys2Proof.Machine.execHoldoverExpiry s
  | .timTod sec => Sys2Proof.Machine.execTimTod sec s
  | .timCcueArm => Sys2Proof.Machine.execTimCcueArm s
  | .timCcueCancel => Sys2Proof.Machine.execTimCcueCancel s
  | .configCue handle => Sys2Proof.Machine.execConfigCue handle s
  | .handover accepted => Sys2Proof.Machine.execHandover accepted s
  | .identity ok => Sys2Proof.Machine.execIdentity ok s
  | .configVerify img deltas => Sys2Proof.Machine.execConfigVerify img deltas s
  | .firmwareVerify active fallback mate => Sys2Proof.Machine.execFirmwareVerify active fallback mate s
  | .hbmTrained => Sys2Proof.Machine.execHbmTrained s
  | .admissionOpen => Sys2Proof.Machine.execAdmissionOpen s
  | .maintenanceReset => Sys2Proof.Machine.execMaintenanceReset s
  | .attStart => Sys2Proof.Machine.execAttStart s
  | .updArm mate => Sys2Proof.Machine.execUpdArm mate s
  | .updDiscard => Sys2Proof.Machine.execUpdDiscard s
  | .updFallback => Sys2Proof.Machine.execUpdFallback s
  | .updateConfirmed => Sys2Proof.Machine.execUpdateConfirmed s
  | .updateWindowExpiry => Sys2Proof.Machine.execUpdateWindowExpiry s
  | .logExport mark => Sys2Proof.Machine.execLogExport mark s
  | .auditFlush => Sys2Proof.Machine.execAuditFlush s
  | .eventArrival src data => Sys2Proof.Machine.execEventArrival src data s
  | .evcSetpend src data => Sys2Proof.Machine.execEvcSetpend src data s
  | .eventDelivery target => Sys2Proof.Machine.execEventDelivery target s
  | .eventAck target => Sys2Proof.Machine.execEventAck target s
  | .evcMaskEffect src => Sys2Proof.Machine.execEvcMaskEffect src s
  | .pend src arrival => Sys2Proof.Machine.execPend src arrival s
  | .akat core part result => Sys2Proof.Machine.execAkat core part result s
  | .vkat core part result => Sys2Proof.Machine.execVkat core part result s
  | .smarch core area result => Sys2Proof.Machine.execSmarch core area result s
  | .bmarch gran result => Sys2Proof.Machine.execBmarch gran result s
  | .hpat gran result => Sys2Proof.Machine.execHpat gran result s
  | .eye port widths => Sys2Proof.Machine.execEye port widths s
  | .coverageOverdue core => Sys2Proof.Machine.execCoverageOverdue core s
  | .istRetire core => Sys2Proof.Machine.execIstRetire core s
  | .coreRetirement core saves => Sys2Proof.Machine.execCoreRetirement core saves s
  | .beat a => Sys2Proof.Machine.execBeat a s
  | .pathProbeTimeout m p => Sys2Proof.Machine.execPathProbeTimeout m p s
  | .neighbourAdvertisement port addr hop => Sys2Proof.Machine.execNeighbourAdvertisement port addr hop s
  | .ref100Return => Sys2Proof.Machine.execRef100Return s
  | .timeBaseRetry count => Sys2Proof.Machine.execTimeBaseRetry count s
  | .hostRdmaRequest k => Sys2Proof.Machine.execHostRdmaRequest k s
  | .rdmaReadResponse k id resp => Sys2Proof.Machine.execRdmaReadResponse k id resp s
  | .hostLinkChange port link mka => Sys2Proof.Machine.execHostLinkChange port link mka s
  | .firmwareFault => Sys2Proof.Machine.execFirmwareFault s
  | .attestationDone => Sys2Proof.Machine.execAttestationDone s
  | .notReadyReport num member reason abortAt => Sys2Proof.Machine.execNotReadyReport num member reason abortAt s
  | .nonBexicaFrame port => Sys2Proof.Machine.execNonBexicaFrame port s

end Sys2Proof.Machine
end

