-- ==== Sys2Proof/Machine/Idle.lean ====
section
/-! DEFINITION. What happens while no command is given: a nanosecond of the module's clock passes and the cores go on with the
work that has started (log entry 8). -/

namespace Sys2Proof.Machine

/-- R72: the load in progress writes `k` more shadow rows. -/
def loadRows (n p : Nat) : Nat → State → State
  | 0, s => s
  | k + 1, s => loadRows n p k (s.ldsStep n p)

/-- R160: 64 more elements of the context's vector instruction in execution are complete. -/
def State.vecTick (s : State) (n p : Nat) : State :=
  match s.ctx n p with
  | none => s
  | some c => match c.fly with
    | none => s
    | some f => s.setCtx n p { c with fly := some f.advance }

/-- R70, R72: a partition in one ns: four cycles of its array and of its load path. -/
def State.partTick (s : State) (n p : Nat) : State := ((State.fillRows n p 4 s) |> loadRows n p 4).vecTick n p

/-- Every core goes on. -/
def State.coreTicks (s : State) : State := s.cores.foldl (fun s c => c.2.parts.foldl (fun s p => s.partTick c.1 p.1) s) s

/-- One ns of the module's clock. -/
def State.idleTick (s : State) : State := s.tick.coreTicks

end Sys2Proof.Machine
end

