-- ==== Sys2Proof/Machine/Step.lean ====
section
/-! DEFINITION. One step of the block: the command at the front of the queue runs on the state with the queue's rest; on
an empty queue a nanosecond of time passes. -/

namespace Sys2Proof.Machine

/-- On an empty queue, time passes: one ns of the module's clock, domain time with it, and the cores go on (log entry 8). -/
def idle (s : State) : State := s.idleTick

/-- Take the front command; exec it with the rest of the queue. -/
def step (s : State) : Host.Outcome State Fault Refusal :=
  match s.pending with
  | [] => .next (idle s)
  | c :: cs => exec c { s with pending := cs }

/-- Put the command that a word spells at the front of the queue. No row of the table has bits, so no word spells one
and the state is unchanged (log entry 1). -/
def State.withFetchWord (s : State) (nbits w : Nat) : State :=
  match decodeTableWord nbits w with
  | none => s
  | some c => { s with pending := c :: s.pending }

end Sys2Proof.Machine
end

