-- ==== Sys2Proof/Safety.lean ====
section
/-! DEFINITION. What every state of a run keeps: the canonical forms of the state's stores, the order of the cue sheet and
the chain of the audit log; and what it means that an outcome keeps it. -/

namespace Sys2Proof.Machine

/-- R14: the registers are listed by rising offset, and none is listed at its reset value. -/
def regsWfFrom : Nat → Tab Word32 → Bool
  | _, [] => true
  | lo, (j, v) :: rest => decide (lo ≤ j) && decide (v ≠ regReset j) && regsWfFrom (j + 1) rest

/-- Numbers in rising order. -/
def risingFrom : Nat → List Nat → Bool
  | _, [] => true
  | lo, j :: rest => decide (lo ≤ j) && risingFrom (j + 1) rest

/-- R473: the cue sheet lists its entries in the order in which they are taken. -/
def cueSorted : List Cue → Bool
  | [] => true
  | c :: rest => rest.all (fun d => c.before d) && cueSorted rest

/-- R501: every entry of the audit log, newest first, carries the digest of the entry before it. -/
def auditChain : List AuditEntry → Bool
  | [] => true
  | [_] => true
  | e :: d :: rest => decide (e.prev = sha3 (State.auditBytes d)) && auditChain (d :: rest)

/-- What the parts of a state keep. -/
structure InvOn (mem : Memory) (regs : Tab Word32) (poison : List Nat) (grans : Tab Word64) (cues : List Cue)
    (audit : List AuditEntry) : Prop where
  mem    : mem.wf = true
  regs   : regsWfFrom 0 regs = true
  poison : risingFrom 0 poison = true
  grans  : Tab.wf 0#64 grans = true
  cues   : cueSorted cues = true
  audit  : auditChain audit = true

/-- What every state of a run keeps: memory, register space, the poison marks and the granule table (R219) in canonical
form, the cue sheet in taking order (R473), the audit log one chain (R501). -/
def State.Inv (s : State) : Prop := InvOn s.mem s.regs s.poison s.grans s.time.cues s.boot.audit

/-- A step that goes on leaves a state that keeps the invariant. -/
def Kept : Result → Prop
  | .next t => t.Inv
  | _ => True

/-! ### When a core's commands take effect -/

/-- R168, R170, R171, R182: context `c` of a place may take control instruction `w` with opcode `op` now: a stream that issues and whose
turn it is, the checks at issue, the wait. -/
structure CpReady (s : State) (l : Loc) (w : IWord) (op : Nat) (c : Ctx) : Prop where
  ctx    : s.ctx l.core l.part = some c
  issues : mayIssue c l.stream = true
  turn   : itsTurn s l c = true
  engine : Iw.engine w = 4
  opcode : Iw.opcode w = op
  fields : issueOk (s.coreP l.core) l.stream w = true
  wait   : Iw.waitEn w = true → c.waitOk (Iw.waitCtr w) (Iw.wval w) = true

/-- R170, R171: the context as a control instruction finds it: its stream runs, the next one has its turn, the program counter is past
the instruction. -/
def Ctx.issued (c : Ctx) (stream : Nat) : Ctx := setPc (c.issues stream) stream ((c.stream stream).pc + 16#48)

/-- What a control instruction leaves where it changes its context alone: `f` is the change; the signal follows. -/
def cpLeaves (s : State) (l : Loc) (w : IWord) (c : Ctx) (f : Ctx → Ctx) : Result :=
  .next (s.setCtx l.core l.part ((f (c.issued l.stream)).signalOf w))

/-- R168: `q` is the head of a share of an engine of context `c`, its wait satisfied; the matrix engine of a stopped
partition starts nothing (R88). -/
structure HeadReady (s : State) (l : Loc) (eng op : Nat) (c : Ctx) (q : QEnt) : Prop where
  ctx  : s.ctx l.core l.part = some c
  runs : eng = 1 → (s.part l.core l.part).stopped = false
  head : c.ready l.stream eng op = some q

/-- R139: the vector engine of the core is idle, and the stream queue of `l` is the next in its order. -/
structure VecTurn (s : State) (l : Loc) : Prop where
  idle   : s.vecBusy l.core = false
  turn   : s.vecNext l.core = some (3 * l.part + l.stream)
  stream : l.stream < 3

/-- What a vector instruction of context `c` sees when it starts with `k` elements completed. -/
def vecEnv (s : State) (l : Loc) (c : Ctx) (w : IWord) (k : Nat) : VecEnv :=
  { s := s, n := l.core, p := l.part, part := s.part l.core l.part, ctx := c, w := w, k := k }

/-- R139, R140: what the start of a vector instruction leaves: it is in execution with the result `o`, the next search begins
behind its stream queue; a result with open values counts the free values on. -/
def vecLeaves (s : State) (l : Loc) (c : Ctx) (w : IWord) (pc : BitVec 48) (k : Nat) (o : VecOut) : Result :=
  .next ({ s.putCtx l.core l.part { c with fly := some { word := w, pc := pc, stream := l.stream, done := k, out := o } } with
    free := s.free + bit o.drew }.vecServed l.core (3 * l.part + l.stream))

/-- R139, R140, R191: a vector command with opcode `op` starts the instruction whose turn it is on the idle vector engine, the
head of a share or the suspended one of a restored context: it is in execution with the result that `sem` computes, and
nothing else changes. -/
def VxStarts (i : Loc → Instr) (op : Nat) (sem : VecEnv → Run VecOut) : Prop :=
  ∀ (s : State) (l : Loc) (c : Ctx), VecTurn s l →
    (∀ (q : QEnt) (o : VecOut), HeadReady s l 2 op c q → c.susp = none → sem (vecEnv s l (c.take l.stream 2) q.word 0) = .ok o →
      exec (i l) s = vecLeaves s l (c.take l.stream 2) q.word q.pc 0 o) ∧
    (∀ (x : Susp) (o : VecOut), s.ctx l.core l.part = some c → c.susp = some x → Iw.opcode x.word = op →
      sem (vecEnv s l { c with susp := none } x.word x.done) = .ok o →
      exec (i l) s = vecLeaves s l { c with susp := none } x.word 0#48 x.done o)

/-- R184: the fault record of a stop. -/
def stopRecord (s : State) (l : Loc) (eng cause : Nat) (w : IWord) (pc : BitVec 48) (va : Nat) : FaultRec :=
  { status := if cause = causeFormat then 0x09 else 0x0F, cause := cause, eng := eng, stream := l.stream, part := l.part
    shape := (s.core l.core).shape, word := w.setWidth 32, pc := pc, vaddr := BitVec.ofNat 48 va, time := s.now }

/-- R183, R264: what the stop of context `c` with record `r` leaves in `t`: the record, the streams that ran stopped, the
partition's matrix work ended; then the tenant and the item that the context works for are charged with the fault. -/
def StopsWith (s t : State) (l : Loc) (c : Ctx) (r : FaultRec) : Prop :=
  ∃ (u : State) (k : Ctx), t = u.itemFault c.tenant c.slot l.stream r.status r.bytes ∧ u.ctx l.core l.part = some k ∧ k.fault = some r ∧
    (∀ i, i < 3 → k.stream i = if (c.stream i).st = 0 ∨ (c.stream i).st = 4 then c.stream i else { c.stream i with st := 5 }) ∧
    (u.part l.core l.part).stopped = true ∧ (u.part l.core l.part).rows = [] ∧ (u.part l.core l.part).runs = [] ∧
    (u.part l.core l.part).drain = none ∧ u.mem = s.mem ∧ ∀ m, m ≠ l.core → u.core m = s.core m

/-- What a matrix command with opcode `op` leaves where its partition becomes `x`: the head is taken (R168). -/
def mxLeaves (s : State) (l : Loc) (c : Ctx) (x : Part) : Result :=
  .next ((s.setPart l.core l.part x).putCtx l.core l.part (c.take l.stream 1))

/-- R163 to R166: the head of a share is a move whose descriptor `b` may be carried out: room in the engine, the
descriptor read and in range, its stage range inside the allocation. -/
structure MoveReady (s : State) (l : Loc) (eng : Nat) (c : Ctx) (q : QEnt) (b : List Byte) : Prop where
  head  : HeadReady s l eng 1 c q
  room  : s.moveRoom l.core (c.take l.stream eng) eng = true
  desc  : s.stageRead l.core (c.take l.stream eng) (Iw.mvDesc q.word) 64 = .ok b
  range : moveDescOk b = true
  stage : (c.take l.stream eng).inStage (Iw.mvAddr q.word) (MoveDesc.parse b).span = true

/-- R163, R164: the pieces of the move that the head of a share names. -/
def moveOf (s : State) (eng : Nat) (c : Ctx) (q : QEnt) (b : List Byte) : List (Nat × Sum Seg Nat) :=
  s.moveSegs c.tenant (eng == 3) (MoveDesc.parse b) ((c.reg (Iw.mvReg q.word)).toNat % 2 ^ 48) (Iw.mvAddr q.word)

/-- R385, R386, R397: no piece lies in a module that cannot be reached. -/
def reachable (s : State) (gs : List (Nat × Seg)) : Prop := ∀ g ∈ gs, g.2.kind = 1 → s.peerFails (g.2.addr / 2 ^ 44) = false

/-- What a move that starts leaves: its pieces under way, the move among the context's. -/
def moveLeaves (r : List Await × State) (l : Loc) (eng : Nat) (c : Ctx) (q : QEnt) (gs : List (Nat × Seg)) : Result :=
  .next (r.2.putCtx l.core l.part { c.take l.stream eng with
    moves := c.moves ++ [{ eng := eng, word := q.word, pc := q.pc, stream := l.stream, segs := gs.map Prod.snd, awaits := r.1, isAtom := false }] })

/-- R177, R224: the head of stream's share on the store engine is an atomic on the aligned local address `a` that may be carried
out: room, stage space, no repair under way, no mark. -/
structure AtomReady (s : State) (l : Loc) (c : Ctx) (q : QEnt) (n a : Nat) : Prop where
  head   : HeadReady s l 3 2 c q
  room   : s.moveRoom l.core (c.take l.stream 3) 3 = true
  width  : n = if Iw.atWide q.word then 8 else 4
  align  : (c.reg (Iw.mvReg q.word)).toNat % 2 ^ 48 % n = 0
  stage  : (c.take l.stream 3).inStage (Iw.atAddr q.word) n = true
  place  : s.translate c.tenant ((c.reg (Iw.mvReg q.word)).toNat % 2 ^ 48) true = some (.here a)
  repair : s.repairHolds a n = false
  marks  : s.poisonedIn a n = false

/-- R245, R246: a packet of a host that its port takes: link and port up, protected where MACsec is on, no congestion mark. -/
structure PktTaken (s : State) (k : HostPkt) : Prop where
  port   : k.port < 4
  link   : s.host.links.elem k.port = true
  up     : s.portUp k.port = true
  macsec : s.regBit (Reg.HST_PST k.port) 30 = true → k.macsec = true
  ce     : k.ce = false

/-- R266: the item of a row that may start on a queue once the queue's head message is parsed. -/
def startableItem (s : State) (t q row : Nat) : Option Item := State.startable t row [] ((s.takeRow t q row).hq t q).items

/-- R266: the state in which a descriptor's command starts item `i` of its row. -/
def itemStarts (s : State) (t q row : Nat) (i : Item) : State :=
  (s.takeRow t q row).updItem t q i.seq fun x => { x with started := true }

/-- R256, R266: a descriptor's command of row `row` on a queue starts the first item of the row that may start, after it has
parsed the head message if that belongs to the row; `k` is what starting an item does. Without such an item nothing starts. -/
def DescRuns (c : Nat → Nat → Instr) (row : Nat) (k : Nat → Nat → State → Item → State) : Prop :=
  ∀ (s : State) (t q : Nat),
    (∀ i, startableItem s t q row = some i →
      exec (c t q) s = .next (k t q (itemStarts s t q row i) i)) ∧
    (startableItem s t q row = none → exec (c t q) s = .next (s.takeRow t q row))

/-! ### When a frame takes effect -/

/-- R393, R403: what every arrival on a port that is up counts: the frame and its codewords. -/
def arrived (s : State) (a : Arrival) : State :=
  ((s.bump (Reg.FAB_PRX a.port) 1).bump (Reg.FAB_PCORR a.port) a.corr).bump (Reg.FAB_PUNCORR a.port) a.uncorr

/-- R375, R380, R400: frame `f` arrives on a port that is up, with MACsec, from a peer, well formed. -/
structure GoodFrame (s : State) (a : Arrival) (f : Frame) : Prop where
  port   : a.port < 32
  parse  : Frame.parse a.bytes = f
  link   : s.linkState a.port = 4
  macsec : a.macsec = true
  peer   : (arrived s a).stranger a f = false
  form   : malformed (arrived s a).payLimit a.bytes = false

/-- R394, R397, R433: what every valid frame does: it is counted, its sender is heard, and a frame of the partner on a pair port
counts as a heartbeat. -/
def heard (s : State) (a : Arrival) (f : Frame) : State :=
  let s0 := arrived s a
  let s1 := (if a.ce then s0.bump Reg.FAB_ECNRX 1 else s0).peerHeard f.src
  if s1.isPairPort a.port && decide (6 ≤ f.cls) && f.src == s1.partner then s1.heartbeat else s1

/-- R383, R427: what the row of a sequenced type does with a valid frame: it reaches its flow; a module that it fenced resets. -/
def seqEffect (s : State) (a : Arrival) (f : Frame) (raw : Option (List Byte)) : State :=
  let t := (heard s a f).takeFrame a f raw
  if t.pairState = 7 then t.fenceReset else t

/-- Command `c` is the row of sequenced type `type` with subtype `sub` at its place: it applies the valid frames of its row. -/
def SeqRow (c : Arrival → Instr) (type : Nat) (sub : Option (Nat × Nat)) : Prop :=
  ∀ (s : State) (a : Arrival) (f : Frame), GoodFrame s a f → f.type = type → (∀ x, sub = some x → fieldAt f.area x.1 1 = x.2) →
    exec (c a) s = .next (seqEffect s a f none)

/-- Command `c` is the row of unsequenced type `type` with subtype `sub` at its place, with effect `k`. -/
def PlainRow (c : Arrival → Instr) (type : Nat) (sub : Option (Nat × Nat)) (k : Arrival → State → Frame → State) : Prop :=
  ∀ (s : State) (a : Arrival) (f : Frame), GoodFrame s a f → f.type = type → (∀ x, sub = some x → fieldAt f.area x.1 1 = x.2) →
    exec (c a) s = .next (k a (heard s a f) f)

/-- R383: frame `f` is the next one of its flow, nothing of the flow is held, and the frame does not fill the ACK window. -/
structure InOrder (s : State) (a : Arrival) (f : Frame) : Prop where
  good  : GoodFrame s a f
  epoch : f.fepoch = ((heard s a f).inFlow (flowKey f.src f.dst f.cls)).fepoch
  psn   : f.psn = ((heard s a f).inFlow (flowKey f.src f.dst f.cls)).expect
  first : ((heard s a f).inFlow (flowKey f.src f.dst f.cls)).held = []
  mir   : ((heard s a f).inFlow (flowKey f.src f.dst f.cls)).mir = none
  state : (heard s a f).pairState ≠ 7

end Sys2Proof.Machine
end

