-- ==== Sys2Proof/Certificates/Slice0/Obligations.lean ====
section
/-! DEFINITION. The statements about the block, for the provers. -/

open Sys2Proof Sys2Proof.Machine

/-- O1. For every state with a command c at the front of its queue, step is exec of c on the state with the queue's rest.
On an empty queue a step answers a next state in which a nanosecond of the module's own clock has passed and the queue
is still empty; that an empty queue lets a nanosecond pass is the model's choice (log entry 8). -/
def Obligations.StepRunsTheFrontCommand : Prop :=
  (∀ (s : State) (c : Instr) (cs : List Instr), s.pending = c :: cs → step s = exec c { s with pending := cs }) ∧
  (∀ s : State, s.pending = [] → ∃ t, step s = .next t ∧ t.clk = s.clk + 1 ∧ t.pending = [])

/-- O2. State.reset keeps the invariant: memory, register space, the poison marks and the granule table in canonical form,
the cue sheet in taking order, the audit log one chain. -/
def Obligations.ResetKeepsCanonicalForms : Prop :=
 State.Inv State.reset

/-- O3. For every state s that keeps the invariant, if a step from s answers a next state, that state keeps it too: memory
and register space list rising addresses and no entry at its reset value, the poison marks rise, the granule table is
canonical, the cue sheet is in the order in which entries are taken, and every audit entry carries the digest of the
entry before it. -/
def Obligations.EveryStepKeepsCanonicalForms : Prop :=
  ∀ s t : State, s.Inv → step s = .next t → t.Inv

/-- O4. No command is refused in any state. A command faults only if it is INPUT_VOLTAGE_STOP with more than 6,000
centivolts, and that command faults in every state (R452: above 60 V the module may be damaged). -/
def Obligations.OnlyOverVoltageStops : Prop :=
  (∀ (c : Instr) (s : State) (r : Refusal), exec c s ≠ .refused r) ∧
  (∀ (c : Instr) (s : State) (f : Fault), exec c s = .fault f → ∃ cv, 6000 < cv ∧ c = .inputVoltageStop cv) ∧
  (∀ (cv : Nat) (s : State), 6000 < cv → exec (.inputVoltageStop cv) s = .fault .damaged)

/-- O5. A control instruction that may issue now completes: the stream runs on past it, register d gets the result, its
counter is signalled, and nothing else changes. CP_LI: IMM. CP_LIH: bits [63:48] from IMM[15:0]. CP_ADD, CP_SUB,
CP_MUL, CP_AND, CP_OR, CP_XOR: of Ga and y = Gb + IMM. CP_SHL, CP_SHR, CP_SRA: Ga by y mod 64. CP_CMP: 1 if the
condition F holds of Ga and y, else 0. A write of G0 is ignored. -/
def Obligations.ControlArithmetic : Prop :=
  ∀ (s : State) (l : Loc) (w : IWord) (c : Ctx),
    let x := c.reg (Iw.ca w)
    let y := c.reg (Iw.cb w) + Iw.imm w
    let sets := fun (v : Word64) => cpLeaves s l w c fun k => k.setReg (Iw.cd w) v
    (CpReady s l w 0x01 c → exec (.cpLi l w) s = sets (Iw.imm w)) ∧
    (CpReady s l w 0x02 c → exec (.cpLih l w) s =
      sets (BitVec.ofNat 64 (putField (c.reg (Iw.cd w)).toNat 48 16 (Iw.immU w 0 16)))) ∧
    (CpReady s l w 0x03 c → exec (.cpAdd l w) s = sets (x + y)) ∧
    (CpReady s l w 0x04 c → exec (.cpSub l w) s = sets (x - y)) ∧
    (CpReady s l w 0x05 c → exec (.cpMul l w) s = sets (x * y)) ∧
    (CpReady s l w 0x06 c → exec (.cpAnd l w) s = sets (x &&& y)) ∧
    (CpReady s l w 0x07 c → exec (.cpOr l w) s = sets (x ||| y)) ∧
    (CpReady s l w 0x08 c → exec (.cpXor l w) s = sets (x ^^^ y)) ∧
    (CpReady s l w 0x09 c → exec (.cpShl l w) s = sets (x <<< (y.toNat % 64))) ∧
    (CpReady s l w 0x0A c → exec (.cpShr l w) s = sets (x >>> (y.toNat % 64))) ∧
    (CpReady s l w 0x0B c → exec (.cpSra l w) s = sets (x.sshiftRight (y.toNat % 64))) ∧
    (CpReady s l w 0x0C c → exec (.cpCmp l w) s = sets (if condHolds (Iw.cf w) x y then 1#64 else 0#64))

/-- O6. A control instruction that may issue now completes. CP_BR: where the condition holds the stream goes on at its own
address plus 16 IMM, else at the next. CP_J: at its own address plus 16 IMM (F = 0) or at Ga plus 16 IMM, where that
is a multiple of 16, and d gets the address of the next instruction. CP_FORK: an idle or ended stream runs from there.
CP_END: the stream has ended. CP_PARK: no effect without a save pending; with one, the stream parks once its earlier
instructions have retired. CP_QSH: three shares of at least 2 that sum to 96 / P are taken over, at once where every
queue is empty. CP_EVT: the core's program event, and with bit 15 of the code the tenant's notice. CP_NOP: nothing but
the next address. CP_RSS: d gets word IMM[2:0] of summary slot IMM[5:3], and with IMM[6] the slot's FLAGS become zero.
CP_SCR: d gets counter IMM[5:0]. CP_SCW: the counter gets Ga[15:0]. CP_GSET: generator IMM[1:0] gets the seed Ga and
the stream Gb[31:0]. In the last four nothing else changes but the stream and the signal. -/
def Obligations.ControlTransferAndRegisters : Prop :=
  (∀ (s : State) (l : Loc) (w : IWord) (c : Ctx),
      let here := (c.stream l.stream).pc
      let to_ := fun (a : BitVec 48) => cpLeaves s l w c fun k => setPc k l.stream a
      (CpReady s l w 0x20 c → exec (.cpBr l w) s =
        (if condHolds (Iw.cf w) (c.reg (Iw.ca w)) (c.reg (Iw.cb w)) then to_ (here + disp w) else cpLeaves s l w c id)) ∧
      (∀ a : BitVec 48, CpReady s l w 0x21 c →
        a = (if Iw.cf w = 0 then here + disp w else (c.reg (Iw.ca w)).setWidth 48 + disp w) → a.toNat % 16 = 0 →
        exec (.cpJ l w) s = cpLeaves s l w c fun k => setPc (k.setReg (Iw.cd w) ((here + 16#48).setWidth 64)) l.stream a) ∧
      (CpReady s l w 0x40 c → ((c.stream (Iw.cf w)).st = 0 ∨ (c.stream (Iw.cf w)).st = 4) →
        exec (.cpFork l w) s = cpLeaves s l w c fun k =>
          k.setStream (Iw.cf w) { c.stream (Iw.cf w) with st := 1, pc := here + disp w }) ∧
      (CpReady s l w 0x41 c → exec (.cpEnd l w) s = cpLeaves s l w c fun k =>
        k.setStream l.stream { c.stream l.stream with st := 4, pc := here + 16#48 }) ∧
      (CpReady s l w 0x42 c → c.save = none → exec (.cpPark l w) s = cpLeaves s l w c id) ∧
      (CpReady s l w 0x42 c → c.save ≠ none → streamDrained (s.part l.core l.part) c l.stream = true →
        exec (.cpPark l w) s = cpLeaves s l w c fun k =>
          k.setStream l.stream { c.stream l.stream with st := 3, pc := here + 16#48 }) ∧
      (∀ a b d : Nat, CpReady s l w 0x43 c → a = field (c.reg (Iw.ca w)).toNat 0 8 → b = field (c.reg (Iw.ca w)).toNat 8 8 →
        d = field (c.reg (Iw.ca w)).toNat 16 8 → 2 ≤ a → 2 ≤ b → 2 ≤ d → a + b + d = 96 / s.coreP l.core →
        exec (.cpQsh l w) s = cpLeaves s l w c fun k =>
          if c.queuesEmpty then
            ((k.setStream 0 { k.stream 0 with share := a }).setStream 1 { k.stream 1 with share := b }).setStream 2
              { k.stream 2 with share := d }
          else { k with qsh := some (a, b, d) }) ∧
      (∀ code : Nat, CpReady s l w 0x44 c → code = Iw.immU w 0 16 → exec (.cpEvt l w) s =
        cpLeaves (if tbit code 15 then (s.raise l.core code).raise (512 + c.tenant) (code % 2 ^ 15) else s.raise l.core code) l w c id) ∧
      (CpReady s l w 0x45 c → exec (.cpNop l w) s = cpLeaves s l w c id)) ∧
  (∀ (s : State) (l : Loc) (w : IWord) (c : Ctx),
      (CpReady s l w 0x30 c → exec (.cpRss l w) s = cpLeaves s l w c fun k =>
        let x := c.summary (Iw.immU w 3 3)
        let k1 := k.setReg (Iw.cd w) ((x.word (Iw.immU w 0 3)).setWidth 64)
        if Iw.immU w 6 1 = 1 then k1.setSummary (Iw.immU w 3 3) { x with flags := 0#32 } else k1) ∧
      (CpReady s l w 0x31 c → exec (.cpScr l w) s = cpLeaves s l w c fun k =>
        k.setReg (Iw.cd w) ((c.count (Iw.immU w 0 6)).setWidth 64)) ∧
      (CpReady s l w 0x32 c → exec (.cpScw l w) s = cpLeaves s l w c fun k =>
        k.setCount (Iw.immU w 0 6) ((c.reg (Iw.ca w)).setWidth 16)) ∧
      (CpReady s l w 0x33 c → exec (.cpGset l w) s = cpLeaves s l w c fun k =>
        k.setGen (Iw.immU w 0 2) { seed := c.reg (Iw.ca w), stream := (c.reg (Iw.cb w)).setWidth 32 }))

/-- O7. With the stage address Ga + IMM a multiple of 8 and its eight bytes inside the allocation: CP_LD, where no byte is
marked, completes with the little-endian value of the eight bytes in d and no byte of memory changed. CP_ST completes:
the eight bytes hold Gb, every other byte of memory reads as before, no register of register space changes, and the
context changes as by any control instruction. -/
def Obligations.ControlLoadStore : Prop :=
  ∀ (s : State) (l : Loc) (w : IWord) (c : Ctx) (a : Nat), a = (c.reg (Iw.ca w) + Iw.imm w).toNat → a % 8 = 0 → a + 8 ≤ c.len →
    (CpReady s l w 0x10 c → s.poisonedIn (c.stageAt l.core a) 8 = false → exec (.cpLd l w) s = cpLeaves s l w c fun k =>
      k.setReg (Iw.cd w) (BitVec.ofNat 64 (s.readLe (c.stageAt l.core a) 8))) ∧
    (CpReady s l w 0x11 c → ∃ t, exec (.cpSt l w) s = .next t ∧
      t.readN (c.stageAt l.core a) 8 = leBytes 8 (c.reg (Iw.cb w)).toNat ∧
      (∀ b, b < c.stageAt l.core a ∨ c.stageAt l.core a + 8 ≤ b → t.read8 b = s.read8 b) ∧
      t.regs = s.regs ∧ t.ctx l.core l.part = some ((c.issued l.stream).signalOf w))

/-- O8. INSTRUCTION_ISSUE completes for a resident context's stream that may issue, whose turn it is and whose fetch
answers the word w. Where w is for an engine, passes the checks at issue, names allowed formats and finds an entry
free in its share: w stands last in the share, the stream runs and stands 16 bytes further, the next stream has its
turn; only the cores' state changes. Where the share is full: the stream waits, and nothing else changes. Where w is a
control instruction that can issue: the answer is that of the control command of its opcode on w, for each of the 26.
INSTRUCTION_RETIRE and MOVE_COMPLETE complete for a context that has not stopped and awaits no change of shares. On
the matrix engine, where the first instruction of the partition is complete: it leaves the list, and its counter is
signalled where it signals; where the partition has no other instruction and its drain, which does not signal, has
delivered everything: the drain ends, and one to stage memory ORs its status into SS7. On the vector engine, for an
instruction without summary, status or signal whose tile, if it read one, has been popped: the registers that it names
hold its values, its stage bytes are in memory, it is no longer in execution, register space and the granule table are
as before. MOVE_COMPLETE on a move that waits for nothing: the move leaves the context's list and its counter is
signalled where it signals; nothing else changes. -/
def Obligations.IssueAndRetirement : Prop :=
  (∀ (s : State) (l : Loc) (ext : FetchExt) (w : IWord) (c : Ctx), s.ctx l.core l.part = some c → mayIssue c l.stream = true →
    itsTurn s l c = true → fetch s c l.stream (some ext) = .ok w →
      (Iw.engine w < 4 → issueOk (s.coreP l.core) l.stream w = true → fmtsAllowed (s.fmtMask c.tenant) w = true →
        (c.queue l.stream (Iw.engine w)).length < (c.stream l.stream).share → ∃ t k, exec (.instructionIssue l ext) s = .next t ∧
          t = { s with cores := t.cores } ∧ t.ctx l.core l.part = some k ∧
          k.queue l.stream (Iw.engine w) = c.queue l.stream (Iw.engine w) ++ [{ word := w, pc := (c.stream l.stream).pc }] ∧
          k.stream l.stream = { c.stream l.stream with st := 1, pc := (c.stream l.stream).pc + 16#48 } ∧ k.turn = (l.stream + 1) % 3) ∧
      (Iw.engine w < 4 → (c.stream l.stream).share ≤ (c.queue l.stream (Iw.engine w)).length →
        exec (.instructionIssue l ext) s = .next (s.setCtx l.core l.part (c.setStream l.stream { c.stream l.stream with st := 2 }))) ∧
      (Iw.engine w = 4 → wordIssues s l c w = true → ∀ x ∈ [(0x01, Instr.cpLi), (0x02, Instr.cpLih), (0x03, Instr.cpAdd), (0x04, Instr.cpSub),
          (0x05, Instr.cpMul), (0x06, Instr.cpAnd), (0x07, Instr.cpOr), (0x08, Instr.cpXor), (0x09, Instr.cpShl), (0x0A, Instr.cpShr),
          (0x0B, Instr.cpSra), (0x0C, Instr.cpCmp), (0x10, Instr.cpLd), (0x11, Instr.cpSt), (0x20, Instr.cpBr), (0x21, Instr.cpJ),
          (0x30, Instr.cpRss), (0x31, Instr.cpScr), (0x32, Instr.cpScw), (0x33, Instr.cpGset), (0x40, Instr.cpFork), (0x41, Instr.cpEnd),
          (0x42, Instr.cpPark), (0x43, Instr.cpQsh), (0x44, Instr.cpEvt), (0x45, Instr.cpNop)],
        Iw.opcode w = x.1 → exec (.instructionIssue l ext) s = exec (x.2 l w) s)) ∧
  (∀ (s : State) (n p : Nat) (c : Ctx) (r : MxRun) (rs : List MxRun), s.ctx n p = some c → c.fault = none → c.qsh = none →
    (s.part n p).runs = r :: rs → r.done = true → exec (.instructionRetire n p 1) s =
      .next (s.setPart n p { s.part n p with
        runs := rs, ctx := some (if Iw.sigEn r.word then c.setCount (Iw.sigCtr r.word) (c.count (Iw.sigCtr r.word) + 1#16) else c) })) ∧
  (∀ (s : State) (n p : Nat) (c : Ctx) (d : Drain), s.ctx n p = some c → c.fault = none → c.qsh = none → (s.part n p).runs = [] →
    (s.part n p).drain = some d → d.next = Iw.drCount d.word → d.tile = [] → d.erf = [] → Iw.sigEn d.word = false →
    exec (.instructionRetire n p 1) s = .next (s.setPart n p { s.part n p with
      drain := none, ctx := some (if Iw.drQueue d.word then c else c.orSS7 d.status) })) ∧
  (∀ (s : State) (n p : Nat) (c : Ctx) (f : VecFly), s.ctx n p = some c → c.fault = none → c.qsh = none → c.fly = some f →
    (f.out.pop = true → f.popped = true) → Iw.sumEn f.word = false → f.out.tsw = 0 → Iw.sigEn f.word = false →
    ∃ t k, exec (.instructionRetire n p 2) s = .next t ∧ t.ctx n p = some k ∧ k.fly = none ∧
      k = f.out.regs.foldl (fun k x => k.setVreg x.1 { tag := x.2.tag, elems := x.2.elems }) { c with fly := none } ∧
      t.mem = ((f.stageBytes (Iw.n f.word)).foldl (fun s x => s.writeBytes (c.stageAt n x.1) x.2) s).mem ∧ t.regs = s.regs ∧ t.grans = s.grans) ∧
  (∀ (s : State) (n p k : Nat) (c : Ctx) (m : Move), s.ctx n p = some c → c.fault = none → c.qsh = none → c.moves[k]? = some m → m.awaits = [] →
    exec (.moveComplete n p k) s = .next (s.setCtx n p
      (if Iw.sigEn m.word then { c with moves := c.moves.take k ++ c.moves.drop (k + 1) }.setCount (Iw.sigCtr m.word) (c.count (Iw.sigCtr m.word) + 1#16)
        else { c with moves := c.moves.take k ++ c.moves.drop (k + 1) })))

/-- O9. Each of these commands completes. With the instruction at the head of its share: MX_LDS, with no load in progress
and its rows inside the allocation, stands as a load of 64 rows, the shadow set holding its format, sign, group size
and rows. MX_SWAP, with no load unretired and no row left to issue, exchanges active and shadow. MX_MAC, with no
stream that has rows left, a plan, tiles that accept it and its rows inside the allocation, opens its tiles (in
program order behind a drain), stands as a stream of M rows, ends the gap and issues its first row. MX_DRAIN, with no
drain, tiles that it accepts (of one anchor for ERF) and room at its stage address, stands as the drain and has read
no entry; what is under way comes before it. MX_GHOST records the predicted gap. The issue of a row that can be read
puts the row behind those in flight and its stream one row further. SLICE_ACCUMULATE, after the issue of rows while
fewer than 16 are in flight: the oldest row, unless it waits for the drain, reaches its entry and leaves.
DRAIN_ENTRY_READ, for an entry that no earlier row is owed to: a drain to stage memory in FP32 or INT32 writes the
entry's words at their place and goes on by one; in ERF register space and granule table stay; a drain to the queue
adds the words to a tile that is not full. TILE_QUEUE_PUSH puts a full tile behind fewer than 8. TILE_QUEUE_POP takes
the first tile from the queue, once, for the instruction that reads it. GHOST_LIGHT_START in a gap within its horizon,
not 0, at reef level 0 to 5, with no prediction as long, no row to issue and none begun or ended in this gap, runs at
the duty of the rows. GHOST_LIGHT_END stops running ones where a row is ready or the horizon has passed. -/
def Obligations.MatrixStartsAndProgress : Prop :=
  (∀ (s : State) (l : Loc) (c : Ctx) (q : QEnt),
      let p := s.part l.core l.part
      let k := c.take l.stream 1
      let w := q.word
      (HeadReady s l 1 1 c q → p.runs.any MxRun.loading = false → ldsRoom k w = .ok () → exec (.mxLds l) s = mxLeaves s l c { p with
        shadow := { p.shadow with held := some { fmt := Iw.ldsFmt w, signed := Iw.ldsSigned w, g := Iw.ldsG w, rows := Iw.ldsRows w } }
        runs := p.runs ++ [{ word := w, pc := q.pc, stream := l.stream, rows := 64, done := false }] }) ∧
      (HeadReady s l 1 2 c q → (∀ r ∈ p.runs, Iw.opcode r.word ≠ 1 ∧ r.issuing = false) →
        exec (.mxSwap l) s = mxLeaves s l c { p with active := p.shadow, shadow := p.active, runs := p.runs ++ [doneRun q l.stream] }) ∧
      (∀ pl, HeadReady s l 1 3 c q → p.streaming = false → macPlan p w = .ok pl →
        (∀ i ∈ rangeWords (Iw.macExact w) (Iw.macE0 w) (Iw.macM w), tileTakes w (p.tracked i) = true) → macRoom k w pl.g = .ok () →
        ∃ u, mxLeaves s l c { (rangeWords (Iw.macExact w) (Iw.macE0 w) (Iw.macM w)).foldl (fun p i => p.track i (openTile w (p.tracked i))) p with
            runs := p.runs ++ [{ word := w, pc := q.pc, stream := l.stream, rows := Iw.macM w, done := false, late := p.drain.isSome }]
            ghost := { p.ghost with running := false, spent := false, gap := none, pred := none, fmt := Iw.macFmt w } } = .next u ∧
          exec (.mxMac l) s = .next (u.issueRow l.core l.part)) ∧
      (HeadReady s l 1 4 c q → p.drain = none →
        (∀ i ∈ rangeWords (Iw.drExact w) (Iw.drBase w) (Iw.drCount w), drainTakes w (p.word i) = true) →
        (Iw.drFmt w = 0xC → drainAnchor ((rangeWords (Iw.drExact w) (Iw.drBase w) (Iw.drCount w)).map p.word) ≠ none) →
        (Iw.drQueue w = true ∨ k.inStage (Iw.drAddr w) (drainLen w (s.coreW l.core)) = true) →
        exec (.mxDrain l) s = mxLeaves s l c { p.early with
          drain := some { word := w, pc := q.pc, stream := l.stream, next := 0, status := 0, erf := [], erfFl := 0, erfOut := 0
                          anchor := (drainAnchor ((rangeWords (Iw.drExact w) (Iw.drBase w) (Iw.drCount w)).map p.word)).getD 0
                          tile := [], tileSt := 0 } }) ∧
      (HeadReady s l 1 5 c q →
        exec (.mxGhost l) s = mxLeaves s l c { p with ghost := { p.ghost with pred := some (Iw.ghGap w) }, runs := p.runs ++ [doneRun q l.stream] })) ∧
  (∀ (s : State) (n k : Nat) (c : Ctx) (r : MxRun) (row : Row) (r1 : MxRun), (s.part n k).ctx = some c →
      (s.part n k).runs.find? MxRun.issuing = some r → issueRun s n (s.part n k) c r = .ok (row, r1) →
      ((s.issueRow n k).part n k).rows = (s.part n k).rows ++ [row] ∧
      ((s.issueRow n k).part n k).runs = updFirst MxRun.issuing (fun _ => r1) (s.part n k).runs) ∧
  (∀ (s : State) (n k : Nat),
      let p := s.part n k
      (∀ r rs, let t := State.fillRows n k 16 s
        (t.part n k).rows = r :: rs → (t.part n k).rowWaits r = false → exec (.sliceAccumulate n k) s =
          .next (t.setPart n k { accumRow (t.part n k) r with rows := rs, runs := countRow (accumRow (t.part n k) r).runs })) ∧
      (∀ (d : Drain) (c : Ctx), p.drain = some d → p.ctx = some c → d.next < Iw.drCount d.word →
        p.owes (slotRange (Iw.drExact d.word) (Iw.drBase d.word + d.next) 1).1 (slotRange (Iw.drExact d.word) (Iw.drBase d.word + d.next) 1).2 = false →
        (Iw.drQueue d.word = false → Iw.drFmt d.word ≠ 0xC → ∃ t, exec (.drainEntryRead n k) s = .next t ∧
          t.mem = s.mem.writeN (c.stageAt n (Iw.drAddr d.word) + 4 * s.coreW n * d.next)
            (wordBytes ((List.range (s.coreW n)).map fun i => (drainWord p d.word (Iw.drBase d.word + d.next) i).1)) ∧
          (t.part n k).drain.map (·.next) = some (d.next + 1)) ∧
        (Iw.drQueue d.word = false → Iw.drFmt d.word = 0xC → ∃ t, exec (.drainEntryRead n k) s = .next t ∧ t.regs = s.regs ∧ t.grans = s.grans) ∧
        (Iw.drQueue d.word = true → d.tile.length ≠ 64 * s.coreW n → ∃ t, exec (.drainEntryRead n k) s = .next t ∧ t.mem = s.mem ∧
          (t.part n k).drain.map (·.tile) = some (d.tile ++ (List.range (s.coreW n)).map fun i =>
            (drainWord p d.word (Iw.drBase d.word + d.next) i).1))) ∧
      (∀ d : Drain, p.drain = some d → Iw.drQueue d.word = true → d.tile.length = 64 * s.coreW n → p.tq.length < 8 →
        exec (.tileQueuePush n k) s = .next (s.setPart n k { p with
          tq := p.tq ++ [{ status := BitVec.ofNat 32 d.tileSt, words := d.tile }], drain := some { d with tile := [], tileSt := 0 } })) ∧
      (∀ (c : Ctx) (f : VecFly) (x : Tile) (xs : List Tile), p.ctx = some c → c.fly = some f → f.out.pop = true → f.popped = false → p.tq = x :: xs →
        exec (.tileQueuePop n k) s = .next (s.setPart n k { p with tq := xs, ctx := some { c with fly := some f.readAll } })) ∧
      (∀ (rows : Nat) (g : Nat × Nat), p.ghost.gap = some g → g.2 ≠ 0 → s.reefLevel ≤ 5 → (∀ ns, p.ghost.pred = some ns → ns < g.2) →
        p.streaming = false → p.ghost.running = false → p.ghost.spent = false → s.clk < g.1 + g.2 →
        exec (.ghostLightStart n k rows) s = .next (s.setPart n k { p with
          ghost := { p.ghost with running := true, spent := false, gap := some g, duty := (min 4096 rows + 32) / 64 } })) ∧
      (∀ g : Nat × Nat, p.ghost.running = true → p.ghost.gap = some g → (p.rowReady = true ∨ g.1 + g.2 ≤ s.clk) →
        exec (.ghostLightEnd n k) s = .next (s.setPart n k { p with ghost := { p.ghost with running := false, spent := true } })))

/-- O10. On the idle vector engine, for the stream queue whose turn it is, each of these commands completes and starts the
head of its share, or the suspended instruction of a restored context, where that has its opcode, with the result of
its own computation: VX_LDV, VX_STV, VX_ADD, VX_SUB, VX_MUL, VX_FMA, VX_MAX, VX_MIN, VX_ABS, VX_NEG, VX_DIV, VX_SQRT,
VX_RSQRT, VX_EXP, VX_LOG, VX_CMP, VX_SEL, VX_CVT, VX_RSUM, VX_RMAX, VX_RMIN, VX_RARG, VX_RCNT, VX_RDOT, VX_EADD,
VX_ADAM, VX_TOPK, VX_TOPP, VX_GMAX and VX_RND. The instruction is in execution with that result, which is written at
retirement; the next search begins behind its stream queue; nothing else changes, but that a result with open values
counts the free values on. -/
def Obligations.VectorStarts : Prop :=
  (VxStarts .vxLdv 0x01 semLdv ∧ VxStarts .vxStv 0x02 semStv ∧ VxStarts .vxAdd 0x10 (elem2 fadd) ∧ VxStarts .vxSub 0x11 (elem2 fsub) ∧
    VxStarts .vxMul 0x12 (elem2 fmul) ∧ VxStarts .vxFma 0x13 (elem3 ffma) ∧ VxStarts .vxMax 0x14 (elem2 fmax) ∧
    VxStarts .vxMin 0x15 (elem2 fmin) ∧ VxStarts .vxAbs 0x16 (elem1 absOf) ∧ VxStarts .vxNeg 0x17 (elem1 negOf) ∧
    VxStarts .vxDiv 0x18 (elem2 fdiv) ∧ VxStarts .vxSqrt 0x19 (elem1 fsqrt) ∧ VxStarts .vxRsqrt 0x1A (elem1 frsqrt) ∧
    VxStarts .vxExp 0x1B (elem1 fexp) ∧ VxStarts .vxLog 0x1C (elem1 flog) ∧ VxStarts .vxCmp 0x1D semCmp ∧
    VxStarts .vxSel 0x1E (elem3 selOf)) ∧
  (VxStarts .vxCvt 0x20 semCvt ∧ VxStarts .vxRsum 0x30 semRsum ∧ VxStarts .vxRmax 0x31 semRmax ∧ VxStarts .vxRmin 0x32 semRmin ∧
    VxStarts .vxRarg 0x33 semRarg ∧ VxStarts .vxRcnt 0x34 semRcnt ∧ VxStarts .vxRdot 0x35 semRdot ∧ VxStarts .vxEadd 0x36 semEadd ∧
    VxStarts .vxAdam 0x40 semAdam ∧ VxStarts .vxTopk 0x50 semTopk ∧ VxStarts .vxTopp 0x51 semTopp ∧ VxStarts .vxGmax 0x52 semGmax ∧
    VxStarts .vxRnd 0x60 semRnd)

/-- O11. VX_ADD over two registers that hold FP32, without signal or summary, for the stream queue whose turn it is on the
idle engine: the start completes, and the retirement after it leaves in register d the FP32 sums of the first n
elements of the sources, elements beyond a source's valid count read as +0, tag 32; every other vector register, every
general register and all of memory are unchanged. -/
def Obligations.VectorAddOverRegisters : Prop :=
  ∀ (s : State) (l : Loc) (c : Ctx) (q : QEnt) (i j : Nat), VecTurn s l → HeadReady s l 2 0x10 c q → c.susp = none → c.fault = none →
    c.qsh = none → srcOf (Iw.a q.word) = .reg i → srcOf (Iw.bb q.word) = .reg j → (c.vreg i).tag = 32 → (c.vreg j).tag = 32 →
    Iw.sigEn q.word = false → Iw.sumEn q.word = false →
    let first := fun (r : Nat) => padWords (Iw.n q.word) (c.vreg r).elems
    ∃ t u k, exec (.vxAdd l) s = .next t ∧ exec (.instructionRetire l.core l.part 2) t = .next u ∧ u.ctx l.core l.part = some k ∧
      k.vreg (Iw.d q.word) = { tag := 32, elems := List.zipWith fadd (first i) (first j) } ∧
      (∀ r, r ≠ Iw.d q.word → k.vreg r = c.vreg r) ∧ (∀ r, k.reg r = c.reg r) ∧ u.mem = s.mem ∧ u.regs = s.regs

/-- O12. For FP32 values: with a NaN on either side less, less-or-equal, equal, greater-or-equal and greater are false and
not-equal is true; on two finite values each predicate is the comparison of their rational values, so that minus 0
equals plus 0; minus infinity is less, and plus infinity greater, than every finite value; non-finite holds of exactly
the NaNs and infinities. -/
def Obligations.PredicatesFollowIeee : Prop :=
  ∀ a b : Word32,
    ((isNan32 a = true ∨ isNan32 b = true) → predF 0 a b = false ∧ predF 1 a b = false ∧ predF 2 a b = false ∧ predF 3 a b = true ∧
      predF 4 a b = false ∧ predF 5 a b = false) ∧
    (isNonfin32 a = false → isNonfin32 b = false →
      (predF 0 a b = true ↔ ratOf a < ratOf b) ∧ (predF 1 a b = true ↔ ratOf a ≤ ratOf b) ∧ (predF 2 a b = true ↔ ratOf a = ratOf b) ∧
      (predF 3 a b = true ↔ ratOf a ≠ ratOf b) ∧ (predF 4 a b = true ↔ ratOf b ≤ ratOf a) ∧ (predF 5 a b = true ↔ ratOf b < ratOf a)) ∧
    (isNonfin32 a = false → predF 0 0xFF800000#32 a = true ∧ predF 5 0x7F800000#32 a = true) ∧
    predF 2 0x80000000#32 0#32 = true ∧ (predF 6 a b = true ↔ a.toNat / 2 ^ 23 % 256 = 255)

/-- O13. For every float-kind matrix product outside exact mode and every slice of finite products whose exact sum, in
units of a power of two that divides them all, is zero: the slice sum is the FP32 word of minus zero where every
product is minus zero, and that of plus zero in every other case, also when nonzero products cancel. Each column of a
row that MX.MAC issues holds the slice sum of that column's products. -/
def Obligations.ZeroSliceSumSign : Prop :=
  (∀ (w : IWord) (ps : List Sys2Proof.Num) (low : Int), Iw.macExact w = false → fmtIntKind (Iw.macFmt w) = false → ps ≠ [] →
    (∀ x ∈ ps, ∃ n m e, x = Sys2Proof.Num.fin n m e ∧ low ≤ e) →
    (ps.map fun x => match x with | .fin n m e => (if n then -1 else 1) * (m * 2 ^ (e - low).toNat : Int) | _ => 0).sum = 0 →
    ((∀ x ∈ ps, ∃ e, x = Sys2Proof.Num.fin true 0 e) → (sliceSum w ps).v = 0x80000000) ∧
    ((∃ x ∈ ps, ∀ e, x ≠ Sys2Proof.Num.fin true 0 e) → (sliceSum w ps).v = 0)) ∧
  (∀ (p : Part) (w : IWord) (pl : MacPlan) (rows : List (List Byte)) (m wd col : Nat) (late : Bool), col < wd →
    (macRow p w pl rows m wd late).sums[col]? = some (sliceSum w (products p w pl rows col)))

/-- O14. Each of these commands completes under conditions on the state alone. LD_T: the head of the load share is a move
with room in the engine, a descriptor that can be read and is in range, its stage range inside the allocation, every
piece translated, none in a module that cannot be reached: the next state is that in which the pieces are started in
order, each read here or asked of its module or host, and the move stands behind the context's moves with what it
waits for. ST_T: the same for the head of the store share where no repair holds a local piece and no stage byte of a
piece is marked; the pieces are written here or sent. ST_AT on an aligned local address, with room, stage space, no
repair under way and no mark: the address holds the new value of the operation on the old one, mirrored where a
partner mirrors it, then the stage address holds the old value, and the atomic stands behind the context's moves.
ST_AT on an aligned address of a module that can be reached, fewer than 64 atomics toward it outstanding: memory and
granule table stay, and in a context that has not stopped and has no new shares pending the atomic stands behind the
moves and waits for its answer. -/
def Obligations.MovesAndAtomicsStart : Prop :=
  (∀ (s : State) (l : Loc) (c : Ctx) (q : QEnt) (b : List Byte),
      (MoveReady s l 0 c q b → State.firstFault (moveOf s 0 c q b) = none → reachable s (State.goodSegs (moveOf s 0 c q b)) →
        exec (.ldT l) s = moveLeaves ((State.goodSegs (moveOf s 0 c q b)).foldl (fun r x =>
          State.startLoad l.core l.part l.stream c.tenant (c.stageAt l.core 0) x r) ([], s)) l 0 c q (State.goodSegs (moveOf s 0 c q b))) ∧
      (MoveReady s l 3 c q b → State.firstFault (moveOf s 3 c q b) = none → reachable s (State.goodSegs (moveOf s 3 c q b)) →
        (∀ g ∈ State.goodSegs (moveOf s 3 c q b), (g.2.kind = 0 → s.repairHolds g.2.addr g.2.len = false) ∧
          s.poisonedIn (c.stageAt l.core 0 + g.2.stage) g.2.len = false) →
        exec (.stT l) s = moveLeaves ((State.goodSegs (moveOf s 3 c q b)).foldl (fun r x =>
          State.startStore l.core l.part l.stream c.tenant (c.stageAt l.core 0) x r) ([], s)) l 3 c q (State.goodSegs (moveOf s 3 c q b)))) ∧
  ((∀ (s : State) (l : Loc) (c : Ctx) (q : QEnt) (n a : Nat), AtomReady s l c q n a →
      let new := leBytes n (atomicNew (Iw.atOp q.word) (8 * n) (s.readLe a n) (c.reg (Iw.atReg q.word)).toNat (c.reg (Iw.atCmp q.word)).toNat)
      let r := (s.writeBytes a new).mirrorWrite a new
      exec (.stAt l) s = .next ((r.2.writeBytes (c.stageAt l.core (Iw.atAddr q.word)) (leBytes n (s.readLe a n))).putCtx l.core l.part
        { c.take l.stream 3 with moves := c.moves ++ [{ eng := 3, word := q.word, pc := q.pc, stream := l.stream
                                                        segs := [{ stage := Iw.atAddr q.word, kind := 0, addr := a, len := n }]
                                                        awaits := r.1.map .mirror, isAtom := true }] })) ∧
    (∀ (s : State) (l : Loc) (c : Ctx) (q : QEnt) (n g : Nat), HeadReady s l 3 2 c q → s.moveRoom l.core (c.take l.stream 3) 3 = true →
      n = (if Iw.atWide q.word then 8 else 4) → (c.reg (Iw.mvReg q.word)).toNat % 2 ^ 48 % n = 0 →
      (c.take l.stream 3).inStage (Iw.atAddr q.word) n = true →
      s.translate c.tenant ((c.reg (Iw.mvReg q.word)).toNat % 2 ^ 48) true = some (.remote g) → s.peerFails (g / 2 ^ 44) = false →
      (s.fab.atoms.filter fun x => x.dst == s.opDst (s.roleOf c.tenant) (g / 2 ^ 44)).length < 64 →
      ∃ t psn k, exec (.stAt l) s = .next t ∧ t.ctx l.core l.part = some k ∧ t.mem = s.mem ∧ t.grans = s.grans ∧
        (c.qsh = none → c.fault = none → ∃ m, k.moves = c.moves ++ [m] ∧ m.isAtom = true ∧
          m.awaits = [.atom l.stream (s.opDst (s.roleOf c.tenant) (g / 2 ^ 44)) psn ((c.reg (Iw.mvReg q.word)).toNat % 2 ^ 48)])))

/-- O15. LD_T whose move has one piece, and that lies in this module, in a context that has not stopped and has no new
shares pending, completes: the stage bytes of the piece hold the bytes of its address, every byte outside them reads
as before, register space and granule table are unchanged, and the move stands behind the context's moves and waits
for nothing. -/
def Obligations.LocalLoadCopies : Prop :=
  ∀ (s : State) (l : Loc) (c : Ctx) (q : QEnt) (b : List Byte) (va : Nat) (g : Seg), MoveReady s l 0 c q b →
    moveOf s 0 c q b = [(va, .inl g)] → g.kind = 0 → c.qsh = none → c.fault = none →
    ∃ t k m, exec (.ldT l) s = .next t ∧ t.readN (c.stageAt l.core 0 + g.stage) g.len = s.readN g.addr g.len ∧
      (∀ a, a < c.stageAt l.core 0 + g.stage ∨ c.stageAt l.core 0 + g.stage + g.len ≤ a → t.read8 a = s.read8 a) ∧
      t.regs = s.regs ∧ t.grans = s.grans ∧ t.ctx l.core l.part = some k ∧ k.moves = c.moves ++ [m] ∧ m.awaits = []

/-- O16. For a resident context that has not stopped, each of these commands completes: CONTEXT_STOP with a cause from 1
to 6, PARTITION_FAULT with a cause from 1 to 5, PARITY_ERROR, POISON_CONSUMPTION. In the next state the context holds
the fault record of that cause, engine, stream, partition, shape, instruction, program counter, address (0 where the
command names none) and time, with status FORMAT_DENIED for the cause FORMAT and FAULT otherwise; its streams that
were neither idle nor ended are stopped, the others as they were; the partition is stopped, no row is in flight, no
matrix instruction is under way and no drain; memory and other cores are unchanged; all this before the tenant and the
item that the context works for are charged with the fault by the one shared operation of R264. CONTEXT_STOP or
POISON_CONSUMPTION of a context that has stopped already completes and only sets MORE. -/
def Obligations.ContextStops : Prop :=
  (∀ (s : State) (l : Loc) (c : Ctx) (cause : Nat) (w : IWord) (pc : BitVec 48),
    let p := s.part l.core l.part
    p.ctx = some c → c.fault = none → 1 ≤ cause → cause ≤ 6 →
    (∀ (eng va : Nat), ∃ t, exec (.contextStop l eng cause w pc va) s = .next t ∧ StopsWith s t l c (stopRecord s l eng cause w pc va)) ∧
    (cause ≤ 5 → ∃ t, exec (.partitionFault l cause w pc) s = .next t ∧ StopsWith s t l c (stopRecord s l 1 cause w pc 0)) ∧
    (∃ t, exec (.parityError l w pc) s = .next t ∧ StopsWith s t l c (stopRecord s l 1 causeParity w pc 0)) ∧
    (∀ eng : Nat, ∃ t, exec (.poisonConsumption l eng w pc) s = .next t ∧ StopsWith s t l c (stopRecord s l eng causePoison w pc 0))) ∧
  (∀ (s : State) (l : Loc) (c : Ctx) (r : FaultRec) (eng cause va : Nat) (w : IWord) (pc : BitVec 48), s.ctx l.core l.part = some c →
    c.fault = some r → 1 ≤ cause → cause ≤ 6 →
    exec (.contextStop l eng cause w pc va) s = .next (s.setCtx l.core l.part { c with more := true }) ∧
    exec (.poisonConsumption l eng w pc) s = .next (s.setCtx l.core l.part { c with more := true }))

/-- O17. On a core with no entry waiting and no test slice, each of these commands completes, sent by the home of the
context's request slot or tenant where it is about a context. DISPATCH_ENTRY (start) puts the new context into a
partition that can receive it, with its stage range free; DISPATCH_ENTRY (gap) records the prediction; an entry that
cannot be acted on waits alone in the core's queue. SHAPE_CHANGE with every partition empty and none under way leaves
the core without partitions, the change under way. SAVE_REQUEST gives a context that has not stopped its deadline (1
ms where none is named) and address. CONTEXT_RELEASE zeroes the partition of a stopped context; a complete one leaves
its partition without context and tile queue. PARTITION_ZEROED brings the new shape into force, or makes the zeroed
partition free. CONTEXT_COMPLETE of a context with every stream idle or ended and everything retired, not yet
reported, reports it. CONTEXT_SAVE of a quiescent context with a save pending and no vector instruction in execution
writes its image at the save's address, changes no other byte, zeroes the partition and reports. SAVE_TIMEOUT of a
context that is not quiescent stops it with cause SAVE once the deadline has come; before it nothing changes. RESTORE
of an image that is refused reports 0x0A (MALFORMED) and changes no partition, memory or register; RESTORE of a sound
image of the core's width without a suspended instruction, with a partition and the stage range free, puts the saved
partition and context there and reports. -/
def Obligations.DispatchSaveAndRestore : Prop :=
  (∀ (s : State) (n : Nat), (s.core n).waiting = [] → (s.core n).testing = none →
      (∀ p tn id slot e b len, s.canPlace n p = true → s.stageFree n b len = true → tn ≠ 0 → e.toNat % 16 = 0 →
        ∃ t, exec (.dispatchEntry n (homeOf slot tn) (.start p tn id slot e b len)) s = .next t ∧
          t.ctx n p = some (newCtx (s.coreP n) tn id slot e b len) ∧ t = { s with cores := t.cores } ∧ ∀ m, m ≠ n → t.core m = s.core m) ∧
      (∀ p ns sched, sched < 4 → ∃ t, exec (.dispatchEntry n sched (.gap p ns)) s = .next t ∧ (t.part n p).ghost.pred = some ns ∧
        t = { s with cores := t.cores }) ∧
      (∀ code sched, sched < 4 → code ≤ 2 → (s.core n).reshape = none → (∀ x ∈ (s.core n).parts, x.2.empty = true) → ∃ t,
        exec (.shapeChange n sched code) s = .next t ∧ (t.core n).reshape = some code ∧ (t.core n).parts = [] ∧ (t.core n).shape = (s.core n).shape ∧
        t = { s with cores := t.cores } ∧ ∀ m, m ≠ n → t.core m = s.core m) ∧
      (∀ p dl a c, s.ctx n p = some c → c.save = none → c.fault = none → ∃ t,
        exec (.saveRequest n (homeOf c.slot c.tenant) p dl a) s = .next t ∧
        t.ctx n p = some { c with save := some { deadline := s.clk + dl.getD 1000000, addr := a } } ∧ t = { s with cores := t.cores }) ∧
      (∀ p c, s.ctx n p = some c → (c.fault ≠ none ∨ c.told = true) → ∃ t, exec (.contextRelease n (homeOf c.slot c.tenant) p) s = .next t ∧
        (c.fault ≠ none → t.part n p = zeroedPart) ∧ (c.fault = none → t.part n p = { s.part n p with ctx := none, tq := [] }) ∧
        t = { s with cores := t.cores }) ∧
      (∀ p code, (s.core n).reshape = some code → ∃ t, exec (.partitionZeroed n p) s = .next t ∧ (t.core n).shape = code ∧
        (t.core n).reshape = none ∧ t = { s with cores := t.cores }) ∧
      (∀ p, (s.core n).reshape = none → (s.part n p).zeroing = true → ∃ t, exec (.partitionZeroed n p) s = .next t ∧
        t.part n p = {} ∧ t = { s with cores := t.cores }) ∧
      (∀ d sched, sched < 4 → (∀ h, s.entryHome n d = some h → h = sched) → s.dispatch n d = none →
        exec (.dispatchEntry n sched d) s = .next (s.setCore n { s.core n with waiting := [{ sched := sched, since := s.clk, entry := d }] }))) ∧
  (∀ (s : State) (n p : Nat) (c : Ctx), s.ctx n p = some c → c.fault = none →
    ((∀ i, i < 3 → (c.stream i).st = 0 ∨ (c.stream i).st = 4) → (s.part n p).retired c = true → c.told = false → ∃ t,
      exec (.contextComplete n p) s = .next t ∧ t.ctx n p = some { c with told := true } ∧ t.out = s.out ++ [.contextDone n p c.ctxid] ∧
      t.mem = s.mem ∧ t.regs = s.regs) ∧
    (∀ r, c.save = some r → (s.part n p).quiescent c = true → c.fly = none →
      let i := contextImage s n (s.part n p) c
      ∃ t, exec (.contextSave n p) s = .next t ∧ t.readN r.addr i.length = i ∧
        (∀ a, a < r.addr ∨ r.addr + i.length ≤ a → t.read8 a = s.read8 a) ∧ t.part n p = zeroedPart ∧
        t.out = s.out ++ [.schedDone n p 0] ∧ t.regs = s.regs) ∧
    (∀ r, c.save = some r → (s.part n p).quiescent c = false →
      (r.deadline ≤ s.clk → exec (.saveTimeout n p) s = .next (s.stopCtx n p 4 0 causeSave 0#128 0#48 0)) ∧
      (s.clk < r.deadline → exec (.saveTimeout n p) s = .next s))) ∧
  (∀ (s : State) (n addr tn id b : Nat) (slot : Option Nat), (s.core n).waiting = [] → (s.core n).testing = none →
    (readImage s addr tn = none → ∃ t, exec (.restore n (homeOf slot tn) addr tn id slot b) s = .next t ∧
      t.out = s.out ++ [.schedDone n 0 0x0A] ∧ t.mem = s.mem ∧ t.regs = s.regs ∧ ∀ p, t.part n p = s.part n p) ∧
    (∀ (p : Nat) (i : Image), readImage s addr tn = some i → i.wd = s.coreW n → s.stageFree n b (i.at 10 0 8) = true →
      s.freePart n = some p → i.rd 7 1 = 0 → ∃ t, exec (.restore n (homeOf slot tn) addr tn id slot b) s = .next t ∧
        t.part n p = { i.part with ctx := some (i.ctx tn id slot b) } ∧ t.regs = s.regs ∧ t.out = s.out ++ [.schedDone n p 0]))

/-- O18. NMV_WORK_ITEM with one of the 16 units and an item of 64 bytes in shared SRAM of the unit's base die completes:
the work that the item describes stands behind the unit's other work, and memory and register space are unchanged.
NMV_COMPLETE of a unit whose first work ended without fault or denied format, and whose outputs lie outside stage
memory or in that of the item's own context, still there, completes: the outputs are written at the output address,
then status and flags at bytes 56 and 57 of the item, the work leaves the unit, and register space is unchanged. -/
def Obligations.NmvItems : Prop :=
  (∀ (s : State) (unit item : Nat) (slot : Option Nat), unit < 16 → State.sramBase + unit / 4 * 0x10000000 ≤ item →
    item + 64 ≤ State.sramBase + unit / 4 * 0x10000000 + 0x10000000 → ∃ t, exec (.nmvWorkItem unit item slot) s = .next t ∧
      Tab.get [] t.nmv unit = Tab.get [] s.nmv unit ++ [nmvWork s item slot] ∧ t.mem = s.mem ∧ t.regs = s.regs) ∧
  (∀ (s : State) (unit : Nat) (w : NmvItem) (ws : List NmvItem), Tab.get [] s.nmv unit = w :: ws → nmvMayWrite s w = true →
    w.status ≠ 0x0F → w.status ≠ 0x09 → ∃ t, exec (.nmvComplete unit) s = .next t ∧ Tab.get [] t.nmv unit = ws ∧
      t.mem = (s.mem.writeN w.yaddr w.y).writeN (w.item + 56) (leBytes 1 w.status ++ leBytes 1 w.sflags) ∧ t.regs = s.regs)

/-- O19. TRANSLATION_CHANGE with a page size of 4 KiB, 2 MiB or 1 GiB, an aligned address and a tenant from 1 to 255
completes: an entry that is not valid is written at its place in the tables by the one leaf write of R227 step 1,
where that finds its tables; a valid leaf entry with legal attributes is written once every granule under its page has
been claimed for the tenant; where a granule cannot be claimed nothing changes. TRANSLATION_QUIESCE of a noted change
of a tenant below 256 completes: while an access in flight was translated through the old entry nothing changes;
otherwise the change is no longer noted, memory and poison marks are unchanged, and every granule under the old page
that is allocated to the tenant, not for KV, and mapped by no leaf of the tenant has an entry of 0 and waits to be
zeroed. -/
def Obligations.TranslationChanges : Prop :=
  (∀ (s : State) (tn va sh e : Nat), (sh = 12 ∨ sh = 21 ∨ sh = 30) → va % 2 ^ sh = 0 → va < 2 ^ 48 → 1 ≤ tn → tn < 256 → e < 2 ^ 64 →
    (tbit e 0 = false → ∀ t, s.putLeaf tn va sh e = some t → exec (.translationChange tn va sh e) s = .next t) ∧
    (tbit e 0 = true → tbit e 1 = true → State.teOk e sh = true → ∀ u t, s.claimFrame tn e sh = some u →
      u.putLeaf tn va sh e = some t → exec (.translationChange tn va sh e) s = .next t) ∧
    (tbit e 0 = true → s.claimFrame tn e sh = none → exec (.translationChange tn va sh e) s = .next s)) ∧
  (∀ (s : State) (tn va : Nat) (c : Nat × Nat × Nat × Nat), tn < 256 → (s.loft.changes.find? fun c => c.1 == tn && c.2.1 == va) = some c →
    (s.inUse tn c.2.2.1 c.2.2.2 = true → exec (.translationQuiesce tn va) s = .next s) ∧
    (s.inUse tn c.2.2.1 c.2.2.2 = false → ∃ t, exec (.translationQuiesce tn va) s = .next t ∧
      t.loft.changes = s.loft.changes.erase c ∧ t.mem = s.mem ∧ t.poison = s.poison ∧
      ∀ a n, s.leafRange c.2.2.1 c.2.2.2 = some (a, n) → ∀ i ∈ State.granulesIn a n, State.gState (s.gran i) = 1 →
        State.gOwner (s.gran i) = tn → State.gKv (s.gran i) = false → s.leavesOf tn i = [] → t.gran i = 0 ∧ (i, 0) ∈ t.loft.dirty))

/-- O20. GRANULE_ZEROING of a granule that waits to be zeroed completes: every byte of it reads as zero and no word of it
is marked, every byte and mark outside it is as before, and it no longer waits; of any other granule nothing changes.
GRANULE_RETIREMENT of a granule of HBM or shared SRAM that is due and not yet retired completes, in a state that keeps
the canonical forms: a free granule is marked retired, source 804 is pending, memory and marks are unchanged; a
granule in use is replaced first, by the one replacement of R232 where that finds a granule, and then the same. An HBM
granule that is allocated, no mirror in service for the partner, and mapped by no leaf of its owner: every byte of its
replacement then reads as its own byte did. Where no replacement is to be had nothing changes. -/
def Obligations.GranuleZeroingAndRetirement : Prop :=
  (∀ (s : State) (i : Nat),
      ((∃ d, (s.loft.dirty.find? fun d => d.1 == i) = some d) → ∃ t, exec (.granuleZeroing i) s = .next t ∧
        (∀ a, State.granuleAddr i ≤ a → a < State.granuleAddr i + 2 ^ 21 → t.read8 a = 0 ∧ t.poisoned a = false) ∧
        (∀ a, a < State.granuleAddr i ∨ State.granuleAddr i + 2 ^ 21 ≤ a → t.read8 a = s.read8 a ∧ t.poisoned a = s.poisoned a) ∧
        (∀ d ∈ t.loft.dirty, d.1 ≠ i)) ∧
      ((s.loft.dirty.find? fun d => d.1 == i) = none → exec (.granuleZeroing i) s = .next s)) ∧
  (∀ (s : State) (g : Nat), s.Inv → g < 393728 → State.gState (s.gran g) ≠ 3 → s.retireDue g = true →
      (State.gState (s.gran g) = 0 → ∃ t, exec (.granuleRetirement g) s = .next t ∧ State.gState (t.gran g) = 3 ∧
        t.regBit (Reg.EVC_STAT 804) 31 = true ∧ t.mem = s.mem ∧ t.poison = s.poison) ∧
      (State.gState (s.gran g) ≠ 0 → ∀ u, s.replaceGran g = some u → ∃ t, exec (.granuleRetirement g) s = .next t ∧
        State.gState (t.gran g) = 3 ∧ t.regBit (Reg.EVC_STAT 804) 31 = true ∧ t.mem = u.mem ∧ t.poison = u.poison) ∧
      (g < 393216 → State.gState (s.gran g) = 1 → s.servedIndex g = none → s.leavesOf (State.gOwner (s.gran g)) g = [] →
        ∀ j u, s.allocGran (s.gran g) (fun i => i != g) = some (j, u) → ∃ t, exec (.granuleRetirement g) s = .next t ∧
          ∀ k, k < 2 ^ 21 → t.read8 (State.granuleAddr j + k) = s.read8 (State.granuleAddr g + k)) ∧
      (State.gState (s.gran g) ≠ 0 → s.replaceGran g = none → exec (.granuleRetirement g) s = .next s))

/-- O21. MIRROR_REPAIR at an address of HBM, shared SRAM or stage memory completes and changes no byte. A corrected error
is counted, in MEM_CE of its stack or in MEM_SRAMCE, and changes no mark and no granule entry. An uncorrectable word
of a mirrored HBM granule, while the partner holds a copy, waits for that copy and changes no mark; any other
uncorrectable word is marked poisoned and waits for none, where its granule is not a reserved one without mirror; for
both the error's address is in MEM_UEADL and source 805 is pending. PATROL_SCRUB of an allocated or reserved granule
completes. Without an uncorrectable word it changes no byte, mark or granule entry; once every such granule has been
read the pass is over, the next starts with none read and MEM_SCRUBST counts it; before that the granule is among
those read. One corrected word of an HBM granule counts in MEM_CE of its own stack. One uncorrectable word of an
allocated HBM granule without mirror is marked, and no byte changes. -/
def Obligations.ErrorsAndPatrol : Prop :=
  (∀ (s : State) (a : Nat),
    (State.isHbm a = true → ∃ t, exec (.mirrorRepair a true) s = .next t ∧ t.mem = s.mem ∧ t.poison = s.poison ∧ t.grans = s.grans ∧
      t.regN (Reg.MEM_CE (State.stackOf a)) = capAt (2 ^ 32 - 1) (s.regN (Reg.MEM_CE (State.stackOf a)) + 1)) ∧
    ((State.isSram a = true ∨ State.isStage a = true) → State.isHbm a = false → ∃ t, exec (.mirrorRepair a true) s = .next t ∧ t.mem = s.mem ∧
      t.poison = s.poison ∧ t.grans = s.grans ∧ t.regN Reg.MEM_SRAMCE = capAt (2 ^ 32 - 1) (s.regN Reg.MEM_SRAMCE + 1)) ∧
    (State.isHbm a = true → State.gMir (s.granAt a) = true → s.canRepair = true → ∃ t, exec (.mirrorRepair a false) s = .next t ∧ t.mem = s.mem ∧
      t.poison = s.poison ∧ t.regN Reg.MEM_UEADL = a / 64 * 64 % 2 ^ 32 ∧ t.regBit (Reg.EVC_STAT 805) 31 = true ∧ a / 64 ∈ t.loft.repairs) ∧
    ((State.isHbm a = true ∨ State.isSram a = true ∨ State.isStage a = true) →
      (State.gMir (s.granAt a) = false ∨ State.isHbm a = false ∨ s.canRepair = false) →
      (State.gState (s.granAt a) ≠ 2 ∨ State.gMir (s.granAt a) = true) → ∃ t, exec (.mirrorRepair a false) s = .next t ∧ t.mem = s.mem ∧
        t.poisoned a = true ∧ t.loft.repairs = s.loft.repairs ∧ t.regN Reg.MEM_UEADL = a / 64 * 64 % 2 ^ 32 ∧
        t.regBit (Reg.EVC_STAT 805) 31 = true)) ∧
  (∀ (s : State) (g : Nat), s.scrubSet.elem g = true →
      (∀ fixed : List Nat, ∃ t, exec (.patrolScrub g fixed []) s = .next t ∧ t.mem = s.mem ∧ t.poison = s.poison ∧ t.grans = s.grans ∧
        (if (s.scrubSet.filter fun x => (insertNat g s.loft.mscrub).elem x).length = s.scrubSet.length
         then t.loft.mscrub = [] ∧ t.regField Reg.MEM_SCRUBST 16 16 = (s.regField Reg.MEM_SCRUBST 16 16 + 1) % 2 ^ 16
         else t.loft.mscrub = insertNat g s.loft.mscrub)) ∧
      (∀ o, g < 393216 → o < 2 ^ 21 → ∃ t, exec (.patrolScrub g [o] []) s = .next t ∧
        let b := State.stackOf (State.granuleAddr g + o)
        t.regN (Reg.MEM_CE b) = capAt (2 ^ 32 - 1) (s.regN (Reg.MEM_CE b) + 1)) ∧
      (∀ o, g < 393216 → o < 2 ^ 21 → State.gState (s.gran g) = 1 → State.gMir (s.gran g) = false →
        ∃ t, exec (.patrolScrub g [] [o]) s = .next t ∧ t.mem = s.mem ∧ t.poisoned (State.granuleAddr g + o) = true))

/-- O22. LFT_START completes. With no installation under way, no tenant that maps the loft and room in the audit log: the
installation is under way, a read of the image's first 8,448 bytes from the host region of LFT_SRCREG is asked (and
goes out where the port is up), memory and registers are unchanged; where those bytes do not lie in the region the
installation fails as a failed host read. With one under way or a tenant that maps the loft, LFT_RESULT says BUSY and
nothing else changes; with a full log it says LOG_FULL and nothing else changes. LFT_ABORT of an installation under
way completes: one that is not yet reading back is noted to stop behind the piece under way; one that is reading back
is over, LFT_STATUS shows INVALID, LFT_RESULT says aborted, memory is unchanged. LOFT_SCRUB of a page of an installed
model while the loft is READY or DEGRADED completes and changes no byte: a page without an uncorrectable bit changes
no mark, counts in LFT_CE where a bit was corrected and in LFT_WEAK from 24 corrected bits on; an uncorrectable page
is marked whole, its model shows DAMAGED and the loft DEGRADED. -/
def Obligations.LoftInstallationAndScrub : Prop :=
  (∀ s : State,
    (s.loft.inst = none → s.loftMapped = false → s.logRefuses = false →
      (∀ port qpn key a, s.hostRange 0 (s.regField Reg.LFT_SRCREG 0 6) 0 8448 = some (port, qpn, key, a) → ∃ t, exec .lftStart s = .next t ∧
        t.loft.inst = some { region := s.regField Reg.LFT_SRCREG 0 6 } ∧ t.mem = s.mem ∧ t.regs = s.regs ∧
        Tab.find? t.host.posts s.host.nextId = some .loft ∧
        (s.portUp port = true → t.out = s.out ++ [.hostRead s.host.nextId port qpn key a 8448])) ∧
      (s.hostRange 0 (s.regField Reg.LFT_SRCREG 0 6) 0 8448 = none → exec .lftStart s = .next (s.loftFail 6 stFault))) ∧
    (s.loft.inst ≠ none ∨ s.loftMapped = true → exec .lftStart s = .next (s.setRegN Reg.LFT_RESULT (9 * 256 + stBusy))) ∧
    (s.loft.inst = none → s.loftMapped = false → s.logRefuses = true →
      exec .lftStart s = .next (s.setRegN Reg.LFT_RESULT (10 * 256 + stLogFull)))) ∧
  (∀ (s : State) (x : LoftInst), s.loft.inst = some x →
    (x.back = false → exec .lftAbort s = .next { s with loft := { s.loft with inst := some { x with stop := true } } }) ∧
    (x.back = true → ∃ t, exec .lftAbort s = .next t ∧ t.loft.inst = none ∧ t.mem = s.mem ∧ t.regField Reg.LFT_STATUS 0 4 = 4 ∧
      t.regN Reg.LFT_RESULT = 7 * 256 + stFault)) ∧
  (∀ (s : State) (off i : Nat), (s.regField Reg.LFT_STATUS 0 4 = 3 ∨ s.regField Reg.LFT_STATUS 0 4 = 5) →
      (s.loft.models.findIdx? fun m => decide (m.loff ≤ off / 4096 * 4096 ∧ off / 4096 * 4096 < m.loff + m.len)) = some i →
      (∀ k, ∃ t, exec (.loftScrub off k false) s = .next t ∧ t.mem = s.mem ∧ t.poison = s.poison ∧
        t.regN Reg.LFT_CE = (if k = 0 then s.regN Reg.LFT_CE else capAt (2 ^ 32 - 1) (s.regN Reg.LFT_CE + 1)) ∧
        t.regN Reg.LFT_WEAK = (if 24 ≤ k then capAt (2 ^ 32 - 1) (s.regN Reg.LFT_WEAK + 1) else s.regN Reg.LFT_WEAK)) ∧
      (∀ k, i < 64 → ∃ t, exec (.loftScrub off k true) s = .next t ∧ t.mem = s.mem ∧
        (∀ o, o < 4096 → t.poisoned (State.loftBase + off / 4096 * 4096 + o) = true) ∧
        t.regField (Reg.LFT_MDL i) 0 2 = 2 ∧ t.regField Reg.LFT_STATUS 0 4 = 5))

/-- O23. RDMA_READ_RESPONSE to a read of a loft image, in a packet that the port takes, while the installation under way
is not to stop: a RoCE error ends it with cause 6; a head of wrong format ends it with cause 3, one bound to another
type or unit with cause 2, a signature that does not verify with cause 1; a piece of a model, of the length asked for,
stands in the loft at its place and every other byte reads as before. LOFT_INSTALL_COMPLETE of an installation that is
reading back completes: with digests that agree it is over and the directory complete, the models stay, memory is
unchanged, LFT_STATUS shows READY and LFT_RESULT OK, and no word of the loft is marked; with digests that do not agree
it fails with cause 5. LOFT_VERIFICATION of a powered loft that is not verified and has a complete directory
completes: it is verified, holds the directory's models, memory is unchanged, and LFT_STATUS shows READY where the
signature verifies and every model's bytes have their digest, INVALID otherwise. -/
def Obligations.LoftInstallAndVerify : Prop :=
  (∀ (s : State) (k : HostPkt) (id : Nat) (x : LoftInst), PktTaken s k → Tab.find? s.host.posts id = some .loft → s.loft.inst = some x →
    x.stop = false →
    let u := s.setHost { s.host with posts := Tab.drop s.host.posts id }
    (exec (.rdmaReadResponse k id none) s = .next (u.loftFail 6 stFault)) ∧
    (∀ bs, x.head = [] →
      (loftFormatOk (sliceBytes bs 0 8448) = false → exec (.rdmaReadResponse k id (some bs)) s = .next (u.loftFail 3 stMalformed)) ∧
      (loftFormatOk (sliceBytes bs 0 8448) = true → s.loftBound (sliceBytes bs 0 8448) = false →
        exec (.rdmaReadResponse k id (some bs)) s = .next (u.loftFail 2 stMalformed))) ∧
    (∀ bs, x.head ≠ [] → s.regField Reg.LFT_STATUS 0 4 ≠ 1 → s.loftSigned x.head bs = false →
      exec (.rdmaReadResponse k id (some bs)) s = .next (u.loftFail 1 stMalformed)) ∧
    (∀ bs m, x.head ≠ [] → s.regField Reg.LFT_STATUS 0 4 = 1 → s.loft.models[x.model]? = some m → bs.length = State.loftPiece m x.off →
      ∃ t, exec (.rdmaReadResponse k id (some bs)) s = .next t ∧ t.readN (State.loftBase + m.loff + x.off) bs.length = bs ∧
        ∀ a, a < State.loftBase + m.loff + x.off ∨ State.loftBase + m.loff + x.off + bs.length ≤ a → t.read8 a = s.read8 a)) ∧
  (∀ (s : State) (x : LoftInst), s.loft.inst = some x → x.back = true →
    (∃ t, exec (.loftInstallComplete true) s = .next t ∧ t.loft.inst = none ∧ t.loft.complete = true ∧ t.loft.models = s.loft.models ∧
      t.mem = s.mem ∧ t.regField Reg.LFT_STATUS 0 4 = 3 ∧ t.regN Reg.LFT_RESULT = 0 ∧ ∀ w ∈ t.poison, State.isLoft (64 * w) = false) ∧
    exec (.loftInstallComplete false) s = .next (s.loftFail 5 stFault)) ∧
  (∀ s : State, s.regBit Reg.PWR_DOMST 20 = true → s.loft.verified = false → s.loft.dir ≠ [] → s.loft.complete = true →
    let ms := ((loftEntries (s.loft.dir.take 8448)).take (fieldAt (s.loft.dir.take 8448) 6 2)).map loftModel
    ∃ t, exec .loftVerification s = .next t ∧ t.loft.verified = true ∧ t.loft.models = ms ∧ t.mem = s.mem ∧
      t.regField Reg.LFT_STATUS 0 4 =
        if s.loftSigned (s.loft.dir.take 8448) (s.loft.dir.drop 8448) = true ∧
          (∀ m ∈ ms, sha3 (s.readN (State.loftBase + m.loff) m.len) = m.digest) then 3 else 4)

/-- O24. Each of these commands completes. KV_SPILL of a block of a paused request that is on its way out and not yet
sent: a marked frame ends the request with TTL_EXPIRED; otherwise, toward the host, the block has its tier, copy and
checksum and its bytes are written to that place of the host region; toward the understudy, with a partner that
mirrors and can be reached, a place in its HBM that no other copy overlaps and pool granules that it has acknowledged,
the block has tier 1, copy, checksum and the frames of its write; with no place the block is resident again and its
request waits another HOLD. KV_FETCH of a block on its way back without frames: with no frames to be had nothing
changes; otherwise, for a copy in a host region or in another module that can be reached, the block has its frames and
has been asked for once. KV_HOLD_EXPIRY of a request whose HOLD is over, and KV_SPILL_RETRY where it also has a
resident block, put each of its resident blocks on its way out. TTL_EXPIRY of a host-paused request past its time to
live, with no RESUME item on a queue of its tenant, ends it with TTL_EXPIRED. VARIANT_SWAP_IN of a loft variant that
an admitted request waits for and that is not resident, with room for it by every limit, granules for it and its pages
mapped: the variant is resident with these granules, memory and granule table are those of the mapped copy, SRV_SWAPS
counts it. VARIANT_EVICT of an unpinned variant idle for IDLE evicts it by the one operation of R336; of a pinned one
nothing changes. -/
def Obligations.KvAndVariants : Prop :=
  (∀ (s : State) (slot pos group : Nat) (r : Req) (b : KvBlock), s.req? slot = some r → s.kvBlock slot pos group = some b →
    let ti := s.regField (Reg.SRV_TTL (r.tenant % 256)) 12 2
    let hreg := s.regField (Reg.SRV_TTL (r.tenant % 256)) 16 6
    let crc := (crc64 (s.blockBytes b)).toNat
    (b.state = 1 → State.Req.paused r = true → b.psns = [] → (s.host.posts.any fun p => p.2 == .kv slot pos group) = false →
      (∀ c, (∃ a ∈ b.frames, s.poisonedIn a 4096 = true) → exec (.kvSpill slot pos group c) s = .next (s.endReq slot stTtl 6 false 0)) ∧
      ((∀ a ∈ b.frames, s.poisonedIn a 4096 = false) →
        (∀ c, ti = 1 → s.hostRange r.tenant hreg c b.length ≠ none → ∃ t : State, exec (.kvSpill slot pos group (some c)) s =
            .next (t.regionWrite r.tenant hreg c (s.blockBytes b) (.kv slot pos group)) ∧
          t.kvBlock slot pos group = some { b with tier := 2, copy := hreg * 2 ^ 58 + c, crc := crc }) ∧
        (∀ c u, ti ≠ 1 → s.peerFails s.partner = false → s.mirrored = true → c / 2 ^ 44 = s.partner →
          c % 2 ^ 44 + b.length ≤ State.hbmEnd →
          (∀ k ∈ s.serve.kv, k.entry = b.entry ∨ k.tier = 2 ∨ k.copy = 0 ∨ State.overlaps k.copy k.length c b.length = false) →
          s.poolTake r.tenant c b.length = some u →
          (u.putBlock { b with copy := c, crc := crc }).poolReady { b with copy := c, crc := crc } = true → ∃ t ps,
            exec (.kvSpill slot pos group (some c)) s = .next t ∧
            t.kvBlock slot pos group = some { b with tier := 1, copy := c, crc := crc, psns := ps }) ∧
        (ti ≠ 1 → ∃ t, exec (.kvSpill slot pos group none) s = .next t ∧
          t.kvBlock slot pos group = some { b with state := 0, tier := 0, copy := 0 } ∧
          t.req? slot = some { r with holdAt := some (s.clk + s.regField Reg.SRV_KVCFG 0 16 * 1000000) }))) ∧
    (b.state = 3 → b.frames = [] → (s.kvFrames r.tenant (b.length / 4096) = none → exec (.kvFetch slot pos group) s = .next s) ∧
      (∀ fs u, s.kvFrames r.tenant (b.length / 4096) = some (fs, u) → u.kvBlock slot pos group = some b →
        let v := u.putBlock { b with frames := fs, asked := 0 }
        (b.tier = 2 → v.hostRange r.tenant (b.copy / 2 ^ 58) (b.copy % 2 ^ 58) b.length ≠ none → ∃ t,
          exec (.kvFetch slot pos group) s = .next t ∧ t.kvBlock slot pos group = some { b with frames := fs, asked := 1 }) ∧
        (b.tier ≠ 2 → ¬(b.tier = 1 ∧ b.copy / 2 ^ 44 = s.self) → v.self = s.self → v.peerFails (b.copy / 2 ^ 44) = false → ∃ t,
          exec (.kvFetch slot pos group) s = .next t ∧ t.kvBlock slot pos group = some { b with frames := fs, asked := 1 })))) ∧
  (∀ (s : State) (slot : Nat) (r : Req), s.req? slot = some r →
    (s.holdOver r = true → ∃ t, exec (.kvHoldExpiry slot) s = .next t ∧ t.serve.kv =
      s.serve.kv.map fun k => if k.slot == slot && k.state == 0 then { k with state := 1 } else k) ∧
    (s.holdOver r = true → (∃ k ∈ s.serve.kv, k.slot = slot ∧ k.state = 0) → ∃ t, exec (.kvSpillRetry slot) s = .next t ∧
      t.serve.kv = s.serve.kv.map fun k => if k.slot == slot && k.state == 0 then { k with state := 1 } else k) ∧
    (∀ d, r.st = 4 → r.ttlAt = some d → d ≤ s.now → (∀ q i, i ∈ (s.hq r.tenant q).items → i.kind ≠ 2) →
      exec (.ttlExpiry slot) s = .next (s.endReq slot stTtl 0 false 0))) ∧
  (∀ (s : State) (id : Nat),
    (∀ (l : LoftModel) (m : Model) (gs : List Nat) (u v : State), s.variantOf id = some l → s.model? id = some m →
      s.resident id = false → (∃ r ∈ s.serve.reqs, r.2.model = id ∧ r.2.st = 1) →
      let n := ceilDiv l.len (2 ^ 21)
      s.serve.variants.length < 64 → s.regField Reg.SRV_VARST 8 19 + n ≤ s.regField Reg.SRV_VARGRAN 0 19 →
      s.regField (Reg.TNT_GRANUSE m.tenant) 0 19 + n ≤ s.regField (Reg.TNT_GRANLIM m.tenant) 0 19 → n ≤ s.regField Reg.MEM_FREE 0 19 →
      s.allocsFor m.tenant (State.mkGran m.tenant 1 false true false false 0) (fun _ => true) n = some (gs, u) →
      State.mapPages m.tenant 21 (fun a => (State.copyLoft l gs n u).leafTo a true false false false false) (gs.map State.granuleAddr)
        (State.loftVa l) (State.copyLoft l gs n u) = some v →
      ∃ t, exec (.variantSwapIn id) s = .next t ∧
        Tab.find? t.serve.variants id = some { model := id, tenant := m.tenant, grans := gs, idleAt := v.clk } ∧
        t.mem = v.mem ∧ t.grans = v.grans ∧ t.regN Reg.SRV_SWAPS = capAt (2 ^ 32 - 1) (v.regN Reg.SRV_SWAPS + 1)) ∧
    (∀ (v : Variant), Tab.find? s.serve.variants id = some v →
      (s.variantPinned id = false → v.idleAt + s.regField Reg.SRV_VARCFG 16 16 * 1000000000 ≤ s.clk →
        exec (.variantEvict id) s = .next (s.evictVariant id)) ∧
      (s.variantPinned id = true → exec (.variantEvict id) s = .next s)))

/-- O25. In every state each of the commands REGION_SET, RING_SET, FAULTLOG_SET, GENERATE, RESUME, PAUSE, CANCEL,
MODEL_LOAD, CURTAIN, UNLOAD, ADAPTER_LOAD, ADAPTER_REVOKE, REG_READ and REG_WRITE on a queue completes. It parses the
queue's head message if that belongs to the command's row. Where then an item of the row may start, the next state is
that in which the first such item is marked as started and the row's own operation has been applied to it; where none
may start, the next state is the one after the parsing. MODEL_LOAD, CURTAIN, UNLOAD, ADAPTER_LOAD and ADAPTER_REVOKE
that another module accepted complete with what the row does with a forwarded descriptor; the stage manager's BUSY for
an item of this module completes with that item ended BUSY and forgotten. -/
def Obligations.DescriptorCommandsRun : Prop :=
  DescRuns .regionSet 0x30 (fun t q s i => regionSet s t q i) ∧ DescRuns .ringSet 0x31 (fun t q s i => ringSet s t q i) ∧
  DescRuns .faultlogSet 0x32 (fun t q s i => faultlogSet s t q i) ∧ DescRuns .generate 1 (fun t q s i => generateAsk s t q i) ∧
  DescRuns .resume 2 (fun t q s i => resumeAsk s t q i) ∧ DescRuns .pause 3 (fun t q s i => steerAsk 3 s t q i) ∧
  DescRuns .cancel 4 (fun t q s i => steerAsk 4 s t q i) ∧ DescRuns (fun t q => .modelLoad t q .own) 0x120 (fun t q s i => modelLoad s t q i) ∧
  DescRuns (fun t q => .curtain t q .own) 0x220 (fun t q s i => curtainAsk s t q i) ∧
  DescRuns (fun t q => .unload t q .own) 0x320 (fun t q s i => unloadAsk s t q i) ∧
  DescRuns (fun t q => .adapterLoad t q .own) 0x21 (fun t q s i => adapterLoad s t q i) ∧
  DescRuns (fun t q => .adapterRevoke t q .own) 0x22 (fun t q s i => adapterRevoke s t q i) ∧
  DescRuns .regRead 0x40 (fun t q s i => regReadItem s t q i) ∧
  (∀ x : RegExt, DescRuns (fun t q => .regWrite t q x) 0x41 (fun t q s i => regWriteItem s t q i x)) ∧
  (∀ (s : State) (t q m u seq : Nat) (b : List Byte),
    exec (.modelLoad t q (.sent m u b)) s = .next (loadSent s m u b) ∧ exec (.curtain t q (.sent m u b)) s = .next (curtainSent s m u b) ∧
    exec (.unload t q (.sent m u b)) s = .next (unloadSent s m u b) ∧ exec (.adapterLoad t q (.sent m u b)) s = .next (adapterLoadSent s m u b) ∧
    exec (.adapterRevoke t q (.sent m u b)) s = .next (revokeSent s m u b) ∧
    ∀ c ∈ [Instr.modelLoad, Instr.curtain, Instr.unload, Instr.adapterLoad, Instr.adapterRevoke],
      exec (c t q (.busy seq)) s = .next (s.managerBusy t q seq))

/-- O26. In a packet that its port takes (link and port up, protected where MACsec is on, no congestion mark) each of
these commands completes. SEND on a bound pair whose queue holds fewer than 32 unparsed messages: with room in the
ring and nothing waiting before it, and a message of some row at the head then, it is counted and stands behind the
unparsed ones; without room, while the consumer word is being read, it waits for that read. With 32 unparsed messages
the host is told receiver not ready, with the configured timer code, and that is counted. CNP is counted and lowers
the rate of the pair it names. HOST_RDMA_REQUEST on a known pair is counted as dropped, answered with a negative
acknowledgement, and not executed. On an unknown pair SEND and HOST_RDMA_REQUEST are only counted as dropped and CNP
only counted. CONNECTION_REQUEST for a queue of a present tenant, of this module's role or of the role it serves for
its partner, on a free pair number while pairs are left: the pair stands with a nonce of 32 bytes from four free
values, memory is unchanged. A wrong service or an absent tenant is rejected. On a port with link that is not up,
SEND, CONNECTION_REQUEST, CNP, HOST_RDMA_REQUEST and BIND are only counted as dropped; on one without a link nothing
changes. -/
def Obligations.HostArrivals : Prop :=
  (∀ (s : State) (k : HostPkt) (msg : List Byte), PktTaken s k → let key := State.qpKey k.port k.qpn
    (∀ x, s.qp? key = some x → x.doomed = false → x.bound = true → let y := s.hq x.tenant x.queue
      (y.unparsed.length < 32 → s.ringRoom x.tenant x.queue = true → y.asking = [] →
        (∀ m, (y.unparsed ++ [(key, msg)]).head? = some m → rowOf m.2 ≠ 0) →
        exec (.send k msg) s = .next ((s.bump (Reg.HST_RXMSG k.port) 1).setHq x.tenant x.queue
          { y with unparsed := y.unparsed ++ [(key, msg)] })) ∧
      (y.unparsed.length < 32 → s.ringRoom x.tenant x.queue = false → y.ring ≠ none →
        (s.host.posts.any fun p => p.2 == .consumer x.tenant x.queue) = true →
        exec (.send k msg) s = .next (s.setHq x.tenant x.queue { y with asking := y.asking ++ [(key, msg)] })) ∧
      (32 ≤ y.unparsed.length → exec (.send k msg) s = .next ((s.bump (Reg.HST_RNR k.port) 1).emit
        (.hostRnr k.port (k.qpn % 2 ^ 24) (leNat (s.confBytes 4 (1024 * s.self + 7) 1)))))) ∧
    (∀ x, s.qp? key = some x →
      exec (.cnp k) s = .next ((s.bump (Reg.HST_CNPRX k.port) 1).setQp key { x with cuts := x.cuts + 1 }) ∧
      exec (.hostRdmaRequest k) s = .next ((s.bump (Reg.HST_DROP k.port) 1).emit (.hostNak k.port k.qpn))) ∧
    (s.qp? key = none → exec (.send k msg) s = .next (s.bump (Reg.HST_DROP k.port) 1) ∧
      exec (.cnp k) s = .next (s.bump (Reg.HST_CNPRX k.port) 1) ∧
      exec (.hostRdmaRequest k) s = .next (s.bump (Reg.HST_DROP k.port) 1))) ∧
  (∀ (s : State) (k : HostPkt) (role up tn qu : Nat), PktTaken s k →
    (role = s.self ∧ up = 0 ∨ role ≠ s.self ∧ role = s.partner ∧ s.servesPartner = true ∧ up = 256) → tn < 256 → qu < 16 →
    s.present (tn + up) = true → qu < s.tntQueues (tn + up) → s.regField Reg.MGT_BOOT 28 4 ≠ 6 → s.qp? (State.qpKey k.port k.qpn) = none →
    s.regField (Reg.HST_PST k.port) 0 11 < 1024 → s.host.qps.length < 4096 → 0 < k.qpn → k.qpn < 2 ^ 24 →
    ∃ t nonce, exec (.connectionRequest k role (0x4356 * 2 ^ 16 + tn * 256 + qu)) s = .next t ∧ nonce.length = 32 ∧
      t.qp? (State.qpKey k.port k.qpn) = some { tenant := tn + up, queue := qu, nonce := nonce } ∧ t.free = s.free + 4 ∧ t.mem = s.mem) ∧
  (∀ (s : State) (k : HostPkt) (sv : Nat), PktTaken s k → (field sv 16 48 ≠ 0x4356 ∨ s.present (field sv 8 8) = false) →
    exec (.connectionRequest k s.self sv) s = .next (s.emit (.hostReject k.port k.qpn))) ∧
  (∀ (s : State) (k : HostPkt) (role sv : Nat) (msg : List Byte) (t : State),
    (k.port < 4 ∧ s.host.links.elem k.port = true ∧ s.portUp k.port = false ∧ t = s.bump (Reg.HST_DROP k.port) 1 ∨
      s.host.links.elem k.port = false ∧ t = s) →
    exec (.send k msg) s = .next t ∧ exec (.connectionRequest k role sv) s = .next t ∧ exec (.cnp k) s = .next t ∧
    exec (.hostRdmaRequest k) s = .next t ∧ exec (.bind k msg) s = .next t)

/-- O27. BIND in a packet that the port takes, on a pair that is neither bound nor doomed, completes with the one
operation of R253. A message of 2,524 bytes with the header of kind 0x33, the pair's queue, zero reserved bytes and a
signature that verifies over unit, nonce, tenant and queue, for a tenant of this module's role whose queue needs no
recovery: the pair is bound, the queue's status register names it, memory is unchanged. A message with a wrong magic
number: the pair is doomed and not bound, HST_BINDF counts it, memory is unchanged. HST_CAK_LOAD on one of the 4 ports
with MACsec, and HST_CAK_CLEAR on one of the 4 ports, with room in the audit log, complete: memory is unchanged, the
eight key registers read as zero, and the port holds a key (LOAD: that of the registers, and shows KEYED) or none
(CLEAR, and does not show KEYED). HOST_LINK_CHANGE on one of the 4 ports completes: the port is up exactly if its link
is up with its clock and, where MACsec is on, it is keyed and its MKA peer is live; memory and the other ports' links
are unchanged. -/
def Obligations.BindAndPortKeys : Prop :=
  (∀ (s : State) (k : HostPkt) (msg : List Byte) (x : Qp), PktTaken s k → let key := State.qpKey k.port k.qpn
      s.qp? key = some x → x.doomed = false → x.bound = false →
      exec (.bind k msg) s = .next ((s.bump (Reg.HST_RXMSG k.port) 1).bindTry key x msg) ∧
      (x.await = false → x.tenant < 256 → x.queue < 16 → Desc.magic msg = 0x4457 → Desc.version msg = 1 → Desc.kind msg = 0x33 →
        msg.length = 2524 → Desc.length msg = 2524 → Desc.bodyLen msg = 2460 → fieldAt ((msg.drop 64).take 2460) 0 1 = x.queue →
        fieldAt ((msg.drop 64).take 2460) 1 7 = 0 → (s.hq x.tenant x.queue).mark = s.repochOf x.tenant →
        s.bindVerifies x.tenant (sha3 (s.unitId ++ x.nonce ++ leBytes 1 x.tenant ++ leBytes 1 x.queue))
          (((msg.drop 64).take 2460).drop 40) = true →
        ∃ t, exec (.bind k msg) s = .next t ∧ t.mem = s.mem ∧ t.queueQp x.tenant x.queue = some key ∧
          ∃ y, t.qp? key = some y ∧ y.bound = true ∧ y.doomed = false) ∧
      (x.await = false → Desc.magic msg ≠ 0x4457 → ∃ t, exec (.bind k msg) s = .next t ∧ t.mem = s.mem ∧
        t.regN (Reg.HST_BINDF k.port) = capAt (2 ^ 32 - 1) (s.regN (Reg.HST_BINDF k.port) + 1) ∧
        ∃ y, t.qp? key = some y ∧ y.bound = false ∧ y.doomed = true)) ∧
  (∀ (s : State) (port : Nat), port < 4 → s.logRefuses = false →
      (s.regBit (Reg.HST_PST port) 30 = true → ∃ t, exec (.hstCakLoad port) s = .next t ∧ t.mem = s.mem ∧
        Tab.find? t.host.caks port = some ((List.range 8).flatMap fun j => leBytes 4 (s.regN (Reg.HST_CAK port j))) ∧
        t.regBit (Reg.HST_PST port) 28 = true ∧ ∀ j, j < 8 → t.regN (Reg.HST_CAK port j) = 0) ∧
      (∃ t, exec (.hstCakClear port) s = .next t ∧ t.mem = s.mem ∧ Tab.find? t.host.caks port = none ∧
        t.regBit (Reg.HST_PST port) 28 = false ∧ ∀ j, j < 8 → t.regN (Reg.HST_CAK port j) = 0)) ∧
  (∀ (s : State) (port : Nat) (link mka : Bool), port < 4 → ∃ t, exec (.hostLinkChange port link mka) s = .next t ∧ t.mem = s.mem ∧
      t.portUp port = (link && !s.regBit Reg.CLK_STATUS port &&
        (!s.regBit (Reg.HST_PST port) 30 || (s.regBit (Reg.HST_PST port) 28 && mka))) ∧
      ∀ h, h ≠ port → (h ∈ t.host.links ↔ h ∈ s.host.links))

/-- O28. On a queue of a tenant of this module's role, where the item named is the first of its row that may start, each
of these commands completes. REGION_SET with fields in range on a region that no page maps: the region has the length
of the descriptor, and where that is not 0 its key and base (a length of 0 removes it), memory is unchanged, then the
item ends with OK. RING_SET of one of the tenant's queues with a power of two from 64 to 65,536 entries, a ring on a
32-byte boundary and a consumer word inside host regions, and no other item on that queue: the queue has that ring,
empty, memory is unchanged, then the item ends with OK. FAULTLOG_SET with a power of two from 64 to 4,096 entries
inside a region: the tenant's fault log is that one, empty, memory is unchanged, then the item ends with OK.
COMPLETION_WRITE on an open queue with a ring, rebound where it was recovered, with an item whose record may be
written, no key change waiting, and its place in a host region: the item leaves the queue, the ring counts one more
record, memory is unchanged; while no partner mirrors and the port is up, the record of 32 bytes goes to its place at
the host. Without such an item nothing changes. COMPLETION_NOTICE of a ring with records not notified, whose
moderation count or time is reached: the count starts anew, registers and memory are unchanged, and then one
completion notice with that count is sent to the ring's event pair. -/
def Obligations.RingsAndRecords : Prop :=
  (∀ (s : State) (tn q : Nat) (i : Item), tn < 256 → q < 16 → let b := fieldAt (Desc.body i.desc)
      (startableItem s tn q 0x30 = some i → b 0 1 < 64 → b 1 1 < 4 → b 2 2 = 0 → b 12 4 = 0 → b 4 4 < 2 ^ 24 →
        (itemStarts s tn q 0x30 i).regionMapped tn (b 0 1) = false →
        ∃ u : State, exec (.regionSet tn q) s = .next (u.finishSt tn q i.seq stOk) ∧ u.mem = s.mem ∧
          u.hostLen tn (b 0 1) = (if b 24 8 = 0 then none else some (b 24 8)) ∧
          (b 24 8 ≠ 0 → u.regN (Reg.TNT_HRKEY tn (b 0 1)) = b 8 4 ∧
            u.reg64 (Reg.TNT_HRBASEL tn (b 0 1)) (Reg.TNT_HRBASEH tn (b 0 1)) = b 16 8)) ∧
      (startableItem s tn q 0x31 = some i →
        let u := itemStarts s tn q 0x31 i
        b 0 1 < u.tntQueues tn → b 0 1 < 16 → b 1 3 = 0 → powIn 64 65536 (b 4 4) = true → ∀ p c,
        u.hostRange tn (refRegion (b 8 8)) (refOff (b 8 8)) (32 * b 4 4) = some p → p.2.2.2 % 32 = 0 →
        u.hostRange tn (refRegion (b 16 8)) (refOff (b 16 8)) 8 = some c →
        (∀ j ∈ (u.hq tn (b 0 1)).items, b 0 1 = q ∧ j.seq = i.seq ∧ j.refused = false) →
        ∃ v : State, exec (.ringSet tn q) s = .next (v.finishSt tn q i.seq stOk) ∧ v.mem = s.mem ∧
          (v.hq tn (b 0 1)).ring = some { entries := b 4 4, region := refRegion (b 8 8), off := refOff (b 8 8), cregion := refRegion (b 16 8), coff := refOff (b 16 8), evqp := b 24 4, modCount := b 28 2, modTime := b 30 2 }) ∧
      (startableItem s tn q 0x32 = some i →
        let u := itemStarts s tn q 0x32 i
        powIn 64 4096 (b 8 4) = true → b 12 4 = 0 → ∀ p,
        u.hostRange tn (refRegion (b 0 8)) (refOff (b 0 8)) (32 * b 8 4) = some p →
        ∃ v : State, exec (.faultlogSet tn q) s = .next (v.finishSt tn q i.seq stOk) ∧ v.mem = s.mem ∧
          Tab.find? v.host.flogs tn = some { region := refRegion (b 0 8), off := refOff (b 0 8), entries := b 8 4 })) ∧
  (∀ (s : State) (tn q : Nat) (r : Ring), tn < 256 → q < 16 → (s.hq tn q).ring = some r →
    (∀ (i : Item) (rest : List Item) (p : Nat × Nat × Nat × Nat), (s.hq tn q).closed = false → (s.hq tn q).mark = s.repochOf tn →
      s.writable tn q [] (s.hq tn q).items = some (i, rest) → s.host.cakWait = [] →
      s.hostRange tn r.region (r.off + 32 * (r.written % r.entries)) 32 = some p →
      ∃ t r1, exec (.completionWrite tn q) s = .next t ∧ t.mem = s.mem ∧ (t.hq tn q).items = rest ∧ (t.hq tn q).ring = some r1 ∧
        r1.written = r.written + 1 ∧ r1.entries = r.entries ∧ (s.mirrored = false → s.portUp p.1 = true →
          Out.hostWrite s.host.nextId p.1 p.2.1 p.2.2.1 p.2.2.2 (s.record tn q r.written r.entries i (i.done.getD { status := stOk })) ∈ t.out)) ∧
    ((s.hq tn q).mark ≠ s.repochOf tn ∨ s.writable tn q [] (s.hq tn q).items = none → exec (.completionWrite tn q) s = .next s) ∧
    (r.since ≠ 0 → (r.modCount ≠ 0 ∧ r.modCount ≤ r.since ∨ r.modTime ≠ 0 ∧ r.firstAt + 1000 * r.modTime ≤ s.clk) →
      ∃ u : State, exec (.completionNotice tn q) s = .next (u.sendRing tn q (s.eventMsg 0 tn q stOk r.since (s.lastSeq tn q) 0)) ∧
        (u.hq tn q).ring = some { r with since := 0 } ∧ u.regs = s.regs ∧ u.mem = s.mem))

/-- O29. In a packet that its port takes, HOST_WRITE_ACK and RDMA_READ_RESPONSE complete; the request they answer is open
no more. HOST_WRITE_ACK: an acknowledged result of an item, or any answer to a plain write, changes nothing else; a
failed result ends the item by the one rule for output errors. An acknowledged completion record is mirrored as
acknowledged; a failed one is written again at its place. An acknowledged store to a host page ends the move's wait
for it, a failed one fails it. An acknowledged spill gives up the block's frames, a failed one loses the block. The
answer to an event message frees its pair, and sends what was merged meanwhile. RDMA_READ_RESPONSE: a consumer word
becomes the ring's consumed count, memory is unchanged, and then the messages that waited for it are taken. A
referenced payload stands at its item; a RoCE error ends that item with FAULT. Data for a load that waits stands in
stage memory and ends the move's wait; an error fails it. Data of a KV block that is being fetched is written into its
frames and the fetch goes on; an error loses the block. An answer to no open request changes nothing. -/
def Obligations.HostAnswers : Prop :=
  ∀ (s : State) (k : HostPkt) (id : Nat), PktTaken s k → let u := s.setHost { s.host with posts := Tab.drop s.host.posts id }
    (∀ tn q seq, Tab.find? s.host.posts id = some (.results tn q seq) → exec (.hostWriteAck k id true) s = .next u ∧
      exec (.hostWriteAck k id false) s = .next (outputError u tn q seq)) ∧
    (∀ tn q r o b, Tab.find? s.host.posts id = some (.record tn q r o b) →
      exec (.hostWriteAck k id true) s = .next (u.roleRec (s.roleOf tn) State.recAcked b) ∧
      exec (.hostWriteAck k id false) s = .next (u.regionWrite tn r o b (.record tn q r o b))) ∧
    (∀ ok, Tab.find? s.host.posts id = some .plain → exec (.hostWriteAck k id ok) s = .next u) ∧
    (∀ n p va, Tab.find? s.host.posts id = some (.moveOut n p va) →
      exec (.hostWriteAck k id true) s = .next (u.dropAwait fun a => a == Await.host id va) ∧
      exec (.hostWriteAck k id false) s = .next (u.failAwait fun a => a == Await.host id va)) ∧
    (∀ slot pos group, Tab.find? s.host.posts id = some (.kv slot pos group) →
      exec (.hostWriteAck k id true) s = .next (u.spillDone slot pos group) ∧
      exec (.hostWriteAck k id false) s = .next (u.loseBlock slot) ∧
      exec (.rdmaReadResponse k id none) s = .next (u.loseBlock slot) ∧
      (∀ b d, s.kvBlock slot pos group = some b → b.state = 3 →
        exec (.rdmaReadResponse k id (some d)) s = .next ((u.blockWrite b 0 d).fetchDone slot pos group))) ∧
    (∀ key x ok, Tab.find? s.host.posts id = some (.event key) → s.qp? key = some x → x.doomed = false →
      exec (.hostWriteAck k id ok) s = .next (match x.merged with
        | none => u.setQp key { x with await := false, merged := none }
        | some m => (u.setQp key { x with await := false, merged := none }).sendMsg key m)) ∧
    (∀ tn q r d, Tab.find? s.host.posts id = some (.consumer tn q) → (s.hq tn q).ring = some r →
      ∃ v : State, exec (.rdmaReadResponse k id (some d)) s = .next (State.acceptJunk tn q 33 (v.takeAsking tn q)) ∧
        v.hq tn q = { s.hq tn q with ring := some { r with consumed := fieldAt d 0 8 } } ∧ v.mem = s.mem) ∧
    (∀ tn q seq d, Tab.find? s.host.posts id = some (.payload tn q seq) →
      exec (.rdmaReadResponse k id (some d)) s = .next (u.updItem tn q seq fun i => { i with payload := some d }) ∧
      exec (.rdmaReadResponse k id none) s = .next (u.finishSt tn q seq stFault)) ∧
    (∀ n p va stage d, Tab.find? s.host.posts id = some (.moveIn n p va stage) → u.awaiting (fun a => a == Await.host id va) ≠ [] →
      exec (.rdmaReadResponse k id (some d)) s = .next ((u.writeBytes stage d).dropAwait fun a => a == Await.host id va) ∧
      exec (.rdmaReadResponse k id none) s = .next (u.failAwait fun a => a == Await.host id va)) ∧
    (∀ ok d, Tab.find? s.host.posts id = none → exec (.hostWriteAck k id ok) s = .next s ∧ exec (.rdmaReadResponse k id d) s = .next s)

/-- O30. On a queue of a tenant of this module's role, where the item named is the first of its row that may start, each
of these commands completes. GENERATE within its rules while admission is open, with rate limits off, no deadline, a
free slot for the tenant and for the module, memory within the tenant's limit and the model's quota, and room in the
admission queue: the item stands at the end of the queue, ADM_QLEN counts it and memory is unchanged. While admission
is closed it is turned away BUSY with a hint of 100 ms; outside its rules it ends MALFORMED. RESUME that is ill-formed
ends MALFORMED; one of a request that no slot holds ends with its kept status; one within its rules of a request that
is paused for the host, while admission is open, goes through the checks of R323. PAUSE and CANCEL of a request in
prefill or decode stand behind what the request was asked before; CANCEL of an admitted request ends it with reason 2
and the item ends OK; PAUSE of an admitted one ends BUSY with a hint of 1 ms. -/
def Obligations.ServingRequests : Prop :=
  ∀ (s : State) (tn q : Nat) (i : Item), tn < 256 → q < 16 → let b := Desc.body i.desc
    (startableItem s tn q 1 = some i → let u := itemStarts s tn q 1 i
      (u.generateOk tn i = false → exec (.generate tn q) s = .next (u.finish tn q i.seq { status := stMalformed })) ∧
      (u.generateOk tn i = true → u.regBit Reg.ADM_STATUS 31 = false →
        exec (.generate tn q) s = .next (u.refuseBusy tn q i.seq 100000000 false)) ∧
      (∀ m, u.model? (Desc.model i.desc) = some m → u.generateOk tn i = true → u.regBit Reg.ADM_STATUS 31 = true →
        Desc.deadline i.desc = 0 → u.regN (Reg.ADM_RQRATE tn) = 0xFFFFFFFF → u.regN (Reg.ADM_TKRATE tn) = 0xFFFFFFFF →
        u.regField (Reg.TNT_SLOTS tn) 0 16 + (u.serve.queue.filter fun x => x.tenant == tn).length < u.regField (Reg.TNT_SLOTS tn) 16 16 →
        (u.serve.queue.filter fun x => u.roleOf x.tenant == u.self).length < 32768 - (u.serve.reqs.filter fun r => u.roleOf r.2.tenant == u.self).length →
        (let need := u.granulesFor tn (u.resvPages m none (fieldAt b 0 4) (fieldAt b 4 4))
         u.regField (Reg.TNT_GRANUSE tn) 0 19 + need ≤ u.regField (Reg.TNT_GRANLIM tn) 0 19 ∧ need ≤ u.quotaOf (Desc.model i.desc)) →
        u.serve.queue.length < u.regField Reg.ADM_QDEPTH 0 16 →
        ∃ t, exec (.generate tn q) s = .next t ∧ t.serve.queue = u.serve.queue ++
            [{ tenant := tn, q := q, seq := i.seq, prio := Desc.prio i.desc, order := u.serve.order + 1 }] ∧
          t.regN Reg.ADM_QLEN = u.serve.queue.length + 1 ∧ t.mem = u.mem)) ∧
    (startableItem s tn q 2 = some i → let u := itemStarts s tn q 2 i
      (u.resumeForm tn i = false → exec (.resume tn q) s = .next (u.finish tn q i.seq { status := stMalformed })) ∧
      (u.resumeForm tn i = true → u.namedReq tn b = none →
        exec (.resume tn q) s = .next (u.finish tn q i.seq { status := u.namedEnd tn b })) ∧
      (∀ slot r, u.resumeForm tn i = true → u.namedReq tn b = some (slot, r) → r.st = 4 → u.resumeOk tn i r = true →
        u.regBit Reg.ADM_STATUS 31 = true → exec (.resume tn q) s = .next (u.receive tn q i (u.model? r.model) (some slot)
          (fieldAt b 16 4) (r.context.length + fieldAt b 16 4) (fieldAt b 20 4)))) ∧
    (startableItem s tn q 3 = some i → let u := itemStarts s tn q 3 i
      ∀ slot r, fieldAt b 1 7 = 0 → u.namedReq tn b = some (slot, r) →
        (r.st = 1 → exec (.pause tn q) s = .next (u.finishBusy tn q i.seq 1000000)) ∧
        (r.st = 2 ∨ r.st = 3 → exec (.pause tn q) s = .next (u.putReq slot { r with asked := r.asked ++ [(3, q, i.seq)] }))) ∧
    (startableItem s tn q 4 = some i → let u := itemStarts s tn q 4 i
      ∀ slot r, fieldAt b 1 7 = 0 → u.namedReq tn b = some (slot, r) →
        (r.st = 1 → exec (.cancel tn q) s = .next ((u.endReq slot stOk 2 false 0).finish tn q i.seq { status := stOk })) ∧
        (r.st = 2 ∨ r.st = 3 → exec (.cancel tn q) s = .next (u.putReq slot { r with asked := r.asked ++ [(4, q, i.seq)] })))

/-- O31. In every state each of these commands completes. BUCKET_REFILL changes nothing but the two bucket tables; of a
table that lists each tenant once, every level moves as R324 says: up by the rate, or to the burst where the rate is
unlimited, and a bucket that is full is no longer listed. OVERLOAD_WINDOW: the window's spent time and new work start
at 0, the last window's work is what was admitted in this one, the sustained value moves as R328 says, requests,
admission queue, host ports and memory stay, and ADM_STATUS.OVERLOAD is on where the backlog exceeds a fifth of it,
off after two windows below a twentieth of it, else as before. PLACEMENT_PASS: the next state is that in which as many
items as the queue holds have been tried in the order of R325, and a pass is noted; over an empty queue only the note
is made. -/
def Obligations.BucketsAndWindows : Prop :=
  (∀ s : State, ∃ rq tk, exec .bucketRefill s = .next { s with serve := { s.serve with rq := rq, tk := tk } } ∧
    ((s.serve.rq.map Prod.fst).Nodup → ∀ k, Tab.find? rq k = (match Tab.find? s.serve.rq k with
      | none => none
      | some x => refill (some x) (s.regN (Reg.ADM_RQRATE (k % 256))) (s.regField (Reg.ADM_RQBURST (k % 256)) 0 16))) ∧
    ((s.serve.tk.map Prod.fst).Nodup → ∀ k, Tab.find? tk k = (match Tab.find? s.serve.tk k with
      | none => none
      | some x => refill (some x) (s.regN (Reg.ADM_TKRATE (k % 256))) (s.regN (Reg.ADM_TKBURST (k % 256)))))) ∧
  (∀ (s : State) (w : Bool) (qs : List (Nat × Nat)),
    let back := ((s.serve.reqs.filter fun r => r.2.st == 1 || r.2.st == 2).map fun r => r.2.work).sum
    let sust := if w then (3 * s.serve.sust + s.serve.spent) / 4 else max s.serve.sust s.serve.spent
    ∃ t, exec (.overloadWindow w qs) s = .next t ∧ t.serve.spent = 0 ∧ t.serve.workNow = [] ∧ t.serve.workLast = s.serve.workNow ∧
      t.serve.sust = sust ∧ t.serve.reqs = s.serve.reqs ∧ t.serve.queue = s.serve.queue ∧ t.mem = s.mem ∧ t.host = s.host ∧
      t.regBit Reg.ADM_STATUS 30 = (if s.regBit Reg.ADM_STATUS 30 = false ∧ sust / 5 < back then true
        else if s.regBit Reg.ADM_STATUS 30 = true ∧ back < sust / 20 ∧ 1 ≤ s.serve.calm then false else s.regBit Reg.ADM_STATUS 30)) ∧
  (∀ s : State, exec .placementPass s = .next (State.passItems s.serve.queue.length s.serve.queue { s with boot := { s.boot with passed := true } }) ∧
    (s.serve.queue = [] → exec .placementPass s = .next { s with boot := { s.boot with passed := true } }))

/-- O32. STEP_FORMATION for a model that runs no step, is not fenced, pausing, being rebuilt or near its split, at an
epoch that it may run, its variant resident where it is one, with a request to take, completes: the step is noted with
the epoch, the decode requests taken up to the batch limit and the prefill chunks cut after them, and each of its
requests is in the step. While a step of the model runs, or it is fenced, being rebuilt or near its split, nothing
changes; of a model that pauses the running requests are paused. STEP_BOUNDARY of a step for which every request's
results are there completes and the model runs no step; where one's are not nothing changes. Of a step of one request
in decode without a draft model, deadline, streaming or held items, whose token, drawn from its scores with the seed
of the request, is no stop token, with room for more tokens, in a model that does not pause: the token stands at the
end of the request's context and of its segment's tokens, the request is in decode and in no step. DEADLINE_EXPIRY of
a request outside a step with a segment whose deadline has passed completes: it ends with DEADLINE and no slot holds
it. -/
def Obligations.StepsAndDeadlines : Prop :=
  (∀ (s : State) (id e batch : Nat) (m : Model), s.model? id = some m → m.fenced = false → m.pausing = false →
    s.rebuilding id = false → s.splitNear id = false → Tab.find? s.serve.steps id = none → (m.kind ≠ 1 ∨ m.gen = true) → (∃ x ∈ m.live, x.number = e) → (m.pinscope ≠ 1 ∨ e = m.current) →
    (s.variantOf id = none ∨ s.resident id = true) →
    let d := State.takeDecode batch (s.candidates id e m fun r => r.st == 3) [] s
    let pre := (d.2.candidates id e m fun r => r.st == 1 || r.st == 2).filter fun x => d.2.blocksHere x.1
    let chunks := State.takePrefill (s.regField Reg.SRV_STEPCFG 0 16) (pre.foldl (fun l x => State.insPrefill x l) []) []
    d.1 ++ chunks.map Prod.fst ≠ [] → ∃ t run, exec (.stepFormation id e batch) s = .next t ∧ Tab.find? t.serve.steps id = some run ∧
      run.slots = d.1 ++ chunks.map Prod.fst ∧ run.chunks = chunks ∧ run.epoch = e ∧
      ∀ k ∈ run.slots, ∀ r, t.req? k = some r → r.inStep = true) ∧
  (∀ (s : State) (id e batch : Nat) (m : Model), s.model? id = some m →
    ((Tab.find? s.serve.steps id).isSome = true ∨ m.fenced = true ∨ s.rebuilding id = true ∨ s.splitNear id = true → exec (.stepFormation id e batch) s = .next s) ∧
    ((Tab.find? s.serve.steps id) = none → m.fenced = false → s.rebuilding id = false → s.splitNear id = false → m.pausing = true →
      exec (.stepFormation id e batch) s = .next (s.curtainPause id))) ∧
  (∀ (s : State) (id : Nat) (rows : List StepRow) (a b : Nat) (run : StepRun), Tab.find? s.serve.steps id = some run →
    ((∀ k ∈ run.slots, s.rowReady run rows k = true) →
      ∃ t, exec (.stepBoundary id rows a b) s = .next t ∧ Tab.find? t.serve.steps id = none) ∧
    ((∃ k ∈ run.slots, s.rowReady run rows k = false) → exec (.stepBoundary id rows a b) s = .next s)) ∧
  (∀ (s : State) (id slot a b : Nat) (run : StepRun) (r : Req) (g : Segm) (p : PosRow) (k : Token), Tab.find? s.serve.steps id = some run →
    run.slots = [slot] → run.chunks = [] → p.scores ≠ [] → p.probs.length = p.scores.length →
    k = tokenOf p.probs (sampleTok r.seed 0 0 r.context.length r.samp.beta p.scores) → p.scores ≠ [] → p.probs.length = p.scores.length →
    roundTokens r.seed r.samp.beta r.context.length 0 [p] = [k] → s.req? slot = some r → r.inStep = true → r.st = 3 → r.ending = none → r.asked = [] →
    r.seg = some g → g.deadline = 0 → r.samp.draft = 0 → tbit r.samp.gflags 1 = false → r.samp.stops.elem k.id.toNat = false →
    g.tokens.length + 1 < g.maxnew → (∀ m, s.model? id = some m → m.pausing = false) →
    ∃ t r' g', exec (.stepBoundary id [{ slot := slot, pos := [p] }] a b) s = .next t ∧ t.req? slot = some r' ∧
      r'.context = r.context ++ [k.id.toNat] ∧ r'.inStep = false ∧ r'.st = 3 ∧ r'.seg = some g' ∧ g'.tokens = g.tokens ++ [k]) ∧
  (∀ (s : State) (slot : Nat) (r : Req), s.req? slot = some r → r.inStep = false → s.inTime r = false → r.seg ≠ none →
    exec (.deadlineExpiry slot) s = .next (s.endReq slot stDeadline 4 false 0) ∧ (s.endReq slot stDeadline 4 false 0).req? slot = none)

/-- O33. On a queue where the item named is the first of its row that may start, each of these commands completes.
MODEL_LOAD with a well-formed descriptor under the item's number, of formats that the tenant may use, for a model that
is not registered: the model is registered as the descriptor says, memory is unchanged, and then the item ends OK; a
loft model's pages are mapped too. CURTAIN with a well-formed body for a model of the tenant, and, on the stage
manager, fewer than 16 requests queued: the request stands at the end of the queue, memory is unchanged. UNLOAD of a
model of the tenant with no curtain queued or running that is not being unloaded: with no live epoch and no request of
it the model is gone; with a live epoch it is being unloaded for that item. ADAPTER_LOAD of a blob with the right
length, digest and records and a version above those there, of a tenant that may use BF16, with room in the audit log
and, on the stage manager, in the queue: the blob is kept, the request stands at the end of the queue, memory is
unchanged. ADAPTER_REVOKE for a model of the tenant with room in the audit log: the revocation stands behind the
others for that item, memory is unchanged; on the stage manager its cue time is at least 1 ms ahead. -/
def Obligations.ModelsAndAdapters : Prop :=
  ∀ (s : State) (tn q : Nat) (i : Item), let b := Desc.body i.desc; let d := i.payload.getD []; let id := State.keyOf tn (fieldAt b 4 4)
    (startableItem s tn q 0x120 = some i → let u := itemStarts s tn q 0x120 i; let m := modelOf tn d
      fieldAt b 1 3 = 0 → fieldAt b 8 8 = 0 → fieldAt b 4 4 = fieldAt d 8 4 → descriptorOk u tn d = true →
      m.fmts.all (fmtAllowed (u.fmtMask tn)) = true → u.model? id = none →
      (m.kind ≠ 3 → ∃ t : State, exec (.modelLoad tn q .own) s = .next (t.finishSt tn q i.seq stOk) ∧ t.model? id = some m ∧ t.mem = u.mem) ∧
      (∀ l v, ((u.putModel id m).forward m i).loftEntry id = some l → ((u.putModel id m).forward m i).mapLoft tn l = some v →
        exec (.modelLoad tn q .own) s = .next (v.finishSt tn q i.seq stOk))) ∧
    (startableItem s tn q 0x220 = some i → let u := itemStarts s tn q 0x220 i
      ∀ m, u.model? id = some m → curtainBodyOk m tn b d = true → (u.isManager = true → u.curtain.queue.length < 16) →
      ∃ t, exec (.curtain tn q .own) s = .next t ∧ t.mem = u.mem ∧ t.curtain.queue = u.curtain.queue ++
        [{ origin := u.roleOf tn, submit := some (tn, q, i.seq), dir := fieldAt b 1 1, model := id, adapter := 0, aver := 0,
           earliest := fieldAt b 16 8, records := d }]) ∧
    (startableItem s tn q 0x320 = some i → let u := itemStarts s tn q 0x320 i
      ∀ m, u.model? id = some m → m.tenant = tn → fieldAt b 1 3 = 0 → fieldAt b 8 8 = 0 → u.curtainOpen id = false → m.unloading = false →
      (∃ t, exec (.unload tn q .own) s = .next t ∧
        (m.live = [] → (∀ r ∈ u.serve.reqs, r.2.model ≠ id) → t.model? id = none) ∧
        (m.live ≠ [] → t.model? id = some { m with unloading := true, unload := some (tn, q, i.seq) }))) ∧
    (startableItem s tn q 0x21 = some i → let u := itemStarts s tn q 0x21 i
      ∀ m, u.model? id = some m → m.tenant = tn → fieldAt b 8 8 = d.length → d.length ≤ 2 ^ 28 → sha3 d = sliceBytes b 16 32 →
      fieldAt b 0 2 ≠ 0 → adapterRecords m (d.length + 1) d ≠ none →
      (∀ x ∈ u.curtain.adapters, x.2.model = id → x.2.adapter = fieldAt b 0 2 → x.2.version < fieldAt b 2 2) →
      fmtAllowed (u.fmtMask tn) 1 = true → u.logRefuses = false → (u.isManager = true → u.curtain.queue.length < 16) →
      ∃ t, exec (.adapterLoad tn q .own) s = .next t ∧ t.mem = u.mem ∧
        t.curtain.blobs = u.curtain.blobs ++ [{ model := id, adapter := fieldAt b 0 2, version := fieldAt b 2 2, bytes := d }] ∧
        t.curtain.queue = u.curtain.queue ++
          [{ origin := u.roleOf tn, submit := some (tn, q, i.seq), dir := 2, model := id, adapter := fieldAt b 0 2,
             aver := fieldAt b 2 2, earliest := 0, records := [], length := d.length }]) ∧
    (startableItem s tn q 0x22 = some i → let u := itemStarts s tn q 0x22 i
      ∀ m, u.model? id = some m → m.tenant = tn → u.logRefuses = false → ∃ t x, exec (.adapterRevoke tn q .own) s = .next t ∧
        t.mem = u.mem ∧ t.curtain.revokes = u.curtain.revokes ++ [x] ∧ x.model = id ∧ x.adapter = fieldAt b 0 2 ∧
        x.version = fieldAt b 2 2 ∧ x.submit = some (tn, q, i.seq) ∧ (u.isManager = true → u.now + 1000000 ≤ x.at_))

/-- O34. CURTAIN_DEQUEUE on the stage manager, with a request that may go for a model registered here, completes: the
request is out of the queue and a curtain under the next number stands here in phase 0 with its model, direction and
item, every member of the model among its members; memory is unchanged. CURTAIN_MANIFEST of at least 64 bytes for a
tenant of this module's role, with cue times, for a number whose curtain here, if any, is in phase 0, completes: the
curtain stands in phase 1 with the model, epoch, cue times and members named, and CUR_NUM shows it. NOT_READY_REPORT
for a curtain known here, up to t_V + 1 ms, completes: the member's reason is noted, memory is unchanged, and without
an abort time at least 1 ms ahead the cue sheet is too. MASK_RESEND for a curtain known here completes: this member,
fenced, applies the mask; on the stage manager the mask goes to another member. STAGE_MANAGER_RECOVERY on the stage
manager for a curtain known here completes: the decision, commit exactly if some mask holds every member, goes to each
other member that is fenced, and this member applies it where it is fenced itself. -/
def Obligations.CurtainManagement : Prop :=
  (∀ (s : State) (r : CurtainReq) (m : Model), s.isManager = true → s.curtain.queue.find? s.mayDequeue = some r → s.model? r.model = some m →
    ∃ t c, exec .curtainDequeue s = .next t ∧ t.mem = s.mem ∧ t.curtain.number = s.curtain.number + 1 ∧
      t.curtain.queue = s.curtain.queue.erase r ∧ t.run? (s.curtain.number + 1) = some c ∧ c.model = r.model ∧ c.dir = r.dir ∧
      (∀ x ∈ m.members, x ∈ c.members) ∧ c.submit = r.submit ∧ c.phase = 0) ∧
  (∀ (s : State) (b : List Byte) (rel ad tn : Nat) (ms : List Nat), 64 ≤ b.length → tn < 256 →
    (∀ c ∈ s.curtain.runs, c.1 = fieldAt b 8 4 → c.2.phase = 0) →
    ¬(fieldAt b 6 1 = 0 ∧ fieldAt b 24 8 = 0 ∧ fieldAt b 48 8 = 0 ∧ rel = 0) →
    ∃ t c, exec (.curtainManifest b rel ad tn ms none) s = .next t ∧ t.run? (fieldAt b 8 4) = some c ∧ c.phase = 1 ∧ c.model = fieldAt b 12 4 ∧
      c.epoch = fieldAt b 16 2 ∧ c.cues = [fieldAt b 24 8, fieldAt b 32 8, fieldAt b 40 8, fieldAt b 48 8, rel] ∧ c.members = ms ∧
      t.regN Reg.CUR_NUM = fieldAt b 8 4) ∧
  (∀ (s : State) (num member reason at_ : Nat) (c : Curtain), s.run? num = some c → s.now ≤ c.cues.getD 2 0 + 1000000 →
    ∃ t, exec (.notReadyReport num member reason at_) s = .next t ∧ Tab.find? t.curtain.reasons member = some reason ∧ t.mem = s.mem ∧
      (at_ < s.now + 1000000 → t.time = s.time)) ∧
  (∀ (s : State) (num member : Nat) (mask : List Nat) (c : Curtain), s.run? num = some c →
    (member = s.roleAt num → c.fenced = true → exec (.maskResend num member mask) s = .next (s.maskArrives c mask)) ∧
    (member ≠ s.roleAt num → s.isManager = true → exec (.maskResend num member mask) s = .next (s.emit (.maskTo member (num % 2 ^ 32) mask)))) ∧
  (∀ (s : State) (num : Nat) (masks : List (List Nat)) (fenced : List Nat) (c : Curtain), s.run? num = some c → s.isManager = true →
    let mask := if ∃ m ∈ masks, ∀ y ∈ c.members, y ∈ m then c.members else []
    let t := (fenced.filter (· != s.roleAt num)).foldl (fun s x => s.emit (.maskTo x (num % 2 ^ 32) mask)) s
    (s.roleAt num ∉ fenced ∨ c.fenced = false → exec (.stageManagerRecovery num masks fenced) s = .next t) ∧
    (s.roleAt num ∈ fenced → c.fenced = true → exec (.stageManagerRecovery num masks fenced) s = .next (t.maskArrives c mask)))

/-- O35. For a curtain known here whose cue is taken, each of these commands completes. ANNOUNCE with the model
registered: with room for the wings the curtain is in phase 2 with them, CUR_STATE shows 2, memory and granule table
are those of the allocation; while granules are being zeroed for them it is in phase 2 and waits, memory unchanged.
SEAL: the curtain is in phase 4, and CUR_STATE shows 4. VERIFY: it is in phase 5 with the verdict as its reason,
CUR_STATE shows 5, memory is unchanged, and, while no partner mirrors, the ready bit with the reason goes out. COMMIT
with the model registered: with a mask of every member the curtain holds it in phase 6, unfenced, and CUR_COMMITS
counts; with a mask that lacks a member it holds it and is aborted, memory unchanged; without a mask curtain and model
are fenced, memory unchanged. RELEASE: the next state is that of the one release operation of R296, and a curtain that
is not fenced is forgotten. CURTAIN_ABORT, its cue arriving with it or there already: from VERIFY on nothing changes
but the cue sheet; before it a curtain that is not fenced is forgotten. With no cue due none of them changes anything. -/
def Obligations.CurtainPhases : Prop :=
  ∀ (s : State) (num : Nat) (c : Curtain), s.run? num = some c → c.num = num →
    let taken := fun (s : State) (action sub : Nat) => s.takeCue action sub (num % 2 ^ 32) (some (s.roleAt num))
    (∀ u m, taken s cueCurtain 1 = some u → u.model? c.model = some m →
      let v := u.putModel c.model (if c.dir = 0 then { m with holdTrain := true } else if c.dir = 1 && m.kind == 1 then { m with holdGen := true } else m)
      (∀ w x, v.allocWings c m = some (w, x) → ∃ t, exec (.announce num) s = .next t ∧ t.run? num = some { c with wings := w, phase := 2 } ∧
        t.regField Reg.CUR_STATE 0 4 = 2 ∧ t.mem = x.mem ∧ t.grans = x.grans) ∧
      (v.allocWings c m = none → v.zeroing = true → ∃ t, exec (.announce num) s = .next t ∧
        t.run? num = some { c with waits := true, phase := 2 } ∧ t.mem = v.mem)) ∧
    (∀ u, taken s cueCurtain 2 = some u → ∃ t k, exec (.seal num) s = .next t ∧ t.run? num = some k ∧ k.phase = 4 ∧
      t.regField Reg.CUR_STATE 0 4 = 4) ∧
    (∀ u, taken s cueCurtain 3 = some u → let r := c.verdict (u.tntState c.tenant == 2)
      ∃ t, exec (.verify num) s = .next t ∧ t.run? num = some { c with reason := r, phase := 5 } ∧ t.regField Reg.CUR_STATE 0 4 = 5 ∧
        t.mem = s.mem ∧ (s.mirrored = false → Out.ready (s.roleAt num) (num % 2 ^ 32) (r == 0) r ∈ t.out)) ∧
    (∀ u m, taken s cueCommit 0 = some u → u.model? c.model = some m →
      (∀ mask, (∀ x ∈ c.members, x ∈ mask) → ∃ t k, exec (.commit num (some mask)) s = .next t ∧ t.run? num = some k ∧ k.mask = some mask ∧
        k.fenced = false ∧ k.phase = 6 ∧ t.regN Reg.CUR_COMMITS = capAt (2 ^ 32 - 1) (s.regN Reg.CUR_COMMITS + 1)) ∧
      (∀ mask, (∃ x ∈ c.members, x ∉ mask) → ∃ t k, exec (.commit num (some mask)) s = .next t ∧ t.run? num = some k ∧ k.mask = some mask ∧
        k.aborted = true ∧ t.mem = s.mem) ∧
      (c.mask = none → ∃ t k, exec (.commit num none) s = .next t ∧ t.run? num = some k ∧ k.fenced = true ∧ t.mem = s.mem ∧
        ∃ m1, t.model? c.model = some m1 ∧ m1.fenced = true)) ∧
    (∀ u, taken s cueCurtain 4 = some u → ∃ t, exec (.release num) s = .next t ∧ t = u.release c ∧ (c.fenced = false → t.run? num = none)) ∧
    (∀ u time, taken (s.cueArrives time cueCurtain 5 (num % 2 ^ 32) (s.roleAt num)) cueCurtain 5 = some u →
      (5 ≤ c.phase → exec (.curtainAbort num time) s = .next u) ∧
      (c.phase < 5 → ∃ t, exec (.curtainAbort num time) s = .next t ∧ (c.fenced = false → t.run? num = none))) ∧
    (s.dueCue = none → exec (.announce num) s = .next s ∧ exec (.seal num) s = .next s ∧ exec (.verify num) s = .next s ∧
      (∀ k, exec (.commit num k) s = .next s) ∧ exec (.release num) s = .next s ∧ exec (.curtainAbort num none) s = .next s)

/-- O36. CHUNK_TIMEOUT of an outstanding chunk of a piece for this member that has not arrived within CUR_CHUNKTO of its
request completes with the one failure of R304, which from VERIFY on only counts in RIG_TIMEOUT. PIECE_VERIFY of a
piece for this member completes: the digest that another source sends is entered while a chunk is still to come; a
piece of a curtain in phase 4, no rebuild, whose chunks are all written and whose digest is there is verified,
RIG_VERIFIED counts it and memory is unchanged, where its bytes have that digest, and RIG_DIGERR counts where they
have not. REVOKE whose cue is taken, arriving with it or there already, completes: every slot of the adapter version
(of all versions for 0) is revoked, one that no request pins holds no granule, and the revocation no longer waits.
EPOCH_FREE of a live epoch completes: for this member, where the epoch is neither current nor pinned and the model of
a tenant of its own role is not being unloaded, the model no longer lists it and its granules have an entry of 0 and
wait to be zeroed; of a pinned one nothing changes; for another module the epoch is marked as freed there, memory
unchanged. -/
def Obligations.RiggingAndEpochs : Prop :=
  (∀ (s : State) (num piece chunk : Nat) (c : Curtain) (p : Piece), s.run? num = some c →
    c.entries.find? (fun p => p.piece == piece && p.dst == s.roleAt num) = some p →
    let ck := Tab.get {} (Tab.get {} c.pieces piece).chunks chunk
    ck.done = false → ck.asked ≠ none → ck.acks = [] → ck.parked = none → chunk < p.chunks → ck.at_ + 1000 * c.chunkTo ≤ s.clk →
    exec (.chunkTimeout num piece chunk) s = .next (s.chunkFail c p chunk Reg.RIG_TIMEOUT) ∧
    (5 ≤ c.phase → exec (.chunkTimeout num piece chunk) s = .next (s.bump Reg.RIG_TIMEOUT 1))) ∧
  (∀ (s : State) (num piece : Nat) (c : Curtain) (p : Piece), s.run? num = some c → c.num = num →
    c.entries.find? (fun p => p.piece == piece && p.dst == s.roleAt num) = some p →
    let pr := Tab.get {} c.pieces piece
    (∀ d k, p.src ≠ s.roleAt num → k < p.chunks → (Tab.get {} pr.chunks k).done = false → (Tab.get {} pr.chunks k).acks = [] →
      exec (.pieceVerify num piece (some d)) s = .next (s.putRun (c.enterDigest piece d))) ∧
    (pr.verified = false → c.phase = 4 → c.rebuild = false → p.digest ≠ zeros 32 →
      (∀ k, k < p.chunks → (Tab.get {} pr.chunks k).done = true) →
      (sha3 (pieceRead s c p) = p.digest → ∃ t k, exec (.pieceVerify num piece none) s = .next t ∧ t.run? num = some k ∧ t.mem = s.mem ∧
        (Tab.get {} k.pieces piece).verified = true ∧ t.regN Reg.RIG_VERIFIED = capAt (2 ^ 32 - 1) (s.regN Reg.RIG_VERIFIED + 1)) ∧
      (sha3 (pieceRead s c p) ≠ p.digest → ∃ t, exec (.pieceVerify num piece none) s = .next t ∧
        t.regN Reg.RIG_DIGERR = capAt (2 ^ 32 - 1) (s.regN Reg.RIG_DIGERR + 1)))) ∧
  (∀ (s u : State) (id a v : Nat) (time : Option Nat), let arg := a + v * 2 ^ 16 + id % 2 ^ 32 * 2 ^ 32
    (s.cueArrives time cueRevoke 0 arg (s.roleAt id)).takeCue cueRevoke 0 arg (some (s.roleAt id)) = some u →
    ∃ t, exec (.revoke id a v time) s = .next t ∧
      (∀ x ∈ t.curtain.adapters, x.2.model = id → x.2.adapter = a → (v = 0 ∨ x.2.version = v) → x.2.revoked = true ∧
        (t.adapterPins id a x.2.version = 0 → x.2.grans = [])) ∧
      ∀ r ∈ t.curtain.revokes, ¬(r.model = id ∧ r.adapter = a ∧ r.version = v)) ∧
  (∀ (s : State) (id e : Nat) (m : Model) (x : EpochRec), s.model? id = some m → m.live.find? (fun e' => e'.number == e) = some x →
    (m.current ≠ e → m.unloading = false → m.tenant < 256 → s.epochPins id e = 0 → ∃ t m1, exec (.epochFree (s.roleAt id) id e) s = .next t ∧
      t.model? id = some m1 ∧ m1.live = m.live.erase x ∧ ∀ g ∈ x.grans, t.gran g = 0 ∧ (g, 0) ∈ t.loft.dirty) ∧
    (s.epochPins id e ≠ 0 → exec (.epochFree (s.roleAt id) id e) s = .next s) ∧
    (∀ n, n ≠ s.roleAt id → ∃ t m1, exec (.epochFree n id e) s = .next t ∧ t.model? id = some m1 ∧ t.mem = s.mem ∧
      m1.live = m.live.map fun y => if y.number == e then { y with freedOn := insertNat n y.freedOn } else y))

/-- O37. TRAIN_STEP that starts the first training item of its queue completes: while its model drains toward generation
the item is held and only the parsing happens; a START within the rules of R344 for a model in training of which the
module is a member, with a well-formed sequence table and room for the attention state, creates its job with the step
waiting, memory unchanged. PIPELINE whose cue is taken, for a model that does not drain, with no step of the job
running but one whose norm is reduced, completes: the job runs a step that begins at t0 with the table read from
memory, the step before still updating; memory is unchanged. GATHER, FWD and BWD whose next entry in order is due (a
layer chunk whose updates are done; a unit gathered, with every unit before it begun and no key behind it; a backward
whose forward has begun and whose later chunks have begun backward) complete: the entry is marked begun, its work with
the attention outputs goes to the cores, memory is unchanged. RSCAT and NORM whose entry is due complete: the entry is
marked begun and the slots of the plans that the step allows open; NORM also notes the next step's token count. UPDATE
whose entry is due, in increasing order, with its mask (EARLY) or the result of NORM, completes: in a skipped step
only the entry is marked begun; otherwise, where no page of the model is sealed, its work goes to the cores too,
memory unchanged. DONE whose entry is due completes as RSCAT does, with the other members' report entries noted. -/
def Obligations.TrainingStepAndPipeline : Prop :=
  (∀ (s : State) (tn q : Nat) (fits : Bool) (i : Item) (m : Model), startableItem s tn q 0x10 = some i →
    let id := State.keyOf tn (Desc.model i.desc)
    ((s.takeRow tn q 0x10).model? id = some m → m.holdTrain = true → exec (.trainStep tn q fits) s = .next (s.takeRow tn q 0x10)) ∧
    (let u := itemStarts s tn q 0x10 i; let b := Desc.body i.desc; let f := fieldAt b; let tbl := i.payload.getD []
     let x := stepOf (some (tn, q, i.seq)) (Desc.seed i.desc) b tbl; let k := State.keyOf tn (f 0 4)
     u.model? id = some m → m.holdTrain = false → m.tenant = tn → m.kind = 1 → u.roleOf tn ∈ m.members → Desc.adapter i.desc = 0 →
     Desc.epoch i.desc = 0 → Desc.fmt i.desc = 0 → Desc.fmtSet i.desc = false → stepBodyOk m b = true → seqTableOk tbl (f 16 4) (f 20 4) = true →
     x.micros.length ≤ 4096 → m.gen = false → u.job? k = none → startBit b = true → fits = true →
     ∃ t, exec (.trainStep tn q fits) s = .next t ∧ t.mem = u.mem ∧ t.job? k = some { startJob tn id m b with waiting := [x] })) ∧
  (∀ (s u : State) (job tn id t0 addr : Nat) (d tbl table : List Byte) (ps : List TensorPart) (m : Model),
    (∃ c ∈ s.time.cues, c.action = cuePipeline ∧ c.arg = addr ∧ c.role = s.roleAt job) →
    s.takeCue cuePipeline 0 addr (some (s.roleAt job)) = some u → u.model? id = some m → m.holdTrain = false →
    (∀ j, u.job? job = some j → j.tail = none ∧ ∀ r, j.run = some r → startBit (Desc.body d) = false ∧ r.normed = true) →
    ∃ t j x, exec (.pipeline job tn id t0 addr d tbl table ps) s = .next t ∧ t.job? job = some j ∧ j.run = some x ∧ j.tail = (u.job? job).bind (·.run) ∧
      x.t0 = some t0 ∧ x.begun = [] ∧ x.p = fieldAt (Desc.body d) 8 8 ∧
      x.table = (List.range (table.length / 32)).map (fun i => pipeEnt (s.readN (addr + 32 * i) 32)) ∧ t.mem = s.mem) ∧
  (∀ (s : State) (job : Nat) (j : Job) (x : StepItem) (e : PipeEnt) (ps : List CollPlan) (ready : Bool),
    let begin := fun x : StepItem => { x with begun := e :: x.begun }
    let opens := fun s : State => State.collLoop 64 ((ps.filter (stepPlanOk s job j x)).foldl (fun s p =>
      (s.holdPlan (s.roleAt job) (s.planned p)).openSlot (State.collKey (s.roleAt job) p.cid) true ready) s)
    (s.stepRun job = some (j, x) →
      let go := fun (c : Instr) att => ∃ t, exec c s = .next t ∧ t.stepRun job = some ({ j with run := some (begin x) }, begin x) ∧
        Out.work (workOf s job j x e att) ∈ t.out ∧ t.mem = s.mem
      (dueEntry s x 0 (fun e => j.updated e.lchunk) = some e → go (.gather job) []) ∧
      (∀ att, dueEntry s x 1 (fun e => (att.all fun q => decide (q.length ≤ (e.chunk + 1) * fieldAt x.body 20 4)) && x.forward e) = some e →
        go (.fwd job att) (att.map attend)) ∧
      (dueEntry s x 2 (fun e => (x.begun.any fun g => g.action == 1 && g.lchunk == e.lchunk && g.mb == e.mb && g.chunk == e.chunk) &&
        !(x.table.any fun g => g.action == 2 && g.lchunk == e.lchunk && g.mb == e.mb && decide (e.chunk < g.chunk) && !x.begun.elem g)) = some e →
        go (.bwd job) []) ∧
      (dueEntry s x 3 = some e → exec (.rscat job ps ready) s = .next (opens (s.putStep job (begin x)))) ∧
      (dueEntry s x 5 = some e → ∀ n, let y := { x with tnext := n }
        exec (.norm job ps ready n) s = .next (opens ((s.putStep job y).putStep job (begin y))))) ∧
    (s.closing job = some (j, x) →
      (dueEntry s x 4 = some e → (∀ g ∈ x.table, g.action = 4 → g.lchunk < e.lchunk → g ∈ x.begun) →
        (if tbit (fieldAt x.body 4 2) 3 then Tab.find? x.masks e.lchunk ≠ none else x.norm ≠ none ∧ x.maxima ≠ none) →
        (x.skipped = true → exec (.updateEntry job) s = .next (s.putClosing job (begin x))) ∧
        (x.skipped = false → (∀ c ∈ s.curtain.runs, c.2.model = j.model → c.2.sealed = []) →
          ∃ t, exec (.updateEntry job) s = .next t ∧ t.mem = s.mem ∧ t.closing job = (s.putClosing job (begin x)).closing job ∧
            Out.work (workOf s job j x e []) ∈ t.out)) ∧
      (dueEntry s x 6 = some e → ∀ os, let y := { x with others := os }
        exec (.doneEntry job ps ready os) s = .next (opens ((s.putClosing job y).putClosing job (begin y))))))

/-- O38. SLOT that brings a plan within the rules for a role in its group, whose cues find room, completes: where no cue
is due yet, the collective stands under the role with that plan and no open slot, the cue sheet holds its slots,
memory is unchanged. SLOT whose cue is taken completes: one more slot of its collective opens. COLL_STEP_DEADLINE at
the direct exchange of a normal-mode sum whose deadline has passed completes: every rank whose block is missing is
excluded, and the report goes out; before the deadline it completes and changes nothing. COLL_REPORT_CLOSE on the
conductor of a collective with a tolerance whose mask is not decided completes: once its report slot has closed, the
mask decided from the reports goes to every member; before, nothing changes. COLL_DATA_DEADLINE at the switch
aggregation of an exact sum with its mask completes: before the deadline nothing changes; after it every unit whose
count is not right is asked again from every other included rank, counted in COL_REPAIR; where all counts are right
the units asked for stay as they were and memory is unchanged. -/
def Obligations.CollectiveSlots : Prop :=
  (∀ (s u : State) (role cid : Nat) (p : CollPlan), let p1 := s.planned p
    s.collRun? (State.collKey role cid) = none → p1.cid = cid → p1.rankOf role ≠ none → p1.ok = true →
    p1.slots.foldl (fun (r : Option State) (x : Nat × Nat) => r.bind fun s => s.addCue x.1 cueSlot 2 0 role cid) (some s) = some u → u.dueCue = none →
    ∃ t c, exec (.slot role cid (some p) false) s = .next t ∧ t.collRun? (State.collKey role cid) = some c ∧ c.plan = p1 ∧ c.role = role ∧
      c.opened = 0 ∧ t.time = u.time ∧ t.mem = s.mem) ∧
  (∀ (s u : State) (role cid : Nat) (ready : Bool), s.takeCue cueSlot 0 cid (some role) = some u →
    exec (.slot role cid none ready) s = .next (State.collLoop 64 (u.openSlot (State.collKey role cid) true ready))) ∧
  (∀ (s : State) (role cid step d : Nat) (c : CollRun), s.collRun? (State.collKey role cid) = some c → c.plan.deadline step = some d →
    (d ≤ s.now → c.done = false → step = 1 → c.plan.op = 2 → c.plan.algo = 2 →
      exec (.collStepDeadline role cid step) s = .next (State.collLoop 64 ((s.putColl { c with excl :=
        ((List.range c.plan.size).filter fun r => r != c.rank && (c.block 1 c.rank r).isNone).foldl (fun l r => insertNat r l) c.excl }).sendReport
          (State.collKey role cid)))) ∧
    (s.now < d → s.coll.loop = [] → exec (.collStepDeadline role cid step) s = .next s)) ∧
  (∀ (s : State) (role cid : Nat) (c : CollRun), s.collRun? (State.collKey role cid) = some c → c.role = c.plan.conductor →
    c.mask = none → c.plan.tol ≠ none →
    (c.plan.report ≤ s.now → exec (.collReportClose role cid) s =
      .next (State.collLoop 64 (s.sendMask (State.collKey role cid) (State.decideMask c).1 (State.decideMask c).2))) ∧
    (s.now < c.plan.report → exec (.collReportClose role cid) s = .next s)) ∧
  (∀ (s : State) (role cid : Nat) (c : CollRun), s.collRun? (State.collKey role cid) = some c → c.plan.op = 1 → c.plan.algo = 5 →
    c.mask ≠ none → c.done = false → s.coll.loop = [] →
    let short := (c.aggUnits (s.collLimit c.plan) c.rank).filter fun u =>
      !c.repair.elem u.1 && decide (((Tab.find? c.agg u.1).map (·.nmem)).getD 0 ≠ c.others.length)
    (s.now < c.aggDeadline → exec (.collDataDeadline role cid) s = .next s) ∧
    (c.aggDeadline ≤ s.now → short = [] → ∃ t k, exec (.collDataDeadline role cid) s = .next t ∧
      t.collRun? (State.collKey c.role c.plan.cid) = some k ∧ k.repair = c.repair ∧ t.mem = s.mem) ∧
    (c.aggDeadline ≤ s.now → ∃ u, exec (.collDataDeadline role cid) s = .next (State.collLoop 64 u) ∧ u.regN Reg.COL_REPAIR =
      capAt (2 ^ 32 - 1) (s.regN Reg.COL_REPAIR + short.length * c.others.length)))

/-- O39. For a valid frame of its row, each of WRITE, READ, ATOMIC, COLL_DATA, COLL_REPORT, COLL_MASK, BYPASS_REQ,
COLL_COPY, WITHDRAW, COLL_REPAIR_REQ, QUERY, MIRROR_DATA, MIRROR_STATE, MIRROR_REPAIR_REQ, FENCE, MIRROR_COPY,
COPY_DONE (with a frame), CHUNK_REQ and REPAIR_DATA completes: it counts the frame and its codewords, hears its sender
and gives the frame to its flow; a module that the frame has fenced resets. After REPAIR_DATA every flow and every
chunk that waited for the repair goes on. NON_BEXICA_FRAME completes: on a port that is up it counts in FAB_PDROP,
otherwise it changes nothing. On a port that is not up a WRITE or an ACK changes nothing. On one that is up, a WRITE
or ACK frame without a good MACsec tag is dropped and counted in FAB_MACSECDROP, a stranger's in FAB_STRANGER, a
malformed ACK in FAB_MALF: besides those and the counts of the arrival nothing changes. -/
def Obligations.SequencedAndDroppedFrames : Prop :=
  (SeqRow .writeFrame 1 none ∧ SeqRow .readFrame 2 none ∧ SeqRow .atomic 4 none ∧ SeqRow .collData 10 (some (8, 1)) ∧
    SeqRow .collReport 10 (some (8, 3)) ∧ SeqRow .collMask 10 (some (8, 4)) ∧ SeqRow .bypassReq 10 (some (8, 5)) ∧
    SeqRow .collCopy 10 (some (8, 6)) ∧ SeqRow .withdraw 10 (some (8, 7)) ∧ SeqRow .collRepairReq 10 (some (8, 8)) ∧
    SeqRow .query 10 (some (8, 9)) ∧ SeqRow .mirrorData 11 (some (0, 3)) ∧ SeqRow .mirrorState 11 (some (0, 4)) ∧
    SeqRow .mirrorRepairReq 11 (some (0, 5)) ∧ SeqRow .fence 11 (some (0, 7)) ∧ SeqRow .mirrorCopy 11 (some (0, 8)) ∧
    SeqRow (fun a => .copyDone (some a)) 11 (some (0, 9)) ∧
    (∀ (s : State) (a : Arrival) (f : Frame) (raw : Option (List Byte)), GoodFrame s a f →
      (f.type = 8 → exec (.chunkReq a raw) s = .next (seqEffect s a f raw)) ∧
      (f.type = 11 → fieldAt f.area 0 1 = 6 → exec (.repairData a) s = .next (seqEffect s a f none).drainAll.chunksRetry))) ∧
  (∀ (s : State) (a : Arrival), let f := Frame.parse a.bytes; let s0 := arrived s a
      (s.linkState a.port ≠ 4 → exec (.writeFrame a) s = .next s ∧ exec (.ack a) s = .next s ∧ exec (.nonBexicaFrame a.port) s = .next s) ∧
      (s.linkState a.port = 4 → exec (.nonBexicaFrame a.port) s = .next (s.bump (Reg.FAB_PDROP a.port) 1)) ∧
      (s.linkState a.port = 4 → f.type = 1 → a.macsec = false → exec (.writeFrame a) s = .next (s0.bump Reg.FAB_MACSECDROP 1)) ∧
      (s.linkState a.port = 4 → f.type = 7 → a.macsec = false → exec (.ack a) s = .next (s0.bump Reg.FAB_MACSECDROP 1)) ∧
      (s.linkState a.port = 4 → f.type = 1 → a.macsec = true → s0.stranger a f = true → exec (.writeFrame a) s = .next (s0.bump Reg.FAB_STRANGER 1)) ∧
      (s.linkState a.port = 4 → f.type = 7 → a.macsec = true → s0.stranger a f = true → exec (.ack a) s = .next (s0.bump Reg.FAB_STRANGER 1)) ∧
      (s.linkState a.port = 4 → f.type = 7 → a.macsec = true → s0.stranger a f = false → malformed s0.payLimit a.bytes = true →
        exec (.ack a) s = .next (s0.bump Reg.FAB_MALF 1)))

/-- O40. For a valid frame of its row each of READ_RESP, ATOMIC_RESP, REJECT, ACK, CHUNK, PROBE, PROBE_REPLY, LOSS_REPORT,
TAKEOVER, TAKEOVER_ACK, AGG_UP, HELLO, BEAT, RESYNC and RESYNC_ACK completes: it counts the frame, hears its sender
and has at once the effect of its rule, which the operation named for the row gives: READ_RESP and ATOMIC_RESP bring
data or an old value, REJECT stops what it rejects, ACK acknowledges, CHUNK brings a fragment, PROBE is answered on
its port, PROBE_REPLY brings a path up, LOSS_REPORT tells of a lost module, TAKEOVER redirects a role, TAKEOVER_ACK
ends a repeat, AGG_UP adds a contribution, HELLO forms a pair; a BEAT is a heartbeat and nothing else. After RESYNC
the flow expects the number and epoch that the frame gives, on its port; after RESYNC_ACK with the flow's epoch the
flow no longer waits; both leave memory unchanged. -/
def Obligations.UnsequencedRows : Prop :=
  PlainRow .readResp 3 none (fun _ s f => Machine.readResp s f) ∧ PlainRow .atomicResp 5 none (fun _ s f => atomResp s f) ∧
  PlainRow .reject 6 none (fun _ s f => rejected s f) ∧ PlainRow .ack 7 none (fun _ s f => ackIn s f) ∧
  PlainRow .chunk 9 none (fun _ s f => chunkIn s f) ∧
  PlainRow .probe 12 (some (0, 1)) (fun a s f => s.sendCtrl f.src 2 0 0 0 (some a.port)) ∧
  PlainRow .probeReply 12 (some (0, 2)) (fun a s f => Machine.probeReply s f a.port) ∧
  PlainRow .lossReport 12 (some (0, 3)) (fun _ s f => lossHeard s (fieldAt f.area 4 4)) ∧
  PlainRow .takeover 12 (some (0, 4)) (fun _ s f => takeoverIn s f) ∧
  PlainRow .takeoverAck 12 (some (0, 5)) (fun _ s f =>
    s.setFab { s.fab with repeats := s.fab.repeats.filter fun r => !(r.member == f.src && r.failed == fieldAt f.area 4 4) }) ∧
  PlainRow .aggUp 10 (some (8, 2)) (fun _ s f => State.collLoop 64 (s.collIn f)) ∧
  (∀ mirs, PlainRow (fun a => .hello a mirs) 11 (some (0, 1)) (fun _ s f => s.helloIn f mirs)) ∧
  PlainRow .beat 11 (some (0, 2)) (fun _ s _ => s) ∧
  (∀ (s : State) (a : Arrival) (f : Frame), GoodFrame s a f → f.type = 12 → fieldAt f.area 0 1 = 6 →
    ∃ t, exec (.resync a) s = .next t ∧ t.mem = s.mem ∧ t.inFlow (flowKey f.src f.dst (fieldAt f.area 4 4 % 8)) =
      { expect := fieldAt f.area 8 4, fepoch := fieldAt f.area 16 2, plane := a.port }) ∧
  (∀ (s : State) (a : Arrival) (f : Frame), GoodFrame s a f → f.type = 12 → fieldAt f.area 0 1 = 7 →
    ((heard s a f).flow (flowKey f.dst f.src (fieldAt f.area 4 4 % 8))).syncing = true →
    fieldAt f.area 16 8 = ((heard s a f).flow (flowKey f.dst f.src (fieldAt f.area 4 4 % 8))).fepoch →
    ∃ t, exec (.resyncAck a) s = .next t ∧ t.mem = s.mem ∧
      (t.flow (flowKey f.dst f.src (fieldAt f.area 4 4 % 8))).syncing = false)

/-- O41. WRITE with a valid frame that is the next of its flow, with a payload, to a range that the frame may access, that
no repair holds and whose page is not mirrored: WRITE completes. The range then reads as the payload, every byte
outside it is as before, granule entries are unchanged, and the flow expects the next frame. A frame that may not
access the range is rejected, which FAB_REJTX counts, and changes no byte. -/
def Obligations.WriteFrameStores : Prop :=
  ∀ (s : State) (a : Arrival) (f : Frame), InOrder s a f → f.type = 1 → f.payload ≠ [] →
    (∀ x, (heard s a f).access f (fieldAt f.area 0 8 + fieldAt f.area 12 4) f.payload.length true = .ok x →
      (heard s a f).repairHolds x f.payload.length = false → State.gMir ((heard s a f).granAt x) = false →
      ∃ t, exec (.writeFrame a) s = .next t ∧ t.readN x f.payload.length = f.payload ∧
        (∀ b, b < x ∨ x + f.payload.length ≤ b → t.read8 b = s.read8 b) ∧ t.grans = s.grans ∧
        (t.inFlow (flowKey f.src f.dst f.cls)).expect = nextPsn f.psn) ∧
    (∀ e, (heard s a f).access f (fieldAt f.area 0 8 + fieldAt f.area 12 4) f.payload.length true = .error e →
      ∃ t, exec (.writeFrame a) s = .next t ∧ t.mem = s.mem ∧ t.regN Reg.FAB_REJTX = capAt (2 ^ 32 - 1) (s.regN Reg.FAB_REJTX + 1) ∧
        (t.inFlow (flowKey f.src f.dst f.cls)).expect = nextPsn f.psn)

/-- O42. READ with a valid frame that is next of its flow: the command completes, no byte of memory, mark or granule entry
changes, and the flow expects the next frame. ATOMIC with such a frame that has no record, on an accessible, unmarked,
unmirrored word under no repair: the word holds the new value, every other byte is as before, and the old value is
recorded for the source. With a record of its number the atomic is answered from it and memory does not change. -/
def Obligations.ReadAndAtomicFrames : Prop :=
  (∀ (s : State) (a : Arrival) (f : Frame), InOrder s a f → f.type = 2 → ∃ t, exec (.readFrame a) s = .next t ∧ t.mem = s.mem ∧
    t.poison = s.poison ∧ t.grans = s.grans ∧ (t.inFlow (flowKey f.src f.dst f.cls)).expect = nextPsn f.psn) ∧
  (∀ (s : State) (a : Arrival) (f : Frame), InOrder s a f → f.type = 4 → let n := 4 * (1 + fieldAt f.area 9 1)
    (∀ x, (heard s a f).atomRec? f = none → (heard s a f).access f (fieldAt f.area 0 8) n true = .ok x →
      (heard s a f).repairHolds x n = false → (heard s a f).poisonedIn x n = false → State.gMir ((heard s a f).granAt x) = false →
      ∃ t, exec (.atomic a) s = .next t ∧ t.readN x n = leBytes n (atomicNew (fieldAt f.area 8 1) (8 * n) (s.readLe x n)
          (fieldAt f.payload 0 8) (fieldAt f.payload 8 8)) ∧ (∀ b, b < x ∨ x + n ≤ b → t.read8 b = s.read8 b) ∧
        t.atomRec? f = some { cls := f.cls, psn := f.psn, old := s.readLe x n, poison := false }) ∧
    (∀ r, (heard s a f).atomRec? f = some r → ∃ t, exec (.atomic a) s = .next t ∧ t.mem = s.mem ∧ t.poison = s.poison))

/-- O43. READ_TIMEOUT, ACK_TIMER, RETRANSMIT, PATH_HOLD_EXPIRY, PATH_PROBE_TIMEOUT, RATE_INCREASE, LOSS_TIMEOUT,
UNREACHABLE_TIMEOUT and TAKEOVER_REPEAT complete. READ_TIMEOUT of a read whose time runs: before FAB_ACKTO nothing
changes; after it the first missing range is asked for again under the same tag, memory unchanged. ACK_TIMER sends the
flow's ACK 1 us after its first unacknowledged frame; before, nothing changes. RETRANSMIT of a sent frame on an open
flow: before its deadline nothing changes; when due the loss is counted on the path to the module that serves the
destination, the frame goes again (fewer than 7 losses before) or a plane path goes down (7 before), and the
destination is probed. PATH_HOLD_EXPIRY on an UP port sends the path's probe. PATH_PROBE_TIMEOUT starts the hold again
and changes only the fabric's state. RATE_INCREASE: before its 10 us nothing changes; then the time moves on by 10 us
and a rate that was never cut rises by I, up to the link rate. LOSS_TIMEOUT of a reachable peer with one open frame
and another understudy: before FAB_LOSSTO nothing changes; after it, with no collective here, the peer is LOST,
FAB_LOST counts it, memory is unchanged. UNREACHABLE_TIMEOUT of a LOST peer: before five times FAB_LOSSTO nothing
changes; then no read and no atomic of this module toward it is open. TAKEOVER_REPEAT sends an unacknowledged TAKEOVER
again 100 us after the last, gives up 10 ms after the first, and changes nothing before. -/
def Obligations.FabricTimersAndLoss : Prop :=
  ((∀ (s : State) (tag : Nat) (r : ReadRun) (g : Nat × Nat), Tab.find? s.fab.reads tag = some r → firstGap r.len r.got = some g → r.timed = true →
      (s.clk < r.at_ + s.ackTo → exec (.readTimeout tag) s = .next s) ∧
      (r.at_ + s.ackTo ≤ s.clk → ∃ t r1, exec (.readTimeout tag) s = .next t ∧ t.mem = s.mem ∧ Tab.find? t.fab.reads tag = some r1 ∧
        r1.base = r.addr + g.1 ∧ r1.timed = false ∧ r1.at_ = s.clk ∧ r1.got = r.got)) ∧
    (∀ (s : State) (src dst cls d : Nat), (s.inFlow (flowKey src dst cls)).firstAt = some d →
      (d + 1000 ≤ s.clk → exec (.ackTimer src dst cls) s = .next (s.sendAck (flowKey src dst cls))) ∧
      (s.clk < d + 1000 → exec (.ackTimer src dst cls) s = .next s)) ∧
    (∀ (s : State) (src dst cls psn p : Nat) (x : SentFrame), (s.flow (flowKey src dst cls)).unacked.find? (fun x => x.frame.psn == psn) = some x →
      x.plane = some p → x.seen = false → s.flowOpen (flowKey src dst cls) = true → let d := s.serving dst
      (x.at_ + s.ackTo ≤ s.clk → (s.path d p).losses < 7 → exec (.retransmit src dst cls psn) s = .next (probePeer
        (resend (s.setPath d p { s.path d p with losses := (s.path d p).losses + 1 }) (flowKey src dst cls) psn) dst)) ∧
      (x.at_ + s.ackTo ≤ s.clk → (s.path d p).losses = 7 → s.isPairPort p = false → exec (.retransmit src dst cls psn) s = .next (probePeer
        (pathDown (s.setPath d p { s.path d p with losses := 8 }) d p) dst)) ∧
      (s.clk < x.at_ + s.ackTo → exec (.retransmit src dst cls psn) s = .next s)) ∧
    (∀ (s : State) (m p d : Nat),
      ((s.path m p).hold = some d → d ≤ s.clk → s.linkState p = 4 → exec (.pathHoldExpiry m p) s = .next
        ((s.setPath m p { s.path m p with hold := none, probe := some s.clk }).sendCtrl m 1 0 0 0 (some p))) ∧
      ((s.path m p).probe = some d → d + s.ackTo ≤ s.clk → ∃ t, exec (.pathProbeTimeout m p) s = .next t ∧
        (t.path m p).hold = some (s.clk + 1000000 * s.regField Reg.FAB_PATHHOLD 0 16) ∧ t = { s with fab := t.fab })) ∧
    (∀ (s : State) (m : Nat) (r : RateSt), Tab.find? s.fab.rates m = some r →
      (r.incAt + 10000 ≤ s.clk → ∃ t r1, exec (.rateIncrease m) s = .next t ∧ t = { s with fab := t.fab } ∧ Tab.find? t.fab.rates m = some r1 ∧
        r1.incAt = r.incAt + 10000 ∧ (r.cutAt = none → r1.rate = fmin (f32 (.fin false (s.linkRate m) 0))
          (fadd r.rate (f32 (.fin false (s.regField Reg.FAB_RATE 24 8) 0))))) ∧
      (s.clk < r.incAt + 10000 → exec (.rateIncrease m) s = .next s))) ∧
  ((∀ (s : State) (m : Nat) (x : SentFrame), m < 8192 → s.peerState m = 1 → openTo s m = [x] → s.understudyOf m ≠ s.self →
      (max (s.peer m).heard x.issued + s.lossTo ≤ s.clk → s.coll.runs = [] → ∃ t, exec (.lossTimeout m) s = .next t ∧ t.mem = s.mem ∧
        t.peerState m = 2 ∧ (t.peer m).lostAt = s.clk ∧ t.regN Reg.FAB_LOST = capAt (2 ^ 32 - 1) (s.regN Reg.FAB_LOST + 1)) ∧
      (s.clk < max (s.peer m).heard x.issued + s.lossTo → exec (.lossTimeout m) s = .next s)) ∧
    (∀ (s : State) (m : Nat), m < 8192 → s.peerState m = 2 →
      ((s.peer m).lostAt + 5 * s.lossTo ≤ s.clk → ∃ t, exec (.unreachableTimeout m) s = .next t ∧
        (∀ r ∈ t.fab.reads, r.2.dst ≠ m) ∧ (∀ r ∈ t.fab.atoms, r.dst ≠ m)) ∧
      (s.clk < (s.peer m).lostAt + 5 * s.lossTo → exec (.unreachableTimeout m) s = .next s)) ∧
    (∀ (s : State) (m : Nat) (r : TakeRep), s.fab.repeats.find? (fun r => r.member == m) = some r →
      (s.clk < r.last + 100000 → exec (.takeoverRepeat m) s = .next s) ∧
      (r.last + 100000 ≤ s.clk → r.since + 10000000 ≤ s.clk →
        exec (.takeoverRepeat m) s = .next { s with fab := { s.fab with repeats := s.fab.repeats.erase r } }) ∧
      (r.last + 100000 ≤ s.clk → s.clk < r.since + 10000000 → exec (.takeoverRepeat m) s = .next
        ((s.setFab { s.fab with repeats := s.fab.repeats.erase r ++ [{ r with last := s.clk }] }).sendCtrl m 4 r.failed r.epoch 0 none))))

/-- O44. Each of these commands completes in every state on a port 0 to 31. A port that is DOWN and not bad goes to
TRAINING on SIGNAL_DETECTED; from there to SECURING on LOCK_ACHIEVED within 500 ms or back to DOWN on TRAINING_TIMEOUT
after them; from SECURING to UP on MKA_PEER_LIVE with a key and membership, or to DOWN on SECURING_TIMEOUT after 6 s;
from any state but DOWN and below on LINK_LOSS to DOWN; memory and granule table are unchanged. In each other state of
the port the command changes nothing. SAK_INSTALL on a port that is UP counts one more key and changes only that.
NEIGHBOUR_ADVERTISEMENT on a port that is UP notes the next hop of the address and changes only that;
NEIGHBOUR_SOLICITATION of this module's address there is answered. With room in the audit log FAB_CAK_LOAD holds the
key that the registers held and FAB_CAK_CLEAR holds none and no keyed port; both zero the eight registers and leave
memory unchanged. Without room both change nothing. -/
def Obligations.LinkStates : Prop :=
  (∀ (s : State) (p : Nat), p < 32 →
    let to_ := fun (c : Instr) (st : Nat) => ∃ t, exec c s = .next t ∧ t.linkState p = st ∧ t.mem = s.mem ∧ t.grans = s.grans
    (s.linkState p = 1 → s.regBit Reg.CLK_PORTBAD p = false → to_ (.signalDetected p) 2) ∧
    (s.linkState p = 2 → s.clk ≤ s.linkSince p + 500000000 → to_ (.lockAchieved p) 3) ∧
    (s.linkState p = 2 → s.linkSince p + 500000000 ≤ s.clk → to_ (.trainingTimeout p) 1) ∧
    (s.linkState p = 3 → s.fab.cak ≠ none → s.regBit Reg.FAB_STATUS 29 = true → to_ (.mkaPeerLive p) 4) ∧
    (s.linkState p = 3 → s.linkSince p + 6000000000 ≤ s.clk → to_ (.securingTimeout p) 1) ∧
    (∀ u, 2 ≤ s.linkState p → to_ (.linkLoss p u) 1) ∧
    (s.linkState p ≠ 1 → exec (.signalDetected p) s = .next s) ∧ (s.linkState p ≠ 2 → exec (.lockAchieved p) s = .next s) ∧
    (s.linkState p ≠ 2 → exec (.trainingTimeout p) s = .next s) ∧ (s.linkState p ≠ 3 → exec (.mkaPeerLive p) s = .next s) ∧
    (s.linkState p ≠ 3 → exec (.securingTimeout p) s = .next s) ∧ (∀ u, s.linkState p < 2 → exec (.linkLoss p u) s = .next s) ∧
    (s.linkState p = 4 → exec (.sakInstall p) s = .next { s with fab := { s.fab with keys := Tab.set 0 s.fab.keys p (Tab.get 0 s.fab.keys p + 1) } }) ∧
    (∀ addr hop, s.linkState p = 4 → exec (.neighbourAdvertisement p addr hop) s =
      .next { s with fab := { s.fab with hops := Tab.setSome s.fab.hops (State.hopKey p addr) hop } }) ∧
    (s.linkState p = 4 → exec (.neighbourSolicitation p (s.fabAddr s.self p)) s = .next (s.emit (.neighbour p (s.fabAddr s.self p))))) ∧
  (∀ s : State, s.logRefuses = false →
    (∃ t, exec .fabCakLoad s = .next t ∧ t.mem = s.mem ∧ t.fab.cak = some ((List.range 8).flatMap fun i => leBytes 4 (s.regN (Reg.FAB_CAK i))) ∧
      ∀ i, i < 8 → t.regN (Reg.FAB_CAK i) = 0) ∧
    (∃ t, exec .fabCakClear s = .next t ∧ t.mem = s.mem ∧ t.fab.cak = none ∧ t.fab.keyed = [] ∧ ∀ i, i < 8 → t.regN (Reg.FAB_CAK i) = 0)) ∧
  (∀ s : State, s.logRefuses = true → exec .fabCakLoad s = .next s ∧ exec .fabCakClear s = .next s)

/-- O45. HELLO_TICK completes: in FORMING and ALONE it sends one HELLO to the partner with the domain tag and the
configuration and firmware digests; in the other pair states nothing changes. BEAT_TICK completes: in a mirrored pair
state it sends a heartbeat with the domain time on every up pair port, otherwise nothing changes. HEARTBEAT_SILENCE in
PAIRED, RESYNCING and SPLITTING with no probe under way completes: 16 us after the last heartbeat it counts a miss and
probes the partner on up to 4 plane paths; before, nothing changes. FORMTO_EXPIRY in FORMING completes: after FORMTO
seconds the pair is ALONE with the own role served, source 810 is pending, memory and cores are unchanged; before,
nothing changes. SEVERTO_EXPIRY in SEVERED completes: after SEVERTO the higher-numbered member resets and powers up;
the lower-numbered one takes the other's role over 1 ms later; before SEVERTO nothing changes. -/
def Obligations.PairTimers : Prop :=
  (∀ s : State, (s.pairState = 0 ∨ s.pairState = 4 → exec .helloTick s = .next (s.sendPlain { type := frMirror, cls := 6, src := s.self, dst := s.partner, area := State.mirrorArea 1 s.self (s.roleEpoch s.self) 0 0 0, payload := s.helloBytes })) ∧
    (s.pairState ≠ 0 → s.pairState ≠ 4 → exec .helloTick s = .next s)) ∧
  (∀ s : State, (s.mirrored = true → exec .beatTick s = .next (s.pairPorts.foldl (fun t p => t.sendOn p { type := frMirror, cls := 6, src := s.self, dst := s.partner, area := State.mirrorArea 2 s.self (s.roleEpoch s.self) 0 s.now 0 }) s)) ∧
    (s.mirrored = false → exec .beatTick s = .next s)) ∧
  (∀ s : State, (s.pairState = 1 ∨ s.pairState = 5 ∨ s.pairState = 6) → s.pair.probeAt = none →
    (s.pair.beatAt + 16000 ≤ s.clk →
      let s1 := (s.setPair { s.pair with probeAt := some s.clk }).bump Reg.PAI_HBMISS 1
      exec .heartbeatSilence s = .next (((s.upPlanes s.partner).take 4).foldl (fun t p => t.sendCtrl t.partner 1 0 0 0 (some p)) s1)) ∧
    (s.clk < s.pair.beatAt + 16000 → exec .heartbeatSilence s = .next s)) ∧
  (∀ s : State, s.pairState = 0 →
    (s.pair.since + 1000000000 * s.regField Reg.PAI_CFG 0 16 ≤ s.clk → ∃ t, exec .formtoExpiry s = .next t ∧ t.pairState = 4 ∧
      t.regField Reg.PAI_STATUS 26 1 = 1 ∧ t.pair = { s.pair with since := s.clk, probeAt := none } ∧ t.mem = s.mem ∧ t.cores = s.cores ∧
      t.evPend 810 = true) ∧
    (s.clk < s.pair.since + 1000000000 * s.regField Reg.PAI_CFG 0 16 → exec .formtoExpiry s = .next s)) ∧
  (∀ (s : State) (h : Handed) (plans : List CollPlan) (d : Nat), s.pairState = 2 → d = s.pair.since + 1000000 * s.regField Reg.PAI_CFG 16 16 →
    (s.partner < s.self → d ≤ s.clk → exec (.severtoExpiry h plans) s = .next ((s.moduleReset none).powerUp)) ∧
    (s.self ≤ s.partner → d + 1000000 ≤ s.clk → exec (.severtoExpiry h plans) s = .next (s.takeover h {} plans)) ∧
    (s.clk < d → exec (.severtoExpiry h plans) s = .next s))

/-- O46. FAILURE_DECLARED with no fence under way completes: with a probe unanswered for FAB_ACKTO, in PAIRED this module
takes the partner's role over; in RESYNCING and SPLITTING it does so after the granules not copied yet are poisoned
and the split cue is gone; with no probe under way nothing changes. COPY_DONE without a frame, on the copying member
in RESYNCING with no class-6 frame open, completes: it tells the new member, enters SPLITTING, shows 100 percent and
writes the split cue unless HOLD is set. HOLD_CLEAR completes: it clears HOLD; on the copying member in SPLITTING with
no split cue and room in the sheet a cue stands 100 ms ahead, whose time the registers show, memory unchanged;
otherwise only HOLD is cleared. SPLIT in SPLITTING completes: at the due cue the copying member is PAIRED with the
copy progress at 0, no longer serves the partner's role and has the partner reachable; the other member is PAIRED and
serves its own role. At a new member without the cue, the cue is entered with its time, and where no cue is due yet it
is still in SPLITTING, memory unchanged; on the copying member with no cue due nothing changes. -/
def Obligations.TakeoverAndSplit : Prop :=
  (∀ (s : State) (h own : Handed) (plans : List CollPlan) (missing : List Nat), s.pair.fencing = none →
    (∀ d, s.pair.probeAt = some d → d + s.ackTo ≤ s.clk →
      (s.pairState = 1 → exec (.failureDeclared h own plans missing) s = .next (s.takeover h own plans)) ∧
      (s.pairState = 5 ∨ s.pairState = 6 → exec (.failureDeclared h own plans missing) s = .next ((s.resyncFails missing).takeover h own plans))) ∧
    (s.pair.probeAt = none → exec (.failureDeclared h own plans missing) s = .next s)) ∧
  (∀ s : State, s.pairState = 5 → s.pair.lead = true → (s.flow (flowKey s.self s.partner 6)).unacked = [] →
    let s1 := (((s.sendMirror 9 s.partner 0 0 s.pair.total [] false).2).pairTo 6).setRegN Reg.PAI_RESYNC 100
    exec (.copyDone none) s = .next ((s1.setPair { s1.pair with todo := 0 }).writeSplit)) ∧
  (∀ s : State,
    (s.pairState = 6 → s.pair.lead = true → s.pair.split = none → s.cueRoom 2 s.partner = true → s.now + 100000000 < 2 ^ 64 →
      ∃ t, exec .holdClear s = .next t ∧ t.regBit Reg.PAI_CTRL 0 = false ∧ t.pair.split = some (s.now + 100000000) ∧ t.mem = s.mem ∧
        t.reg64 Reg.PAI_SPLITL Reg.PAI_SPLITH = s.now + 100000000 ∧
        { time := s.now + 100000000, action := cueSplit, owner := 2, sub := 0, late := false, role := s.partner, arg := 0 } ∈ t.time.cues) ∧
    (s.pairState ≠ 6 ∨ s.pair.lead = false ∨ s.pair.split.isSome = true →
      exec .holdClear s = .next (s.setField Reg.PAI_CTRL 0 1 0))) ∧
  (∀ (s : State) (d : Nat) (h : Handed), s.pairState = 6 →
    (∀ s1, s.pair.lead = true → s.takeCue cueSplit 0 0 = some s1 → ∃ t, exec (.split d h) s = .next t ∧ t.pairState = 1 ∧
      t.regN Reg.PAI_RESYNC = 0 ∧ t.pair.split = none ∧ t.pair.lead = false ∧ t.servesPartner = false ∧ t.peerState s.partner = 1) ∧
    (∀ s1, s.pair.lead = false → s.pair.split.isSome = true → s.takeCue cueSplit 0 0 = some s1 → ∃ t, exec (.split d h) s = .next t ∧
      t.pairState = 1 ∧ t.regN Reg.PAI_RESYNC = 0 ∧ t.pair.split = none ∧ t.regBit Reg.PAI_STATUS 26 = true) ∧
    (∀ s1, s.pair.lead = false → s.pair.split = none → s.addCue d cueSplit 2 0 s.self 0 = some s1 → s1.dueCue = none →
      ∃ t, exec (.split d h) s = .next t ∧ t.pairState = 6 ∧ t.pair.split = some d ∧ t.mem = s.mem ∧ t.time = s1.time) ∧
    (s.pair.lead = true → s.takeCue cueSplit 0 0 = none → exec (.split d h) s = .next s))

/-- O47. Each of these commands completes. PWR_EN_RISE with a valid input and no thermal stop, and INPUT_VALID of 40 to 52
V with PWR_EN high, bring a module that is off up: every domain is on, the reef level is 4 and every PLL is enabled;
memory is unchanged, and INPUT_VALID shows the voltage. INPUT_VOLTAGE_STOP changes nothing from 38 to 52 V; outside,
up to 60 V, a running module is reset with cause 6 and has no valid input; above 60 V the run ends, the module being
damaged. RESET_N and CLOCK_LOSS (REF100, the oscillator, or a PLL in service) reset a running module with causes 4, 1,
3 and 2: it is off and held, only the loft of memory remains, no core holds anything, and CLK_LASTRST names the cause;
CLOCK_LOSS names the PLL too and adds a record to the flash. REF100_RETURN brings a held module up that waits for no
time base. PWR_EN_FALL on a running module writes the policy snapshot to the flash and leaves it off, with the loft
kept. TIME_BASE_RETRY after a second with a count in range powers a module that waits for its time base up with the
PLL stable; with a count out of range it waits on from now. -/
def Obligations.InputAndReset : Prop :=
  let up := fun (t : State) => t.pow.on = true ∧ t.regN Reg.PWR_DOMST = 2 ^ 24 - 1 ∧ t.reefLevel = 4 ∧ t.pow.held = false ∧
    t.pow.enabled = State.plls.map fun p => (p, t.clk)
  let down := fun (s t : State) => t.pow.on = false ∧ t.mem = s.mem.filter (fun c => State.isLoft c.1) ∧ t.cores = [] ∧ t.loft.dir = s.loft.dir
  (∀ s : State, s.pow.en = false → s.pow.on = false → s.pow.vin = true → s.pow.thermal = false →
    ∃ t, exec .pwrEnRise s = .next t ∧ t.pow.en = true ∧ up t ∧ t.mem = s.mem) ∧
  (∀ (s : State) (cv : Nat), s.pow.en = true → s.pow.on = false → s.pow.thermal = false → 4000 ≤ cv → cv ≤ 5200 →
    ∃ t, exec (.inputValid cv) s = .next t ∧ t.pow.vin = true ∧ t.regN Reg.PWR_VIN = cv ∧ up t ∧ t.mem = s.mem) ∧
  (∀ (s : State) (cv : Nat), (3800 ≤ cv → cv ≤ 5200 → exec (.inputVoltageStop cv) s = .next s) ∧
    (6000 < cv → exec (.inputVoltageStop cv) s = .fault .damaged) ∧
    (s.pow.on = true → (cv < 3800 ∨ 5200 < cv) → cv ≤ 6000 → ∃ t, exec (.inputVoltageStop cv) s = .next t ∧ down s t ∧
      t.pow.vin = false ∧ t.regField Reg.CLK_LASTRST 24 8 = 6)) ∧
  (∀ s : State, s.pow.en = true → s.pow.on = true → ∃ t, exec .pwrEnFall s = .next t ∧ down s t ∧ t.pow.en = false ∧
    t.boot.flash.snapshot.map (·.coef) = some s.serve.coef) ∧
  (∀ (s : State) (cause pll : Nat), s.pow.on = true → (cause = 1 ∧ pll = 0 ∨ cause = 3 ∧ pll = 0 ∨ cause = 2 ∧ pll < 256 ∧ pll ∈ s.pow.stable) →
    ∃ t, exec (.clockLoss cause pll) s = .next t ∧ down s t ∧ t.pow.held = true ∧ t.regField Reg.CLK_LASTRST 24 8 = cause ∧
      t.regField Reg.CLK_LASTRST 8 8 = pll ∧ t.boot.flash.resets = (cause, pll, s.now) :: s.boot.flash.resets.take 63) ∧
  (∀ s : State, s.pow.on = true → ∃ t, exec .resetN s = .next t ∧ down s t ∧ t.pow.held = true ∧ t.regField Reg.CLK_LASTRST 24 8 = 4) ∧
  (∀ s : State, s.pow.held = true → s.pow.tbHeld = none → s.pow.on = false → s.pow.en = true → s.pow.vin = true → s.pow.thermal = false →
    ∃ t, exec .ref100Return s = .next t ∧ up t) ∧
  (∀ (s : State) (count d : Nat), s.pow.tbHeld = some d → d + 1000000000 ≤ s.clk → s.pow.on = false → s.pow.en = true → s.pow.vin = true →
    s.pow.thermal = false →
    (State.countOk 112 count = true → ∃ t, exec (.timeBaseRetry count) s = .next t ∧ up t ∧ t.pow.tbHeld = none ∧ 112 ∈ t.pow.stable) ∧
    (State.countOk 112 count = false → exec (.timeBaseRetry count) s = .next (s.setPow { s.pow with tbHeld := some s.clk })))

/-- O48. On a running module each of these commands completes. PLL_FIXED_COUNT makes a fixed-count PLL stable 65,536
REF100 cycles after it was enabled; the management PLL on stable REF100 starts the loader, which counts the power-up.
PLL_COMPARISON, 1 ms after the PLL was enabled, with a count in range accepts it; with a count out of range it
restarts it up to 4 times and then rejects a PLL that is not the time base's; a measurement that waited may then
start. FM_START with a clock that CLK_FMSEL names starts a measurement, which waits during a comparison; memory is
unchanged. FM_DONE at the window's end shows the count, DONE and whether the ratio changed. HDOFF and LOFTOFF set
their fields of PWR_DOMREQ; HDOFF leaves memory and cores unchanged, LOFTOFF all but registers. DOMAIN_SWITCHED turns
off a half-die that is to be off, holds no context and runs from the bypass: its cores hold nothing. TEMPERATURE_READ
with no critical temperature shows the sensors and the input values, sets ALERT exactly when a sensor is above its
reef threshold or the voltage is outside 40 to 52 V, and changes only registers and the count of milliseconds above
the limit; with a critical temperature it stops the module with cause 5 until PWR_EN is cycled, only the loft of
memory remaining. HDOFF, LOFTOFF, FM_START and FM_DONE do so on a module that is off too. -/
def Obligations.ClocksAndTemperature : Prop :=
  (∀ (s : State) (p : Nat), s.pow.on = true → State.fixedPll p = true → p ∉ s.pow.stable → Tab.get 0 s.pow.enabled p + 655360 ≤ s.clk →
    ∃ t, exec (.pllFixedCount p) s = .next t ∧ t.pow = { s.pow with stable := insertNat p s.pow.stable } ∧
      (p = 113 → s.bootState = 0 → s.regBit Reg.CLK_STATUS 31 = true → t.bootState = 1 ∧
        t.boot.flash.powerUps = capAt 65535 (s.boot.flash.powerUps + 1))) ∧
  (∀ (s : State) (p count : Nat), s.pow.on = true → p ∈ State.plls → State.fixedPll p = false → p ∉ s.pow.stable →
    Tab.get 0 s.pow.enabled p + 1000000 ≤ s.clk →
    (Tab.get 0 s.pow.fails p < 5 → State.countOk p count = true →
      exec (.pllComparison p count) s = .next (s.setPow { s.pow with stable := insertNat p s.pow.stable }).fmGo) ∧
    (∀ n, Tab.get 0 s.pow.fails p = n → State.countOk p count = false →
      let s1 := s.setPow { s.pow with fails := Tab.set 0 s.pow.fails p (n + 1), enabled := Tab.setSome s.pow.enabled p s.clk }
      (n < 4 → exec (.pllComparison p count) s = .next s1) ∧
      (n = 4 → p ≠ 112 → exec (.pllComparison p count) s = .next (s1.rejectPort p).fmGo))) ∧
  (∀ s : State, (State.fmClock (s.regField Reg.CLK_FMSEL 0 8) = true → ∃ t, exec .fmStart s = .next t ∧ t.regN Reg.CLK_FMCTL = 0 ∧ t.mem = s.mem ∧
      t.pow = if s.comparing then { s.pow with fm := none, fmWait := true, fmRamp := false }
        else { s.pow with fm := some s.clk, fmWait := false, fmRamp := false }) ∧
    (∀ (d count : Nat), s.pow.fm = some d → d + s.fmWindow ≤ s.clk → count < 2 ^ 32 → ∃ t, exec (.fmDone count) s = .next t ∧
      t.pow = { s.pow with fm := none, fmWait := false, fmRamp := false } ∧ t.regN Reg.CLK_FMCNT = count ∧
      t.regN Reg.CLK_FMCTL = 2 ^ 31 + 2 ^ 30 * bit s.pow.fmRamp)) ∧
  (∀ (s : State) (m : BitVec 16) (off : Bool), (∃ t, exec (.hdoff m) s = .next t ∧ t.regField Reg.PWR_DOMREQ 0 16 = m.toNat ∧ t.mem = s.mem ∧
      t.cores = s.cores) ∧
    ∃ t, exec (.loftoff off) s = .next t ∧ t.regBit Reg.PWR_DOMREQ 20 = off ∧ t = { s with regs := t.regs }) ∧
  (∀ (s : State) (d : Nat), d < 16 → s.pow.on = true → s.regBit Reg.PWR_DOMST d = true → s.halfOff d = true → s.halfEmpty d = true →
    s.regBit (Reg.CLK_RATIO d) 16 = true → ∃ t, exec (.domainSwitched d) s = .next t ∧ t.regBit Reg.PWR_DOMST d = false ∧
      ∀ c, c < 8 → (t.core (8 * d + c)).parts = []) ∧
  (∀ (s : State) (temps : List (BitVec 16)) (cv avg peak sec : BitVec 16), s.pow.on = true →
    ((∀ i, i < 26 → ((temps[i]?).getD 0#16).toInt < State.criticalAt i) → ∃ t, exec (.temperatureRead temps cv avg peak sec) s = .next t ∧
      (∀ i, i < 26 → t.temp i = ((temps[i]?).getD 0#16).toInt) ∧ t.regN Reg.PWR_VIN = cv.toNat ∧ t.regN Reg.PWR_PAVG = sec.toNat ∧
      t = { s with regs := t.regs, pow := { s.pow with overs := t.pow.overs } } ∧ (t.regBit Reg.PWR_STATUS 0 = true ↔
        ((∃ i, i < 26 ∧ State.reefAt i < ((temps[i]?).getD 0#16).toInt) ∨ cv.toNat < 4000 ∨ 5200 < cv.toNat))) ∧
    ((∃ i, i < 26 ∧ State.criticalAt i ≤ ((temps[i]?).getD 0#16).toInt) → ∃ t, exec (.temperatureRead temps cv avg peak sec) s = .next t ∧
      t.pow.on = false ∧ t.pow.thermal = true ∧ t.regField Reg.CLK_LASTRST 24 8 = 5 ∧ t.mem = s.mem.filter fun c => State.isLoft c.1))

/-- O49. REEF_TIGHTEN of a running module below level 7 for a cause that may tighten now completes: the chosen level rises
by one (for VIN, and for EXCUR after 19 ms above the limit, it goes to 7), the level in force is the larger of it and
the floor, the cause is shown, PWR_TIGHTEN counts it, and nothing outside power state and registers changes.
REEF_RELAX, with power measured, 100 ms after the last change, above the floor, with every die 5 degrees below its
threshold, the input at 40 V or more and the predicted power within 97 percent of the limit, completes: the chosen
level falls by one, PWR_RELAX counts it, nothing outside power state and registers changes. DIVIDER_STEP of a powered
half-die on its PLL that is in use and in no idle ramp, 1 us after its last step, completes: the target is the level's
ratio and the ratio moves one unit toward it and stops there; nothing outside power state and registers changes.
IDLE_RAMP of a half-die with no waiting row whose partitions are all in a long gap completes: 16 is its target, memory
is unchanged. -/
def Obligations.ReefAndDividers : Prop :=
  (∀ (s : State) (cause : Nat), s.pow.on = true → cause < 6 → s.mayTighten cause = true → s.pow.chosen < 7 → s.regN Reg.PWR_TIGHTEN < 2 ^ 32 - 1 →
    ∃ t, exec (.reefTighten cause) s = .next t ∧
      t.pow = { s.pow with since := s.clk, tightAt := Tab.setSome s.pow.tightAt cause s.clk,
                           chosen := if cause = 5 ∨ (cause = 2 ∧ 19 ≤ s.pow.overs) then 7 else s.pow.chosen + 1 } ∧
      t.reefLevel = max t.pow.chosen (s.regField Reg.PWR_REEFMIN 0 3) ∧ t.regField Reg.PWR_STATUS 8 8 = 2 ^ cause ∧
      t.regN Reg.PWR_TIGHTEN = s.regN Reg.PWR_TIGHTEN + 1 ∧ t = { s with regs := t.regs, pow := t.pow }) ∧
  (∀ (s : State) (pin pvar l : Nat), s.pow.on = true → s.regBit Reg.MEM_HBMST 31 = true → s.pow.chosen = l + 1 → l ≤ 6 →
    s.regField Reg.PWR_REEFMIN 0 3 ≤ l → s.pow.since + 100000000 ≤ s.clk → s.hot 50 = false → 4000 ≤ s.regField Reg.PWR_VIN 0 16 →
    100 * ((pin - pvar) * State.powerFactor (l + 1) + pvar * State.powerFactor l) ≤
      97 * s.regField Reg.PWR_LIMIT 0 16 * State.powerFactor (l + 1) → s.regN Reg.PWR_RELAX < 2 ^ 32 - 1 →
    ∃ t, exec (.reefRelax pin pvar) s = .next t ∧ t.pow = { s.pow with chosen := l, since := s.clk } ∧ t.reefLevel = l ∧
      t.regN Reg.PWR_RELAX = s.regN Reg.PWR_RELAX + 1 ∧ t = { s with regs := t.regs, pow := t.pow }) ∧
  (∀ (s : State) (h r : Nat), h < 16 → s.regBit Reg.PWR_DOMST h = true → Tab.get 0 s.pow.stepped h + 1000 ≤ s.clk →
    s.regBit (Reg.CLK_RATIO h) 16 = false → s.halfOff h = false → h ∉ s.pow.idle → r = s.regField (Reg.CLK_RATIO h) 0 5 →
    ∃ t, exec (.dividerStep h) s = .next t ∧ t = { s with regs := t.regs, pow := t.pow } ∧
      t.regField (Reg.CLK_RATIO h) 8 5 = s.reefLevel + 2 ∧
      t.regField (Reg.CLK_RATIO h) 0 5 = if r < s.reefLevel + 2 then r + 1 else if s.reefLevel + 2 < r then r - 1 else r) ∧
  (∀ (s : State) (h : Nat), h < 16 → s.rowsWait h = false → s.halfIdle h = true → h ∉ s.pow.idle → ∃ t, exec (.idleRamp h) s = .next t ∧
    t.pow = { s.pow with idle := insertNat h s.pow.idle } ∧ t.regField (Reg.CLK_RATIO h) 8 5 = 16 ∧ t.mem = s.mem)

/-- O50. SYNC with its protection from the selected PTP source completes, with the offset of domain time from the source's
time; PPS_PULSE completes, where the PPS source is selected with the offset from the announced second. TIM_OFFSET
shows the offset of a SYNC below 2^31 ns; memory and cores are unchanged. In FREE an offset beyond 1 ms (after a first
lock only a negative one), and in UNLOCKED one below minus 1 us, steps domain time to the SYNC's time; every other
offset is slewed, and domain time and cues stay. The state becomes LOCKED at the 8th offset in succession within 20 ns
out of FREE or UNLOCKED and at one within 25 ns out of HOLDOVER, UNLOCKED at the 4th beyond 25 ns out of LOCKED and at
one beyond 25 ns out of HOLDOVER, else it stays. A pulse moves the announced second on by one; with no second
announced it is only noted in CLK_STATUS. A SYNC of a source that is not selected changes nothing; one without the
protection that its port asks for is dropped and counted. HOLDOVER_EXPIRY in HOLDOVER completes: after TIM_HOLD the
state is UNLOCKED, counted, source 809 is pending, domain time goes on; before, nothing changes. -/
def Obligations.TimeServo : Prop :=
  let next_ := fun (s : State) (off : Int) =>
    let good := if off.natAbs ≤ 20 then s.time.good + 1 else 0
    let bad := if 25 < off.natAbs then s.time.bad + 1 else 0
    if s.timeState = 1 then (if 4 ≤ bad then 3 else 1) else if s.timeState = 2 then (if off.natAbs ≤ 25 then 1 else 3)
    else if 8 ≤ good then 1 else s.timeState
  let steps := fun (s : State) (off : Int) =>
    (s.timeState = 0 ∧ 1000000 < off.natAbs ∧ (s.time.ever = false ∨ off < 0)) ∨ (s.timeState = 3 ∧ off < -1000)
  (∀ (s : State) (src time : Nat) (off : Int), s.selected = src → src < 3 → (s.srcKind src = 1 ∨ s.srcKind src = 2) → off = (s.now : Int) - time →
    s.now < 2 ^ 64 → time < 2 ^ 64 → ∃ t, exec (.sync src time true) s = .next t ∧ t.timeState = next_ s off ∧
      (off.natAbs < 2 ^ 31 → t.regN Reg.TIM_OFFSET = (off % 2 ^ 32).toNat) ∧ t.mem = s.mem ∧ t.cores = s.cores ∧
      (steps s off → t.now = time ∧ t.time.slew = 0) ∧
      (¬steps s off → t.now = s.now ∧ t.time.slew = -off ∧ t.time.cues = s.time.cues)) ∧
  (∀ (s : State) (src time : Nat), (s.selected ≠ src → exec (.sync src time true) s = .next s) ∧
    (s.srcKind src = 2 → exec (.sync src time false) s = .next (s.bump Reg.FAB_MACSECDROP 1)) ∧
    (∀ p, s.srcKind src = 1 → p = s.regField Reg.TIM_SRCCFG (8 * src) 6 → s.regBit (Reg.HST_PST p) 30 = true →
      exec (.sync src time false) s = .next (s.bump (Reg.HST_DROP p) 1))) ∧
  (∀ (s : State) (sec src : Nat), s.time.tod = some sec → s.selected = src → src < 3 → s.srcKind src = 3 → ∃ t, exec .ppsPulse s = .next t ∧
    t.timeState = next_ s ((s.now : Int) - sec * 1000000000) ∧ t.time.tod = some (sec + 1) ∧ t.mem = s.mem) ∧
  (∀ s : State, s.time.tod = none → exec .ppsPulse s = .next (s.setField Reg.CLK_STATUS 29 1 1)) ∧
  (∀ s : State, s.timeState = 2 →
    (s.time.holdAt + 1000000 * s.regField Reg.TIM_HOLD 0 16 ≤ s.clk → s.regN Reg.TIM_UNLOCKS < 2 ^ 32 - 1 → ∃ t, exec .holdoverExpiry s = .next t ∧
      t.timeState = 3 ∧ t.timeUnlocked = true ∧ t.regN Reg.TIM_UNLOCKS = s.regN Reg.TIM_UNLOCKS + 1 ∧ t.evPend 809 = true ∧ t.now = s.now) ∧
    (s.clk < s.time.holdAt + 1000000 * s.regField Reg.TIM_HOLD 0 16 → exec .holdoverExpiry s = .next s))

/-- O51. Each of these commands completes and leaves memory unchanged. SOURCE_QUALIFIED of a configured source that is not
qualified, for the PPS source with its time of day known, adds it to the qualified ones and changes no other part of
the time state; TIM_STATUS shows the selected source. SOURCE_LOST of a configured source takes it out and leaves
domain time; where it was the selected one of a LOCKED module and no other configured source is qualified, the state
becomes HOLDOVER; a lost PPS source forgets its time of day. TIM_TOD announces the second and changes no other part of
the time state. TIM_CCUE_ARM with room in the quota adds one CONFIG entry at the time and with the handle of the
registers, in taking order, and TIM_STATUS shows the count of entries; with the quota full nothing changes.
TIM_CCUE_CANCEL leaves exactly the entries that are not management's CONFIG entries of this module's role with that
handle. Domain time stays in both. -/
def Obligations.SourcesAndCues : Prop :=
  (∀ (s : State) (src : Nat) (ptp : Option Nat), src < 3 → s.srcKind src ≠ 0 → src ∉ s.time.qualified →
    (s.srcKind src ≠ 3 ∨ s.time.tod.isSome = true) → ∃ t, exec (.sourceQualified src ptp) s = .next t ∧
      t.time = { s.time with qualified := insertNat src s.time.qualified } ∧ t.regField Reg.TIM_STATUS 27 2 = t.selected ∧ t.mem = s.mem) ∧
  (∀ (s : State) (src : Nat) (ref10 : Bool), src < 3 → s.srcKind src ≠ 0 → ∃ t, exec (.sourceLost src ref10) s = .next t ∧
    src ∉ t.time.qualified ∧ t.now = s.now ∧ t.mem = s.mem ∧ (s.srcKind src = 3 → t.time.tod = none) ∧
    (s.selected = src → s.timeState = 1 → (∀ i ∈ s.time.qualified, i < 3 → i ≠ src → s.srcKind i = 0) → t.timeState = 2)) ∧
  (∀ (s : State) (sec : BitVec 64), ∃ t, exec (.timTod sec) s = .next t ∧ t.time = { s.time with tod := some sec.toNat } ∧ t.mem = s.mem) ∧
  (∀ (s : State) (c : Cue), c = { time := s.reg64 Reg.TIM_CCUEL Reg.TIM_CCUEH, action := cueConfig, owner := 0, sub := 0, late := decide (s.reg64 Reg.TIM_CCUEL Reg.TIM_CCUEH < s.now), role := s.self, arg := s.regN Reg.TIM_CCUEARG } →
    (s.cueRoom 0 s.self = true → s.time.cues.length < 1023 → ∃ t, exec .timCcueArm s = .next t ∧ t.time.cues = cueInsert c s.time.cues ∧
      t.regField Reg.TIM_STATUS 0 10 = s.time.cues.length + 1 ∧ t.mem = s.mem ∧ t.now = s.now) ∧
    (s.cueRoom 0 s.self = false → exec .timCcueArm s = .next s) ∧
    (∃ t, exec .timCcueCancel s = .next t ∧ t.mem = s.mem ∧ t.now = s.now ∧
      ∀ d, d ∈ t.time.cues ↔ d ∈ s.time.cues ∧ ¬(d.action = cueConfig ∧ d.owner = 0 ∧ d.role = s.self ∧ d.arg = s.regN Reg.TIM_CCUEARG)))

/-- O52. RESET completes: it runs the row's first startable item: for tenant 0 it ends every other open item of the queue
with TENANT_RESET and itself with OK, with the log full it ends LOG_FULL, else the tenant is reset. TNT_CTRL_RESET
completes: with the log full, for tenant 0 or an absent tenant it changes nothing; for another present tenant a reset
under way goes on as it is, and else the tenant shows RESET and its plans, requests, contexts, models, memory and
items are dropped and ended in this order. TENANT_RESET_COMPLETE completes: with no reset under way, or with a
TENANT_RESET record still to be written, nothing changes. Else, where no queue has an event queue pair and the tenant
stays present, the reset is over, the tenant is ACTIVE, TNT_RESETS counts it, and memory and granule table are
unchanged. -/
def Obligations.TenantReset : Prop :=
  DescRuns .resetDesc 0x34 (fun t q s i =>
    if t % 256 = 0 then
      ((s.hq t q).items.filter fun j => !j.refused && j.done.isNone && j.seq != i.seq).foldl (fun s j =>
        s.finish t q j.seq { status := stReset }) (s.finish t q i.seq { status := stOk })
    else if s.logRefuses then s.finish t q i.seq { status := stLogFull } else s.resetTenant t false true) ∧
  (∀ (s : State) (t : Nat),
    (s.logRefuses = true ∨ t % 256 = 0 ∨ s.tntState t = 0 → exec (.tntCtrlReset t) s = .next s) ∧
    (s.logRefuses = false → t % 256 ≠ 0 → (t < 256 ∨ s.servesPartner = true) → s.tntState t ≠ 0 →
      (∀ r, Tab.find? s.host.resets t = some r →
        exec (.tntCtrlReset t) s = .next (s.setHost { s.host with resets := Tab.setSome s.host.resets t { r with absent := r.absent } })) ∧
      (Tab.find? s.host.resets t = none →
        let s1 := ((s.setRegN (Reg.TNT_STATE t) 2).setHost { s.host with
          resets := Tab.setSome s.host.resets t { t0 := s.clk, absent := false, own := false } }).tenantRec t 0 6 (leBytes 1 2 ++ leBytes 8 s.clk)
        exec (.tntCtrlReset t) s = .next ((((((s1.dropPlans t).dropRequests t).dropContexts t).dropModels t).dropMemory t).endItems t)))) ∧
  (∀ (s : State) (t : Nat),
    (Tab.find? s.host.resets t = none → exec (.tenantResetComplete t) s = .next s) ∧
    (∀ r, Tab.find? s.host.resets t = some r →
      (s.resetWritten t = false → exec (.tenantResetComplete t) s = .next s) ∧
      (t < 256 → s.resetWritten t = true → r.absent = false → (∀ q, q < 16 → s.eventQp t q = none) → s.regN (Reg.TNT_RESETS t) < 2 ^ 32 - 1 →
        ∃ u, exec (.tenantResetComplete t) s = .next u ∧ u.tntState t = 1 ∧
          Tab.find? u.host.resets t = none ∧ u.regN (Reg.TNT_RESETS t) = s.regN (Reg.TNT_RESETS t) + 1 ∧ u.mem = s.mem ∧ u.grans = s.grans)))

/-- O53. CONFIGURATION_IMAGE, DELTA and FIRMWARE_IMAGE that start an item complete: with a wrong length or reserved bytes
the item ends MALFORMED, with a full log LOG_FULL. A valid image of the same owner becomes PENDING in the inactive
slot under the next handle, BUSY while one is; in MAINTENANCE it is active. A valid delta with room joins the journal;
without a configuration it ends MALFORMED. A valid firmware image starts an update in WRITING, BUSY with one under
way; in MAINTENANCE it is in the active area. CONFIG whose cue is taken completes: the pending changes up to the one
it names apply; if none has its handle it is only taken. FIRMWARE_WRITTEN in WRITING, for no item here, completes:
read back equal, the active area holds the new image and the state is READY; else the replaced image and IDLE; MGT_UPD
shows the result. UPD_ARM that R496 allows, with room in the sheet and one role served, completes: ARMED, with its cue
in the sheet; a refused one changes nothing. UPD_DISCARD in READY or ARMED leaves IDLE, the replaced image and no
HANDOVER cue; UPD_FALLBACK, FIRMWARE_FAULT and, at the window's end, UPDATE_WINDOW_EXPIRY in TRIAL leave FALLBACK,
memory unchanged; in other states they change nothing. HANDOVER whose cue is taken completes: in ARMED, accepted, the
new image runs in TRIAL from now; not accepted, and in FALLBACK, the replaced image runs and the state is IDLE.
UPDATE_CONFIRMED with its conditions met completes: IDLE, the same image running. -/
def Obligations.ConfigurationAndUpdate : Prop :=
  (∀ (s : State) (t q : Nat) (i : Item), ∀ p ∈ [(0x242, 4, Instr.configurationImage t q), (0x342, 5, Instr.delta t q), (0x442, 6, Instr.firmwareImage t q)],
    startableItem s t q p.1 = some i →
    ((allZero (sliceBytes (Desc.body i.desc) 1 7) = false ∨ fieldAt (Desc.body i.desc) 8 8 ≠ (i.payload.getD []).length) →
      exec p.2.2 s = .next ((itemStarts s t q p.1 i).finish t q i.seq { status := stMalformed, detail := p.2.1 })) ∧
    (allZero (sliceBytes (Desc.body i.desc) 1 7) = true → fieldAt (Desc.body i.desc) 8 8 = (i.payload.getD []).length →
      (itemStarts s t q p.1 i).logRefuses = true → exec p.2.2 s = .next ((itemStarts s t q p.1 i).finish t q i.seq { status := stLogFull }))) ∧
  (∀ (s : State) (t q : Nat) (i : Item) (u : State), u = itemStarts s t q 0x442 i → startableItem s t q 0x442 = some i →
    allZero (sliceBytes (Desc.body i.desc) 1 7) = true → fieldAt (Desc.body i.desc) 8 8 = (i.payload.getD []).length → u.logRefuses = false →
    (u.bootState = 6 → u.fwCause (i.payload.getD []) none = 0 → ∃ v, exec (.firmwareImage t q) s = .next v ∧
      v.boot.flash.fwActive = some (i.payload.getD []) ∧ v.mem = u.mem) ∧
    (u.bootState ≠ 6 → u.updState ≠ 0 → exec (.firmwareImage t q) s = .next (u.finish t q i.seq { status := stBusy })) ∧
    (u.bootState ≠ 6 → u.updState = 0 → u.fwCause (i.payload.getD []) (some u.boot.fwRun) = 0 → ∃ v, exec (.firmwareImage t q) s = .next v ∧ v.updState = 1 ∧
      v.boot.fwNew = i.payload.getD [] ∧ v.boot.flash.fwFallback = some u.boot.fwRun ∧ v.boot.fwItem = some (t, q, i.seq) ∧ v.mem = u.mem)) ∧
  (∀ (s : State) (t q : Nat) (i : Item) (u : State), u = itemStarts s t q 0x342 i → startableItem s t q 0x342 = some i →
    allZero (sliceBytes (Desc.body i.desc) 1 7) = true → fieldAt (Desc.body i.desc) 8 8 = (i.payload.getD []).length → u.logRefuses = false →
    (u.confNow = none → exec (.delta t q) s = .next (u.finish t q i.seq { status := stMalformed, detail := 5 })) ∧
    (∀ c, u.confNow = some c → Delta.cause c (i.payload.getD []) u.boot.flash.lastSeq u.typeCode u.unitId = 0 → u.boot.flash.journal.length < 4096 →
      (u.boot.flash.journal.map fun d => d.bytes.length).sum + (i.payload.getD []).length ≤ 2 ^ 24 → ∃ v, exec (.delta t q) s = .next v ∧
        v.boot.flash.journal = u.boot.flash.journal ++ [{ seq := Delta.seq (i.payload.getD []), bytes := i.payload.getD [] }] ∧
        v.boot.flash.lastSeq = Delta.seq (i.payload.getD []) ∧ v.boot.conf = u.boot.conf)) ∧
  (∀ (s : State) (t q : Nat) (i : Item) (u : State), u = itemStarts s t q 0x242 i → startableItem s t q 0x242 = some i →
    allZero (sliceBytes (Desc.body i.desc) 1 7) = true → fieldAt (Desc.body i.desc) 8 8 = (i.payload.getD []).length → u.logRefuses = false →
    (u.bootState = 6 → (imageCause (i.payload.getD []) u.typeCode u.unitId).1 = 0 → ∃ v, exec (.configurationImage t q) s = .next v ∧
      v.boot.flash.active = 1 - u.boot.flash.active ∧ Tab.find? v.boot.flash.slots (1 - u.boot.flash.active) = some (i.payload.getD [])) ∧
    (u.bootState ≠ 6 → u.boot.flash.pending.isSome = true → exec (.configurationImage t q) s = .next (u.finish t q i.seq { status := stBusy })) ∧
    (u.bootState ≠ 6 → u.boot.flash.pending = none → (imageCause (i.payload.getD []) u.typeCode u.unitId).1 = 0 →
      (u.confNow = none ∨ u.confNow.map (·.owner) = some (Conf.parse (i.payload.getD [])).owner) →
      ∃ v, exec (.configurationImage t q) s = .next v ∧ v.boot.flash.pending = some (u.boot.flash.lastSeq + 1) ∧
        v.boot.flash.lastSeq = u.boot.flash.lastSeq + 1 ∧ v.boot.flash.active = u.boot.flash.active ∧
        Tab.find? v.boot.flash.slots (1 - u.boot.flash.active) = some (i.payload.getD []) ∧ v.boot.conf = u.boot.conf)) ∧
  (∀ (s s1 : State) (h : Nat), s.takeCue cueConfig 0 h = some s1 →
    ((∀ x ∈ s1.pendings, x.1 ≠ h) → exec (.configCue h) s = .next s1) ∧
    ((∃ x ∈ s1.pendings, x.1 = h) → exec (.configCue h) s = .next (State.applyUpTo h s1.pendings s1))) ∧
  (∀ s : State, s.updState = 1 → s.boot.fwItem = none →
    (∃ t, exec (.firmwareWritten true) s = .next t ∧ t.updState = 2 ∧ t.boot.flash.fwActive = some s.boot.fwNew ∧ t.regField Reg.MGT_UPD 20 8 = stOk ∧ t.mem = s.mem) ∧
    (∃ t, exec (.firmwareWritten false) s = .next t ∧ t.updState = 0 ∧ t.boot.flash.fwActive = some s.oldFw ∧
      t.regField Reg.MGT_UPD 20 8 = stFault ∧ t.mem = s.mem)) ∧
  (∀ (s : State) (mate : Option (Nat × List Byte × Nat)), (s.armOk mate = false → exec (.updArm mate) s = .next s) ∧
    (s.armOk mate = true → s.servesPartner = false → s.cueRoom 1 s.self = true → ∃ t, exec (.updArm mate) s = .next t ∧ t.updState = 3 ∧ t.mem = s.mem ∧
      { time := s.reg64 Reg.MGT_UPDCUEL Reg.MGT_UPDCUEH, action := cueHandover, owner := 1, sub := 0, late := false, role := s.self, arg := 0 } ∈ t.time.cues)) ∧
  (∀ s : State, ((s.updState = 2 ∨ s.updState = 3) → ∃ t, exec .updDiscard s = .next t ∧ t.updState = 0 ∧ t.boot.flash.fwActive = some s.oldFw ∧
      ∀ c ∈ t.time.cues, c.action ≠ cueHandover) ∧
    (s.updState ≠ 2 → s.updState ≠ 3 → exec .updDiscard s = .next s) ∧
    (s.updState = 4 → ∃ t, exec .updFallback s = .next t ∧ exec .firmwareFault s = .next t ∧ t.updState = 5 ∧ t.mem = s.mem ∧
      (∀ d, s.boot.trialAt = some d → d + 1000000000 * s.boot.trialWin ≤ s.clk → exec .updateWindowExpiry s = .next t)) ∧
    (s.updState ≠ 4 → exec .updFallback s = .next s ∧ exec .firmwareFault s = .next s ∧ exec .updateWindowExpiry s = .next s)) ∧
  (∀ s s1 : State, s.takeCue cueHandover 0 0 = some s1 →
    (s1.updState = 3 → ∃ t, exec (.handover true) s = .next t ∧ t.updState = 4 ∧ t.boot.fwRun = s1.boot.fwNew ∧ t.boot.trialAt = some s1.clk) ∧
    (∀ ok, s1.updState = 5 ∨ (s1.updState = 3 ∧ ok = false) → ∃ t, exec (.handover ok) s = .next t ∧ t.updState = 0 ∧ t.boot.fwRun = s1.oldFw)) ∧
  (∀ (s : State) (d : Nat), s.boot.trialAt = some d → s.updState = 4 → d + 1000000000 * s.boot.trialMin ≤ s.clk → s.pairState = 1 →
    s.boot.partnerFw = s.regBytes Reg.MGT_FWDIG 8 → s.boot.passed = true → s.boot.cued = true →
    ∃ t, exec .updateConfirmed s = .next t ∧ t.updState = 0 ∧ t.boot.trialAt = none ∧ t.boot.fwRun = s.boot.fwRun)

/-- O54. TNT_CTRL_RESET of tenant 0 and every register write of its TNT_CTRL change nothing. RESET that starts on a queue
of tenant 0 completes, and every other queue stays as it is. Where the queue has a ring, the ring remains, its other
outstanding items have completed with TENANT_RESET, and connections and all registers (the binding and the sequence
number among them) are unchanged. Where it has no ring, where a completed item is done with at once, and is not being
discarded, it has no ring and no accepted item after it, and its binding and sequence number remain. -/
def Obligations.TenantZeroReset : Prop :=
  (∀ (s : State) (v : Word32) (x : RegExt), exec (.tntCtrlReset 0) s = .next s ∧ exec (.registerWrite (Reg.TNT_CTRL 0) v x) s = .next s) ∧
  (∀ (s u : State) (q : Nat) (i : Item), q < 16 → u = itemStarts s 0 q 0x34 i → startableItem s 0 q 0x34 = some i →
    ((u.hq 0 q).ring ≠ none → ∃ t, exec (.resetDesc 0 q) s = .next t ∧ (t.hq 0 q).ring = (u.hq 0 q).ring ∧ t.regs = u.regs ∧ t.host.qps = u.host.qps ∧
      (∀ a b, 16 * a + b ≠ q → t.hq a b = u.hq a b) ∧
      ∀ j ∈ (u.hq 0 q).items, j.refused = false → j.done = none → j.seq ≠ i.seq → { j with done := some { status := stReset } } ∈ (t.hq 0 q).items) ∧
    ((u.hq 0 q).ring = none → (u.hq 0 q).closed = false → ∃ t, exec (.resetDesc 0 q) s = .next t ∧ (t.hq 0 q).ring = none ∧
      t.reg (Reg.TNT_RQST 0 q) = u.reg (Reg.TNT_RQST 0 q) ∧ t.reg (Reg.TNT_RQSEQL 0 q) = u.reg (Reg.TNT_RQSEQL 0 q) ∧
      t.reg (Reg.TNT_RQSEQH 0 q) = u.reg (Reg.TNT_RQSEQH 0 q) ∧ (∀ j ∈ (t.hq 0 q).items, j.refused = true) ∧
      ∀ a b, 16 * a + b ≠ q → t.hq a b = u.hq a b))

/-- O55. Each of these commands completes; in another boot state than its own it changes nothing. IDENTITY in LOADING
derives the seed and goes on to VERIFYING the configuration, or to HALTED with cause 1 where the PUF failed; memory is
unchanged. CONFIG_VERIFY of a slot that the flash holds drops what is pending: a valid image of this module comes into
force and the firmware is next; an image without this module gives MAINTENANCE with cause 3, one that is not valid
MAINTENANCE with its cause. FIRMWARE_VERIFY, with what the flash holds: with no update open it runs the active image
where it is valid, else the fallback where that is, else the module goes to MAINTENANCE with cause 7. With an update
open the replaced image becomes active again and the update is over: from the fallback area where its digest is right,
with cause 9, else from the understudy's copy over an up pair port; without one only the areas are noted. HBM_TRAINED
with no retired granule and none allocated: six granules hold the ownership table and are reserved, every other one is
free, and the MEM registers show it; memory is unchanged. ADMISSION_OPEN with HBM trained and the loft verified loads
the priors and opens admission, memory and granule table unchanged. MAINTENANCE_RESET after an accepted image resets
and powers up the module. -/
def Obligations.BootSequence : Prop :=
  (∀ (s : State) (ok : Bool), s.bootState ≠ 1 → exec (.identity ok) s = .next s) ∧
  (∀ s : State, s.bootState = 1 → (∃ t, exec (.identity true) s = .next t ∧ t.bootState = 2 ∧ t.boot.seed = some Config.pufSeed ∧ t.mem = s.mem) ∧
    (∃ t, exec (.identity false) s = .next t ∧ t.bootState = 7 ∧ t.regField Reg.MGT_BOOT 20 8 = 1 ∧ t.mem = s.mem)) ∧
  (∀ (s : State) (img : List Byte) (deltas : List (List Byte)), s.bootState ≠ 2 → exec (.configVerify img deltas) s = .next s) ∧
  (∀ (s s1 : State) (img bytes : List Byte) (c : Conf) (cause : Nat), s.bootState = 2 → Tab.find? s.boot.flash.slots s.boot.flash.active = some bytes →
    s1 = (s.setFlash { s.boot.flash with journal := s.boot.flash.journal.filter (·.applied), pending := none, slots := Tab.drop s.boot.flash.slots (1 - s.boot.flash.active), lastSeq := s.boot.flash.applied }).showPend →
    (∀ m, s1.confCheck = (0, some c) → c.moduleOf s1.unitId = some m →
      exec (.configVerify img []) s = .next (((s1.loadConf c m).setBootState 3).setBootCause 0)) ∧
    (s1.confCheck = (0, some c) → c.moduleOf s1.unitId = none → exec (.configVerify img []) s = .next (s1.toMaintenance 3)) ∧
    (cause ≠ 0 → s1.confCheck = (cause, some c) → exec (.configVerify img []) s =
      .next ((s1.setBoot { s1.boot with conf := [(5, Memory.writeN [] 0 (c.sec 5))] }).toMaintenance cause)) ∧
    (s1.confCheck = (cause, none) → exec (.configVerify img []) s = .next (s1.toMaintenance cause))) ∧
  (∀ (s s1 : State) (a b : List Byte) (mate : Option (List Byte)), s.bootState = 3 → s.boot.flash.fwActive.getD a = a →
    s.boot.flash.fwFallback.getD b = b → s1 = s.setFlash { s.boot.flash with fwActive := some a, fwFallback := some b } →
    (s.boot.flash.upd = 0 →
      (s1.fwCause a none = 0 → exec (.firmwareVerify a b mate) s = .next ((s1.runFw a).setBootState 4)) ∧
      (s1.fwCause a none ≠ 0 → s1.fwCause b none = 0 → ∃ t, exec (.firmwareVerify a b mate) s = .next t ∧ t.bootState = 4 ∧ t.boot.fwRun = b ∧
        t.boot.flash.fwActive = some b) ∧
      (s1.fwCause a none ≠ 0 → s1.fwCause b none ≠ 0 → exec (.firmwareVerify a b mate) s = .next (s1.toMaintenance 7))) ∧
    (s.boot.flash.upd ≠ 0 →
      (sha3 b = s.boot.flash.updOld → ∃ t, exec (.firmwareVerify a b mate) s = .next t ∧ t.boot.flash.upd = 0 ∧ t.boot.flash.fwActive = some b ∧
        t.bootState = 3 ∧ t.regField Reg.MGT_BOOT 20 8 = 9) ∧
      (∀ m, sha3 b ≠ s.boot.flash.updOld → mate = some m → sha3 m = s.boot.flash.updOld → s.pairPorts ≠ [] →
        ∃ t, exec (.firmwareVerify a b mate) s = .next t ∧ t.boot.flash.upd = 0 ∧ t.boot.flash.fwActive = some m ∧ t.bootState = 3) ∧
      (sha3 b ≠ s.boot.flash.updOld → mate = none → exec (.firmwareVerify a b mate) s = .next s1))) ∧
  (∀ s : State, s.bootState = 4 → s.regBit Reg.MEM_HBMST 31 = false → s.boot.retired = [] → s.grans = [] → s.regN Reg.MEM_RESV = 0 →
    ∃ t, exec .hbmTrained s = .next t ∧ t.regN Reg.MEM_HBMST = 2 ^ 31 + 4095 ∧ t.regN Reg.MEM_FREE = 393216 - 6 ∧ t.regN Reg.MEM_RESV = 6 ∧
      t.regN Reg.MEM_RETIRED = 0 ∧ (∀ g, State.gState (t.gran g) = if g < 6 then 2 else 0) ∧ t.mem = s.mem) ∧
  (∀ s : State, s.bootState = 4 → s.regBit Reg.MEM_HBMST 31 = true → s.loft.verified = true → ∃ t, exec .admissionOpen s = .next t ∧
    t.bootState = 5 ∧ t.regBit Reg.ADM_STATUS 31 = true ∧ (t.regN Reg.SRV_PRIOR = 1 ∨ t.regN Reg.SRV_PRIOR = 2) ∧ t.mem = s.mem ∧ t.grans = s.grans) ∧
  (∀ s : State, (∀ a b m, s.bootState ≠ 3 → exec (.firmwareVerify a b m) s = .next s) ∧
    (s.bootState ≠ 4 → exec .hbmTrained s = .next s ∧ exec .admissionOpen s = .next s) ∧
    (s.bootState = 6 → s.boot.leaveAt.isSome = true → exec .maintenanceReset s = .next (((s.moduleReset none).setField Reg.CLK_LASTRST 24 8 0).powerUp)) ∧
    (s.bootState ≠ 6 → exec .maintenanceReset s = .next s))

/-- O56. Each of these commands completes. REGISTER_WRITE of an offset with no register, of a read-only register, or in
MAINTENANCE beyond the MGT block changes nothing. Outside MAINTENANCE a write of TIM_CCUEARG gives it the value, and
one of PWR_LIMIT within 500 to 2,000 its limit field; no other register and nothing else changes; a PWR_LIMIT value
outside changes nothing. ATT_START takes the nonce and clears the control register; audit log and memory are
unchanged. ATTESTATION_DONE of a signing in work gives a report that begins with the body of R484 and has 2,528 bytes
more, sets DONE, and source 820 is pending; memory is unchanged, one open value is drawn; with no signing in work
nothing changes. LOG_EXPORT between the current mark and the newest entry moves the mark and changes only registers; a
mark outside changes nothing. AUDIT_FLUSH makes the flash hold every entry and changes nothing else. -/
def Obligations.RegistersAndAudit : Prop :=
  (∀ (s : State) (off : Nat) (v : Word32) (x : RegExt),
    (regAt off = none → exec (.registerWrite off v x) s = .next s) ∧
    (s.bootState = 6 → 0x10000 ≤ off → exec (.registerWrite off v x) s = .next s) ∧
    (∀ r i j, regAt off = some (r, i, j) → State.regReadOnly r off = true → exec (.registerWrite off v x) s = .next s)) ∧
  (∀ (s : State) (v : Word32) (x : RegExt), s.bootState ≠ 6 →
    (∃ t, exec (.registerWrite Reg.TIM_CCUEARG v x) s = .next t ∧ t = { s with regs := t.regs } ∧ t.reg Reg.TIM_CCUEARG = v ∧
      ∀ o, o ≠ Reg.TIM_CCUEARG → t.reg o = s.reg o) ∧
    (500 ≤ field v.toNat 0 16 → field v.toNat 0 16 ≤ 2000 → ∃ t, exec (.registerWrite Reg.PWR_LIMIT v x) s = .next t ∧ t = { s with regs := t.regs } ∧
      t.regField Reg.PWR_LIMIT 0 16 = field v.toNat 0 16 ∧ ∀ o, o ≠ Reg.PWR_LIMIT → t.reg o = s.reg o) ∧
    (field v.toNat 0 16 < 500 ∨ 2000 < field v.toNat 0 16 → exec (.registerWrite Reg.PWR_LIMIT v x) s = .next s)) ∧
  (∀ s : State, ∃ t, exec .attStart s = .next t ∧ t.boot.signing = some (s.regBytes Reg.MGT_ATTNONCE 8) ∧ t.regN Reg.MGT_ATTCTL = 0 ∧
    t.boot.audit = s.boot.audit ∧ t.mem = s.mem) ∧
  (∀ (s : State) (nonce : List Byte), s.boot.signing = some nonce → ∃ t, exec .attestationDone s = .next t ∧ t.boot.signing = none ∧
    (∃ sig, t.boot.report = s.attestBody nonce ++ sig ∧ sig.length = 2528) ∧ t.regN Reg.MGT_ATTCTL = 2 ^ 31 ∧ t.evPend 820 = true ∧ t.free = s.free + 1 ∧ t.mem = s.mem) ∧
  (∀ s : State, s.boot.signing = none → exec .attestationDone s = .next s) ∧
  (∀ (s : State) (m : BitVec 64),
    (s.reg64 Reg.MGT_LOGEXPL Reg.MGT_LOGEXPH ≤ m.toNat → m.toNat ≤ s.reg64 Reg.MGT_LOGHEADL Reg.MGT_LOGHEADH → ∃ t, exec (.logExport m) s = .next t ∧
      t.reg64 Reg.MGT_LOGEXPL Reg.MGT_LOGEXPH = m.toNat ∧ t = { s with regs := t.regs }) ∧
    (m.toNat < s.reg64 Reg.MGT_LOGEXPL Reg.MGT_LOGEXPH ∨ s.reg64 Reg.MGT_LOGHEADL Reg.MGT_LOGHEADH < m.toNat → exec (.logExport m) s = .next s)) ∧
  (∀ s : State, exec .auditFlush s = .next (s.setBoot { s.boot with flushed := s.reg64 Reg.MGT_LOGHEADL Reg.MGT_LOGHEADH }))

/-- O57. Each of these commands completes. EVENT_ARRIVAL of a source that is no tenant notice, and EVC_SETPEND of any
source of the table, set its pending bit, add one to its count up to 255, replace its data word and count a newly
pending source in EVC_STATUS; no other source changes and nothing outside register space does. EVENT_ARRIVAL of a
tenant notice, and both and PEND on a reserved source, change nothing. EVC_MASK_EFFECT on the oldest mask write of a
source puts it in force 32 ns after it landed, leaves the masks of the other sources and nothing but the event
controller's state changes; before, nothing changes. EVENT_DELIVERY to an internal target takes the pick of R508: a
pending source that is not masked, of the highest priority among the deliverable ones of the target and among those
the lowest number; it is cleared and handed over with its count and data, and the target is busy and has no pick.
Without a deliverable source nothing changes. EVENT_ACK makes its target ready and leaves the others as they are. -/
def Obligations.Events : Prop :=
  let arrives := fun (s t : State) (src data : Nat) => t = { s with regs := t.regs } ∧ t.evPend src = true ∧
    t.evCount src = capAt 255 (s.evCount src + 1) ∧ t.evData src = data % 2 ^ 16 ∧
    (s.evPend src = false → s.regN Reg.EVC_STATUS < 2 ^ 32 - 1 → t.regN Reg.EVC_STATUS = s.regN Reg.EVC_STATUS + 1) ∧
    ∀ o, o ≠ Reg.EVC_STAT src → o ≠ Reg.EVC_STATUS → t.reg o = s.reg o
  (∀ (s : State) (src data : Nat), src ≤ 820 →
    (∃ t, exec (.evcSetpend src data) s = .next t ∧ arrives s t src data) ∧
    ((src < 512 ∨ 767 < src) → ∃ t, exec (.eventArrival src data) s = .next t ∧ arrives s t src data) ∧
    (512 ≤ src → src ≤ 767 → exec (.eventArrival src data) s = .next s)) ∧
  (∀ (s : State) (src data : Nat), 820 < src → exec (.evcSetpend src data) s = .next s ∧ exec (.eventArrival src data) s = .next s ∧
    exec (.pend src none) s = .next s) ∧
  (∀ (s : State) (src d : Nat) (on : Bool), s.evc.waits.find? (fun w => w.1 == src) = some (src, on, d) →
    (d + 32 ≤ s.clk → ∃ t, exec (.evcMaskEffect src) s = .next t ∧ (src ∈ t.evc.mask ↔ on = true) ∧
      (∀ k, k ≠ src → (k ∈ t.evc.mask ↔ k ∈ s.evc.mask)) ∧ t = { s with evc := t.evc }) ∧
    (s.clk < d + 32 → exec (.evcMaskEffect src) s = .next s)) ∧
  (∀ (s : State) (target i : Nat), target ≠ 0x85 → s.evPick target = some i →
    (i ≤ 820 ∧ s.evPend i = true ∧ s.evMasked i = false ∧ s.evTarget i = target ∧
      ∀ j, j ≤ 820 → s.evTarget j = target → s.evDeliverable j = true → s.evPrio j < s.evPrio i ∨ (s.evPrio j = s.evPrio i ∧ i ≤ j)) ∧
    ∃ t, exec (.eventDelivery target) s = .next t ∧ t.evPend i = false ∧ t.evCount i = 0 ∧ target ∈ t.evc.busy ∧
      t.out = s.out ++ [.deliver target i (s.evCount i) (s.evData i)] ∧ t.evPick target = none) ∧
  (∀ (s : State) (target : Nat), (s.evPick target = none → exec (.eventDelivery target) s = .next s) ∧
    ∃ t, exec (.eventAck target) s = .next t ∧ target ∉ t.evc.busy ∧ t = { s with evc := t.evc } ∧
      (∀ k, k ≠ target → (k ∈ t.evc.busy ↔ k ∈ s.evc.busy)))

/-- O58. For every source of the table PEND completes: it clears the source's pending bit and count, keeps its data word,
and changes no other source and nothing outside register space. A register write of EVC_STAT with bit 31 set, outside
MAINTENANCE, does the same. With an arrival in the same cycle PEND reads 1 afterwards, the count is 1 and the data
word is the arrival's. -/
def Obligations.PendClears : Prop :=
  ∀ (s : State) (src : Nat), src ≤ 820 →
    (∃ t, exec (.pend src none) s = .next t ∧ t = { s with regs := t.regs } ∧ t.evPend src = false ∧ t.evCount src = 0 ∧ t.evData src = s.evData src ∧
      (∀ o, o ≠ Reg.EVC_STAT src → o ≠ Reg.EVC_STATUS → t.reg o = s.reg o)) ∧
    (∀ (v : Word32) (x : RegExt), s.bootState ≠ 6 → tbit v.toNat 31 = true →
      exec (.registerWrite (Reg.EVC_STAT src) v x) s = exec (.pend src none) s) ∧
    (∀ data, ∃ u, exec (.pend src (some data)) s = .next u ∧ u.evPend src = true ∧ u.evCount src = 1 ∧
      u.evData src = data % 2 ^ 16)

/-- O59. Each of these commands completes. With the kind enabled, the reef level at most 5, admission open and no core of
an older cover before it: AKAT and VKAT start on a partition without a context of a core in service and under no other
slice, SMARCH on a free MiB of its stage memory; the core is then under that slice, memory is unchanged, and for AKAT
and VKAT IST_STATUS runs. HPAT so enabled starts on a free HBM granule with fewer than 4 of its base die under test
and 1,024 free: the granule is then no longer free, memory and granule table are unchanged. A slice that runs and ends
passed leaves the core under none; AKAT and VKAT are counted in IST_SLICES, AKAT leaves the partition empty and the
core's source pending, SMARCH leaves the MiB zero and no other byte changed. BMARCH and HPAT that run and end passed
are counted and leave their granule zero, with no other byte and no granule entry changed. Where the core runs no
slice, an end of AKAT, VKAT or SMARCH changes nothing. BMARCH without a result changes nothing: none can start, since
its tier has 512 granules. EYE of 1 to 4 lanes of a port, enabled, shows the narrowest lane and changes only
registers. -/
def Obligations.TestSlices : Prop :=
  (∀ (s : State) (n p : Nat), s.istMayStart 1 = true → s.partTestable n p = true → s.istTurn n 1 = true → ∃ t, exec (.akat n p none) s = .next t ∧
    (t.core n).testing = some (1, p) ∧ 8 ≤ t.regField Reg.IST_STATUS 28 4 ∧ t.mem = s.mem ∧ ∀ m, m ≠ n → t.core m = s.core m) ∧
  (∀ (s : State) (n p : Nat), s.istMayStart 2 = true → s.partTestable n p = true → s.istTurn n 2 = true → ∃ t, exec (.vkat n p none) s = .next t ∧
    (t.core n).testing = some (2, p) ∧ 8 ≤ t.regField Reg.IST_STATUS 28 4 ∧ t.mem = s.mem) ∧
  (∀ (s : State) (n m : Nat), s.istMayStart 3 = true → s.coreTestable n = true → s.stageMibFree n m = true → s.istTurn n 3 = true → ∃ t, exec (.smarch n (.stage m) none) s = .next t ∧
    (t.core n).testing = some (3, 8 + m) ∧ t.mem = s.mem) ∧
  (∀ (s : State) (n p : Nat) (a : MarchArea) (ok : Bool), (s.core n).testing = none →
    exec (.akat n p (some ok)) s = .next s ∧ exec (.vkat n p (some ok)) s = .next s ∧ exec (.smarch n a (some ok)) s = .next s) ∧
  (∀ (s : State) (n p : Nat), n < 128 → s.regN Reg.IST_SLICES < 2 ^ 32 - 1 →
    ((s.core n).testing = some (1, p) → ∃ t, exec (.akat n p (some true)) s = .next t ∧ (t.core n).testing = none ∧ (t.part n p) = {} ∧
      t.regN Reg.IST_SLICES = s.regN Reg.IST_SLICES + 1 ∧ t.evPend (384 + n) = true ∧ t.mem = s.mem) ∧
    ((s.core n).testing = some (2, p) → ∃ t, exec (.vkat n p (some true)) s = .next t ∧ (t.core n).testing = none ∧
      t.regN Reg.IST_SLICES = s.regN Reg.IST_SLICES + 1 ∧ t.mem = s.mem)) ∧
  (∀ (s : State) (n m : Nat), n < 128 → m < 6 → (s.core n).testing = some (3, 8 + m) → ∃ t, exec (.smarch n (.stage m) (some true)) s = .next t ∧
    (t.core n).testing = none ∧ ∀ b, t.read8 b = if State.stageOf n + m * 2 ^ 20 ≤ b ∧ b < State.stageOf n + (m + 1) * 2 ^ 20 then 0#8 else s.read8 b) ∧
  (∀ (s : State) (g : Nat), s.istMayStart 5 = true → g < 393216 → s.granFree g = true →
    (s.ist.grans.filter fun x => x.1 == 5 && State.testDie x.2 == State.granDie g).length < 4 → 1024 ≤ s.regField Reg.MEM_FREE 0 19 →
    ∃ t, exec (.hpat g none) s = .next t ∧ t.ist.grans = s.ist.grans ++ [(5, g)] ∧ t.granFree g = false ∧ t.mem = s.mem ∧ t.grans = s.grans) ∧
  (∀ (s : State) (g : Nat), exec (.bmarch g none) s = .next s) ∧
  (∀ (s : State) (g : Nat), s.regN Reg.IST_SLICES < 2 ^ 32 - 1 → ∀ x ∈ [(4, fun r => Instr.bmarch g r), (5, fun r => Instr.hpat g r)], (x.1, g) ∈ s.ist.grans →
    ∃ t, exec (x.2 (some true)) s = .next t ∧ (x.1, g) ∉ t.ist.grans ∧ t.regN Reg.IST_SLICES = s.regN Reg.IST_SLICES + 1 ∧ t.grans = s.grans ∧
      ∀ b, t.read8 b = if State.granuleAddr g ≤ b ∧ b < State.granuleAddr g + 2 ^ 21 then 0#8 else s.read8 b) ∧
  (∀ (s : State) (port : Nat) (ws : List (BitVec 8)), port < 36 → ws ≠ [] → ws.length ≤ 4 → s.istMayStart 6 = true → ∃ t, exec (.eye port ws) s = .next t ∧
    (∀ w ∈ ws, t.regField (Reg.IST_EYE port) 0 8 ≤ w.toNat) ∧ (∃ w, ws[t.regField (Reg.IST_EYE port) 16 2]? = some w ∧ w.toNat = t.regField (Reg.IST_EYE port) 0 8) ∧
    t = { s with regs := t.regs })

/-- O60. Each of these commands completes. COVERAGE_OVERDUE of a core in service beyond period and grace since its last
cover marks it overdue, makes source 816 pending with the core's number where it was not overdue yet, and asks the
scheduler to vacate a partition; memory and cores are unchanged. Before that time, or for a retired core, nothing
changes. IST_RETIRE of a core in service: it is retired, under no slice, shown in IST_CORE, its retirement is under
way from now, memory and every other core are unchanged; one already retired stays as it is. CORE_RETIREMENT with no
retirement under way, or less than 1 us after the decision, changes nothing; later, with a context resident it asks
for the saves that it names, to be done 1 ms after the decision; with none resident the core's partitions are empty,
its clock is gated, the flash's record names it with the domain time, source 815 is pending, the retirement is over
and memory is unchanged. -/
def Obligations.CoreRetirement : Prop :=
  (∀ (s : State) (n : Nat), n < 128 → (s.core n).retired = false →
    (Tab.get 0 s.ist.cover n + s.istPeriod + s.istGrace ≤ s.clk → ∃ t, exec (.coverageOverdue n) s = .next t ∧ t.regBit (Reg.IST_CORE n) 30 = true ∧
      (s.regBit (Reg.IST_CORE n) 30 = false → t.evPend 816 = true ∧ t.evData 816 = n) ∧ t.out = s.out ++ [.vacate n] ∧ t.mem = s.mem ∧ t.cores = s.cores) ∧
    (s.clk < Tab.get 0 s.ist.cover n + s.istPeriod + s.istGrace → exec (.coverageOverdue n) s = .next s)) ∧
  (∀ (s : State) (n : Nat), n < 128 →
    ((s.core n).retired = false → ∃ t, exec (.istRetire n) s = .next t ∧ t.core n = { s.core n with retired := true, testing := none } ∧
      t.regBit (Reg.IST_CORE n) 31 = true ∧ Tab.find? t.ist.retiring n = some s.clk ∧ t.mem = s.mem ∧ ∀ m, m ≠ n → t.core m = s.core m) ∧
    ((s.core n).retired = true → exec (.istRetire n) s = .next s ∧ exec (.coverageOverdue n) s = .next s)) ∧
  (∀ (s : State) (n : Nat) (saves : List (Nat × Nat)), n < 128 →
    (Tab.find? s.ist.retiring n = none → exec (.coreRetirement n saves) s = .next s) ∧
    (∀ d, Tab.find? s.ist.retiring n = some d →
      (s.clk < d + 1000 → exec (.coreRetirement n saves) s = .next s) ∧
      (d + 1000 ≤ s.clk →
        ((s.core n).parts.any (fun p => p.2.ctx.isSome) = true → exec (.coreRetirement n saves) s = .next
          (saves.foldl (fun t x => t.retireSave n x.1 (d + 1000000 - t.clk) x.2) s)) ∧
        ((s.core n).parts.any (fun p => p.2.ctx.isSome) = false → s.boot.flash.cores.length < 128 → ∃ t, exec (.coreRetirement n saves) s = .next t ∧
          (t.core n).parts = [] ∧ (t.core n).gated = true ∧ t.boot.flash.cores = s.boot.flash.cores ++ [(n, s.now)] ∧
          Tab.find? t.ist.retiring n = none ∧ t.evPend 815 = true ∧ t.mem = s.mem))))
end

