-- ==== Sys2Proof/Laws/Inv.lean ====
section
/-! SUPPORT. The invariant of a run, part by part: the stores keep their canonical form under every operation on them, and
the predicates that say it of a function's answer. -/

namespace Sys2Proof

/-! ### Tables -/

theorem Tab.wfFrom_mono {α : Type} [DecidableEq α] (d : α) {lo hi : Nat} (h : lo ≤ hi) :
    ∀ {t : Tab α}, Tab.wfFrom d hi t = true → Tab.wfFrom d lo t = true
  | [], _ => rfl
  | (j, v) :: rest, w => by
    simp only [Tab.wfFrom, Bool.and_eq_true, decide_eq_true_eq] at w ⊢
    exact ⟨⟨by omega, w.1.2⟩, w.2⟩

theorem Tab.wfFrom_drop {α : Type} [DecidableEq α] (d : α) (k : Nat) :
    ∀ (t : Tab α) (lo : Nat), Tab.wfFrom d lo t = true → Tab.wfFrom d lo (t.drop k) = true
  | [], _, _ => rfl
  | (j, v) :: rest, lo, w => by
    simp only [Tab.wfFrom, Bool.and_eq_true, decide_eq_true_eq] at w
    unfold Tab.drop
    split
    · exact Tab.wfFrom_mono d (by omega) (Tab.wfFrom_drop d k rest _ w.2)
    · simp only [Tab.wfFrom, Bool.and_eq_true, decide_eq_true_eq]
      exact ⟨w.1, Tab.wfFrom_drop d k rest _ w.2⟩

/-- Key `k` is not listed once it is dropped. -/
theorem Tab.drop_keys {α : Type} (k : Nat) : ∀ (t : Tab α), ∀ x ∈ t.drop k, x.1 ≠ k
  | [], _, h => by simp [Tab.drop] at h
  | (j, v) :: rest, x, h => by
    unfold Tab.drop at h
    split at h
    · exact Tab.drop_keys k rest x h
    · rcases List.mem_cons.1 h with h | h
      · subst h; assumption
      · exact Tab.drop_keys k rest x h

theorem Tab.wfFrom_put {α : Type} [DecidableEq α] (d : α) (k : Nat) (v : α) (hv : v ≠ d) :
    ∀ (t : Tab α) (lo : Nat), lo ≤ k → (∀ x ∈ t, x.1 ≠ k) → Tab.wfFrom d lo t = true → Tab.wfFrom d lo (t.put k v) = true
  | [], lo, h, _, _ => by simp [Tab.put, Tab.wfFrom, h, hv]
  | (j, u) :: rest, lo, h, hk, w => by
    simp only [Tab.wfFrom, Bool.and_eq_true, decide_eq_true_eq] at w
    have hj : j ≠ k := hk (j, u) (by simp)
    unfold Tab.put
    split
    · simp only [Tab.wfFrom, Bool.and_eq_true, decide_eq_true_eq]
      exact ⟨⟨h, hv⟩, ⟨by omega, w.1.2⟩, w.2⟩
    · simp only [Tab.wfFrom, Bool.and_eq_true, decide_eq_true_eq]
      exact ⟨w.1, Tab.wfFrom_put d k v hv rest _ (by omega) (fun x hx => hk x (by simp [hx])) w.2⟩

/-- A write keeps the canonical form. -/
theorem Tab.wf_set {α : Type} [DecidableEq α] (d : α) (t : Tab α) (k : Nat) (v : α) (w : Tab.wf d t = true) :
    Tab.wf d (Tab.set d t k v) = true := by
  unfold Tab.set Tab.wf
  split
  · exact Tab.wfFrom_drop d k t 0 w
  · exact Tab.wfFrom_put d k v ‹_› _ 0 (Nat.zero_le _) (Tab.drop_keys k t) (Tab.wfFrom_drop d k t 0 w)

/-- A selection of the entries keeps the canonical form. -/
theorem Tab.wfFrom_filter {α : Type} [DecidableEq α] (d : α) (p : Nat × α → Bool) :
    ∀ (t : Tab α) (lo : Nat), Tab.wfFrom d lo t = true → Tab.wfFrom d lo (t.filter p) = true
  | [], _, _ => rfl
  | (j, v) :: rest, lo, w => by
    simp only [Tab.wfFrom, Bool.and_eq_true, decide_eq_true_eq] at w
    rw [List.filter_cons]
    split
    · simp only [Tab.wfFrom, Bool.and_eq_true, decide_eq_true_eq]
      exact ⟨w.1, Tab.wfFrom_filter d p rest _ w.2⟩
    · exact Tab.wfFrom_mono d (by omega) (Tab.wfFrom_filter d p rest _ w.2)

theorem Tab.get_drop_ne {α : Type} (d : α) (k j : Nat) (h : j ≠ k) : ∀ t : Tab α, Tab.get d (t.drop k) j = Tab.get d t j
  | [] => rfl
  | (i, v) :: rest => by
    unfold Tab.drop
    split
    · rename_i hi
      rw [Tab.get_drop_ne d k j h rest]
      simp only [Tab.get, hi, if_neg (Ne.symm h)]
    · simp only [Tab.get, Tab.get_drop_ne d k j h rest]

theorem Tab.get_drop_self {α : Type} (d : α) (k : Nat) : ∀ t : Tab α, Tab.get d (t.drop k) k = d
  | [] => rfl
  | (i, v) :: rest => by
    unfold Tab.drop
    split
    · exact Tab.get_drop_self d k rest
    · rename_i hi
      simp only [Tab.get, if_neg hi, Tab.get_drop_self d k rest]

theorem Tab.get_put_self {α : Type} (d : α) (k : Nat) (v : α) :
    ∀ t : Tab α, (∀ x ∈ t, x.1 ≠ k) → Tab.get d (t.put k v) k = v
  | [], _ => by simp [Tab.put, Tab.get]
  | (i, u) :: rest, h => by
    have hi : i ≠ k := h (i, u) (by simp)
    unfold Tab.put
    split
    · simp [Tab.get]
    · simp only [Tab.get, if_neg hi]
      exact Tab.get_put_self d k v rest fun x hx => h x (by simp [hx])

theorem Tab.get_put_ne {α : Type} (d : α) (k j : Nat) (v : α) (h : j ≠ k) :
    ∀ t : Tab α, Tab.get d (t.put k v) j = Tab.get d t j
  | [] => by simp [Tab.put, Tab.get, Ne.symm h]
  | (i, u) :: rest => by
    unfold Tab.put
    split
    · simp only [Tab.get, if_neg (Ne.symm h)]
    · simp only [Tab.get, Tab.get_put_ne d k j v h rest]

/-- A written key reads as what was written. -/
@[simp] theorem Tab.get_set_self {α : Type} [DecidableEq α] (d : α) (t : Tab α) (k : Nat) (v : α) :
    Tab.get d (Tab.set d t k v) k = v := by
  unfold Tab.set
  split
  · rename_i h; rw [h]; exact Tab.get_drop_self d k t
  · exact Tab.get_put_self d k v _ (Tab.drop_keys k t)

/-- Every other key reads as before. -/
theorem Tab.get_set_ne {α : Type} [DecidableEq α] (d : α) (t : Tab α) (k j : Nat) (v : α) (h : j ≠ k) :
    Tab.get d (Tab.set d t k v) j = Tab.get d t j := by
  unfold Tab.set
  split
  · exact Tab.get_drop_ne d k j h t
  · rw [Tab.get_put_ne d k j v h, Tab.get_drop_ne d k j h]

/-! ### Memory -/

theorem Memory.wf_write (m : Memory) (a : Nat) (b : Byte) (w : m.wf = true) : (m.write a b).wf = true :=
  Tab.wf_set Memory.unwritten m a b w

theorem Memory.wf_writeN : ∀ (bs : List Byte) (m : Memory) (a : Nat), m.wf = true → (m.writeN a bs).wf = true
  | [], _, _, w => w
  | b :: bs, m, a, w => Memory.wf_writeN bs (m.write a b) (a + 1) (Memory.wf_write m a b w)

theorem Memory.wf_filter (m : Memory) (p : Host.Cell → Bool) (w : m.wf = true) :
    Memory.wf (List.filter p m) = true :=
  Tab.wfFrom_filter Memory.unwritten p m 0 w

theorem Memory.wf_foldl {β : Type} (f : Memory → β → Memory) (hf : ∀ m x, m.wf = true → (f m x).wf = true) :
    ∀ (l : List β) (m : Memory), m.wf = true → (l.foldl f m).wf = true
  | [], _, w => w
  | x :: l, m, w => Memory.wf_foldl f hf l (f m x) (hf m x w)

/-- A byte that was just stored reads as itself. -/
@[simp] theorem Memory.read_write_self (m : Memory) (a : Nat) (b : Byte) : (m.write a b).read a = b :=
  Tab.get_set_self Memory.unwritten m a b

/-- A store of one byte leaves every other byte. -/
theorem Memory.read_write_ne (m : Memory) (a c : Nat) (b : Byte) (h : c ≠ a) : (m.write a b).read c = m.read c :=
  Tab.get_set_ne Memory.unwritten m a c b h

/-- A store of bytes leaves every byte outside its range. -/
theorem Memory.read_writeN_out : ∀ (bs : List Byte) (m : Memory) (a c : Nat), (c < a ∨ a + bs.length ≤ c) →
    (m.writeN a bs).read c = m.read c
  | [], _, _, _, _ => rfl
  | b :: bs, m, a, c, h => by
    simp only [List.length_cons] at h
    show (Memory.writeN (m.write a b) (a + 1) bs).read c = m.read c
    rw [Memory.read_writeN_out bs (m.write a b) (a + 1) c (by omega), Memory.read_write_ne m a c b (by omega)]

namespace Machine

/-! ### Registers, poison marks, cues, audit -/

theorem Memory.wf_clear (m : Memory) (a n : Nat) (w : m.wf = true) : (Memory.clear m a n).wf = true := Memory.wf_filter m _ w

theorem Memory.wf_copy (m : Memory) (a b n : Nat) (w : m.wf = true) : (Memory.copy m a b n).wf = true :=
  Memory.wf_foldl _ (fun m _ w => Memory.wf_write m _ _ w) _ _ (Memory.wf_clear m _ _ w)

theorem regsWfFrom_mono {lo hi : Nat} (h : lo ≤ hi) : ∀ {t : Tab Word32}, regsWfFrom hi t = true → regsWfFrom lo t = true
  | [], _ => rfl
  | (j, v) :: rest, w => by
    simp only [regsWfFrom, Bool.and_eq_true, decide_eq_true_eq] at w ⊢
    exact ⟨⟨by omega, w.1.2⟩, w.2⟩

theorem regsWfFrom_drop (k : Nat) : ∀ (t : Tab Word32) (lo : Nat), regsWfFrom lo t = true → regsWfFrom lo (t.drop k) = true
  | [], _, _ => rfl
  | (j, v) :: rest, lo, w => by
    simp only [regsWfFrom, Bool.and_eq_true, decide_eq_true_eq] at w
    unfold Tab.drop
    split
    · exact regsWfFrom_mono (by omega) (regsWfFrom_drop k rest _ w.2)
    · simp only [regsWfFrom, Bool.and_eq_true, decide_eq_true_eq]
      exact ⟨w.1, regsWfFrom_drop k rest _ w.2⟩

theorem regsWfFrom_filter (p : Nat × Word32 → Bool) : ∀ (t : Tab Word32) (lo : Nat), regsWfFrom lo t = true →
    regsWfFrom lo (t.filter p) = true
  | [], _, _ => rfl
  | (j, v) :: rest, lo, w => by
    simp only [regsWfFrom, Bool.and_eq_true, decide_eq_true_eq] at w
    rw [List.filter_cons]
    split
    · simp only [regsWfFrom, Bool.and_eq_true, decide_eq_true_eq]
      exact ⟨w.1, regsWfFrom_filter p rest _ w.2⟩
    · exact regsWfFrom_mono (by omega) (regsWfFrom_filter p rest _ w.2)

theorem regsWfFrom_put (k : Nat) (v : Word32) (hv : v ≠ regReset k) : ∀ (t : Tab Word32) (lo : Nat), lo ≤ k →
    (∀ x ∈ t, x.1 ≠ k) → regsWfFrom lo t = true → regsWfFrom lo (t.put k v) = true
  | [], lo, h, _, _ => by simp [Tab.put, regsWfFrom, h, hv]
  | (j, u) :: rest, lo, h, hk, w => by
    simp only [regsWfFrom, Bool.and_eq_true, decide_eq_true_eq] at w
    have hj : j ≠ k := hk (j, u) (by simp)
    unfold Tab.put
    split
    · simp only [regsWfFrom, Bool.and_eq_true, decide_eq_true_eq]
      exact ⟨⟨h, hv⟩, ⟨by omega, w.1.2⟩, w.2⟩
    · simp only [regsWfFrom, Bool.and_eq_true, decide_eq_true_eq]
      exact ⟨w.1, regsWfFrom_put k v hv rest _ (by omega) (fun x hx => hk x (by simp [hx])) w.2⟩

theorem regsWf_set (t : Tab Word32) (k : Nat) (v : Word32) (w : regsWfFrom 0 t = true) :
    regsWfFrom 0 (Tab.set (regReset k) t k v) = true := by
  unfold Tab.set
  split
  · exact regsWfFrom_drop k t 0 w
  · exact regsWfFrom_put k v ‹_› _ 0 (Nat.zero_le _) (Tab.drop_keys k t) (regsWfFrom_drop k t 0 w)

theorem risingFrom_mono {lo hi : Nat} (h : lo ≤ hi) : ∀ {t : List Nat}, risingFrom hi t = true → risingFrom lo t = true
  | [], _ => rfl
  | j :: rest, w => by
    simp only [risingFrom, Bool.and_eq_true, decide_eq_true_eq] at w ⊢
    exact ⟨by omega, w.2⟩

theorem risingFrom_insert (k : Nat) : ∀ (t : List Nat) (lo : Nat), lo ≤ k → risingFrom lo t = true →
    risingFrom lo (insertNat k t) = true
  | [], lo, h, _ => by simp [insertNat, risingFrom, h]
  | j :: rest, lo, h, w => by
    simp only [risingFrom, Bool.and_eq_true, decide_eq_true_eq] at w
    unfold insertNat
    split
    · simp only [risingFrom, Bool.and_eq_true, decide_eq_true_eq]
      exact ⟨h, by omega, w.2⟩
    · split
      · simp only [risingFrom, Bool.and_eq_true, decide_eq_true_eq]
        exact w
      · simp only [risingFrom, Bool.and_eq_true, decide_eq_true_eq]
        exact ⟨w.1, risingFrom_insert k rest _ (by omega) w.2⟩

theorem risingFrom_filter (p : Nat → Bool) : ∀ (t : List Nat) (lo : Nat), risingFrom lo t = true →
    risingFrom lo (t.filter p) = true
  | [], _, _ => rfl
  | j :: rest, lo, w => by
    simp only [risingFrom, Bool.and_eq_true, decide_eq_true_eq] at w
    rw [List.filter_cons]
    split
    · simp only [risingFrom, Bool.and_eq_true, decide_eq_true_eq]
      exact ⟨w.1, risingFrom_filter p rest _ w.2⟩
    · exact risingFrom_mono (by omega) (risingFrom_filter p rest _ w.2)

theorem rising_foldl {β : Type} (g : β → Nat) : ∀ (l : List β) (t : List Nat), risingFrom 0 t = true →
    risingFrom 0 (l.foldl (fun p x => insertNat (g x) p) t) = true
  | [], _, w => w
  | x :: l, t, w => rising_foldl g l _ (risingFrom_insert (g x) t 0 (Nat.zero_le _) w)

theorem Cue.before_trans {a b c : Cue} (h : a.before b = true) (k : b.before c = true) : a.before c = true := by
  simp only [Cue.before, decide_eq_true_eq] at h k ⊢
  omega

theorem Cue.before_total (a b : Cue) (h : ¬ a.before b = true) : b.before a = true := by
  simp only [Cue.before, decide_eq_true_eq] at h ⊢
  omega

theorem cueInsert_all (p : Cue → Bool) (c : Cue) (hc : p c = true) : ∀ l : List Cue, l.all p = true → (cueInsert c l).all p = true
  | [], _ => by simp [cueInsert, hc]
  | d :: ds, h => by
    simp only [List.all_cons, Bool.and_eq_true] at h
    unfold cueInsert
    split
    · simp only [List.all_cons, Bool.and_eq_true]
      exact ⟨h.1, cueInsert_all p c hc ds h.2⟩
    · simp only [List.all_cons, Bool.and_eq_true]
      exact ⟨hc, h⟩

theorem cueSorted_insert (c : Cue) : ∀ l : List Cue, cueSorted l = true → cueSorted (cueInsert c l) = true
  | [], _ => by simp [cueInsert, cueSorted]
  | d :: ds, h => by
    simp only [cueSorted, Bool.and_eq_true] at h
    unfold cueInsert
    split
    · rename_i hd
      simp only [cueSorted, Bool.and_eq_true]
      exact ⟨cueInsert_all _ c hd ds h.1, cueSorted_insert c ds h.2⟩
    · rename_i hd
      have hcd := Cue.before_total d c hd
      simp only [cueSorted, List.all_cons, Bool.and_eq_true]
      exact ⟨⟨hcd, List.all_eq_true.2 fun x hx => Cue.before_trans hcd (List.all_eq_true.1 h.1 x hx)⟩, h⟩

theorem cueSorted_filter (p : Cue → Bool) : ∀ l : List Cue, cueSorted l = true → cueSorted (l.filter p) = true
  | [], _ => rfl
  | d :: ds, h => by
    simp only [cueSorted, Bool.and_eq_true] at h
    rw [List.filter_cons]
    split
    · simp only [cueSorted, Bool.and_eq_true]
      exact ⟨List.all_eq_true.2 fun x hx => List.all_eq_true.1 h.1 x (List.mem_filter.1 hx).1, cueSorted_filter p ds h.2⟩
    · exact cueSorted_filter p ds h.2

theorem cueSorted_drop : ∀ l : List Cue, cueSorted l = true → cueSorted (l.drop 1) = true
  | [], _ => rfl
  | d :: ds, h => by
    simp only [cueSorted, Bool.and_eq_true] at h
    exact h.2

theorem cueSorted_map (f : Cue → Cue) (hf : ∀ a b : Cue, (f a).before (f b) = a.before b) :
    ∀ l : List Cue, cueSorted l = true → cueSorted (l.map f) = true
  | [], _ => rfl
  | d :: ds, h => by
    simp only [cueSorted, Bool.and_eq_true] at h
    simp only [List.map_cons, cueSorted, Bool.and_eq_true, List.all_map]
    refine ⟨List.all_eq_true.2 fun x hx => ?_, cueSorted_map f hf ds h.2⟩
    simp only [Function.comp_apply, hf]
    exact List.all_eq_true.1 h.1 x hx

theorem auditChain_tail : ∀ (e : AuditEntry) (l : List AuditEntry), auditChain (e :: l) = true → auditChain l = true
  | _, [], _ => rfl
  | e, d :: rest, h => by
    simp only [auditChain, Bool.and_eq_true] at h
    exact h.2

theorem auditChain_dropWhile (p : AuditEntry → Bool) : ∀ l : List AuditEntry, auditChain l = true →
    auditChain (l.dropWhile p) = true
  | [], _ => rfl
  | e :: l, h => by
    rw [List.dropWhile_cons]
    split
    · exact auditChain_dropWhile p l (auditChain_tail e l h)
    · exact h

/-! ### The parts of the invariant -/

theorem State.Inv.mem' {s : State} (h : s.Inv) : s.mem.wf = true := InvOn.mem h
theorem State.Inv.regs' {s : State} (h : s.Inv) : regsWfFrom 0 s.regs = true := InvOn.regs h
theorem State.Inv.poison' {s : State} (h : s.Inv) : risingFrom 0 s.poison = true := InvOn.poison h
theorem State.Inv.grans' {s : State} (h : s.Inv) : Tab.wf 0#64 s.grans = true := InvOn.grans h
theorem State.Inv.cues' {s : State} (h : s.Inv) : cueSorted s.time.cues = true := InvOn.cues h
theorem State.Inv.audit' {s : State} (h : s.Inv) : auditChain s.boot.audit = true := InvOn.audit h

/-- The invariant speaks of six parts of the state. -/
theorem State.Inv.same {s t : State} (h : s.Inv) (em : t.mem = s.mem) (er : t.regs = s.regs) (ep : t.poison = s.poison)
    (eg : t.grans = s.grans) (ec : t.time.cues = s.time.cues) (ea : t.boot.audit = s.boot.audit) : t.Inv :=
  ⟨em ▸ h.mem', er ▸ h.regs', ep ▸ h.poison', eg ▸ h.grans', ec ▸ h.cues', ea ▸ h.audit'⟩

/-- A memory in canonical form takes the place of another. -/
theorem State.Inv.setMem {s : State} {m : Memory} (h : s.Inv) (w : m.wf = true) : State.Inv { s with mem := m } :=
  ⟨w, h.regs', h.poison', h.grans', h.cues', h.audit'⟩

/-! ### Answers that hold a state -/

/-- An answer in which a state comes first keeps the invariant. -/
def FstInv {α : Type} (x : State × α) : Prop := x.1.Inv
/-- A state that comes second. -/
def SndInv {α : Type} (x : α × State) : Prop := x.2.Inv
/-- A state that comes last of three. -/
def TrdInv {α β : Type} (x : α × β × State) : Prop := x.2.2.Inv
/-- A state in the middle of three. -/
def MidInv {α β : Type} (x : α × State × β) : Prop := x.2.1.Inv
/-- What an answer holds, where there is one. -/
def OptOf {α : Type} (p : α → Prop) : Option α → Prop
  | some x => p x
  | none => True
/-- A state, where there is one. -/
abbrev OptInv : Option State → Prop := OptOf State.Inv
/-- A state that comes second, where there is one. -/
abbrev OptSnd {α : Type} : Option (α × State) → Prop := OptOf SndInv
/-- A state that comes first of a run that does not halt. -/
def RunFst {α : Type} : Run (State × α) → Prop
  | .ok x => x.1.Inv
  | .error _ => True
/-- What a register access answers (R17) keeps the invariant. -/
def AnsInv : RegAns → Prop
  | .ok t => t.Inv
  | _ => True

/-- Accesses of a register that may have no action of its own. -/
abbrev OptAns : Option RegAns → Prop := OptOf AnsInv
/-- What applying a frame came to (R383) keeps the invariant. -/
def AppInv : State.Applied → Prop
  | .wait => True
  | .done t => t.Inv
  | .mirror t _ => t.Inv

theorem AppInv_done {o : State.Applied} {t : State} (e : o = .done t) (h : AppInv o) : t.Inv := by subst e; exact h
theorem AppInv_mirror {o : State.Applied} {t : State} {p : Nat} (e : o = .mirror t p) (h : AppInv o) : t.Inv := by subst e; exact h
theorem OptInv_some {o : Option State} {t : State} (e : o = some t) (h : OptInv o) : t.Inv := by subst e; exact h
theorem OptSnd_some {α : Type} {o : Option (α × State)} {a : α} {t : State} (e : o = some (a, t)) (h : OptSnd o) : t.Inv := by
  subst e; exact h
theorem OptSnd_pair {α : Type} {a : α} {t : State} (h : t.Inv) : OptSnd (some (a, t)) := h
theorem OptSnd_map {α β : Type} {f : α → β × State} (hf : ∀ x, SndInv (f x)) (o : Option α) : OptSnd (o.map f) := by
  cases o with
  | none => trivial
  | some x => exact hf x
theorem SndInv_mk {α : Type} {o : α × State} {a : α} {t : State} (e : o = (a, t)) (h : SndInv o) : t.Inv := by
  subst e; exact h
theorem FstInv_mk {α : Type} {o : State × α} {a : α} {t : State} (e : o = (t, a)) (h : FstInv o) : t.Inv := by
  subst e; exact h
theorem TrdInv_mk {α β : Type} {o : α × β × State} {a : α} {b : β} {t : State} (e : o = (a, b, t)) (h : TrdInv o) : t.Inv := by
  subst e; exact h
theorem MidInv_mk {α β : Type} {o : α × State × β} {a : α} {b : β} {t : State} (e : o = (a, t, b)) (h : MidInv o) : t.Inv := by
  subst e; exact h
theorem RunFst_ok {α : Type} {o : Run (State × α)} {a : α} {t : State} (e : o = .ok (t, a)) (h : RunFst o) : t.Inv := by
  subst e; exact h

theorem AnsInv_ok {o : RegAns} {t : State} (e : o = .ok t) (h : AnsInv o) : t.Inv := by subst e; exact h

theorem ite_of {α : Type} {p : α → Prop} {c : Prop} [Decidable c] {a b : α} (ha : p a) (hb : p b) : p (if c then a else b) := by
  split
  · exact ha
  · exact hb

theorem foldl_inv {β : Type} {f : State → β → State} {l : List β} {s : State} (hf : ∀ s x, s.Inv → (f s x).Inv) (h : s.Inv) :
    (l.foldl f s).Inv := by
  induction l generalizing s with
  | nil => exact h
  | cons x l ih => exact ih (hf s x h)

theorem foldl_of {α β : Type} {p : α → Prop} {f : α → β → α} {l : List β} {s : α} (hf : ∀ s x, p s → p (f s x)) (h : p s) :
    p (l.foldl f s) := by
  induction l generalizing s with
  | nil => exact h
  | cons x l ih => exact ih (hf s x h)

theorem getD_inv {o : Option State} {s : State} (h : OptInv o) (hs : s.Inv) : (o.getD s).Inv := by
  cases o with
  | none => exact hs
  | some t => exact h

theorem getD_of {α : Type} {p : α → Prop} {o : Option α} {x : α} (h : OptOf p o) (hx : p x) : p (o.getD x) := by
  cases o with
  | none => exact hx
  | some t => exact h

theorem map_of {α β : Type} {p : α → Prop} {q : β → Prop} {o : Option α} {f : α → β} (hf : ∀ x, p x → q (f x)) (h : OptOf p o) :
    OptOf q (o.map f) := by
  cases o with
  | none => trivial
  | some t => exact hf t h

theorem map_any {α β : Type} {q : β → Prop} {f : α → β} (hf : ∀ x, q (f x)) (o : Option α) : OptOf q (o.map f) := by
  cases o with
  | none => trivial
  | some t => exact hf t

theorem bind_of {α β : Type} {p : α → Prop} {q : β → Prop} {o : Option α} {f : α → Option β} (hf : ∀ x, p x → OptOf q (f x))
    (h : OptOf p o) : OptOf q (o.bind f) := by
  cases o with
  | none => trivial
  | some t => exact hf t h

theorem bind_any {α β : Type} {q : β → Prop} {f : α → Option β} (hf : ∀ x, OptOf q (f x)) (o : Option α) : OptOf q (o.bind f) := by
  cases o with
  | none => trivial
  | some t => exact hf t

end Machine

end Sys2Proof
end

