-- ==== Sys2Proof/Laws/InvOps.lean ====
section
/-! SUPPORT. Every function of Machine/Ops.lean that answers a state keeps the invariant. -/

namespace Sys2Proof.Machine

set_option linter.tactic.unusedName false

theorem State.setReg_inv {s : Machine.State} {off : Nat} {v : Word32} (h0 : State.Inv s) :
    State.Inv (State.setReg s off v) :=
  ⟨h0.mem', regsWf_set s.regs off v h0.regs', h0.poison', h0.grans', h0.cues', h0.audit'⟩

theorem State.setRegN_inv {s : Machine.State} {off : Nat} {v : Nat} (h0 : State.Inv s) :
    State.Inv (State.setRegN s off v) := by
  unfold State.setRegN
  refine State.setReg_inv ?_
  exact h0

theorem State.setField_inv {s : Machine.State} {off : Nat} {lo : Nat} {n : Nat} {v : Nat} (h0 : State.Inv s) :
    State.Inv (State.setField s off lo n v) := by
  unfold State.setField
  refine State.setRegN_inv ?_
  exact h0

theorem State.bump_inv {s : Machine.State} {off : Nat} {k : Nat} (h0 : State.Inv s) :
    State.Inv (State.bump s off k) := by
  unfold State.bump
  refine State.setRegN_inv ?_
  exact h0

theorem State.setReg64_inv {s : Machine.State} {lo : Nat} {hi : Nat} {v : Nat} (h0 : State.Inv s) :
    State.Inv (State.setReg64 s lo hi v) := by
  unfold State.setReg64
  refine State.setRegN_inv ?_
  refine State.setRegN_inv ?_
  exact h0

theorem State.fresh_inv {s : Machine.State} (h0 : State.Inv s) :
    SndInv (State.fresh s) := by
  unfold State.fresh
  show State.Inv _
  exact State.Inv.same (h0) rfl rfl rfl rfl rfl rfl

theorem State.sendOut_inv {s : Machine.State} {l : List Out} (h0 : State.Inv s) :
    State.Inv (State.sendOut s l) := by
  unfold State.sendOut
  extract_lets -merge y0 y1
  exact State.Inv.same (h0) rfl rfl rfl rfl rfl rfl

theorem State.emit_inv {s : Machine.State} {o : Out} (h0 : State.Inv s) :
    State.Inv (State.emit s o) := by
  unfold State.emit
  extract_lets -merge y0 y1
  refine ite_of ?_ ?_
  · refine State.sendOut_inv ?_
    exact h0
  · refine ite_of ?_ ?_
    · exact State.Inv.same (h0) rfl rfl rfl rfl rfl rfl
    · split
      · exact State.Inv.same (h0) rfl rfl rfl rfl rfl rfl
      · refine State.sendOut_inv ?_
        exact h0

theorem State.raise_inv {s : Machine.State} {src : Nat} {data : Nat} (h0 : State.Inv s) :
    State.Inv (State.raise s src data) := by
  unfold State.raise
  extract_lets -merge y0 y1 x2
  have hx2 : State.Inv x2 := by
    unfold x2
    refine State.setRegN_inv ?_
    exact h0
  clear_value x2
  refine ite_of ?_ ?_
  · exact h0
  · refine ite_of ?_ ?_
    · exact hx2
    · refine State.setRegN_inv ?_
      exact hx2

theorem State.markPoison_inv {s : Machine.State} {a : Nat} {n : Nat} (h0 : State.Inv s) :
    State.Inv (State.markPoison s a n) := by
  unfold State.markPoison
  refine ite_of h0 ?_
  exact ⟨h0.mem', h0.regs', rising_foldl (fun i => a / 64 + i) _ _ h0.poison', h0.grans', h0.cues', h0.audit'⟩

theorem State.clearPoison_inv {s : Machine.State} {a : Nat} {n : Nat} (h0 : State.Inv s) :
    State.Inv (State.clearPoison s a n) :=
  ⟨h0.mem', h0.regs', risingFrom_filter _ _ _ h0.poison', h0.grans', h0.cues', h0.audit'⟩

theorem State.writeBytes_inv {s : Machine.State} {a : Nat} {bs : List Byte} (h0 : State.Inv s) :
    State.Inv (State.writeBytes s a bs) :=
  ⟨Memory.wf_writeN bs s.mem a h0.mem', h0.regs', (State.clearPoison_inv h0).poison', h0.grans', h0.cues', h0.audit'⟩

theorem State.setGran_inv {s : Machine.State} {i : Nat} {w : Word64} (h0 : State.Inv s) :
    State.Inv (State.setGran s i w) :=
  ⟨h0.mem', h0.regs', h0.poison', Tab.wf_set _ _ _ _ h0.grans', h0.cues', h0.audit'⟩

theorem State.setCore_inv {s : Machine.State} {n : Nat} {c : CoreSt} (h0 : State.Inv s) :
    State.Inv (State.setCore s n c) := by
  unfold State.setCore
  exact State.Inv.same (h0) rfl rfl rfl rfl rfl rfl

theorem State.setPart_inv {s : Machine.State} {n : Nat} {p : Nat} {x : Part} (h0 : State.Inv s) :
    State.Inv (State.setPart s n p x) := by
  unfold State.setPart
  extract_lets -merge y0
  refine State.setCore_inv ?_
  exact h0

theorem State.setCtx_inv {s : Machine.State} {n : Nat} {p : Nat} {c : Ctx} (h0 : State.Inv s) :
    State.Inv (State.setCtx s n p c) := by
  unfold State.setCtx
  extract_lets -merge y0
  refine State.setPart_inv ?_
  exact h0

end Sys2Proof.Machine
end

