-- ==== Sys2Proof/Laws/InvFabOps.lean ====
section
/-! SUPPORT. Every function of Machine/FabOps.lean that answers a state keeps the invariant. -/

namespace Sys2Proof.Machine

set_option linter.tactic.unusedName false

theorem State.setFab_inv {s : Machine.State} {x : FabSt} (h0 : State.Inv s) :
    State.Inv (State.setFab s x) := by
  unfold State.setFab
  exact State.Inv.same (h0) rfl rfl rfl rfl rfl rfl

theorem State.setPair_inv {s : Machine.State} {x : PairSt} (h0 : State.Inv s) :
    State.Inv (State.setPair s x) := by
  unfold State.setPair
  exact State.Inv.same (h0) rfl rfl rfl rfl rfl rfl

theorem State.setPeerState_inv {s : Machine.State} {m : Nat} {st : Nat} (h0 : State.Inv s) :
    State.Inv (State.setPeerState s m st) := by
  unfold State.setPeerState
  refine State.setField_inv ?_
  exact h0

theorem State.setPeer_inv {s : Machine.State} {m : Nat} {x : PeerSt} (h0 : State.Inv s) :
    State.Inv (State.setPeer s m x) := by
  unfold State.setPeer
  extract_lets -merge y0
  refine State.setFab_inv ?_
  exact h0

theorem State.pairTo_inv {s : Machine.State} {st : Nat} (h0 : State.Inv s) :
    State.Inv (State.pairTo s st) := by
  unfold State.pairTo
  extract_lets -merge y0
  refine State.raise_inv ?_
  refine State.setPair_inv ?_
  refine State.setField_inv ?_
  exact h0

theorem State.setPath_inv {s : Machine.State} {m : Nat} {p : Nat} {x : PathSt} (h0 : State.Inv s) :
    State.Inv (State.setPath s m p x) := by
  unfold State.setPath
  extract_lets -merge y0
  refine State.setFab_inv ?_
  exact h0

theorem State.pathBit_inv {s : Machine.State} {m : Nat} {p : Nat} {up : Bool} (h0 : State.Inv s) :
    State.Inv (State.pathBit s m p up) := by
  unfold State.pathBit
  refine State.setField_inv ?_
  exact h0

theorem State.resolve_inv {s : Machine.State} {p : Nat} {a : Nat} (h0 : State.Inv s) :
    State.Inv (State.resolve s p a) := by
  unfold State.resolve
  refine ite_of ?_ ?_
  · exact h0
  · refine State.emit_inv ?_
    exact h0

theorem State.sendOn_inv {s : Machine.State} {p : Nat} {f : Frame} (h0 : State.Inv s) :
    State.Inv (State.sendOn s p f) := by
  unfold State.sendOn
  extract_lets -merge y0
  refine State.emit_inv ?_
  refine State.bump_inv ?_
  refine State.resolve_inv ?_
  exact h0

theorem State.setFlow_inv {s : Machine.State} {k : Nat} {x : OutFlow} (h0 : State.Inv s) :
    State.Inv (State.setFlow s k x) := by
  unfold State.setFlow
  extract_lets -merge y0
  refine State.setFab_inv ?_
  exact h0

theorem State.pumpList_inv {k : Nat} {ports : List Nat} {fep n : Nat} {l done : List SentFrame} {last : Nat} {s : Machine.State}
    (h0 : State.Inv s) : TrdInv (State.pumpList k ports fep n l done last s) := by
  induction n generalizing s l done last with
  | zero => cases l <;> exact h0
  | succ n ih =>
    cases l with
    | nil => exact h0
    | cons x xs =>
      unfold State.pumpList
      split
      · exact ih (State.sendOn_inv h0)
      · exact ih h0

theorem State.pump_inv {s : Machine.State} {k : Nat} (h0 : State.Inv s) :
    State.Inv (State.pump s k) := by
  unfold State.pump
  extract_lets -merge y0 x1
  have hx1 : TrdInv x1 := by
    unfold x1
    refine State.pumpList_inv ?_
    exact h0
  clear_value x1
  refine ite_of ?_ ?_
  · exact h0
  · refine State.setFlow_inv ?_
    show TrdInv _
    exact hx1

theorem State.startRate_inv {s : Machine.State} {m : Nat} (h0 : State.Inv s) :
    State.Inv (State.startRate s m) := by
  unfold State.startRate
  extract_lets -merge y0 y1
  refine ite_of ?_ ?_
  · exact h0
  · refine State.setFab_inv ?_
    exact h0

theorem State.sendPlain_inv {s : Machine.State} {f : Frame} (h0 : State.Inv s) :
    State.Inv (State.sendPlain s f) := by
  unfold State.sendPlain
  extract_lets -merge y0 y1
  split
  · exact h0
  · refine State.sendOn_inv ?_
    refine State.setFlow_inv ?_
    exact h0

theorem State.sendResync_inv {s : Machine.State} {src : Nat} {dst : Nat} {cls : Nat} {psn : Nat} {epoch : Nat} (h0 : State.Inv s) :
    State.Inv (State.sendResync s src dst cls psn epoch) := by
  unfold State.sendResync
  refine State.sendPlain_inv ?_
  exact h0

theorem State.issue_inv {s : Machine.State} {f : Frame} (h0 : State.Inv s) :
    SndInv (State.issue s f) := by
  unfold State.issue
  extract_lets -merge y0 y1 x2 y3 y4 x5
  have hx2 : State.Inv x2 := by
    unfold x2
    refine ite_of ?_ ?_
    · refine State.sendResync_inv ?_
      exact h0
    · exact h0
  clear_value x2
  have hx5 : State.Inv x5 := by
    unfold x5
    refine State.setFlow_inv ?_
    exact hx2
  clear_value x5
  show State.Inv _
  refine State.pump_inv ?_
  refine ite_of ?_ ?_
  · refine State.startRate_inv ?_
    exact hx5
  · exact hx5

theorem State.sendCtrl_inv {s : Machine.State} {dst : Nat} {sub : Nat} {a : Nat} {b : Nat} {c : Nat} {port : Option Nat} (h0 : State.Inv s) :
    State.Inv (State.sendCtrl s dst sub a b c port) := by
  unfold State.sendCtrl
  extract_lets -merge y0
  split
  · refine State.sendOn_inv ?_
    exact h0
  · refine State.sendPlain_inv ?_
    exact h0

theorem State.setIn_inv {s : Machine.State} {k : Nat} {x : InFlow} (h0 : State.Inv s) :
    State.Inv (State.setIn s k x) := by
  unfold State.setIn
  extract_lets -merge y0
  refine State.setFab_inv ?_
  exact h0

theorem State.sendAck_inv {s : Machine.State} {k : Nat} (h0 : State.Inv s) :
    State.Inv (State.sendAck s k) := by
  unfold State.sendAck
  extract_lets -merge y0 y1 y2 y3
  refine State.sendOn_inv ?_
  refine State.setIn_inv ?_
  exact h0

theorem State.sendWrite_inv {s : Machine.State} {cls : Nat} {tenant : Nat} {g : Nat} {bs : List Byte} (h0 : State.Inv s) :
    SndInv (State.sendWrite s cls tenant g bs) := by
  unfold State.sendWrite
  extract_lets -merge y0 y1 y2 y3 y4
  refine foldl_of (p := SndInv) ?_ ?_
  · intro _ _ h5
    extract_lets -merge y6 x7
    have hx7 : SndInv x7 := by
      unfold x7
      refine State.issue_inv ?_
      show SndInv _
      exact h5
    clear_value x7
    show State.Inv _
    show SndInv _
    exact hx7
  · show State.Inv _
    refine State.setFab_inv ?_
    exact h0

theorem State.sendRead_inv {s : Machine.State} {cls : Nat} {tenant : Nat} {g : Nat} {len : Nat} {core : Nat} {part : Nat} {stage : Nat} {va : Nat} (h0 : State.Inv s) :
    SndInv (State.sendRead s cls tenant g len core part stage va) := by
  unfold State.sendRead
  extract_lets -merge y0 y1 y2 x3 y4 y5
  have hx3 : SndInv x3 := by
    unfold x3
    refine State.issue_inv ?_
    exact h0
  clear_value x3
  show State.Inv _
  refine State.setFab_inv ?_
  show SndInv _
  exact hx3

theorem State.sendKvRead_inv {s : Machine.State} {g : Nat} {len : Nat} {blk : Nat × Nat × Nat} (h0 : State.Inv s) :
    State.Inv (State.sendKvRead s g len blk) := by
  unfold State.sendKvRead
  refine foldl_inv ?_ ?_
  · intro _ _ h0
    extract_lets -merge y1 x2 y3
    have hx2 : SndInv x2 := by
      unfold x2
      refine State.sendRead_inv ?_
      exact h0
    clear_value x2
    refine State.setFab_inv ?_
    show SndInv _
    exact hx2
  · exact h0

theorem State.sendChunkReq_inv {s : Machine.State} {dst : Nat} {curtain : Nat} {piece : Nat} {chunk : Nat} (h0 : State.Inv s) :
    State.Inv (State.sendChunkReq s dst curtain piece chunk) := by
  unfold State.sendChunkReq
  show SndInv _
  refine State.issue_inv ?_
  exact h0

theorem State.sendMirror_inv {s : Machine.State} {mk : Nat} {role : Nat} {skind : Nat} {addr : Nat} {aux : Nat} {bs : List Byte} {poison : Bool} (h0 : State.Inv s) :
    SndInv (State.sendMirror s mk role skind addr aux bs poison) := by
  unfold State.sendMirror
  refine State.issue_inv ?_
  exact h0

theorem State.roleRec_inv {s : Machine.State} {role : Nat} {kind : Nat} {bs : List Byte} (h0 : State.Inv s) :
    State.Inv (State.roleRec s role kind bs) := by
  unfold State.roleRec
  refine ite_of ?_ ?_
  · exact h0
  · refine foldl_inv ?_ ?_
    · intro _ _ h0
      show SndInv _
      refine State.sendMirror_inv ?_
      exact h0
    · exact h0

theorem State.mirrorRec_inv {s : Machine.State} {kind : Nat} {bs : List Byte} (h0 : State.Inv s) :
    State.Inv (State.mirrorRec s kind bs) := by
  unfold State.mirrorRec
  refine State.roleRec_inv ?_
  exact h0

theorem State.tenantRec_inv {s : Machine.State} {t : Nat} {q : Nat} {what : Nat} {bs : List Byte} (h0 : State.Inv s) :
    State.Inv (State.tenantRec s t q what bs) := by
  unfold State.tenantRec
  refine State.roleRec_inv ?_
  exact h0

theorem State.pairGran_inv {s : Machine.State} {i : Nat} {j : Nat} (h0 : State.Inv s) :
    State.Inv (State.pairGran s i j) := by
  unfold State.pairGran
  extract_lets -merge y0
  refine State.mirrorRec_inv ?_
  refine State.mirrorRec_inv ?_
  refine State.setGran_inv ?_
  exact h0

theorem State.mirrorGran_inv {s : Machine.State} {i : Nat} (h0 : State.Inv s) :
    OptInv (State.mirrorGran s i) := by
  unfold State.mirrorGran
  extract_lets -merge x0 y1
  have hx0 : SndInv x0 := by
    unfold x0
    refine State.fresh_inv ?_
    exact h0
  clear_value x0
  refine ite_of ?_ ?_
  · show State.Inv _
    exact h0
  · refine ite_of ?_ ?_
    · trivial
    · show State.Inv _
      refine State.pairGran_inv ?_
      show SndInv _
      exact hx0

theorem State.mirrorGrans_inv {l : List Nat} {s : Machine.State} (h0 : State.Inv s) : OptInv (State.mirrorGrans l s) := by
  induction l generalizing s with
  | nil => exact h0
  | cons i is ih =>
    unfold State.mirrorGrans
    have h := State.mirrorGran_inv (i := i) h0
    cases hm : State.mirrorGran s i with
    | none => trivial
    | some s1 => exact ih (OptInv_some hm h)

theorem State.openGates_inv {s : Machine.State} (h0 : State.Inv s) :
    State.Inv (State.openGates s) := by
  unfold State.openGates
  extract_lets -merge y0 y1 y2 y3 y4
  refine State.sendOut_inv ?_
  refine State.setPair_inv ?_
  exact h0

theorem State.addMirBytes_inv {s : Machine.State} {n : Nat} (h0 : State.Inv s) :
    State.Inv (State.addMirBytes s n) := by
  unfold State.addMirBytes
  refine State.setReg64_inv ?_
  exact h0

theorem State.mirrorWrite_inv {s : Machine.State} {a : Nat} {bs : List Byte} (h0 : State.Inv s) :
    SndInv (State.mirrorWrite s a bs) := by
  unfold State.mirrorWrite
  extract_lets -merge y0 x1
  have hx1 : SndInv x1 := by
    unfold x1
    refine foldl_of (p := SndInv) ?_ ?_
    · intro _ _ h2
      extract_lets -merge x3
      have hx3 : SndInv x3 := by
        unfold x3
        refine State.sendMirror_inv ?_
        show SndInv _
        exact h2
      clear_value x3
      show State.Inv _
      show SndInv _
      exact hx3
    · show State.Inv _
      exact h0
  clear_value x1
  refine ite_of ?_ ?_
  · show State.Inv _
    exact h0
  · show State.Inv _
    refine State.addMirBytes_inv ?_
    show SndInv _
    exact hx1

theorem State.mapCtx_inv {s : Machine.State} {f : Ctx → Ctx} (h0 : State.Inv s) :
    State.Inv (State.mapCtx s f) := by
  unfold State.mapCtx
  exact State.Inv.same (h0) rfl rfl rfl rfl rfl rfl

theorem State.dropAwait_inv {s : Machine.State} {p : Await → Bool} (h0 : State.Inv s) :
    State.Inv (State.dropAwait s p) := by
  unfold State.dropAwait
  refine State.mapCtx_inv ?_
  exact h0

end Sys2Proof.Machine
end

