-- ==== Sys2Proof/Laws/InvMemOps.lean ====
section
/-! SUPPORT. Every function of Machine/MemOps.lean that answers a state keeps the invariant. -/

namespace Sys2Proof.Machine

set_option linter.tactic.unusedName false

theorem State.logShow_inv {s : Machine.State} (h0 : State.Inv s) :
    State.Inv (State.logShow s) := by
  unfold State.logShow
  extract_lets -merge y0 y1 x2
  have hx2 : State.Inv x2 := by
    unfold x2
    refine State.setRegN_inv ?_
    exact h0
  clear_value x2
  refine ite_of ?_ ?_
  · refine State.raise_inv ?_
    exact hx2
  · exact hx2

/-- The new entry carries the digest of the newest one, so the chain goes on (R501). -/
theorem State.auditPut_inv {s : Machine.State} {a : AuditArg} (h0 : State.Inv s) : State.Inv (State.auditPut s a) := by
  unfold State.auditPut
  extract_lets -merge y0 y1
  refine State.mirrorRec_inv (State.logShow_inv (State.setReg64_inv ⟨h0.mem', h0.regs', h0.poison', h0.grans', h0.cues', ?_⟩))
  have hp : y1.prev = s.auditPrev := rfl
  have ha := h0.audit'
  show auditChain (y1 :: s.boot.audit) = true
  unfold State.auditPrev at hp
  cases hb : s.boot.audit with
  | nil => rfl
  | cons d rest =>
    rw [hb] at hp ha
    simp only [auditChain, Bool.and_eq_true, decide_eq_true_eq]
    exact ⟨hp, ha⟩

theorem State.auditDrops_inv {s : Machine.State} (h0 : State.Inv s) :
    State.Inv (State.auditDrops s) := by
  unfold State.auditDrops
  extract_lets -merge y0
  refine ite_of ?_ ?_
  · exact h0
  · refine State.auditPut_inv ?_
    refine State.setRegN_inv ?_
    exact h0

theorem State.auditInternal_inv {s : Machine.State} {a : State.AuditArg} (h0 : State.Inv s) :
    State.Inv (State.auditInternal s a) := by
  unfold State.auditInternal
  extract_lets -merge x0
  have hx0 : State.Inv x0 := by
    unfold x0
    refine State.auditDrops_inv ?_
    exact h0
  clear_value x0
  refine ite_of ?_ ?_
  · refine State.bump_inv ?_
    exact hx0
  · refine State.auditPut_inv ?_
    exact hx0

theorem State.regAdd_inv {s : Machine.State} {off : Nat} {k : Nat} (h0 : State.Inv s) :
    State.Inv (State.regAdd s off k) := by
  unfold State.regAdd
  refine State.setRegN_inv ?_
  exact h0

theorem State.regSub_inv {s : Machine.State} {off : Nat} {k : Nat} (h0 : State.Inv s) :
    State.Inv (State.regSub s off k) := by
  unfold State.regSub
  refine State.setRegN_inv ?_
  exact h0

theorem State.putGran_inv {s : Machine.State} {i : Nat} {w : Word64} (h0 : State.Inv s) :
    State.Inv (State.putGran s i w) := by
  unfold State.putGran
  extract_lets -merge y0 x1 x2 x3 x4
  have hx1 : State.Inv x1 := by
    unfold x1
    refine State.mirrorRec_inv ?_
    refine State.setGran_inv ?_
    exact h0
  clear_value x1
  have hx2 : State.Inv x2 := by
    unfold x2
    split
    · refine State.regSub_inv ?_
      exact hx1
    · exact hx1
  clear_value x2
  have hx3 : State.Inv x3 := by
    unfold x3
    split
    · refine State.regAdd_inv ?_
      exact hx2
    · exact hx2
  clear_value x3
  have hx4 : State.Inv x4 := by
    unfold x4
    refine ite_of ?_ ?_
    · refine State.regSub_inv ?_
      exact hx3
    · exact hx3
  clear_value x4
  refine ite_of ?_ ?_
  · exact hx1
  · refine ite_of ?_ ?_
    · refine State.regAdd_inv ?_
      exact hx4
    · exact hx4

theorem State.allocGran_inv {s : Machine.State} {w : Word64} {p : Nat → Bool} (h0 : State.Inv s) :
    OptSnd (State.allocGran s w p) := by
  unfold State.allocGran
  refine map_any (q := SndInv) ?_ _
  · intro _
    show State.Inv _
    refine State.putGran_inv ?_
    exact h0

theorem State.allocSram_inv {s : Machine.State} {w : Word64} (h0 : State.Inv s) :
    OptSnd (State.allocSram s w) := by
  unfold State.allocSram
  refine map_any (q := SndInv) ?_ _
  · intro _
    show State.Inv _
    refine State.putGran_inv ?_
    exact h0

theorem State.allocGrans_inv {s : Machine.State} {w : Word64} {p : Nat → Bool} {n : Nat} (h0 : State.Inv s) :
    OptSnd (State.allocGrans s w p n) := by
  induction n generalizing s with
  | zero => exact h0
  | succ n ih =>
    unfold State.allocGrans
    split
    · trivial
    · refine map_of (p := SndInv) (q := SndInv) (fun _ h => h) (ih ?_)
      exact OptSnd_some (by assumption) (State.allocGran_inv h0)

theorem State.freeGran_inv {s : Machine.State} {t : Nat} {i : Nat} (h0 : State.Inv s) :
    State.Inv (State.freeGran s t i) := by
  unfold State.freeGran
  extract_lets -merge x0 y1 x2
  have hx0 : State.Inv x0 := by
    unfold x0
    refine State.putGran_inv ?_
    exact h0
  clear_value x0
  have hx2 : State.Inv x2 := by
    unfold x2
    exact State.Inv.same (hx0) rfl rfl rfl rfl rfl rfl
  clear_value x2
  refine ite_of ?_ ?_
  · exact hx2
  · refine State.regAdd_inv ?_
    exact hx2

theorem State.putServed_inv {s : Machine.State} {k : Nat} {w : Word64} (h0 : State.Inv s) :
    State.Inv (State.putServed s k w) := by
  unfold State.putServed
  extract_lets -merge y0 y1 x2 x3
  have hx2 : State.Inv x2 := by
    unfold x2
    refine State.roleRec_inv ?_
    refine State.setPair_inv ?_
    exact h0
  clear_value x2
  have hx3 : State.Inv x3 := by
    unfold x3
    refine ite_of ?_ ?_
    · refine State.regSub_inv ?_
      exact hx2
    · exact hx2
  clear_value x3
  refine ite_of ?_ ?_
  · refine State.regAdd_inv ?_
    exact hx3
  · exact hx3

theorem State.putGranOf_inv {s : Machine.State} {t : Nat} {i : Nat} {w : Word64} (h0 : State.Inv s) :
    State.Inv (State.putGranOf s t i w) := by
  unfold State.putGranOf
  refine ite_of ?_ ?_
  · refine State.putGran_inv ?_
    exact h0
  · split
    · exact h0
    · refine State.putServed_inv ?_
      exact h0

theorem State.allocFor_inv {s : Machine.State} {t : Nat} {w : Word64} {p : Nat → Bool} (h0 : State.Inv s) :
    OptSnd (State.allocFor s t w p) := by
  unfold State.allocFor
  extract_lets -merge y0
  refine ite_of ?_ ?_
  · refine State.allocGran_inv ?_
    exact h0
  · refine map_of (p := SndInv) (q := SndInv) ?_ ?_
    · intro _ h1
      split
      · show State.Inv _
        refine State.putServed_inv ?_
        first
          | exact h1
          | (refine SndInv_mk (by assumption) ?_; exact h1)
    · refine State.allocGran_inv ?_
      exact h0

theorem State.allocsFor_inv {t : Nat} {w : Word64} {p : Nat → Bool} {n : Nat} {s : Machine.State} (h0 : State.Inv s) :
    OptSnd (State.allocsFor s t w p n) := by
  induction n generalizing s with
  | zero => exact h0
  | succ n ih =>
    unfold State.allocsFor
    split
    · trivial
    · refine map_of (p := SndInv) (q := SndInv) (fun _ h => h) (ih ?_)
      exact OptSnd_some (by assumption) (State.allocFor_inv h0)

theorem State.freeFor_inv {s : Machine.State} {t : Nat} {why : Nat} {i : Nat} (h0 : State.Inv s) :
    State.Inv (State.freeFor s t why i) := by
  unfold State.freeFor
  refine ite_of ?_ ?_
  · refine State.freeGran_inv ?_
    exact h0
  · split
    · exact h0
    · refine State.freeGran_inv ?_
      refine State.putServed_inv ?_
      exact h0

theorem State.mirrorFor_inv {s : Machine.State} {t : Nat} {i : Nat} (h0 : State.Inv s) :
    OptInv (State.mirrorFor s t i) := by
  unfold State.mirrorFor
  refine ite_of ?_ ?_
  · refine State.mirrorGran_inv ?_
    exact h0
  · show State.Inv _
    exact h0

theorem State.mirrorGransFor_inv {t : Nat} {l : List Nat} {s : Machine.State} (h0 : State.Inv s) :
    OptInv (State.mirrorGransFor t l s) := by
  unfold State.mirrorGransFor
  refine ite_of ?_ ?_
  · refine State.mirrorGrans_inv ?_
    exact h0
  · show State.Inv _
    exact h0

theorem State.writeRole_inv {s : Machine.State} {role : Nat} {a : Nat} {bs : List Byte} (h0 : State.Inv s) :
    State.Inv (State.writeRole s role a bs) := by
  unfold State.writeRole
  refine ite_of ?_ ?_
  · exact h0
  · refine ite_of ?_ ?_
    · show SndInv _
      refine State.mirrorWrite_inv ?_
      refine State.writeBytes_inv ?_
      exact h0
    · refine foldl_inv ?_ ?_
      · intro _ _ h0
        split
        · exact h0
        · show SndInv _
          refine State.mirrorWrite_inv ?_
          refine State.writeBytes_inv ?_
          exact h0
      · exact h0

theorem State.zeroGran_inv {s : Machine.State} {i : Nat} (h0 : State.Inv s) : State.Inv (State.zeroGran s i) := by
  unfold State.zeroGran
  split
  · exact h0
  · extract_lets -merge y0 z1 z2 x1
    have hx1 : State.Inv x1 := ⟨Memory.wf_filter s.mem _ h0.mem', h0.regs', (State.clearPoison_inv h0).poison', h0.grans', h0.cues', h0.audit'⟩
    clear_value x1
    exact ite_of hx1 (State.regSub_inv hx1)

theorem State.allocTable_inv {s : Machine.State} (h0 : State.Inv s) :
    OptSnd (State.allocTable s) := by
  unfold State.allocTable
  extract_lets -merge y0
  split
  · refine ite_of ?_ ?_
    · show State.Inv _
      exact State.Inv.same (h0) rfl rfl rfl rfl rfl rfl
    · refine map_of (p := SndInv) (q := SndInv) ?_ ?_
      · intro _ h1
        split
        · extract_lets -merge y2
          show State.Inv _
          refine State.Inv.same ?_ rfl rfl rfl rfl rfl rfl
          first
            | exact h1
            | (refine SndInv_mk (by assumption) ?_; exact h1)
      · refine State.allocGran_inv ?_
        exact h0
  · refine map_of (p := SndInv) (q := SndInv) ?_ ?_
    · intro _ h3
      split
      · extract_lets -merge y4
        show State.Inv _
        refine State.Inv.same ?_ rfl rfl rfl rfl rfl rfl
        first
          | exact h3
          | (refine SndInv_mk (by assumption) ?_; exact h3)
    · refine State.allocGran_inv ?_
      exact h0

theorem State.putEntry_inv {s : Machine.State} {a : Nat} {e : Nat} (h0 : State.Inv s) :
    State.Inv (State.putEntry s a e) := by
  unfold State.putEntry
  refine State.mirrorRec_inv ?_
  refine State.writeBytes_inv ?_
  exact h0

theorem State.putLeafIn_inv {va target entry : Nat} {l : List Nat} {tbl : Nat} {s : Machine.State} (h0 : State.Inv s) :
    OptSnd (State.putLeafIn va target entry l tbl s) := by
  induction l generalizing s tbl with
  | nil => trivial
  | cons sh rest ih =>
    unfold State.putLeafIn
    extract_lets -merge y0 y1
    refine ite_of (ite_of trivial (State.putEntry_inv h0)) (ite_of ?_ (ite_of trivial (ih h0)))
    split
    · trivial
    · exact ih (State.putEntry_inv (OptSnd_some (by assumption) (State.allocTable_inv h0)))

theorem State.ensureRoot_inv {s : Machine.State} {t : Nat} (h0 : State.Inv s) :
    OptSnd (State.ensureRoot s t) := by
  unfold State.ensureRoot
  refine ite_of ?_ ?_
  · show State.Inv _
    exact h0
  · refine map_of (p := SndInv) (q := SndInv) ?_ ?_
    · intro _ h0
      split
      · show State.Inv _
        refine State.setRegN_inv ?_
        refine State.setRegN_inv ?_
        first
          | exact h0
          | (refine SndInv_mk (by assumption) ?_; exact h0)
    · refine State.allocTable_inv ?_
      exact h0

theorem State.noteChange_inv {s : Machine.State} {x : Nat × Nat × Nat × Nat} (h0 : State.Inv s) :
    State.Inv (State.noteChange s x) := by
  unfold State.noteChange
  extract_lets -merge y0
  exact State.Inv.same (h0) rfl rfl rfl rfl rfl rfl

theorem State.putLeaf_inv {s : Machine.State} {t : Nat} {va : Nat} {sh : Nat} {entry : Nat} (h0 : State.Inv s) :
    OptInv (State.putLeaf s t va sh entry) := by
  unfold State.putLeaf
  split
  · trivial
  · refine map_of (p := SndInv) (q := State.Inv) ?_ ?_
    · intro _ h0
      split
      · refine ite_of ?_ ?_
        · refine State.noteChange_inv ?_
          first
            | exact h0
            | (refine SndInv_mk (by assumption) ?_; exact h0)
        · first
            | exact h0
            | (refine SndInv_mk (by assumption) ?_; exact h0)
    · refine State.putLeafIn_inv ?_
      refine OptSnd_some (by assumption) ?_
      refine State.ensureRoot_inv ?_
      exact h0

theorem State.mapPages_inv {t sh : Nat} {entry : Nat → Nat} {l : List Nat} {va : Nat} {s : Machine.State} (h0 : State.Inv s) :
    OptInv (State.mapPages t sh entry l va s) := by
  induction l generalizing s va with
  | nil => exact h0
  | cons f fs ih =>
    unfold State.mapPages
    split
    · trivial
    · exact ih (OptInv_some (by assumption) (State.putLeaf_inv h0))

theorem State.freeMapped_inv {s : Machine.State} {t : Nat} {l : List Nat} (h0 : State.Inv s) :
    State.Inv (State.freeMapped s t l) := by
  unfold State.freeMapped
  extract_lets -merge y0
  refine foldl_inv ?_ ?_
  · intro _ _ h1
    refine State.freeFor_inv ?_
    exact h1
  · refine foldl_inv ?_ ?_
    · intro _ _ h2
      refine getD_inv ?_ ?_
      · refine State.putLeaf_inv ?_
        exact h2
      · exact h2
    · exact h0

theorem State.recordUe_inv {s : Machine.State} {a : Nat} (h0 : State.Inv s) :
    State.Inv (State.recordUe s a) := by
  unfold State.recordUe
  extract_lets -merge x0 x1
  have hx0 : State.Inv x0 := by
    unfold x0
    refine ite_of ?_ ?_
    · refine State.bump_inv ?_
      exact h0
    · refine ite_of ?_ ?_
      · exact h0
      · refine State.bump_inv ?_
        exact h0
  clear_value x0
  have hx1 : State.Inv x1 := by
    unfold x1
    refine State.setRegN_inv ?_
    refine State.setRegN_inv ?_
    exact hx0
  clear_value x1
  refine State.raise_inv ?_
  refine State.setRegN_inv ?_
  refine State.setRegN_inv ?_
  exact hx1

theorem State.loftState_inv {s : Machine.State} {st : Nat} (h0 : State.Inv s) :
    State.Inv (State.loftState s st) := by
  unfold State.loftState
  refine ite_of ?_ ?_
  · exact h0
  · refine State.raise_inv ?_
    refine State.setField_inv ?_
    exact h0

end Sys2Proof.Machine
end

