-- ==== Sys2Proof/Laws/InvHostOps.lean ====
section
/-! SUPPORT. Every function of Machine/HostOps.lean that answers a state keeps the invariant. -/

namespace Sys2Proof.Machine

set_option linter.tactic.unusedName false

theorem State.setHost_inv {s : Machine.State} {h : HostSt} (h0 : State.Inv s) :
    State.Inv (State.setHost s h) := by
  unfold State.setHost
  exact State.Inv.same (h0) rfl rfl rfl rfl rfl rfl

theorem State.setHq_inv {s : Machine.State} {t : Nat} {q : Nat} {x : HostQ} (h0 : State.Inv s) :
    State.Inv (State.setHq s t q x) := by
  unfold State.setHq
  extract_lets -merge y0
  refine State.setHost_inv ?_
  exact h0

theorem State.setQp_inv {s : Machine.State} {key : Nat} {x : Qp} (h0 : State.Inv s) :
    State.Inv (State.setQp s key x) := by
  unfold State.setQp
  extract_lets -merge y0
  refine State.setHost_inv ?_
  exact h0

theorem State.post_inv {s : Machine.State} {p : Post} {o : Nat → Out} (h0 : State.Inv s) :
    State.Inv (State.post s p o) := by
  unfold State.post
  extract_lets -merge y0
  refine State.emit_inv ?_
  refine State.setHost_inv ?_
  exact h0

theorem State.regionWrite_inv {s : Machine.State} {t : Nat} {r : Nat} {off : Nat} {bs : List Byte} {p : Post} (h0 : State.Inv s) :
    State.Inv (State.regionWrite s t r off bs p) := by
  unfold State.regionWrite
  split
  · exact h0
  · refine State.post_inv ?_
    exact h0

theorem State.regionRead_inv {s : Machine.State} {t : Nat} {r : Nat} {off : Nat} {n : Nat} {p : Post} (h0 : State.Inv s) :
    State.Inv (State.regionRead s t r off n p) := by
  unfold State.regionRead
  split
  · exact h0
  · refine State.post_inv ?_
    exact h0

theorem State.sendMsg_inv {s : Machine.State} {key : Nat} {m : List Byte} (h0 : State.Inv s) :
    State.Inv (State.sendMsg s key m) := by
  unfold State.sendMsg
  split
  · exact h0
  · refine ite_of ?_ ?_
    · refine State.setQp_inv ?_
      exact h0
    · refine State.post_inv ?_
      refine State.bump_inv ?_
      refine State.setQp_inv ?_
      exact h0

theorem State.sendRing_inv {s : Machine.State} {t : Nat} {q : Nat} {m : List Byte} (h0 : State.Inv s) :
    State.Inv (State.sendRing s t q m) := by
  unfold State.sendRing
  split
  · exact h0
  · refine State.sendMsg_inv ?_
    exact h0

theorem State.sendOwn_inv {s : Machine.State} {t : Nat} {q : Nat} {m : List Byte} (h0 : State.Inv s) :
    State.Inv (State.sendOwn s t q m) := by
  unfold State.sendOwn
  split
  · exact h0
  · refine State.sendMsg_inv ?_
    exact h0

theorem State.updItem_inv {s : Machine.State} {t : Nat} {q : Nat} {seq : Nat} {f : Item → Item} (h0 : State.Inv s) :
    State.Inv (State.updItem s t q seq f) := by
  unfold State.updItem
  extract_lets -merge y0
  refine State.setHq_inv ?_
  exact h0

theorem State.showOut_inv {s : Machine.State} {t : Nat} {q : Nat} (h0 : State.Inv s) :
    State.Inv (State.showOut s t q) := by
  unfold State.showOut
  refine State.setRegN_inv ?_
  exact h0

theorem State.closeQp_inv {s : Machine.State} {key : Nat} (h0 : State.Inv s) :
    State.Inv (State.closeQp s key) := by
  unfold State.closeQp
  extract_lets -merge y0 x1
  have hx1 : State.Inv x1 := by
    unfold x1
    refine State.regSub_inv ?_
    refine State.setHost_inv ?_
    exact h0
  clear_value x1
  split
  · exact h0
  · extract_lets -merge x2
    have hx2 : State.Inv x2 := by
      unfold x2
      refine ite_of ?_ ?_
      · refine State.setRegN_inv ?_
        exact hx1
      · exact hx1
    clear_value x2
    refine State.emit_inv ?_
    exact hx2

theorem State.dropQueue_inv {s : Machine.State} {t : Nat} {q : Nat} (h0 : State.Inv s) :
    State.Inv (State.dropQueue s t q) := by
  unfold State.dropQueue
  extract_lets -merge x0
  have hx0 : State.Inv x0 := by
    unfold x0
    split
    · exact h0
    · refine State.closeQp_inv ?_
      exact h0
  clear_value x0
  refine State.setRegN_inv ?_
  refine State.setRegN_inv ?_
  refine State.setRegN_inv ?_
  refine State.setRegN_inv ?_
  refine State.setHq_inv ?_
  exact hx0

theorem State.reapQueue_inv {s : Machine.State} {t : Nat} {q : Nat} (h0 : State.Inv s) :
    State.Inv (State.reapQueue s t q) := by
  unfold State.reapQueue
  extract_lets -merge y0
  refine ite_of ?_ ?_
  · refine State.dropQueue_inv ?_
    exact h0
  · exact h0

theorem State.settle_inv {s : Machine.State} {t : Nat} {q : Nat} (h0 : State.Inv s) :
    State.Inv (State.settle s t q) := by
  unfold State.settle
  extract_lets -merge y0 y1 x2
  have hx2 : State.Inv x2 := by
    unfold x2
    refine State.setHq_inv ?_
    exact h0
  clear_value x2
  refine ite_of ?_ ?_
  · exact h0
  · refine State.reapQueue_inv ?_
    refine State.showOut_inv ?_
    refine foldl_inv ?_ ?_
    · intro _ _ h3
      refine State.sendOwn_inv ?_
      exact h3
    · exact hx2

theorem State.finish_inv {s : Machine.State} {t : Nat} {q : Nat} {seq : Nat} {d : Done} (h0 : State.Inv s) :
    State.Inv (State.finish s t q seq d) := by
  unfold State.finish
  refine State.settle_inv ?_
  refine State.updItem_inv ?_
  exact h0

theorem State.finishSt_inv {s : Machine.State} {t : Nat} {q : Nat} {seq : Nat} {status : Nat} (h0 : State.Inv s) :
    State.Inv (State.finishSt s t q seq status) := by
  unfold State.finishSt
  refine State.finish_inv ?_
  exact h0

theorem State.finishBusy_inv {s : Machine.State} {t : Nat} {q : Nat} {seq : Nat} {hint : Nat} (h0 : State.Inv s) :
    State.Inv (State.finishBusy s t q seq hint) := by
  unfold State.finishBusy
  refine State.finish_inv ?_
  exact h0

theorem State.logFault_inv {s : Machine.State} {t : Nat} {rec : List Byte} (h0 : State.Inv s) :
    SndInv (State.logFault s t rec) := by
  unfold State.logFault
  split
  · show State.Inv _
    exact h0
  · extract_lets -merge x0 y1
    have hx0 : State.Inv x0 := by
      unfold x0
      refine State.regionWrite_inv ?_
      exact h0
    clear_value x0
    show State.Inv _
    refine State.tenantRec_inv ?_
    refine State.setHost_inv ?_
    exact hx0

theorem State.sendStalled_inv {s : Machine.State} {h : Nat} (h0 : State.Inv s) :
    State.Inv (State.sendStalled s h) := by
  unfold State.sendStalled
  extract_lets -merge y0 y1
  refine State.sendOut_inv ?_
  refine State.setHost_inv ?_
  exact h0

theorem State.showPort_inv {s : Machine.State} {h : Nat} (h0 : State.Inv s) :
    State.Inv (State.showPort s h) := by
  unfold State.showPort
  extract_lets -merge y0
  refine ite_of ?_ ?_
  · exact h0
  · refine State.sendStalled_inv ?_
    refine State.raise_inv ?_
    refine State.setField_inv ?_
    exact h0

theorem State.hostIn_inv {s : Machine.State} {k : HostPkt} (h0 : State.Inv s) :
    SndInv (State.hostIn s k) := by
  unfold State.hostIn
  refine ite_of ?_ ?_
  · show State.Inv _
    exact h0
  · refine ite_of ?_ ?_
    · show State.Inv _
      refine State.bump_inv ?_
      exact h0
    · show State.Inv _
      refine ite_of ?_ ?_
      · refine State.emit_inv ?_
        exact h0
      · exact h0

end Sys2Proof.Machine
end

