-- ==== Sys2Proof/Laws/InvServeOps.lean ====
section
/-! SUPPORT. Every function of Machine/ServeOps.lean that answers a state keeps the invariant. -/

namespace Sys2Proof.Machine

set_option linter.tactic.unusedName false

theorem State.setServe_inv {s : Machine.State} {x : ServeSt} (h0 : State.Inv s) :
    State.Inv (State.setServe s x) := by
  unfold State.setServe
  exact State.Inv.same (h0) rfl rfl rfl rfl rfl rfl

theorem State.showSlots_inv {s : Machine.State} {t : Nat} (h0 : State.Inv s) :
    State.Inv (State.showSlots s t) := by
  unfold State.showSlots
  refine State.setField_inv ?_
  refine State.setRegN_inv ?_
  refine State.setRegN_inv ?_
  exact h0

theorem State.putReq_inv {s : Machine.State} {slot : Nat} {r : Req} (h0 : State.Inv s) :
    State.Inv (State.putReq s slot r) := by
  unfold State.putReq
  extract_lets -merge y0
  refine State.roleRec_inv ?_
  refine State.showSlots_inv ?_
  refine State.setServe_inv ?_
  exact h0

theorem State.putModel_inv {s : Machine.State} {m : Nat} {x : Model} (h0 : State.Inv s) :
    State.Inv (State.putModel s m x) := by
  unfold State.putModel
  extract_lets -merge y0
  refine State.roleRec_inv ?_
  exact State.Inv.same (h0) rfl rfl rfl rfl rfl rfl

theorem State.adapterRec_inv {s : Machine.State} {m : Nat} (h0 : State.Inv s) :
    State.Inv (State.adapterRec s m) := by
  unfold State.adapterRec
  refine State.roleRec_inv ?_
  exact h0

theorem State.putCoef_inv {s : Machine.State} {m : Nat} {k : Coef} (h0 : State.Inv s) :
    State.Inv (State.putCoef s m k) := by
  unfold State.putCoef
  extract_lets -merge y0
  refine State.roleRec_inv ?_
  refine State.setServe_inv ?_
  exact h0

theorem State.queueRec_inv {s : Machine.State} {t : Nat} (h0 : State.Inv s) :
    State.Inv (State.queueRec s t) := by
  unfold State.queueRec
  refine State.tenantRec_inv ?_
  refine State.roleRec_inv ?_
  exact h0

theorem State.sweepPool_inv {s : Machine.State} (h0 : State.Inv s) :
    State.Inv (State.sweepPool s) := by
  unfold State.sweepPool
  extract_lets -merge y0 y1
  refine ite_of ?_ ?_
  · exact h0
  · refine foldl_inv ?_ ?_
    · intro _ _ h2
      refine State.mirrorRec_inv ?_
      exact h2
    · refine State.setServe_inv ?_
      exact h0

theorem State.setKv_inv {s : Machine.State} {l : List KvBlock} (h0 : State.Inv s) :
    State.Inv (State.setKv s l) := by
  unfold State.setKv
  extract_lets -merge y0 y1 y2 y3 y5 x6
  have hy3 : ∀ a0, State.Inv a0 → ∀ a1, ∀ a2, State.Inv (y3 a0 a1 a2) := by
    unfold y3
    intro _ h4 _ _
    refine State.mirrorRec_inv ?_
    refine State.writeBytes_inv ?_
    exact h4
  clear_value y3
  have hx6 : State.Inv x6 := by
    unfold x6
    refine foldl_inv ?_ ?_
    · intro _ _ h7
      refine hy3 _ ?_ _ _
      exact h7
    · refine State.setServe_inv ?_
      exact h0
  clear_value x6
  refine State.sweepPool_inv ?_
  refine foldl_inv ?_ ?_
  · intro _ _ h8
    refine hy3 _ ?_ _ _
    exact h8
  · exact hx6

theorem State.kvEntry_inv {s : Machine.State} (h0 : State.Inv s) :
    OptSnd (State.kvEntry s) := by
  unfold State.kvEntry
  extract_lets -merge y0
  first | split | (clear_value y0; split)
  · show State.Inv _
    exact h0
  · refine map_of (p := SndInv) (q := SndInv) ?_ ?_
    · intro _ h1
      split
      · extract_lets -merge y2
        show State.Inv _
        refine State.setServe_inv ?_
        first
          | exact h1
          | (refine SndInv_mk (by assumption) ?_; exact h1)
    · refine State.allocGran_inv ?_
      exact h0

theorem State.kvFrames_inv {s : Machine.State} {t : Nat} {n : Nat} (h0 : State.Inv s) :
    OptSnd (State.kvFrames s t n) := by
  unfold State.kvFrames
  extract_lets -merge y0
  refine ite_of ?_ ?_
  · trivial
  · split
    · trivial
    · show State.Inv _
      refine OptSnd_some (by assumption) ?_
      refine State.allocsFor_inv ?_
      exact h0

theorem State.unmapPages_inv {t va : Nat} {l : List Nat} {s : Machine.State} (h0 : State.Inv s) :
    State.Inv (State.unmapPages t va l s) := by
  induction l generalizing s va with
  | nil => exact h0
  | cons f fs ih => exact ih (getD_inv (State.putLeaf_inv h0) h0)

theorem State.trimKv_inv {s : Machine.State} {t : Nat} (h0 : State.Inv s) :
    State.Inv (State.trimKv s t) := by
  unfold State.trimKv
  refine foldl_inv ?_ ?_
  · intro _ _ h0
    refine ite_of ?_ ?_
    · exact h0
    · refine State.freeFor_inv ?_
      exact h0
  · exact h0

theorem State.dropPages_inv {s : Machine.State} {t : Nat} {b : KvBlock} (h0 : State.Inv s) :
    State.Inv (State.dropPages s t b) := by
  unfold State.dropPages
  refine State.unmapPages_inv ?_
  exact h0

theorem State.freeKv_inv {s : Machine.State} {slot : Nat} (h0 : State.Inv s) :
    State.Inv (State.freeKv s slot) := by
  unfold State.freeKv
  extract_lets -merge y0
  split
  · exact h0
  · extract_lets -merge x1
    have hx1 : State.Inv x1 := by
      unfold x1
      refine foldl_inv ?_ ?_
      · intro _ _ h2
        refine State.dropPages_inv ?_
        exact h2
      · exact h0
    clear_value x1
    refine State.trimKv_inv ?_
    refine State.setKv_inv ?_
    exact hx1

theorem State.zeroFrame_inv {s : Machine.State} {a o n : Nat} (h0 : State.Inv s) : State.Inv (State.zeroFrame s a o n) :=
  (State.clearPoison_inv h0).setMem (Memory.wf_filter s.mem _ h0.mem')

theorem State.placeBlock_inv {s : Machine.State} {t : Nat} {b : KvBlock} (h0 : State.Inv s) :
    OptInv (State.placeBlock s t b) := by
  unfold State.placeBlock
  refine bind_of (p := SndInv) (q := State.Inv) ?_ ?_
  · intro _ h0
    split
    · refine bind_of (p := SndInv) (q := State.Inv) ?_ ?_
      · intro _ h1
        split
        · extract_lets -merge y2
          refine map_of (p := State.Inv) (q := State.Inv) ?_ ?_
          · intro _ h3
            refine State.setKv_inv ?_
            refine foldl_inv ?_ ?_
            · intro _ _ h4
              refine State.zeroFrame_inv ?_
              exact h4
            · exact h3
          · refine State.mapPages_inv ?_
            first
              | exact h1
              | (refine SndInv_mk (by assumption) ?_; exact h1)
      · refine State.kvEntry_inv ?_
        first
          | exact h0
          | (refine SndInv_mk (by assumption) ?_; exact h0)
  · refine State.kvFrames_inv ?_
    exact h0

theorem State.zeroRows_inv {s : Machine.State} {m : Model} {b : KvBlock} {v : Nat} (h0 : State.Inv s) :
    State.Inv (State.zeroRows s m b v) := by
  unfold State.zeroRows
  refine foldl_inv ?_ ?_
  · intro _ _ h0
    refine foldl_inv ?_ ?_
    · intro _ _ h1
      extract_lets -merge y2 y3
      refine ite_of ?_ ?_
      · refine State.zeroFrame_inv ?_
        exact h1
      · exact h1
    · exact h0
  · exact h0

theorem State.placeBlocks_inv {t : Nat} {l : List KvBlock} {s : Machine.State} (h0 : State.Inv s) :
    OptInv (State.placeBlocks t l s) := by
  induction l generalizing s with
  | nil => exact h0
  | cons b bs ih =>
    unfold State.placeBlocks
    split
    · trivial
    · exact ih (OptInv_some (by assumption) (State.placeBlock_inv h0))

theorem State.mapLoft_inv {s : Machine.State} {t : Nat} {l : LoftModel} (h0 : State.Inv s) :
    OptInv (State.mapLoft s t l) := by
  unfold State.mapLoft
  refine State.mapPages_inv ?_
  exact h0

theorem State.unmapLoft_inv {s : Machine.State} {t : Nat} {l : LoftModel} (h0 : State.Inv s) :
    State.Inv (State.unmapLoft s t l) := by
  unfold State.unmapLoft
  refine getD_inv ?_ ?_
  · refine State.mapPages_inv ?_
    exact h0
  · exact h0

theorem State.showVariants_inv {s : Machine.State} (h0 : State.Inv s) :
    State.Inv (State.showVariants s) := by
  unfold State.showVariants
  refine State.setField_inv ?_
  refine State.setField_inv ?_
  exact h0

theorem State.evictVariant_inv {s : Machine.State} {id : Nat} (h0 : State.Inv s) :
    State.Inv (State.evictVariant s id) := by
  unfold State.evictVariant
  split
  · extract_lets -merge x0 y1 x2
    have hx0 : State.Inv x0 := by
      unfold x0
      refine getD_inv ?_ ?_
      · refine State.mapLoft_inv ?_
        exact h0
      · exact h0
    clear_value x0
    have hx2 : State.Inv x2 := by
      unfold x2
      refine State.setServe_inv ?_
      exact hx0
    clear_value x2
    refine State.showVariants_inv ?_
    refine foldl_inv ?_ ?_
    · intro _ _ h3
      refine State.freeFor_inv ?_
      exact h3
    · exact hx2
  · exact h0

theorem State.touchVariant_inv {s : Machine.State} {id : Nat} (h0 : State.Inv s) :
    State.Inv (State.touchVariant s id) := by
  unfold State.touchVariant
  extract_lets -merge y0
  split
  · exact h0
  · refine ite_of ?_ ?_
    · exact h0
    · refine State.setServe_inv ?_
      exact h0

theorem State.sweepSlots_inv {s : Machine.State} {id : Nat} (h0 : State.Inv s) :
    State.Inv (State.sweepSlots s id) := by
  unfold State.sweepSlots
  extract_lets -merge y0 y1 x2 y4 x5
  have hx2 : State.Inv x2 := by
    unfold x2
    refine foldl_inv ?_ ?_
    · intro _ _ h3
      refine State.freeMapped_inv ?_
      exact h3
    · exact h0
  clear_value x2
  have hx5 : State.Inv x5 := by
    unfold x5
    exact State.Inv.same (hx2) rfl rfl rfl rfl rfl rfl
  clear_value x5
  refine ite_of ?_ ?_
  · refine State.adapterRec_inv ?_
    exact hx5
  · exact hx5

theorem State.sendTokens_inv {s : Machine.State} {r : Req} {sg : Segm} (h0 : State.Inv s) :
    State.Inv (State.sendTokens s r sg) := by
  unfold State.sendTokens
  extract_lets -merge y0 y1
  refine ite_of ?_ ?_
  · exact h0
  · refine State.regionWrite_inv ?_
    exact h0

theorem State.closeSegment_inv {s : Machine.State} {r : Req} {d : Nat → Done} {reason : Nat} (h0 : State.Inv s) :
    State.Inv (State.closeSegment s r d reason) := by
  unfold State.closeSegment
  split
  · exact h0
  · extract_lets -merge x0 x1
    have hx0 : State.Inv x0 := by
      unfold x0
      refine State.sendTokens_inv ?_
      exact h0
    clear_value x0
    have hx1 : State.Inv x1 := by
      unfold x1
      refine State.regionWrite_inv ?_
      exact hx0
    clear_value x1
    refine State.finish_inv ?_
    exact hx1

theorem State.endReq_inv {s : Machine.State} {slot : Nat} {status : Nat} {reason : Nat} {flt : Bool} {f : Nat} (h0 : State.Inv s) :
    State.Inv (State.endReq s slot status reason flt f) := by
  unfold State.endReq
  split
  · exact h0
  · extract_lets -merge x0 x1 x3 y4 y5 x6 x7
    have hx0 : State.Inv x0 := by
      unfold x0
      refine State.closeSegment_inv ?_
      exact h0
    clear_value x0
    have hx1 : State.Inv x1 := by
      unfold x1
      refine foldl_inv ?_ ?_
      · intro _ _ h2
        refine State.finish_inv ?_
        exact h2
      · exact hx0
    clear_value x1
    have hx3 : State.Inv x3 := by
      unfold x3
      refine State.freeKv_inv ?_
      exact hx1
    clear_value x3
    have hx6 : State.Inv x6 := by
      unfold x6
      refine State.setServe_inv ?_
      exact hx3
    clear_value x6
    have hx7 : State.Inv x7 := by
      unfold x7
      refine State.roleRec_inv ?_
      refine ite_of ?_ ?_
      · exact hx6
      · refine State.bump_inv ?_
        exact hx6
    clear_value x7
    refine State.sweepSlots_inv ?_
    refine State.touchVariant_inv ?_
    refine State.showSlots_inv ?_
    exact hx7

theorem State.putBlock_inv {s : Machine.State} {b : KvBlock} (h0 : State.Inv s) :
    State.Inv (State.putBlock s b) := by
  unfold State.putBlock
  refine State.setKv_inv ?_
  exact h0

theorem State.blockWrite_inv {s : Machine.State} {b : KvBlock} {o : Nat} {bs : List Byte} (h0 : State.Inv s) :
    State.Inv (State.blockWrite s b o bs) := by
  unfold State.blockWrite
  refine foldl_inv ?_ ?_
  · intro _ _ h0
    extract_lets -merge y1 y2
    refine ite_of ?_ ?_
    · refine State.writeBytes_inv ?_
      exact h0
    · exact h0
  · exact h0

theorem State.loseBlock_inv {s : Machine.State} {slot : Nat} (h0 : State.Inv s) :
    State.Inv (State.loseBlock s slot) := by
  unfold State.loseBlock
  refine State.endReq_inv ?_
  exact h0

theorem State.spillLater_inv {s : Machine.State} {r : Req} {b : KvBlock} (h0 : State.Inv s) :
    State.Inv (State.spillLater s r b) := by
  unfold State.spillLater
  refine State.putReq_inv ?_
  refine State.putBlock_inv ?_
  exact h0

theorem State.spillDone_inv {s : Machine.State} {slot : Nat} {pos : Nat} {group : Nat} (h0 : State.Inv s) :
    State.Inv (State.spillDone s slot pos group) := by
  unfold State.spillDone
  split
  · refine ite_of ?_ ?_
    · refine State.trimKv_inv ?_
      refine State.putBlock_inv ?_
      refine State.dropPages_inv ?_
      exact h0
    · exact h0
  · exact h0

theorem State.spillAcked_inv {s : Machine.State} {m : Nat} {psns : List Nat} (h0 : State.Inv s) :
    State.Inv (State.spillAcked s m psns) := by
  unfold State.spillAcked
  refine foldl_inv ?_ ?_
  · intro _ _ h0
    extract_lets -merge y1
    refine ite_of ?_ ?_
    · refine State.spillDone_inv ?_
      exact h0
    · refine State.putBlock_inv ?_
      exact h0
  · exact h0

theorem State.fetchAsk_inv {s : Machine.State} {r : Req} {b : KvBlock} (h0 : State.Inv s) :
    State.Inv (State.fetchAsk s r b) := by
  unfold State.fetchAsk
  extract_lets -merge y0 y1
  refine ite_of ?_ ?_
  · refine ite_of ?_ ?_
    · refine State.loseBlock_inv ?_
      exact h0
    · refine State.regionRead_inv ?_
      refine State.putBlock_inv ?_
      exact h0
  · refine ite_of ?_ ?_
    · refine State.loseBlock_inv ?_
      exact h0
    · refine State.sendKvRead_inv ?_
      refine State.putBlock_inv ?_
      exact h0

theorem State.fetchDone_inv {s : Machine.State} {slot : Nat} {pos : Nat} {group : Nat} (h0 : State.Inv s) :
    State.Inv (State.fetchDone s slot pos group) := by
  unfold State.fetchDone
  split
  · refine ite_of ?_ ?_
    · exact h0
    · refine ite_of ?_ ?_
      · split
        · exact h0
        · refine State.putBlock_inv ?_
          refine OptInv_some (by assumption) ?_
          refine State.mapPages_inv ?_
          exact h0
      · refine ite_of ?_ ?_
        · refine State.fetchAsk_inv ?_
          exact h0
        · refine State.loseBlock_inv ?_
          exact h0
  · exact h0

theorem State.fetchBegin_inv {s : Machine.State} {r : Req} {b : KvBlock} (h0 : State.Inv s) :
    State.Inv (State.fetchBegin s r b) := by
  unfold State.fetchBegin
  extract_lets -merge y0
  split
  · exact h0
  · extract_lets -merge y1 x2 y3
    have hx2 : State.Inv x2 := by
      unfold x2
      refine State.putBlock_inv ?_
      refine OptSnd_some (by assumption) ?_
      refine State.kvFrames_inv ?_
      exact h0
    clear_value x2
    refine ite_of ?_ ?_
    · refine ite_of ?_ ?_
      · refine State.loseBlock_inv ?_
        exact hx2
      · refine State.fetchDone_inv ?_
        refine State.blockWrite_inv ?_
        refine State.putBlock_inv ?_
        exact hx2
    · refine State.fetchAsk_inv ?_
      exact hx2

theorem State.kvTargetFails_inv {s : Machine.State} {p : KvBlock → Bool} {sinks : List (Nat × Nat × Nat)} (h0 : State.Inv s) :
    State.Inv (State.kvTargetFails s p sinks) := by
  unfold State.kvTargetFails
  extract_lets -merge y0
  refine foldl_inv ?_ ?_
  · intro _ _ h1
    refine State.loseBlock_inv ?_
    exact h1
  · exact h0

theorem State.poolLost_inv {s : Machine.State} (h0 : State.Inv s) :
    State.Inv (State.poolLost s) := by
  unfold State.poolLost
  extract_lets -merge y0 y1
  refine foldl_inv ?_ ?_
  · intro _ _ h2
    refine State.loseBlock_inv ?_
    exact h2
  · refine State.setServe_inv ?_
    exact h0

end Sys2Proof.Machine
end

