-- ==== Sys2Proof/Laws/InvItemOps.lean ====
section
/-! SUPPORT. Every function of Machine/ItemOps.lean that answers a state keeps the invariant. -/

namespace Sys2Proof.Machine

set_option linter.tactic.unusedName false

theorem State.setLastFault_inv {s : Machine.State} {t : Nat} {rec : List Byte} (h0 : State.Inv s) :
    State.Inv (State.setLastFault s t rec) := by
  unfold State.setLastFault
  refine foldl_inv ?_ ?_
  · intro _ _ h0
    refine State.setRegN_inv ?_
    exact h0
  · exact h0

theorem State.setTrain_inv {s : Machine.State} {x : TrainSt} (h0 : State.Inv s) :
    State.Inv (State.setTrain s x) := by
  unfold State.setTrain
  exact State.Inv.same (h0) rfl rfl rfl rfl rfl rfl

theorem State.setJob_inv {s : Machine.State} {k : Nat} {j : Job} (h0 : State.Inv s) :
    State.Inv (State.setJob s k j) := by
  unfold State.setJob
  extract_lets -merge y0
  refine State.roleRec_inv ?_
  refine State.setTrain_inv ?_
  exact h0

theorem State.endRef_inv {s : Machine.State} {r : Option (Nat × Nat × Nat)} {d : Done} (h0 : State.Inv s) :
    State.Inv (State.endRef s r d) := by
  unfold State.endRef
  split
  · exact h0
  · refine State.finish_inv ?_
    exact h0

theorem State.jobFault_inv {s : Machine.State} {k : Nat} {j : Job} {d : Done} (h0 : State.Inv s) :
    State.Inv (State.jobFault s k j d) := by
  unfold State.jobFault
  extract_lets -merge x0
  have hx0 : State.Inv x0 := by
    unfold x0
    refine foldl_inv ?_ ?_
    · intro _ _ h1
      refine State.endRef_inv ?_
      exact h1
    · refine State.setJob_inv ?_
      exact h0
  clear_value x0
  refine foldl_inv ?_ ?_
  · intro _ _ h2
    refine State.endRef_inv ?_
    exact h2
  · exact hx0

theorem State.breakJob_inv {s : Machine.State} {job : Nat} {stream : Nat} {d : Done} (h0 : State.Inv s) :
    State.Inv (State.breakJob s job stream d) := by
  unfold State.breakJob
  split
  · exact h0
  · refine ite_of ?_ ?_
    · refine State.jobFault_inv ?_
      exact h0
    · refine State.setJob_inv ?_
      exact h0

theorem State.busySteps_inv {s : Machine.State} {id : Nat} {hint : Nat} (h0 : State.Inv s) :
    State.Inv (State.busySteps s id hint) := by
  unfold State.busySteps
  refine foldl_inv ?_ ?_
  · intro _ _ h0
    extract_lets -merge y1
    refine foldl_inv ?_ ?_
    · intro _ _ h2
      refine State.endRef_inv ?_
      exact h2
    · refine State.setJob_inv ?_
      exact h0
  · exact h0

theorem State.itemFault_inv {s : Machine.State} {t : Nat} {slot : Option Nat} {stream : Nat} {status : Nat} {rec : List Byte} (h0 : State.Inv s) :
    State.Inv (State.itemFault s t slot stream status rec) := by
  unfold State.itemFault
  extract_lets -merge x0 x1
  have hx0 : State.Inv x0 := by
    unfold x0
    refine State.bump_inv ?_
    refine State.setLastFault_inv ?_
    exact h0
  clear_value x0
  have hx1 : SndInv x1 := by
    unfold x1
    refine State.logFault_inv ?_
    exact hx0
  clear_value x1
  refine ite_of ?_ ?_
  · exact h0
  · split
    · show SndInv _
      exact hx1
    · refine ite_of ?_ ?_
      · refine ite_of ?_ ?_
        · refine State.endReq_inv ?_
          show SndInv _
          exact hx1
        · show SndInv _
          exact hx1
      · refine State.breakJob_inv ?_
        show SndInv _
        exact hx1

end Sys2Proof.Machine
end

