-- ==== Sys2Proof/Laws/InvCoreOps.lean ====
section
/-! SUPPORT. Every function of Machine/CoreOps.lean that answers a state keeps the invariant. -/

namespace Sys2Proof.Machine

set_option linter.tactic.unusedName false

theorem State.putCtx_inv {s : Machine.State} {n : Nat} {p : Nat} {c : Ctx} (h0 : State.Inv s) :
    State.Inv (State.putCtx s n p c) := by
  unfold State.putCtx
  refine State.setCtx_inv ?_
  exact h0

theorem State.stopCtx_inv {s : Machine.State} {n : Nat} {p : Nat} {eng : Nat} {stream : Nat} {cause : Nat} {word : IWord} {pc : BitVec 48} {va : Nat} (h0 : State.Inv s) :
    State.Inv (State.stopCtx s n p eng stream cause word pc va) := by
  unfold State.stopCtx
  extract_lets -merge y0 y1 x2
  have hx2 : State.Inv x2 := by
    unfold x2
    refine State.setPart_inv ?_
    exact h0
  clear_value x2
  split
  · exact h0
  · refine ite_of ?_ ?_
    · refine State.setCtx_inv ?_
      exact h0
    · refine State.itemFault_inv ?_
      refine State.raise_inv ?_
      exact hx2

theorem State.showIst_inv {s : Machine.State} (h0 : State.Inv s) :
    State.Inv (State.showIst s) := by
  unfold State.showIst
  extract_lets -merge y0 y1
  refine State.setField_inv ?_
  exact h0

theorem State.retireCore_inv {s : Machine.State} {n : Nat} (h0 : State.Inv s) :
    State.Inv (State.retireCore s n) := by
  unfold State.retireCore
  extract_lets -merge y0 x1 y2 x3
  have hx1 : State.Inv x1 := by
    unfold x1
    refine State.setField_inv ?_
    refine State.setCore_inv ?_
    exact h0
  clear_value x1
  have hx3 : State.Inv x3 := by
    unfold x3
    exact State.Inv.same (hx1) rfl rfl rfl rfl rfl rfl
  clear_value x3
  refine ite_of ?_ ?_
  · exact h0
  · refine State.showIst_inv ?_
    refine State.setField_inv ?_
    exact hx3

theorem State.countParity_inv {s : Machine.State} {n : Nat} {p : Nat} (h0 : State.Inv s) :
    State.Inv (State.countParity s n p) := by
  unfold State.countParity
  extract_lets -merge y0 y1 x2 y3
  have hx2 : State.Inv x2 := by
    unfold x2
    refine State.raise_inv ?_
    refine State.setCore_inv ?_
    exact h0
  clear_value x2
  refine ite_of ?_ ?_
  · refine State.retireCore_inv ?_
    exact hx2
  · exact hx2

theorem State.haltCtx_inv {s : Machine.State} {n : Nat} {p : Nat} {eng : Nat} {stream : Nat} {e : QEnt} {h : Halt} (h0 : State.Inv s) :
    State.Inv (State.haltCtx s n p eng stream e h) := by
  unfold State.haltCtx
  extract_lets -merge x0
  have hx0 : State.Inv x0 := by
    unfold x0
    refine ite_of ?_ ?_
    · refine State.countParity_inv ?_
      exact h0
    · exact h0
  clear_value x0
  split
  · exact h0
  · refine State.stopCtx_inv ?_
    exact hx0

theorem State.startHead_inv {s : Machine.State} {n : Nat} {p : Nat} {stream : Nat} {eng : Nat} {op : Nat} {k : Ctx → QEnt → Machine.State} (h0 : State.Inv s) (h1 : ∀ a0, ∀ a3, State.Inv (k a0 a3)) :
    State.Inv (State.startHead s n p stream eng op k) := by
  unfold State.startHead
  split
  · exact h0
  · refine ite_of ?_ ?_
    · exact h0
    · split
      · exact h0
      · exact h1 _ _

end Sys2Proof.Machine
end

