-- ==== Sys2Proof/Laws/InvResetOps.lean ====
section
/-! SUPPORT. Every function of Machine/ResetOps.lean that answers a state keeps the invariant. -/

namespace Sys2Proof.Machine

set_option linter.tactic.unusedName false

theorem State.showSupply_inv {s : Machine.State} (h0 : State.Inv s) :
    State.Inv (State.showSupply s) := by
  unfold State.showSupply
  refine State.setField_inv ?_
  exact h0

/-- A reset keeps what lies in the loft, and the entries of the audit log that reached the flash: the older end of the
chain. -/
theorem State.moduleReset_inv {s : Machine.State} {cause : Option (Nat × Nat)} (h0 : State.Inv s) :
    State.Inv (State.moduleReset s cause) := by
  unfold State.moduleReset
  extract_lets -merge y0 y1 y2 y3 x4 x5 x6 y7
  have hx4 : State.Inv x4 :=
    ⟨Memory.wf_filter s.mem _ h0.mem', rfl, rfl, rfl, rfl, auditChain_dropWhile _ _ h0.audit'⟩
  have hx5 : State.Inv x5 := State.setReg64_inv (State.setReg64_inv hx4)
  have hx6 : State.Inv x6 := State.showSupply_inv (State.setRegN_inv (State.logShow_inv (State.setRegN_inv hx5)))
  clear_value x4 x5 x6
  split
  · exact State.setReg_inv hx6
  · exact State.setRegN_inv hx6

theorem State.failModule_inv {s : Machine.State} (h0 : State.Inv s) :
    State.Inv (State.failModule s) := by
  unfold State.failModule
  refine State.moduleReset_inv ?_
  exact h0

theorem State.showTargets_inv {s : Machine.State} (h0 : State.Inv s) :
    State.Inv (State.showTargets s) := by
  unfold State.showTargets
  refine foldl_inv ?_ ?_
  · intro _ _ h0
    refine State.setField_inv ?_
    exact h0
  · exact h0

theorem State.powerUp_inv {s : Machine.State} (h0 : State.Inv s) :
    State.Inv (State.powerUp s) := by
  unfold State.powerUp
  extract_lets -merge y0 x1 x2
  have hx1 : State.Inv x1 := by
    unfold x1
    exact State.Inv.same (h0) rfl rfl rfl rfl rfl rfl
  clear_value x1
  have hx2 : State.Inv x2 := by
    unfold x2
    refine State.showTargets_inv ?_
    refine State.setField_inv ?_
    refine State.setRegN_inv ?_
    refine State.setRegN_inv ?_
    exact hx1
  clear_value x2
  refine ite_of ?_ ?_
  · exact h0
  · refine ite_of ?_ ?_
    · exact hx2
    · refine State.loftState_inv ?_
      exact hx2

theorem State.fenceReset_inv {s : Machine.State} (h0 : State.Inv s) :
    State.Inv (State.fenceReset s) := by
  unfold State.fenceReset
  refine State.powerUp_inv ?_
  refine State.moduleReset_inv ?_
  exact h0

end Sys2Proof.Machine
end

