-- ==== Sys2Proof/Laws/InvMemory.lean ====
section
/-! SUPPORT. Every function of Machine/Memory.lean that answers a state keeps the invariant. -/

namespace Sys2Proof.Machine

set_option linter.tactic.unusedName false

theorem State.claimGran_inv {t : Nat} {e : Nat} {s : Machine.State} {i : Nat} (h0 : State.Inv s) :
    OptInv (State.claimGran t e s i) := by
  unfold State.claimGran
  extract_lets -merge y0 x1
  have hx1 : State.Inv x1 := by
    unfold x1
    refine State.putGran_inv ?_
    exact h0
  clear_value x1
  refine ite_of ?_ ?_
  · refine ite_of ?_ ?_
    · show State.Inv _
      exact h0
    · trivial
  · refine ite_of ?_ ?_
    · show State.Inv _
      exact h0
    · refine ite_of ?_ ?_
      · refine ite_of ?_ ?_
        · refine State.mirrorGran_inv ?_
          exact hx1
        · show State.Inv _
          exact hx1
      · trivial

theorem State.claimFrame_inv {s : Machine.State} {t : Nat} {e : Nat} {sh : Nat} (h0 : State.Inv s) :
    OptInv (State.claimFrame s t e sh) := by
  unfold State.claimFrame
  split
  · show State.Inv _
    exact h0
  · refine ite_of ?_ ?_
    · trivial
    · refine foldl_of (p := OptInv) ?_ ?_
      · intro _ _ h0
        refine bind_of (p := State.Inv) (q := State.Inv) ?_ ?_
        · intro _ h1
          refine State.claimGran_inv ?_
          exact h1
        · exact h0
      · show State.Inv _
        exact h0

theorem State.addError_inv {s : Machine.State} {i : Nat} {k : Nat} (h0 : State.Inv s) :
    State.Inv (State.addError s i k) := by
  unfold State.addError
  extract_lets -merge y0
  exact State.Inv.same (h0) rfl rfl rfl rfl rfl rfl

theorem State.poisonWord_inv {s : Machine.State} {a : Nat} (h0 : State.Inv s) :
    State.Inv (State.poisonWord s a) := by
  unfold State.poisonWord
  refine State.markPoison_inv ?_
  exact h0

theorem State.giveUp_inv {s : Machine.State} {a : Nat} (h0 : State.Inv s) :
    State.Inv (State.giveUp s a) := by
  unfold State.giveUp
  extract_lets -merge x0 y1
  have hx0 : State.Inv x0 := by
    unfold x0
    refine State.poisonWord_inv ?_
    exact h0
  clear_value x0
  split
  · refine State.poisonWord_inv ?_
    exact h0
  · refine ite_of ?_ ?_
    · refine State.failModule_inv ?_
      exact h0
    · exact State.Inv.same (hx0) rfl rfl rfl rfl rfl rfl

theorem State.ueFound_inv {s : Machine.State} {a : Nat} (h0 : State.Inv s) :
    State.Inv (State.ueFound s a) := by
  unfold State.ueFound
  extract_lets -merge x0 y1 y2 x3
  have hx0 : State.Inv x0 := by
    unfold x0
    refine State.recordUe_inv ?_
    exact h0
  clear_value x0
  have hx3 : State.Inv x3 := by
    unfold x3
    exact State.Inv.same (hx0) rfl rfl rfl rfl rfl rfl
  clear_value x3
  refine ite_of ?_ ?_
  · show SndInv _
    refine State.sendMirror_inv ?_
    exact hx3
  · refine State.giveUp_inv ?_
    exact hx0

theorem State.dropRepairs_inv {s : Machine.State} (h0 : State.Inv s) :
    State.Inv (State.dropRepairs s) := by
  unfold State.dropRepairs
  extract_lets -merge y0
  refine foldl_inv ?_ ?_
  · intro _ _ h1
    refine State.giveUp_inv ?_
    exact h1
  · exact State.Inv.same (h0) rfl rfl rfl rfl rfl rfl

theorem State.ceFound_inv {s : Machine.State} {a : Nat} (h0 : State.Inv s) :
    State.Inv (State.ceFound s a) := by
  unfold State.ceFound
  extract_lets -merge x0
  have hx0 : State.Inv x0 := by
    unfold x0
    refine ite_of ?_ ?_
    · refine State.bump_inv ?_
      exact h0
    · refine State.bump_inv ?_
      exact h0
  clear_value x0
  split
  · exact hx0
  · refine State.addError_inv ?_
    exact hx0

theorem State.copyGran_inv {s : Machine.State} {i : Nat} {j : Nat} (h0 : State.Inv s) : State.Inv (State.copyGran s i j) := by
  unfold State.copyGran
  exact foldl_inv (fun _ _ h => State.markPoison_inv h) (h0.setMem (Memory.wf_copy _ _ _ _ h0.mem'))

theorem State.splitLeaf_inv {s : Machine.State} {t : Nat} {va : Nat} {e : Nat} (h0 : State.Inv s) :
    OptInv (State.splitLeaf s t va e) := by
  unfold State.splitLeaf
  extract_lets -merge y0
  split
  · trivial
  · extract_lets -merge x1 y3
    have hx1 : State.Inv x1 := by
      unfold x1
      refine foldl_inv ?_ ?_
      · intro _ _ h2
        refine State.putEntry_inv ?_
        exact h2
      · refine OptSnd_some (by assumption) ?_
        refine State.allocTable_inv ?_
        exact h0
    clear_value x1
    show State.Inv _
    refine State.noteChange_inv ?_
    refine State.putEntry_inv ?_
    exact hx1

theorem State.moveLeaves_inv {t i j : Nat} {l : List (Nat × Nat × Nat)} {s : Machine.State} (h0 : State.Inv s) :
    OptInv (State.moveLeaves t i j l s) := by
  induction l generalizing s with
  | nil => exact h0
  | cons x xs ih =>
    obtain ⟨va, sh, e⟩ := x
    unfold State.moveLeaves
    by_cases hs : sh ≤ 21
    · simp only [hs, if_true]
      exact bind_of (p := State.Inv) (fun _ h => ih h) (State.putLeaf_inv h0)
    · simp only [hs, if_false]
      have h1 := State.splitLeaf_inv (t := t) (va := va) (e := e) h0
      cases hu : State.splitLeaf s t va e with
      | none => trivial
      | some u => exact bind_of (p := State.Inv) (fun _ h => ih h) (State.putLeaf_inv (OptInv_some hu h1))

theorem State.moveTables_inv {i : Nat} {j : Nat} {s : Machine.State} {t : Nat} (h0 : State.Inv s) :
    State.Inv (State.moveTables i j s t) := by
  unfold State.moveTables
  extract_lets -merge y0 y1 x2
  have hx2 : State.Inv x2 := by
    unfold x2
    refine ite_of ?_ ?_
    · refine State.setRegN_inv ?_
      refine State.setRegN_inv ?_
      exact h0
    · exact h0
  clear_value x2
  refine ite_of ?_ ?_
  · exact hx2
  · refine foldl_inv ?_ ?_
    · intro _ _ h3
      refine foldl_inv ?_ ?_
      · intro _ _ h4
        refine State.putEntry_inv ?_
        exact h4
      · exact h3
    · exact hx2

theorem State.renameGran_inv {s : Machine.State} {i : Nat} {j : Nat} (h0 : State.Inv s) :
    State.Inv (State.renameGran s i j) := by
  unfold State.renameGran
  extract_lets -merge y0 y1 y2 y3 y4 y5
  exact State.Inv.same (h0) rfl rfl rfl rfl rfl rfl

theorem execTranslationChange_inv {tenant : Nat} {va : Nat} {shift : Nat} {entry : Nat} {s : Machine.State} (h0 : State.Inv s) :
    Kept (execTranslationChange tenant va shift entry s) := by
  unfold execTranslationChange
  refine ite_of ?_ ?_
  · show State.Inv _
    exact h0
  · split
    · show State.Inv _
      exact h0
    · show State.Inv _
      refine getD_inv ?_ ?_
      · refine State.putLeaf_inv ?_
        refine OptInv_some (by assumption) ?_
        refine ite_of ?_ ?_
        · refine State.claimFrame_inv ?_
          exact h0
        · show State.Inv _
          exact h0
      · exact h0

theorem execTranslationQuiesce_inv {tenant : Nat} {va : Nat} {s : Machine.State} (h0 : State.Inv s) :
    Kept (execTranslationQuiesce tenant va s) := by
  unfold execTranslationQuiesce
  extract_lets -merge y0
  split
  · show State.Inv _
    exact h0
  · extract_lets -merge y1 y2 x3
    have hx3 : State.Inv x3 := by
      unfold x3
      exact State.Inv.same (h0) rfl rfl rfl rfl rfl rfl
    clear_value x3
    refine ite_of ?_ ?_
    · show State.Inv _
      exact h0
    · split
      · show State.Inv _
        exact hx3
      · show State.Inv _
        refine foldl_inv ?_ ?_
        · intro _ _ h4
          extract_lets -merge y5
          refine ite_of ?_ ?_
          · refine State.freeFor_inv ?_
            exact h4
          · exact h4
        · exact hx3

theorem execMirrorRepair_inv {addr : Nat} {fixed : Bool} {s : Machine.State} (h0 : State.Inv s) :
    Kept (execMirrorRepair addr fixed s) := by
  unfold execMirrorRepair
  refine ite_of ?_ ?_
  · show State.Inv _
    exact h0
  · show State.Inv _
    refine ite_of ?_ ?_
    · refine State.ceFound_inv ?_
      exact h0
    · refine State.ueFound_inv ?_
      exact h0

theorem execPatrolScrub_inv {gran : Nat} {fixed : List Nat} {bad : List Nat} {s : Machine.State} (h0 : State.Inv s) :
    Kept (execPatrolScrub gran fixed bad s) := by
  unfold execPatrolScrub
  extract_lets -merge y0 x1 x3 y5 y6 y7 y8 y9
  have hx1 : State.Inv x1 := by
    unfold x1
    refine foldl_inv ?_ ?_
    · intro _ _ h2
      refine State.ceFound_inv ?_
      exact h2
    · exact h0
  clear_value x1
  have hx3 : State.Inv x3 := by
    unfold x3
    refine foldl_inv ?_ ?_
    · intro _ _ h4
      refine State.ueFound_inv ?_
      exact h4
    · exact hx1
  clear_value x3
  refine ite_of ?_ ?_
  · show State.Inv _
    exact h0
  · refine ite_of ?_ ?_
    · show State.Inv _
      refine State.setField_inv ?_
      refine State.setField_inv ?_
      exact State.Inv.same (hx3) rfl rfl rfl rfl rfl rfl
    · show State.Inv _
      refine State.setField_inv ?_
      exact State.Inv.same (hx3) rfl rfl rfl rfl rfl rfl

theorem State.dropUnfixed_inv {s : Machine.State} {g : Nat} (h0 : State.Inv s) :
    State.Inv (State.dropUnfixed s g) := by
  unfold State.dropUnfixed
  extract_lets -merge y0
  exact State.Inv.same (h0) rfl rfl rfl rfl rfl rfl

theorem State.retireGran_inv {s : Machine.State} {g : Nat} (h0 : State.Inv s) :
    State.Inv (State.retireGran s g) := by
  unfold State.retireGran
  extract_lets -merge x0 y1 x2
  have hx0 : State.Inv x0 := by
    unfold x0
    refine State.regAdd_inv ?_
    refine State.putGran_inv ?_
    refine State.dropUnfixed_inv ?_
    exact h0
  clear_value x0
  have hx2 : State.Inv x2 := by
    unfold x2
    refine ite_of ?_ ?_
    · exact hx0
    · exact State.Inv.same (hx0) rfl rfl rfl rfl rfl rfl
  clear_value x2
  refine State.raise_inv ?_
  refine State.auditInternal_inv ?_
  exact hx2

theorem State.replaceGran_inv {s : Machine.State} {i : Nat} (h0 : State.Inv s) :
    OptInv (State.replaceGran s i) := by
  unfold State.replaceGran
  extract_lets -merge y0 y1 y2
  refine ite_of ?_ ?_
  · trivial
  · split
    · trivial
    · refine map_of (p := State.Inv) (q := State.Inv) ?_ ?_
      · intro _ h3
        extract_lets -merge x4
        have hx4 : State.Inv x4 := by
          unfold x4
          refine ite_of ?_ ?_
          · refine foldl_inv ?_ ?_
            · intro _ _ h5
              refine State.moveTables_inv ?_
              exact h5
            · exact h3
          · exact h3
        clear_value x4
        refine State.renameGran_inv ?_
        exact hx4
      · refine State.moveLeaves_inv ?_
        refine State.copyGran_inv ?_
        refine OptSnd_some (by assumption) ?_
        refine ite_of ?_ ?_
        · refine State.allocGran_inv ?_
          exact h0
        · refine State.allocSram_inv ?_
          exact h0

theorem execGranuleRetirement_inv {gran : Nat} {s : Machine.State} (h0 : State.Inv s) :
    Kept (execGranuleRetirement gran s) := by
  unfold execGranuleRetirement
  extract_lets -merge y0
  refine ite_of ?_ ?_
  · show State.Inv _
    exact h0
  · split
    · show State.Inv _
      exact h0
    · show State.Inv _
      refine State.retireGran_inv ?_
      refine OptInv_some (by assumption) ?_
      refine ite_of ?_ ?_
      · show State.Inv _
        exact h0
      · refine State.replaceGran_inv ?_
        exact h0

end Sys2Proof.Machine
end

