-- ==== Sys2Proof/Laws/InvLoft.lean ====
section
/-! SUPPORT. Every function of Machine/Loft.lean that answers a state keeps the invariant. -/

namespace Sys2Proof.Machine

set_option linter.tactic.unusedName false

theorem State.loftResult_inv {s : Machine.State} {cause : Nat} {status : Nat} (h0 : State.Inv s) :
    State.Inv (State.loftResult s cause status) := by
  unfold State.loftResult
  refine State.setRegN_inv ?_
  exact h0

theorem State.showModel_inv {s : Machine.State} {i : Nat} {m : LoftModel} {st : Nat} (h0 : State.Inv s) :
    State.Inv (State.showModel s i m st) := by
  unfold State.showModel
  refine State.setRegN_inv ?_
  exact h0

theorem State.showModels_inv {st i : Nat} {l : List LoftModel} {s : Machine.State} (h0 : State.Inv s) :
    State.Inv (State.showModels st i l s) := by
  induction l generalizing s i with
  | nil => exact h0
  | cons m ms ih => exact ih (State.showModel_inv h0)

theorem State.showAccess_inv {s : Machine.State} (h0 : State.Inv s) :
    State.Inv (State.showAccess s) := by
  unfold State.showAccess
  refine foldl_inv ?_ ?_
  · intro _ _ h0
    extract_lets -merge y1
    refine ite_of ?_ ?_
    · exact h0
    · refine State.setRegN_inv ?_
      refine State.setRegN_inv ?_
      exact h0
  · exact h0

theorem State.loftOwn.go_inv {i : Nat} {l : List LoftModel} {s : Machine.State} (h0 : State.Inv s) :
    State.Inv (State.loftOwn.go i l s) := by
  induction l generalizing s i with
  | nil => exact h0
  | cons m ms ih =>
    unfold State.loftOwn.go
    exact ih (foldl_inv (fun _ _ h => State.setGran_inv h) h0)

theorem State.loftOwn_inv {s : Machine.State} {ms : List LoftModel} (h0 : State.Inv s) : State.Inv (State.loftOwn s ms) :=
  State.loftOwn.go_inv ⟨h0.mem', h0.regs', h0.poison', Tab.wfFrom_filter _ _ _ _ h0.grans', h0.cues', h0.audit'⟩

theorem State.addWear_inv {s : Machine.State} {n : Nat} (h0 : State.Inv s) :
    State.Inv (State.addWear s n) := by
  unfold State.addWear
  extract_lets -merge y0 y1 x2
  have hx2 : State.Inv x2 := by
    unfold x2
    refine State.setRegN_inv ?_
    exact State.Inv.same (h0) rfl rfl rfl rfl rfl rfl
  clear_value x2
  refine ite_of ?_ ?_
  · refine State.raise_inv ?_
    refine State.setField_inv ?_
    exact hx2
  · exact hx2

theorem State.loftFail_inv {s : Machine.State} {cause : Nat} {status : Nat} (h0 : State.Inv s) :
    State.Inv (State.loftFail s cause status) := by
  unfold State.loftFail
  extract_lets -merge y0
  refine State.auditInternal_inv ?_
  refine State.loftResult_inv ?_
  refine State.loftState_inv ?_
  exact State.Inv.same (h0) rfl rfl rfl rfl rfl rfl

theorem State.loftAsk_inv {s : Machine.State} {x : LoftInst} {off : Nat} {n : Nat} (h0 : State.Inv s) :
    State.Inv (State.loftAsk s x off n) := by
  unfold State.loftAsk
  extract_lets -merge y0
  split
  · refine State.loftFail_inv ?_
    exact h0
  · refine State.post_inv ?_
    exact State.Inv.same (h0) rfl rfl rfl rfl rfl rfl

theorem State.loftNext_inv {k : Nat} {s : Machine.State} {x : LoftInst} (h0 : State.Inv s) : State.Inv (State.loftNext s x k) := by
  induction k generalizing x with
  | zero => exact h0
  | succ k ih =>
    unfold State.loftNext
    split
    · exact State.Inv.same h0 rfl rfl rfl rfl rfl rfl
    · exact ite_of (State.loftAsk_inv h0) (ite_of ih (State.loftFail_inv h0))

theorem State.loftWrite_inv {s : Machine.State} {x : LoftInst} {m : LoftModel} {bs : List Byte} (h0 : State.Inv s) :
    State.Inv (State.loftWrite s x m bs) := by
  unfold State.loftWrite
  extract_lets -merge y0 y1 x2
  have hx2 : State.Inv x2 := by
    unfold x2
    refine State.setRegN_inv ?_
    refine State.addWear_inv ?_
    refine State.writeBytes_inv ?_
    exact h0
  clear_value x2
  refine ite_of ?_ ?_
  · refine State.loftFail_inv ?_
    exact hx2
  · refine State.loftNext_inv ?_
    exact hx2

theorem State.loftHeadIn_inv {s : Machine.State} {x : LoftInst} {bs : List Byte} (h0 : State.Inv s) :
    State.Inv (State.loftHeadIn s x bs) := by
  unfold State.loftHeadIn
  extract_lets -merge y0 x1 y3 x4
  have hx1 : State.Inv x1 := by
    unfold x1
    refine foldl_inv ?_ ?_
    · intro _ _ h2
      refine State.setRegN_inv ?_
      exact h2
    · exact h0
  clear_value x1
  have hx4 : State.Inv x4 := by
    unfold x4
    exact State.Inv.same (hx1) rfl rfl rfl rfl rfl rfl
  clear_value x4
  refine ite_of ?_ ?_
  · refine State.loftFail_inv ?_
    exact h0
  · refine ite_of ?_ ?_
    · refine ite_of ?_ ?_
      · refine State.loftFail_inv ?_
        exact h0
      · refine ite_of ?_ ?_
        · refine State.loftFail_inv ?_
          exact h0
        · refine State.loftAsk_inv ?_
          exact h0
    · refine ite_of ?_ ?_
      · refine State.loftFail_inv ?_
        exact h0
      · refine State.loftNext_inv ?_
        refine State.setRegN_inv ?_
        refine State.setRegN_inv ?_
        refine State.loftState_inv ?_
        exact hx4

theorem State.loftRead_inv {s : Machine.State} {resp : Option (List Byte)} (h0 : State.Inv s) :
    State.Inv (State.loftRead s resp) := by
  unfold State.loftRead
  split
  · exact h0
  · refine State.loftFail_inv ?_
    exact h0
  · refine ite_of ?_ ?_
    · refine State.loftHeadIn_inv ?_
      exact h0
    · split
      · exact h0
      · refine State.loftWrite_inv ?_
        exact h0

theorem State.loftStart_inv {s : Machine.State} (h0 : State.Inv s) :
    State.Inv (State.loftStart s) := by
  unfold State.loftStart
  refine ite_of ?_ ?_
  · refine State.loftResult_inv ?_
    exact h0
  · refine ite_of ?_ ?_
    · refine State.loftResult_inv ?_
      exact h0
    · refine State.loftAsk_inv ?_
      exact h0

theorem State.loftAbort_inv {s : Machine.State} (h0 : State.Inv s) :
    State.Inv (State.loftAbort s) := by
  unfold State.loftAbort
  extract_lets -merge y0
  split
  · exact h0
  · refine ite_of ?_ ?_
    · refine State.loftFail_inv ?_
      exact h0
    · exact State.Inv.same (h0) rfl rfl rfl rfl rfl rfl

theorem execLftStart_inv {s : Machine.State} (h0 : State.Inv s) :
    Kept (execLftStart s) := by
  unfold execLftStart
  show State.Inv _
  refine State.loftStart_inv ?_
  exact h0

theorem execLftAbort_inv {s : Machine.State} (h0 : State.Inv s) :
    Kept (execLftAbort s) := by
  unfold execLftAbort
  show State.Inv _
  refine State.loftAbort_inv ?_
  exact h0

theorem execLoftInstallComplete_inv {backOk : Bool} {s : Machine.State} (h0 : State.Inv s) :
    Kept (execLoftInstallComplete backOk s) := by
  unfold execLoftInstallComplete
  extract_lets -merge y0 y1 x2 x3
  have hx2 : State.Inv x2 := by
    unfold x2
    exact ⟨h0.mem', h0.regs', risingFrom_filter _ _ _ h0.poison', h0.grans', h0.cues', h0.audit'⟩
  clear_value x2
  have hx3 : State.Inv x3 := by
    unfold x3
    refine State.showModels_inv ?_
    refine State.setField_inv ?_
    refine State.loftOwn_inv ?_
    exact hx2
  clear_value x3
  refine ite_of ?_ ?_
  · show State.Inv _
    exact h0
  · refine ite_of ?_ ?_
    · show State.Inv _
      refine State.loftFail_inv ?_
      exact h0
    · show State.Inv _
      refine State.auditInternal_inv ?_
      refine State.showAccess_inv ?_
      refine State.loftResult_inv ?_
      refine State.loftState_inv ?_
      exact hx3

theorem execLoftVerification_inv {s : Machine.State} (h0 : State.Inv s) :
    Kept (execLoftVerification s) := by
  unfold execLoftVerification
  extract_lets -merge y0 y1 y2 x3 x4 y5
  have hx3 : State.Inv x3 := by
    unfold x3
    exact State.Inv.same (h0) rfl rfl rfl rfl rfl rfl
  clear_value x3
  have hx4 : State.Inv x4 := by
    unfold x4
    refine State.setField_inv ?_
    refine State.setField_inv ?_
    refine State.setRegN_inv ?_
    exact hx3
  clear_value x4
  refine ite_of ?_ ?_
  · show State.Inv _
    exact h0
  · refine ite_of ?_ ?_
    · show State.Inv _
      exact hx3
    · refine ite_of ?_ ?_
      · show State.Inv _
        refine State.loftResult_inv ?_
        refine State.loftState_inv ?_
        exact hx4
      · refine ite_of ?_ ?_
        · show State.Inv _
          refine State.showAccess_inv ?_
          refine State.loftState_inv ?_
          refine State.showModels_inv ?_
          refine State.loftOwn_inv ?_
          exact hx4
        · show State.Inv _
          refine State.loftState_inv ?_
          exact hx4

theorem execLoftScrub_inv {off : Nat} {fixed : Nat} {bad : Bool} {s : Machine.State} (h0 : State.Inv s) :
    Kept (execLoftScrub off fixed bad s) := by
  unfold execLoftScrub
  extract_lets -merge y0 y1 y2 y3 y4 x5 x6 x7 x8
  have hx5 : State.Inv x5 := by
    unfold x5
    exact State.Inv.same (h0) rfl rfl rfl rfl rfl rfl
  clear_value x5
  have hx6 : State.Inv x6 := by
    unfold x6
    refine ite_of ?_ ?_
    · refine State.setField_inv ?_
      refine State.setField_inv ?_
      exact hx5
    · refine State.setField_inv ?_
      exact hx5
  clear_value x6
  have hx7 : State.Inv x7 := by
    unfold x7
    refine State.markPoison_inv ?_
    refine State.recordUe_inv ?_
    exact hx6
  clear_value x7
  have hx8 : State.Inv x8 := by
    unfold x8
    refine ite_of ?_ ?_
    · exact hx6
    · refine State.bump_inv ?_
      exact hx6
  clear_value x8
  split
  · show State.Inv _
    exact h0
  · refine ite_of ?_ ?_
    · show State.Inv _
      exact h0
    · refine ite_of ?_ ?_
      · show State.Inv _
        refine State.loftState_inv ?_
        refine State.setField_inv ?_
        exact hx7
      · show State.Inv _
        refine ite_of ?_ ?_
        · refine State.bump_inv ?_
          exact hx8
        · exact hx8

end Sys2Proof.Machine
end

