-- ==== Sys2Proof/Laws/InvHostQueue.lean ====
section
/-! SUPPORT. Every function of Machine/HostQueue.lean that answers a state keeps the invariant. -/

namespace Sys2Proof.Machine

set_option linter.tactic.unusedName false

theorem State.askAgain_inv {s : Machine.State} {t : Nat} {q : Nat} (h0 : State.Inv s) :
    State.Inv (State.askAgain s t q) := by
  unfold State.askAgain
  extract_lets -merge x0 y3 y4
  have hx0 : State.Inv x0 := by
    unfold x0
    refine foldl_inv ?_ ?_
    · intro _ _ h1
      extract_lets -merge y2
      refine State.regionRead_inv ?_
      exact h1
    · exact h0
  clear_value x0
  refine foldl_inv ?_ ?_
  · intro _ _ h5
    extract_lets -merge y6
    split
    · exact h5
    · refine ite_of ?_ ?_
      · refine State.sendTokens_inv ?_
        refine State.putReq_inv ?_
        exact h5
      · exact h5
  · refine foldl_inv ?_ ?_
    · intro _ _ h7
      refine State.regionWrite_inv ?_
      exact h7
    · refine State.setHq_inv ?_
      exact hx0

theorem State.recover_inv {s : Machine.State} {t : Nat} {q : Nat} (h0 : State.Inv s) :
    State.Inv (State.recover s t q) := by
  unfold State.recover
  extract_lets -merge y0 y1 x2 y5 y6 y7 y8 y9
  have hx2 : State.Inv x2 := by
    unfold x2
    refine foldl_inv ?_ ?_
    · intro _ _ h3
      extract_lets -merge y4
      refine State.regionWrite_inv ?_
      refine State.setHost_inv ?_
      exact h3
    · exact h0
  clear_value x2
  refine ite_of ?_ ?_
  · exact h0
  · refine ite_of ?_ ?_
    · refine State.setHq_inv ?_
      exact h0
    · refine State.setHq_inv ?_
      exact hx2

theorem State.bindTry_inv {s : Machine.State} {key : Nat} {x : Qp} {msg : List Byte} (h0 : State.Inv s) :
    State.Inv (State.bindTry s key x msg) := by
  unfold State.bindTry
  extract_lets -merge y0 y1 y2 x3 x4 x5 x6 x7 x8
  have hx3 : State.Inv x3 := by
    unfold x3
    split
    · exact h0
    · refine State.closeQp_inv ?_
      exact h0
  clear_value x3
  have hx4 : State.Inv x4 := by
    unfold x4
    refine State.tenantRec_inv ?_
    refine State.setRegN_inv ?_
    refine State.setQp_inv ?_
    exact hx3
  clear_value x4
  have hx5 : State.Inv x5 := by
    unfold x5
    refine State.emit_inv ?_
    exact hx4
  clear_value x5
  have hx6 : State.Inv x6 := by
    unfold x6
    refine State.sendMsg_inv ?_
    exact hx5
  clear_value x6
  have hx7 : State.Inv x7 := by
    unfold x7
    refine State.bump_inv ?_
    refine State.setQp_inv ?_
    exact h0
  clear_value x7
  have hx8 : State.Inv x8 := by
    unfold x8
    refine State.emit_inv ?_
    exact hx7
  clear_value x8
  refine ite_of ?_ ?_
  · refine ite_of ?_ ?_
    · exact hx6
    · refine State.askAgain_inv ?_
      refine State.recover_inv ?_
      exact hx6
  · refine State.sendMsg_inv ?_
    exact hx8

theorem State.takeSend_inv {s : Machine.State} {t : Nat} {q : Nat} {key : Nat} {msg : List Byte} {room : Bool} (h0 : State.Inv s) :
    State.Inv (State.takeSend s t q key msg room) := by
  unfold State.takeSend
  extract_lets -merge y0 y1
  refine ite_of ?_ ?_
  · refine State.setHq_inv ?_
    refine State.bump_inv ?_
    exact h0
  · refine State.emit_inv ?_
    refine State.bump_inv ?_
    exact h0

theorem State.takeAsking_inv {s : Machine.State} {t : Nat} {q : Nat} (h0 : State.Inv s) :
    State.Inv (State.takeAsking s t q) := by
  unfold State.takeAsking
  extract_lets -merge y0
  refine foldl_inv ?_ ?_
  · intro _ _ h1
    refine State.takeSend_inv ?_
    exact h1
  · refine State.setHq_inv ?_
    exact h0

theorem State.askConsumer_inv {s : Machine.State} {t : Nat} {q : Nat} (h0 : State.Inv s) :
    State.Inv (State.askConsumer s t q) := by
  unfold State.askConsumer
  split
  · exact h0
  · refine ite_of ?_ ?_
    · exact h0
    · refine State.regionRead_inv ?_
      exact h0

theorem State.refuse_inv {s : Machine.State} {t : Nat} {q : Nat} {d : List Byte} (h0 : State.Inv s) :
    State.Inv (State.refuse s t q d) := by
  unfold State.refuse
  extract_lets -merge y0 y1
  refine State.settle_inv ?_
  refine State.setHq_inv ?_
  exact h0

theorem State.ackSend_inv {s : Machine.State} {key : Nat} (h0 : State.Inv s) :
    State.Inv (State.ackSend s key) := by
  unfold State.ackSend
  refine ite_of ?_ ?_
  · refine State.emit_inv ?_
    exact h0
  · exact h0

theorem State.acceptHead_inv {s : Machine.State} {t : Nat} {q : Nat} (h0 : State.Inv s) :
    State.Inv (State.acceptHead s t q) := by
  unfold State.acceptHead
  extract_lets -merge y0 y1
  split
  · exact h0
  · extract_lets -merge x2 y3 x4 y5 y6 x7 y8
    have hx2 : State.Inv x2 := by
      unfold x2
      refine State.setHq_inv ?_
      exact h0
    clear_value x2
    have hx4 : State.Inv x4 := by
      unfold x4
      refine State.ackSend_inv ?_
      refine State.roleRec_inv ?_
      refine State.setReg64_inv ?_
      exact hx2
    clear_value x4
    have hx7 : State.Inv x7 := by
      unfold x7
      refine State.showOut_inv ?_
      refine State.setHq_inv ?_
      exact hx4
    clear_value x7
    refine ite_of ?_ ?_
    · refine State.refuse_inv ?_
      refine State.ackSend_inv ?_
      exact hx2
    · refine ite_of ?_ ?_
      · refine State.refuse_inv ?_
        refine State.ackSend_inv ?_
        exact hx2
      · refine ite_of ?_ ?_
        · refine State.refuse_inv ?_
          refine State.ackSend_inv ?_
          exact hx2
        · refine ite_of ?_ ?_
          · refine State.ackSend_inv ?_
            refine State.bump_inv ?_
            exact hx2
          · refine ite_of ?_ ?_
            · refine State.refuse_inv ?_
              refine State.ackSend_inv ?_
              exact hx2
            · refine ite_of ?_ ?_
              · refine State.finish_inv ?_
                exact hx7
              · refine ite_of ?_ ?_
                · refine State.finish_inv ?_
                  exact hx7
                · refine ite_of ?_ ?_
                  · refine State.finish_inv ?_
                    exact hx7
                  · refine ite_of ?_ ?_
                    · refine ite_of ?_ ?_
                      · refine State.updItem_inv ?_
                        exact hx7
                      · refine State.regionRead_inv ?_
                        exact hx7
                    · exact hx7

theorem State.acceptJunk_inv {t q n : Nat} {s : Machine.State} (h0 : State.Inv s) : State.Inv (State.acceptJunk t q n s) := by
  induction n generalizing s with
  | zero => exact h0
  | succ n ih =>
    unfold State.acceptJunk
    split
    · exact h0
    · exact ite_of (ih (State.acceptHead_inv h0)) h0

theorem State.takeRow_inv {s : Machine.State} {t : Nat} {q : Nat} {r : Nat} (h0 : State.Inv s) :
    State.Inv (State.takeRow s t q r) := by
  unfold State.takeRow
  split
  · exact h0
  · refine ite_of ?_ ?_
    · refine State.acceptJunk_inv ?_
      refine State.acceptHead_inv ?_
      exact h0
    · exact h0

theorem State.runRow_inv {s : Machine.State} {t : Nat} {q : Nat} {r : Nat} {k : Machine.State → Item → Machine.State} (h0 : State.Inv s) (h1 : ∀ a0, State.Inv a0 → ∀ a3, State.Inv (k a0 a3)) :
    State.Inv (State.runRow s t q r k) := by
  unfold State.runRow
  extract_lets -merge x0
  have hx0 : State.Inv x0 := by
    unfold x0
    refine State.takeRow_inv ?_
    exact h0
  clear_value x0
  split
  · exact hx0
  · refine h1 _ ?_ _
    refine State.updItem_inv ?_
    exact hx0

theorem State.notify_inv {s : Machine.State} {t : Nat} {q : Nat} {st : Nat} {seq : Nat} (h0 : State.Inv s) :
    State.Inv (State.notify s t q st seq) := by
  unfold State.notify
  extract_lets -merge y0
  split
  · exact h0
  · refine State.sendRing_inv ?_
    refine State.setHq_inv ?_
    exact h0

theorem State.cakEffect_inv {s : Machine.State} {h : Nat} {load : Bool} (h0 : State.Inv s) :
    State.Inv (State.cakEffect s h load) := by
  unfold State.cakEffect
  extract_lets -merge y0 x1 y3 y4
  have hx1 : State.Inv x1 := by
    unfold x1
    refine foldl_inv ?_ ?_
    · intro _ _ h2
      refine State.setRegN_inv ?_
      exact h2
    · exact h0
  clear_value x1
  refine ite_of ?_ ?_
  · refine State.emit_inv ?_
    refine State.showPort_inv ?_
    refine State.setField_inv ?_
    refine State.setHost_inv ?_
    exact hx1
  · refine State.showPort_inv ?_
    refine State.setField_inv ?_
    refine State.setHost_inv ?_
    exact hx1

theorem State.cakAfter_inv {s : Machine.State} {t : Nat} {q : Nat} {seq : Nat} (h0 : State.Inv s) :
    State.Inv (State.cakAfter s t q seq) := by
  unfold State.cakAfter
  extract_lets -merge y0 y1
  refine foldl_inv ?_ ?_
  · intro _ _ h2
    refine State.cakEffect_inv ?_
    exact h2
  · refine State.setHost_inv ?_
    exact h0

theorem State.writeRecord_inv {s : Machine.State} {t : Nat} {q : Nat} (h0 : State.Inv s) :
    State.Inv (State.writeRecord s t q) := by
  unfold State.writeRecord
  extract_lets -merge y0
  split
  · exact h0
  · extract_lets -merge y1 y2
    split
    · exact h0
    · extract_lets -merge y3 y4 x5 x6 x7 x8
      have hx5 : State.Inv x5 := by
        unfold x5
        refine State.roleRec_inv ?_
        refine State.showOut_inv ?_
        refine State.setHq_inv ?_
        exact h0
      clear_value x5
      have hx6 : State.Inv x6 := by
        unfold x6
        refine State.regionWrite_inv ?_
        exact hx5
      clear_value x6
      have hx7 : State.Inv x7 := by
        unfold x7
        refine ite_of ?_ ?_
        · refine State.sendRing_inv ?_
          exact hx6
        · exact hx6
      clear_value x7
      have hx8 : State.Inv x8 := by
        unfold x8
        refine ite_of ?_ ?_
        · refine State.notify_inv ?_
          exact hx7
        · exact hx7
      clear_value x8
      refine State.reapQueue_inv ?_
      refine State.cakAfter_inv ?_
      exact hx8

end Sys2Proof.Machine
end

