-- ==== Sys2Proof/Laws/InvCueOps.lean ====
section
/-! SUPPORT. Every function of Machine/CueOps.lean that answers a state keeps the invariant. -/

namespace Sys2Proof.Machine

set_option linter.tactic.unusedName false

theorem State.setTime_inv {s : Machine.State} {x : TimeSt} (h0 : State.Inv s) (hc : cueSorted x.cues = true) :
    State.Inv (State.setTime s x) :=
  ⟨h0.mem', h0.regs', h0.poison', h0.grans', hc, h0.audit'⟩

theorem State.showCues_inv {s : Machine.State} (h0 : State.Inv s) :
    State.Inv (State.showCues s) := by
  unfold State.showCues
  refine State.setField_inv ?_
  exact h0

theorem State.cueRec_inv {s : Machine.State} {c : Cue} {kind : Nat} (h0 : State.Inv s) :
    State.Inv (State.cueRec s c kind) := by
  unfold State.cueRec
  refine State.roleRec_inv ?_
  exact h0

theorem State.addCue_inv {s : Machine.State} {time action owner sub role arg : Nat} (h0 : State.Inv s) :
    OptInv (State.addCue s time action owner sub role arg) := by
  unfold State.addCue
  extract_lets -merge y0
  split
  · exact State.cueRec_inv (State.showCues_inv (State.setTime_inv h0 (cueSorted_insert y0 _ h0.cues')))
  · trivial

theorem State.takeCue_inv {s : Machine.State} {action sub arg : Nat} {role : Option Nat} (h0 : State.Inv s) :
    OptInv (State.takeCue s action sub arg role) := by
  unfold State.takeCue
  split
  · trivial
  · split
    · extract_lets -merge y0 x1 y2 x3
      have hx1 : State.Inv x1 := State.Inv.same h0 rfl rfl rfl rfl rfl rfl
      have hx : State.Inv x3 := State.cueRec_inv (State.showCues_inv (State.setTime_inv hx1 (cueSorted_drop _ hx1.cues')))
      exact ite_of (p := State.Inv) (State.bump_inv hx) hx
    · trivial

theorem State.dropCues_inv {s : Machine.State} {p : Cue → Bool} (h0 : State.Inv s) : State.Inv (State.dropCues s p) :=
  foldl_inv (fun _ _ h => State.cueRec_inv h) (State.showCues_inv (State.setTime_inv h0 (cueSorted_filter _ _ h0.cues')))

end Sys2Proof.Machine
end

