-- ==== Sys2Proof/Laws/InvRigOps.lean ====
section
/-! SUPPORT. Every function of Machine/RigOps.lean that answers a state keeps the invariant. -/

namespace Sys2Proof.Machine

set_option linter.tactic.unusedName false

theorem pieceWrite_inv {s : Machine.State} {c : Curtain} {p : Piece} {o : Nat} {bs : List Byte} (h0 : State.Inv s) :
    SndInv (pieceWrite s c p o bs) := by
  unfold pieceWrite
  refine foldl_of (p := SndInv) ?_ ?_
  · intro _ _ h0
    extract_lets -merge x1
    have hx1 : SndInv x1 := by
      unfold x1
      refine State.mirrorWrite_inv ?_
      refine State.writeBytes_inv ?_
      show SndInv _
      exact h0
    clear_value x1
    show State.Inv _
    show SndInv _
    exact hx1
  · show State.Inv _
    exact h0

theorem State.countRig_inv {s : Machine.State} {gfmt : Nat} {d : Served} {o : Nat} {n : Nat} (h0 : State.Inv s) :
    State.Inv (State.countRig s gfmt d o n) := by
  unfold State.countRig
  split
  · exact h0
  · extract_lets -merge y0
    refine State.bump_inv ?_
    refine State.bump_inv ?_
    exact h0

theorem State.loadMgr_inv {s : Machine.State} (h0 : State.Inv s) :
    State.Inv (State.loadMgr s) := by
  unfold State.loadMgr
  extract_lets -merge y0
  refine ite_of ?_ ?_
  · exact h0
  · refine State.setRegN_inv ?_
    exact h0

end Sys2Proof.Machine
end

