-- ==== Sys2Proof/Laws/InvCurtain.lean ====
section
/-! SUPPORT. Every function of Machine/Curtain.lean that answers a state keeps the invariant. -/

namespace Sys2Proof.Machine

set_option linter.tactic.unusedName false

theorem State.setCurtain_inv {s : Machine.State} {x : CurtainSt} (h0 : State.Inv s) :
    State.Inv (State.setCurtain s x) := by
  unfold State.setCurtain
  exact State.Inv.same (h0) rfl rfl rfl rfl rfl rfl

theorem State.putRun_inv {s : Machine.State} {c : Curtain} (h0 : State.Inv s) :
    State.Inv (State.putRun s c) := by
  unfold State.putRun
  extract_lets -merge y0
  refine State.roleRec_inv ?_
  refine State.setCurtain_inv ?_
  exact h0

theorem State.showQueued_inv {s : Machine.State} (h0 : State.Inv s) :
    State.Inv (State.showQueued s) := by
  unfold State.showQueued
  refine State.setField_inv ?_
  exact h0

theorem State.setPhase_inv {s : Machine.State} {c : Curtain} {ph : Nat} (h0 : State.Inv s) :
    State.Inv (State.setPhase s c ph) := by
  unfold State.setPhase
  extract_lets -merge x0
  have hx0 : State.Inv x0 := by
    unfold x0
    refine State.putRun_inv ?_
    exact h0
  clear_value x0
  refine State.raise_inv ?_
  refine State.setField_inv ?_
  refine State.setField_inv ?_
  exact hx0

theorem State.showFenced_inv {s : Machine.State} (h0 : State.Inv s) :
    State.Inv (State.showFenced s) := by
  unfold State.showFenced
  refine State.setField_inv ?_
  exact h0

theorem State.finishRef_inv {s : Machine.State} {r : Option ItemRef} {d : Done} (h0 : State.Inv s) :
    State.Inv (State.finishRef s r d) := by
  unfold State.finishRef
  split
  · exact h0
  · refine State.finish_inv ?_
    exact h0

theorem State.freeGrans_inv {s : Machine.State} {t : Nat} {l : List Nat} (h0 : State.Inv s) :
    State.Inv (State.freeGrans s t l) := by
  unfold State.freeGrans
  refine foldl_inv ?_ ?_
  · intro _ _ h0
    refine State.freeFor_inv ?_
    exact h0
  · exact h0

theorem State.tryUnload_inv {s : Machine.State} {id : Nat} (h0 : State.Inv s) :
    State.Inv (State.tryUnload s id) := by
  unfold State.tryUnload
  split
  · exact h0
  · extract_lets -merge x0 y1 x2 y4 x5 y6 x7
    have hx0 : State.Inv x0 := by
      unfold x0
      split
      · exact h0
      · refine State.unmapLoft_inv ?_
        refine State.evictVariant_inv ?_
        exact h0
    clear_value x0
    have hx2 : State.Inv x2 := by
      unfold x2
      refine foldl_inv ?_ ?_
      · intro _ _ h3
        refine State.freeMapped_inv ?_
        exact h3
      · exact hx0
    clear_value x2
    have hx5 : State.Inv x5 := by
      unfold x5
      refine State.setCurtain_inv ?_
      exact hx2
    clear_value x5
    have hx7 : State.Inv x7 := by
      unfold x7
      exact State.Inv.same (hx5) rfl rfl rfl rfl rfl rfl
    clear_value x7
    split
    · exact h0
    · refine ite_of ?_ ?_
      · refine State.finishRef_inv ?_
        exact hx7
      · exact h0

theorem State.loadMapped_inv {s1 : Machine.State} {s : Machine.State} {t : Nat} {q : Nat} {seq : Nat} {l : LoftModel} (h0 : State.Inv s1) (h1 : State.Inv s) :
    State.Inv (State.loadMapped s1 s t q seq l) := by
  unfold State.loadMapped
  split
  · refine State.finishSt_inv ?_
    exact h1
  · refine State.finishSt_inv ?_
    refine OptInv_some (by assumption) ?_
    refine State.mapLoft_inv ?_
    exact h0

theorem State.handOn_inv {s : Machine.State} {m : Model} {origin : Nat} {bytes : List Byte} (h0 : State.Inv s) :
    State.Inv (State.handOn s m origin bytes) := by
  unfold State.handOn
  refine ite_of ?_ ?_
  · exact h0
  · refine foldl_inv ?_ ?_
    · intro _ _ h0
      refine State.emit_inv ?_
      exact h0
    · exact h0

theorem State.forward_inv {s : Machine.State} {m : Model} {i : Item} (h0 : State.Inv s) :
    State.Inv (State.forward s m i) := by
  unfold State.forward
  refine ite_of ?_ ?_
  · refine State.handOn_inv ?_
    exact h0
  · refine State.emit_inv ?_
    exact h0

theorem modelLoad_inv {s : Machine.State} {t : Nat} {q : Nat} {i : Item} (h0 : State.Inv s) :
    State.Inv (modelLoad s t q i) := by
  unfold modelLoad
  extract_lets -merge y0 y1 y2 x3
  have hx3 : State.Inv x3 := by
    unfold x3
    refine State.forward_inv ?_
    refine State.putModel_inv ?_
    exact h0
  clear_value x3
  refine ite_of ?_ ?_
  · refine State.finishSt_inv ?_
    exact h0
  · refine ite_of ?_ ?_
    · refine State.finishSt_inv ?_
      exact h0
    · refine ite_of ?_ ?_
      · refine State.finishBusy_inv ?_
        exact h0
      · split
        · refine State.finishSt_inv ?_
          exact hx3
        · refine State.loadMapped_inv ?_ ?_
          · exact hx3
          · exact h0

theorem loadSent_inv {s : Machine.State} {module : Nat} {t : Nat} {b : List Byte} (h0 : State.Inv s) :
    State.Inv (loadSent s module t b) := by
  unfold loadSent
  extract_lets -merge y0 y1 y2 x3
  have hx3 : State.Inv x3 := by
    unfold x3
    refine State.handOn_inv ?_
    refine State.putModel_inv ?_
    exact h0
  clear_value x3
  refine ite_of ?_ ?_
  · exact h0
  · split
    · exact hx3
    · refine getD_inv ?_ ?_
      · refine State.mapLoft_inv ?_
        exact hx3
      · exact hx3

theorem askManager_inv {s : Machine.State} {r : CurtainReq} {bytes : List Byte} (h0 : State.Inv s) :
    State.Inv (askManager s r bytes) := by
  unfold askManager
  extract_lets -merge y0 x1
  have hx1 : State.Inv x1 := by
    unfold x1
    refine State.showQueued_inv ?_
    refine State.setCurtain_inv ?_
    exact h0
  clear_value x1
  refine ite_of ?_ ?_
  · split
    · refine State.emit_inv ?_
      exact h0
    · refine State.finishBusy_inv ?_
      exact h0
  · refine ite_of ?_ ?_
    · exact hx1
    · refine State.emit_inv ?_
      exact hx1

theorem State.managerBusy_inv {s : Machine.State} {t : Nat} {q : Nat} {seq : Nat} (h0 : State.Inv s) :
    State.Inv (State.managerBusy s t q seq) := by
  unfold State.managerBusy
  extract_lets -merge y0 y1
  refine State.finishBusy_inv ?_
  refine State.setCurtain_inv ?_
  exact h0

theorem curtainAsk_inv {s : Machine.State} {t : Nat} {q : Nat} {i : Item} (h0 : State.Inv s) :
    State.Inv (curtainAsk s t q i) := by
  unfold curtainAsk
  extract_lets -merge y0 y1
  split
  · refine State.finishSt_inv ?_
    exact h0
  · refine ite_of ?_ ?_
    · refine State.finishSt_inv ?_
      exact h0
    · refine askManager_inv ?_
      exact h0

theorem curtainSent_inv {s : Machine.State} {module : Nat} {t : Nat} {d : List Byte} (h0 : State.Inv s) :
    State.Inv (curtainSent s module t d) := by
  unfold curtainSent
  extract_lets -merge y0
  refine ite_of ?_ ?_
  · refine askManager_inv ?_
    exact h0
  · exact h0

theorem unloadAsk_inv {s : Machine.State} {t : Nat} {q : Nat} {i : Item} (h0 : State.Inv s) :
    State.Inv (unloadAsk s t q i) := by
  unfold unloadAsk
  extract_lets -merge y0 y1
  split
  · refine State.finishSt_inv ?_
    exact h0
  · refine ite_of ?_ ?_
    · refine State.finishSt_inv ?_
      exact h0
    · refine ite_of ?_ ?_
      · refine State.finishBusy_inv ?_
        exact h0
      · refine State.tryUnload_inv ?_
        refine State.forward_inv ?_
        refine State.putModel_inv ?_
        exact h0

theorem unloadSent_inv {s : Machine.State} {module : Nat} {t : Nat} {d : List Byte} (h0 : State.Inv s) :
    State.Inv (unloadSent s module t d) := by
  unfold unloadSent
  extract_lets -merge y0
  split
  · exact h0
  · refine ite_of ?_ ?_
    · exact h0
    · refine ite_of ?_ ?_
      · refine State.emit_inv ?_
        exact h0
      · refine State.tryUnload_inv ?_
        refine State.handOn_inv ?_
        refine State.putModel_inv ?_
        exact h0

theorem State.viaRow_inv {s : Machine.State} {t : Nat} {q : Nat} {r : Nat} {via : Via} {k : Machine.State → Item → Machine.State} {sent : Machine.State → Nat → Nat → List Byte → Machine.State} (h0 : State.Inv s) (h1 : ∀ a0, State.Inv a0 → ∀ a3, State.Inv (k a0 a3)) (h2 : ∀ a0, State.Inv a0 → ∀ a3, ∀ a6, ∀ a9, State.Inv (sent a0 a3 a6 a9)) :
    State.Inv (State.viaRow s t q r via k sent) := by
  unfold State.viaRow
  split
  · refine State.runRow_inv ?_ ?_
    · exact h0
    · intro _ h0 _
      refine h1 _ ?_ _
      exact h0
  · refine h2 _ ?_ _ _ _
    exact h0
  · refine State.managerBusy_inv ?_
    exact h0

theorem execModelLoad_inv {t : Nat} {q : Nat} {via : Via} {s : Machine.State} (h0 : State.Inv s) :
    Kept (execModelLoad t q via s) := by
  unfold execModelLoad
  show State.Inv _
  refine State.viaRow_inv ?_ ?_ ?_
  · exact h0
  · intro _ h0 _
    refine modelLoad_inv ?_
    exact h0
  · intro _ h1 _ _ _
    refine loadSent_inv ?_
    exact h1

theorem execCurtain_inv {t : Nat} {q : Nat} {via : Via} {s : Machine.State} (h0 : State.Inv s) :
    Kept (execCurtain t q via s) := by
  unfold execCurtain
  show State.Inv _
  refine State.viaRow_inv ?_ ?_ ?_
  · exact h0
  · intro _ h0 _
    refine curtainAsk_inv ?_
    exact h0
  · intro _ h1 _ _ _
    refine curtainSent_inv ?_
    exact h1

theorem execUnload_inv {t : Nat} {q : Nat} {via : Via} {s : Machine.State} (h0 : State.Inv s) :
    Kept (execUnload t q via s) := by
  unfold execUnload
  show State.Inv _
  refine State.viaRow_inv ?_ ?_ ?_
  · exact h0
  · intro _ h0 _
    refine unloadAsk_inv ?_
    exact h0
  · intro _ h1 _ _ _
    refine unloadSent_inv ?_
    exact h1

theorem adapterLoad_inv {s : Machine.State} {t : Nat} {q : Nat} {i : Item} (h0 : State.Inv s) :
    State.Inv (adapterLoad s t q i) := by
  unfold adapterLoad
  extract_lets -merge y0 y1 y2 y3 y4 y5 x6
  have hx6 : State.Inv x6 := by
    unfold x6
    refine State.setCurtain_inv ?_
    exact h0
  clear_value x6
  split
  · refine State.finishSt_inv ?_
    exact h0
  · refine ite_of ?_ ?_
    · refine State.finishSt_inv ?_
      exact h0
    · refine ite_of ?_ ?_
      · refine State.finishSt_inv ?_
        exact h0
      · refine ite_of ?_ ?_
        · refine State.finishSt_inv ?_
          exact h0
        · refine askManager_inv ?_
          exact hx6

theorem adapterLoadSent_inv {s : Machine.State} {module : Nat} {t : Nat} {d : List Byte} (h0 : State.Inv s) :
    State.Inv (adapterLoadSent s module t d) := by
  unfold adapterLoadSent
  extract_lets -merge y0
  refine ite_of ?_ ?_
  · refine askManager_inv ?_
    exact h0
  · exact h0

theorem addRevoke_inv {s : Machine.State} {model : Nat} {a : Nat} {v : Nat} {at_ : Nat} {r : Option ItemRef} (h0 : State.Inv s) :
    State.Inv (addRevoke s model a v at_ r) := by
  unfold addRevoke
  extract_lets -merge y0 y1 x2
  have hx2 : State.Inv x2 := by
    unfold x2
    refine State.setCurtain_inv ?_
    exact h0
  clear_value x2
  refine getD_inv ?_ ?_
  · refine State.addCue_inv ?_
    exact hx2
  · exact hx2

theorem State.setRevoke_inv {s : Machine.State} {m : Model} {id : Nat} {a : Nat} {v : Nat} {r : Option ItemRef} (h0 : State.Inv s) :
    State.Inv (State.setRevoke s m id a v r) := by
  unfold State.setRevoke
  extract_lets -merge y0 y1
  refine foldl_inv ?_ ?_
  · intro _ _ h2
    refine State.emit_inv ?_
    exact h2
  · refine addRevoke_inv ?_
    exact h0

theorem adapterRevoke_inv {s : Machine.State} {t : Nat} {q : Nat} {i : Item} (h0 : State.Inv s) :
    State.Inv (adapterRevoke s t q i) := by
  unfold adapterRevoke
  extract_lets -merge y0 y1 y2 y3 y4
  split
  · refine State.finishSt_inv ?_
    exact h0
  · refine ite_of ?_ ?_
    · refine State.finishSt_inv ?_
      exact h0
    · refine ite_of ?_ ?_
      · refine State.finishSt_inv ?_
        exact h0
      · refine ite_of ?_ ?_
        · refine State.setRevoke_inv ?_
          exact h0
        · refine State.emit_inv ?_
          refine State.setCurtain_inv ?_
          exact h0

theorem revokeSent_inv {s : Machine.State} {x : Nat} {t : Nat} {d : List Byte} (h0 : State.Inv s) :
    State.Inv (revokeSent s x t d) := by
  unfold revokeSent
  extract_lets -merge y0
  split
  · exact h0
  · refine ite_of ?_ ?_
    · refine State.setRevoke_inv ?_
      exact h0
    · exact h0

theorem execAdapterLoad_inv {t : Nat} {q : Nat} {via : Via} {s : Machine.State} (h0 : State.Inv s) :
    Kept (execAdapterLoad t q via s) := by
  unfold execAdapterLoad
  show State.Inv _
  refine State.viaRow_inv ?_ ?_ ?_
  · exact h0
  · intro _ h0 _
    refine adapterLoad_inv ?_
    exact h0
  · intro _ h1 _ _ _
    refine adapterLoadSent_inv ?_
    exact h1

theorem execAdapterRevoke_inv {t : Nat} {q : Nat} {via : Via} {s : Machine.State} (h0 : State.Inv s) :
    Kept (execAdapterRevoke t q via s) := by
  unfold execAdapterRevoke
  show State.Inv _
  refine State.viaRow_inv ?_ ?_ ?_
  · exact h0
  · intro _ h0 _
    refine adapterRevoke_inv ?_
    exact h0
  · intro _ h1 _ _ _
    refine revokeSent_inv ?_
    exact h1

theorem State.cueArrives_inv {s : Machine.State} {time : Option Nat} {action : Nat} {sub : Nat} {arg : Nat} {role : Nat} (h0 : State.Inv s) :
    State.Inv (State.cueArrives s time action sub arg role) := by
  unfold State.cueArrives
  split
  · exact h0
  · refine ite_of ?_ ?_
    · exact h0
    · refine getD_inv ?_ ?_
      · refine State.addCue_inv ?_
        exact h0
      · exact h0

theorem execRevoke_inv {model : Nat} {adapter : Nat} {version : Nat} {time : Option Nat} {s0 : Machine.State} (h0 : State.Inv s0) :
    Kept (execRevoke model adapter version time s0) := by
  unfold execRevoke
  extract_lets -merge y0 x1 y2
  have hx1 : State.Inv x1 := by
    unfold x1
    refine State.cueArrives_inv ?_
    exact h0
  clear_value x1
  split
  · show State.Inv _
    exact hx1
  · extract_lets -merge y3 x4 y7 x8 y9 y10 x11 x12
    have hx4 : State.Inv x4 := by
      unfold x4
      refine foldl_inv ?_ ?_
      · intro _ _ h5
        extract_lets -merge y6
        refine ite_of ?_ ?_
        · refine State.putReq_inv ?_
          exact h5
        · refine State.endReq_inv ?_
          exact h5
      · refine OptInv_some (by assumption) ?_
        refine State.takeCue_inv ?_
        exact hx1
    clear_value x4
    have hx8 : State.Inv x8 := by
      unfold x8
      refine State.sweepSlots_inv ?_
      refine State.adapterRec_inv ?_
      refine State.setCurtain_inv ?_
      exact hx4
    clear_value x8
    have hx11 : State.Inv x11 := by
      unfold x11
      refine State.setCurtain_inv ?_
      exact hx8
    clear_value x11
    have hx12 : State.Inv x12 := by
      unfold x12
      refine State.auditInternal_inv ?_
      exact hx11
    clear_value x12
    show State.Inv _
    refine foldl_inv ?_ ?_
    · intro _ _ h13
      refine State.finishRef_inv ?_
      exact h13
    · exact hx12

theorem execCurtainDequeue_inv {s : Machine.State} (h0 : State.Inv s) :
    Kept (execCurtainDequeue s) := by
  unfold execCurtainDequeue
  extract_lets -merge y0
  refine ite_of ?_ ?_
  · show State.Inv _
    exact h0
  · split
    · show State.Inv _
      exact h0
    · extract_lets -merge x1 y2 y3 x4
      have hx1 : State.Inv x1 := by
        unfold x1
        refine State.showQueued_inv ?_
        refine State.setCurtain_inv ?_
        exact h0
      clear_value x1
      have hx4 : State.Inv x4 := by
        unfold x4
        refine State.setCurtain_inv ?_
        exact hx1
      clear_value x4
      split
      · show State.Inv _
        refine State.finishRef_inv ?_
        exact hx1
      · extract_lets -merge y5 y6 y7 y8 x9
        have hx9 : State.Inv x9 := by
          unfold x9
          refine foldl_inv ?_ ?_
          · intro _ _ h10
            refine State.emit_inv ?_
            exact h10
          · exact hx4
        clear_value x9
        show State.Inv _
        refine State.putRun_inv ?_
        exact hx9

theorem execNotReadyReport_inv {num : Nat} {member : Nat} {reason : Nat} {abortAt : Nat} {s : Machine.State} (h0 : State.Inv s) :
    Kept (execNotReadyReport num member reason abortAt s) := by
  unfold execNotReadyReport
  extract_lets -merge y0 x1
  have hx1 : State.Inv x1 := by
    unfold x1
    refine State.setCurtain_inv ?_
    exact h0
  clear_value x1
  split
  · show State.Inv _
    exact h0
  · extract_lets -merge x2 x4
    have hx2 : State.Inv x2 := by
      unfold x2
      refine ite_of ?_ ?_
      · exact hx1
      · refine foldl_inv ?_ ?_
        · intro _ _ h3
          refine State.emit_inv ?_
          exact h3
        · exact hx1
    clear_value x2
    have hx4 : State.Inv x4 := by
      unfold x4
      refine foldl_inv ?_ ?_
      · intro _ _ h5
        refine State.emit_inv ?_
        exact h5
      · exact hx2
    clear_value x4
    refine ite_of ?_ ?_
    · show State.Inv _
      exact h0
    · refine ite_of ?_ ?_
      · show State.Inv _
        refine getD_inv ?_ ?_
        · refine State.addCue_inv ?_
          exact hx4
        · exact hx4
      · show State.Inv _
        exact hx2

theorem State.notReady_inv {s : Machine.State} {c : Curtain} {reason : Nat} (h0 : State.Inv s) :
    State.Inv (State.notReady s c reason) := by
  unfold State.notReady
  refine ite_of ?_ ?_
  · refine State.emit_inv ?_
    refine State.putRun_inv ?_
    exact h0
  · exact h0

theorem State.retireOldest_inv {s : Machine.State} {id : Nat} (h0 : State.Inv s) :
    State.Inv (State.retireOldest s id) := by
  unfold State.retireOldest
  split
  · exact h0
  · refine ite_of ?_ ?_
    · exact h0
    · split
      · exact h0
      · refine foldl_inv ?_ ?_
        · intro _ _ h0
          extract_lets -merge y1
          refine ite_of ?_ ?_
          · refine State.putReq_inv ?_
            exact h0
          · refine State.endReq_inv ?_
            exact h0
        · exact h0

theorem State.serveRebuild_inv {s : Machine.State} {c : Curtain} (h0 : State.Inv s) :
    State.Inv (State.serveRebuild s c) := by
  unfold State.serveRebuild
  refine foldl_inv ?_ ?_
  · intro _ _ h0
    split
    · exact h0
    · refine State.emit_inv ?_
      exact h0
  · refine State.putRun_inv ?_
    exact h0

theorem execCurtainManifest_inv {bytes : List Byte} {release : Nat} {adapter : Nat} {tenant : Nat} {members : List Nat} {desc : Option (List Byte)} {s : Machine.State} (h0 : State.Inv s) :
    Kept (execCurtainManifest bytes release adapter tenant members desc s) := by
  unfold execCurtainManifest
  extract_lets -merge y0 y1 y2 x3 y4 y5 y6 y7 y8 x9 y10 y11 y12 y15 x16 x17 x18 x20 x21
  have hx3 : State.Inv x3 := by
    unfold x3
    split
    · exact h0
    · refine ite_of ?_ ?_
      · refine State.putModel_inv ?_
        exact h0
      · exact h0
  clear_value x3
  have hx9 : State.Inv x9 := by
    unfold x9
    refine ite_of ?_ ?_
    · exact hx3
    · refine State.setCurtain_inv ?_
      exact hx3
  clear_value x9
  have hy12 : ∀ a0, OptInv a0 → ∀ a1, OptInv (y12 a0 a1) := by
    unfold y12
    intro _ h13 _
    refine bind_of (p := State.Inv) (q := State.Inv) ?_ ?_
    · intro _ h14
      refine State.addCue_inv ?_
      exact h14
    · exact h13
  clear_value y12
  have hx16 : State.Inv x16 := by
    unfold x16
    refine ite_of ?_ ?_
    · refine State.retireOldest_inv ?_
      exact hx9
    · exact hx9
  clear_value x16
  have hx17 : State.Inv x17 := by
    unfold x17
    refine State.setRegN_inv ?_
    refine State.setRegN_inv ?_
    refine State.setRegN_inv ?_
    refine State.setRegN_inv ?_
    exact hx16
  clear_value x17
  have hx18 : State.Inv x18 := by
    unfold x18
    refine foldl_inv ?_ ?_
    · intro _ _ h19
      refine State.setRegN_inv ?_
      refine State.setRegN_inv ?_
      exact h19
    · exact hx17
  clear_value x18
  have hx20 : State.Inv x20 := by
    unfold x20
    refine State.setRegN_inv ?_
    refine State.setRegN_inv ?_
    refine State.setRegN_inv ?_
    refine State.setRegN_inv ?_
    exact hx18
  clear_value x20
  have hx21 : State.Inv x21 := by
    unfold x21
    split
    · refine State.setPhase_inv ?_
      refine OptInv_some (by assumption) ?_
      refine foldl_of (p := OptInv) ?_ ?_
      · intro _ _ h22
        refine hy12 _ ?_ _
        exact h22
      · show State.Inv _
        exact hx20
    · refine State.notReady_inv ?_
      refine State.setPhase_inv ?_
      exact hx20
  clear_value x21
  refine ite_of ?_ ?_
  · show State.Inv _
    exact h0
  · refine ite_of ?_ ?_
    · show State.Inv _
      refine ite_of ?_ ?_
      · exact hx3
      · refine State.serveRebuild_inv ?_
        exact hx3
    · show State.Inv _
      refine ite_of ?_ ?_
      · refine State.notReady_inv ?_
        exact hx21
      · exact hx21

theorem State.allocWings_inv {s : Machine.State} {c : Curtain} {m : Model} (h0 : State.Inv s) :
    OptSnd (State.allocWings s c m) := by
  unfold State.allocWings
  extract_lets -merge y0 y1 y2
  refine ite_of ?_ ?_
  · refine bind_of (p := SndInv) (q := SndInv) ?_ ?_
    · intro _ h3
      refine ite_of ?_ ?_
      · refine map_of (p := State.Inv) (q := SndInv) ?_ ?_
        · intro _ h4
          show State.Inv _
          exact h4
        · refine State.mirrorGransFor_inv ?_
          show SndInv _
          exact h3
      · show SndInv _
        exact h3
    · refine foldl_of (p := OptSnd) ?_ ?_
      · intro _ _ h5
        refine bind_of (p := SndInv) (q := SndInv) ?_ ?_
        · intro _ h6
          split
          · refine map_of (p := SndInv) (q := SndInv) ?_ ?_
            · intro _ h7
              split
              · show State.Inv _
                first
                  | exact h7
                  | (refine SndInv_mk (by assumption) ?_; exact h7)
            · refine State.allocFor_inv ?_
              first
                | exact h6
                | (refine SndInv_mk (by assumption) ?_; exact h6)
        · exact h5
      · show State.Inv _
        exact h0
  · refine ite_of ?_ ?_
    · refine ite_of ?_ ?_
      · trivial
      · refine ite_of ?_ ?_
        · trivial
        · refine State.allocsFor_inv ?_
          exact h0
    · show State.Inv _
      exact h0

theorem execAnnounce_inv {num : Nat} {s : Machine.State} (h0 : State.Inv s) :
    Kept (execAnnounce num s) := by
  unfold execAnnounce
  split
  · split
    · show State.Inv _
      refine State.setPhase_inv ?_
      refine OptInv_some (by assumption) ?_
      refine State.takeCue_inv ?_
      exact h0
    · extract_lets -merge y0 x1
      have hx1 : State.Inv x1 := by
        unfold x1
        refine State.putModel_inv ?_
        refine OptInv_some (by assumption) ?_
        refine State.takeCue_inv ?_
        exact h0
      clear_value x1
      split
      · show State.Inv _
        refine ite_of ?_ ?_
        · refine State.setPhase_inv ?_
          exact hx1
        · refine State.notReady_inv ?_
          refine State.setPhase_inv ?_
          exact hx1
      · extract_lets -merge x2
        have hx2 : State.Inv x2 := by
          unfold x2
          refine State.setRegN_inv ?_
          refine OptSnd_some (by assumption) ?_
          refine State.allocWings_inv ?_
          exact hx1
        clear_value x2
        show State.Inv _
        refine State.setPhase_inv ?_
        exact hx2
  · show State.Inv _
    exact h0

theorem State.putChunk_inv {s : Machine.State} {num : Nat} {piece : Nat} {k : Nat} {x : ChunkRun} (h0 : State.Inv s) :
    State.Inv (State.putChunk s num piece k x) := by
  unfold State.putChunk
  split
  · exact h0
  · extract_lets -merge y0
    refine State.putRun_inv ?_
    exact h0

theorem State.chunkDone_inv {s : Machine.State} {c : Curtain} {p : Piece} {k : Nat} {bs : List Byte} (h0 : State.Inv s) :
    State.Inv (State.chunkDone s c p k bs) := by
  unfold State.chunkDone
  extract_lets -merge y0 x1 x2 x3
  have hx1 : State.Inv x1 := by
    unfold x1
    refine ite_of ?_ ?_
    · refine State.bump_inv ?_
      exact h0
    · exact h0
  clear_value x1
  have hx2 : SndInv x2 := by
    unfold x2
    refine pieceWrite_inv ?_
    exact hx1
  clear_value x2
  have hx3 : State.Inv x3 := by
    unfold x3
    refine State.setReg64_inv ?_
    show SndInv _
    exact hx2
  clear_value x3
  refine ite_of ?_ ?_
  · refine State.putChunk_inv ?_
    exact h0
  · refine State.putChunk_inv ?_
    exact hx3

theorem State.chunksRetry_inv {s : Machine.State} (h0 : State.Inv s) :
    State.Inv (State.chunksRetry s) := by
  unfold State.chunksRetry
  refine foldl_inv ?_ ?_
  · intro _ _ h0
    split
    · exact h0
    · refine ite_of ?_ ?_
      · refine State.chunkDone_inv ?_
        exact h0
      · exact h0
  · exact h0

theorem State.askChunk_inv {s : Machine.State} {c : Curtain} {p : Piece} {k : Nat} {fails : Nat} (h0 : State.Inv s) :
    State.Inv (State.askChunk s c p k fails) := by
  unfold State.askChunk
  extract_lets -merge y0 y1 y2 y3 y4
  refine ite_of ?_ ?_
  · refine State.sendChunkReq_inv ?_
    refine State.putChunk_inv ?_
    exact h0
  · split
    · refine State.putChunk_inv ?_
      exact h0
    · refine ite_of ?_ ?_
      · refine State.chunkDone_inv ?_
        refine State.countRig_inv ?_
        exact h0
      · refine State.sendChunkReq_inv ?_
        refine State.putChunk_inv ?_
        refine State.bump_inv ?_
        refine State.bump_inv ?_
        exact h0

theorem State.issueChunks_inv {s : Machine.State} {c : Curtain} (h0 : State.Inv s) :
    State.Inv (State.issueChunks s c) := by
  unfold State.issueChunks
  extract_lets -merge y0
  refine foldl_inv ?_ ?_
  · intro _ _ h1
    split
    · exact h1
    · refine ite_of ?_ ?_
      · refine State.askChunk_inv ?_
        exact h1
      · exact h1
  · exact h0

theorem State.wingsRetry_inv {s : Machine.State} (h0 : State.Inv s) :
    State.Inv (State.wingsRetry s) := by
  unfold State.wingsRetry
  refine foldl_inv ?_ ?_
  · intro _ _ h0
    split
    · split
      · extract_lets -merge y1 x2
        have hx2 : State.Inv x2 := by
          unfold x2
          refine State.putRun_inv ?_
          refine State.setRegN_inv ?_
          refine OptSnd_some (by assumption) ?_
          refine State.allocWings_inv ?_
          exact h0
        clear_value x2
        refine ite_of ?_ ?_
        · refine State.issueChunks_inv ?_
          exact hx2
        · exact hx2
      · refine ite_of ?_ ?_
        · exact h0
        · refine State.notReady_inv ?_
          exact h0
    · exact h0
  · exact h0

theorem execGranuleZeroing_inv {gran : Nat} {s : Machine.State} (h0 : State.Inv s) :
    Kept (execGranuleZeroing gran s) := by
  unfold execGranuleZeroing
  show State.Inv _
  refine State.wingsRetry_inv ?_
  refine State.zeroGran_inv ?_
  exact h0

theorem State.sealPages_inv {s : Machine.State} {c : Curtain} (h0 : State.Inv s) :
    State.Inv (State.sealPages s c) := by
  unfold State.sealPages
  extract_lets -merge y0 y1
  refine foldl_inv ?_ ?_
  · intro _ _ h2
    split
    · exact h2
    · refine State.putRun_inv ?_
      refine getD_inv ?_ ?_
      · refine State.putLeaf_inv ?_
        exact h2
      · exact h2
  · exact h0

theorem execSeal_inv {num : Nat} {s : Machine.State} (h0 : State.Inv s) :
    Kept (execSeal num s) := by
  unfold execSeal
  split
  · extract_lets -merge y0 x1 x2 x3 x4 x5
    have hx1 : State.Inv x1 := by
      unfold x1
      refine State.setPhase_inv ?_
      refine OptInv_some (by assumption) ?_
      refine State.takeCue_inv ?_
      exact h0
    clear_value x1
    have hx2 : State.Inv x2 := by
      unfold x2
      refine ite_of ?_ ?_
      · refine State.notReady_inv ?_
        exact hx1
      · exact hx1
    clear_value x2
    have hx3 : State.Inv x3 := by
      unfold x3
      split
      · exact hx2
      · refine State.sealPages_inv ?_
        exact hx2
    clear_value x3
    have hx4 : State.Inv x4 := by
      unfold x4
      split
      · exact hx3
      · refine ite_of ?_ ?_
        · refine State.putModel_inv ?_
          exact hx3
        · exact hx3
    clear_value x4
    have hx5 : State.Inv x5 := by
      unfold x5
      refine foldl_inv ?_ ?_
      · intro _ _ h6
        split
        · exact h6
        · extract_lets -merge y7
          refine ite_of ?_ ?_
          · refine State.emit_inv ?_
            exact h6
          · split
            · exact h6
            · refine State.putRun_inv ?_
              exact h6
      · exact hx4
    clear_value x5
    split
    · show State.Inv _
      exact hx5
    · extract_lets -merge x8
      have hx8 : State.Inv x8 := by
        unfold x8
        refine State.setPhase_inv ?_
        refine State.setField_inv ?_
        exact hx5
      clear_value x8
      show State.Inv _
      refine State.issueChunks_inv ?_
      exact hx8
  · show State.Inv _
    exact h0

theorem State.chunkFail_inv {s : Machine.State} {c : Curtain} {p : Piece} {k : Nat} {reg : Nat} (h0 : State.Inv s) :
    State.Inv (State.chunkFail s c p k reg) := by
  unfold State.chunkFail
  extract_lets -merge y0 x1
  have hx1 : State.Inv x1 := by
    unfold x1
    refine State.bump_inv ?_
    exact h0
  clear_value x1
  refine ite_of ?_ ?_
  · exact hx1
  · refine State.askChunk_inv ?_
    refine State.bump_inv ?_
    exact hx1

theorem execChunkTimeout_inv {num : Nat} {piece : Nat} {chunk : Nat} {s : Machine.State} (h0 : State.Inv s) :
    Kept (execChunkTimeout num piece chunk s) := by
  unfold execChunkTimeout
  split
  · show State.Inv _
    exact h0
  · extract_lets -merge y0
    split
    · show State.Inv _
      exact h0
    · refine ite_of ?_ ?_
      · show State.Inv _
        exact h0
      · show State.Inv _
        refine State.chunkFail_inv ?_
        exact h0

theorem State.ownWings_inv {s : Machine.State} {c : Curtain} {m : Model} (h0 : State.Inv s) :
    State.Inv (State.ownWings s c m) := by
  unfold State.ownWings
  extract_lets -merge x0 y2
  have hx0 : State.Inv x0 := by
    unfold x0
    refine foldl_inv ?_ ?_
    · intro _ _ h1
      refine State.putGranOf_inv ?_
      exact h1
    · exact h0
  clear_value x0
  refine getD_inv ?_ ?_
  · refine State.mapPages_inv ?_
    exact hx0
  · exact hx0

theorem State.rebuilt_inv {s : Machine.State} {c : Curtain} (h0 : State.Inv s) :
    State.Inv (State.rebuilt s c) := by
  unfold State.rebuilt
  extract_lets -merge y0 x1
  have hx1 : State.Inv x1 := by
    unfold x1
    refine State.setCurtain_inv ?_
    exact h0
  clear_value x1
  refine ite_of ?_ ?_
  · exact h0
  · split
    · exact hx1
    · refine State.putModel_inv ?_
      refine State.ownWings_inv ?_
      exact hx1

theorem execPieceVerify_inv {num : Nat} {piece : Nat} {digest : Option (List Byte)} {s0 : Machine.State} (h0 : State.Inv s0) :
    Kept (execPieceVerify num piece digest s0) := by
  unfold execPieceVerify
  extract_lets -merge x0
  have hx0 : State.Inv x0 := by
    unfold x0
    split
    · refine ite_of ?_ ?_
      · refine State.putRun_inv ?_
        exact h0
      · exact h0
    · exact h0
  clear_value x0
  split
  · show State.Inv _
    exact hx0
  · extract_lets -merge y1 y2 y3
    split
    · show State.Inv _
      exact hx0
    · extract_lets -merge y4 x5
      have hx5 : State.Inv x5 := by
        unfold x5
        refine State.putRun_inv ?_
        refine State.bump_inv ?_
        refine State.bump_inv ?_
        exact hx0
      clear_value x5
      refine ite_of ?_ ?_
      · show State.Inv _
        exact hx0
      · refine ite_of ?_ ?_
        · show State.Inv _
          refine State.rebuilt_inv ?_
          refine State.putRun_inv ?_
          refine State.bump_inv ?_
          exact hx0
        · show State.Inv _
          refine State.issueChunks_inv ?_
          exact hx5

theorem execVerify_inv {num : Nat} {s : Machine.State} (h0 : State.Inv s) :
    Kept (execVerify num s) := by
  unfold execVerify
  split
  · extract_lets -merge y0 x1
    have hx1 : State.Inv x1 := by
      unfold x1
      refine State.emit_inv ?_
      refine State.setPhase_inv ?_
      refine OptInv_some (by assumption) ?_
      refine State.takeCue_inv ?_
      exact h0
    clear_value x1
    show State.Inv _
    refine ite_of ?_ ?_
    · exact hx1
    · refine State.emit_inv ?_
      exact hx1
  · show State.Inv _
    exact h0

theorem State.wakePaused_inv {s : Machine.State} {id : Nat} (h0 : State.Inv s) :
    State.Inv (State.wakePaused s id) := by
  unfold State.wakePaused
  refine foldl_inv ?_ ?_
  · intro _ _ h0
    extract_lets -merge y1 x2
    have hx2 : State.Inv x2 := by
      unfold x2
      refine State.putReq_inv ?_
      exact h0
    clear_value x2
    refine State.setKv_inv ?_
    exact hx2
  · exact h0

theorem State.applyMask_inv {s : Machine.State} {c : Curtain} {mask : List Nat} (h0 : State.Inv s) :
    State.Inv (State.applyMask s c mask) := by
  unfold State.applyMask
  extract_lets -merge y0 x1 y2
  have hx1 : State.Inv x1 := by
    unfold x1
    refine State.bump_inv ?_
    exact h0
  clear_value x1
  split
  · refine State.putRun_inv ?_
    exact h0
  · extract_lets -merge x3 y4 x5 y6 y7 x8 x9
    have hx3 : State.Inv x3 := by
      unfold x3
      refine State.ownWings_inv ?_
      exact hx1
    clear_value x3
    have hx5 : State.Inv x5 := by
      unfold x5
      refine State.putModel_inv ?_
      refine State.ownWings_inv ?_
      exact hx1
    clear_value x5
    have hx8 : State.Inv x8 := by
      unfold x8
      refine ite_of ?_ ?_
      · refine State.wakePaused_inv ?_
        refine State.setRegN_inv ?_
        refine State.putModel_inv ?_
        exact hx3
      · refine ite_of ?_ ?_
        · refine State.putModel_inv ?_
          exact hx1
        · refine State.auditInternal_inv ?_
          refine State.sweepSlots_inv ?_
          refine State.adapterRec_inv ?_
          refine State.setCurtain_inv ?_
          exact hx5
    clear_value x8
    have hx9 : State.Inv x9 := by
      unfold x9
      refine State.showFenced_inv ?_
      refine State.setRegN_inv ?_
      refine State.putRun_inv ?_
      exact hx8
    clear_value x9
    refine ite_of ?_ ?_
    · refine State.showFenced_inv ?_
      refine State.putRun_inv ?_
      refine State.putModel_inv ?_
      exact h0
    · refine ite_of ?_ ?_
      · refine State.finishRef_inv ?_
        exact hx9
      · exact hx9

theorem execCommit_inv {num : Nat} {mask : Option (List Nat)} {s : Machine.State} (h0 : State.Inv s) :
    Kept (execCommit num mask s) := by
  unfold execCommit
  split
  · extract_lets -merge x0
    have hx0 : State.Inv x0 := by
      unfold x0
      refine State.bump_inv ?_
      refine State.setPhase_inv ?_
      refine OptInv_some (by assumption) ?_
      refine State.takeCue_inv ?_
      exact h0
    clear_value x0
    split
    · show State.Inv _
      refine State.applyMask_inv ?_
      refine State.setPhase_inv ?_
      refine OptInv_some (by assumption) ?_
      refine State.takeCue_inv ?_
      exact h0
    · split
      · show State.Inv _
        exact hx0
      · show State.Inv _
        refine State.showFenced_inv ?_
        refine State.putModel_inv ?_
        exact hx0
  · show State.Inv _
    exact h0

theorem State.unseal_inv {s : Machine.State} {c : Curtain} (h0 : State.Inv s) :
    State.Inv (State.unseal s c) := by
  unfold State.unseal
  refine foldl_inv ?_ ?_
  · intro _ _ h0
    split
    · exact h0
    · refine ite_of ?_ ?_
      · refine getD_inv ?_ ?_
        · refine State.putLeaf_inv ?_
          exact h0
        · exact h0
      · exact h0
  · exact h0

theorem State.endCurtain_inv {s : Machine.State} {c : Curtain} (h0 : State.Inv s) :
    State.Inv (State.endCurtain s c) := by
  unfold State.endCurtain
  extract_lets -merge y0 x1 x2 y4 x5 x6 y7
  have hx1 : State.Inv x1 := by
    unfold x1
    refine ite_of ?_ ?_
    · refine State.freeGrans_inv ?_
      exact h0
    · exact h0
  clear_value x1
  have hx2 : State.Inv x2 := by
    unfold x2
    split
    · exact hx1
    · extract_lets -merge x3
      have hx3 : State.Inv x3 := by
        unfold x3
        refine State.putModel_inv ?_
        exact hx1
      clear_value x3
      refine ite_of ?_ ?_
      · refine State.busySteps_inv ?_
        exact hx3
      · exact hx3
  clear_value x2
  have hx5 : State.Inv x5 := by
    unfold x5
    refine ite_of ?_ ?_
    · refine State.auditInternal_inv ?_
      exact hx2
    · exact hx2
  clear_value x5
  have hx6 : State.Inv x6 := by
    unfold x6
    refine ite_of ?_ ?_
    · refine State.finishRef_inv ?_
      refine State.auditInternal_inv ?_
      refine State.bump_inv ?_
      refine State.setRegN_inv ?_
      exact hx2
    · refine ite_of ?_ ?_
      · exact hx2
      · refine State.finishRef_inv ?_
        exact hx5
  clear_value x6
  refine State.setField_inv ?_
  refine State.setRegN_inv ?_
  refine State.setCurtain_inv ?_
  exact hx6

theorem State.maskArrives_inv {s : Machine.State} {c : Curtain} {mask : List Nat} (h0 : State.Inv s) :
    State.Inv (State.maskArrives s c mask) := by
  unfold State.maskArrives
  extract_lets -merge x0
  have hx0 : State.Inv x0 := by
    unfold x0
    refine State.applyMask_inv ?_
    exact h0
  clear_value x0
  refine ite_of ?_ ?_
  · exact hx0
  · split
    · exact hx0
    · refine State.loadMgr_inv ?_
      refine State.endCurtain_inv ?_
      exact hx0

theorem execMaskResend_inv {num : Nat} {member : Nat} {mask : List Nat} {s : Machine.State} (h0 : State.Inv s) :
    Kept (execMaskResend num member mask s) := by
  unfold execMaskResend
  split
  · show State.Inv _
    exact h0
  · refine ite_of ?_ ?_
    · refine ite_of ?_ ?_
      · show State.Inv _
        refine State.maskArrives_inv ?_
        exact h0
      · show State.Inv _
        exact h0
    · refine ite_of ?_ ?_
      · show State.Inv _
        refine State.emit_inv ?_
        exact h0
      · show State.Inv _
        exact h0

theorem execStageManagerRecovery_inv {num : Nat} {masks : List (List Nat)} {fenced : List Nat} {s : Machine.State} (h0 : State.Inv s) :
    Kept (execStageManagerRecovery num masks fenced s) := by
  unfold execStageManagerRecovery
  split
  · show State.Inv _
    exact h0
  · extract_lets -merge y0 y1 x2
    have hx2 : State.Inv x2 := by
      unfold x2
      refine foldl_inv ?_ ?_
      · intro _ _ h3
        refine State.emit_inv ?_
        exact h3
      · exact h0
    clear_value x2
    refine ite_of ?_ ?_
    · show State.Inv _
      exact h0
    · show State.Inv _
      refine ite_of ?_ ?_
      · refine State.maskArrives_inv ?_
        exact hx2
      · exact hx2

theorem State.release_inv {s : Machine.State} {c : Curtain} (h0 : State.Inv s) :
    State.Inv (State.release s c) := by
  unfold State.release
  extract_lets -merge x0 x1
  have hx0 : State.Inv x0 := by
    unfold x0
    refine State.setPhase_inv ?_
    refine State.setField_inv ?_
    refine State.unseal_inv ?_
    exact h0
  clear_value x0
  have hx1 : State.Inv x1 := by
    unfold x1
    refine ite_of ?_ ?_
    · exact hx0
    · refine State.endCurtain_inv ?_
      exact hx0
  clear_value x1
  refine State.loadMgr_inv ?_
  refine State.raise_inv ?_
  refine State.setField_inv ?_
  exact hx1

theorem execRelease_inv {num : Nat} {s : Machine.State} (h0 : State.Inv s) :
    Kept (execRelease num s) := by
  unfold execRelease
  split
  · show State.Inv _
    refine State.release_inv ?_
    refine OptInv_some (by assumption) ?_
    refine State.takeCue_inv ?_
    exact h0
  · show State.Inv _
    exact h0

theorem execCurtainAbort_inv {num : Nat} {time : Option Nat} {s0 : Machine.State} (h0 : State.Inv s0) :
    Kept (execCurtainAbort num time s0) := by
  unfold execCurtainAbort
  extract_lets -merge x0
  have hx0 : State.Inv x0 := by
    unfold x0
    refine State.cueArrives_inv ?_
    exact h0
  clear_value x0
  split
  · extract_lets -merge x1
    have hx1 : State.Inv x1 := by
      unfold x1
      refine State.dropCues_inv ?_
      refine OptInv_some (by assumption) ?_
      refine State.takeCue_inv ?_
      exact hx0
    clear_value x1
    refine ite_of ?_ ?_
    · show State.Inv _
      refine OptInv_some (by assumption) ?_
      refine State.takeCue_inv ?_
      exact hx0
    · show State.Inv _
      refine State.release_inv ?_
      exact hx1
  · show State.Inv _
    exact hx0

theorem execEpochFree_inv {module : Nat} {model : Nat} {epoch : Nat} {s : Machine.State} (h0 : State.Inv s) :
    Kept (execEpochFree module model epoch s) := by
  unfold execEpochFree
  split
  · show State.Inv _
    exact h0
  · split
    · show State.Inv _
      refine State.tryUnload_inv ?_
      exact h0
    · extract_lets -merge y0 x1
      have hx1 : State.Inv x1 := by
        unfold x1
        refine State.putModel_inv ?_
        refine State.freeMapped_inv ?_
        exact h0
      clear_value x1
      refine ite_of ?_ ?_
      · show State.Inv _
        refine State.putModel_inv ?_
        exact h0
      · refine ite_of ?_ ?_
        · show State.Inv _
          exact h0
        · show State.Inv _
          refine State.tryUnload_inv ?_
          exact hx1

end Sys2Proof.Machine
end

