-- ==== Sys2Proof/Laws/InvServePlan.lean ====
section
/-! SUPPORT. Every function of Machine/ServePlan.lean that answers a state keeps the invariant. -/

namespace Sys2Proof.Machine

set_option linter.tactic.unusedName false

theorem State.setAdm_inv {s : Machine.State} {bitNo : Nat} {on : Bool} (h0 : State.Inv s) :
    State.Inv (State.setAdm s bitNo on) := by
  unfold State.setAdm
  extract_lets -merge x0
  have hx0 : State.Inv x0 := by
    unfold x0
    refine State.setField_inv ?_
    exact h0
  clear_value x0
  refine ite_of ?_ ?_
  · exact h0
  · refine ite_of ?_ ?_
    · refine State.raise_inv ?_
      exact hx0
    · exact hx0

theorem State.showQueue_inv {s : Machine.State} (h0 : State.Inv s) :
    State.Inv (State.showQueue s) := by
  unfold State.showQueue
  refine State.setRegN_inv ?_
  exact h0

theorem State.refuseBusy_inv {s : Machine.State} {t : Nat} {q : Nat} {seq : Nat} {hint : Nat} {cap : Bool} (h0 : State.Inv s) :
    State.Inv (State.refuseBusy s t q seq hint cap) := by
  unfold State.refuseBusy
  refine State.finishBusy_inv ?_
  refine State.bump_inv ?_
  exact h0

theorem State.unqueue_inv {s : Machine.State} {x : QItem} (h0 : State.Inv s) :
    State.Inv (State.unqueue s x) := by
  unfold State.unqueue
  extract_lets -merge y0
  refine State.queueRec_inv ?_
  refine State.showQueue_inv ?_
  refine State.setServe_inv ?_
  exact h0

theorem State.admitNew_inv {s : Machine.State} {m : Model} {t : Nat} {q : Nat} {i : Item} {w : Rat} (h0 : State.Inv s) :
    OptInv (State.admitNew s m t q i w) := by
  unfold State.admitNew
  extract_lets -merge y0 y1 y2 y3 y4
  split
  · trivial
  · refine State.placeBlocks_inv ?_
    refine State.putReq_inv ?_
    exact h0

theorem State.admitResume_inv {s : Machine.State} {m : Model} {slot : Nat} {r : Req} {q : Nat} {i : Item} {w : Rat} (h0 : State.Inv s) :
    OptInv (State.admitResume s m slot r q i w) := by
  unfold State.admitResume
  extract_lets -merge y0 y1 y2 x3 x4 y5
  have hx3 : State.Inv x3 := by
    unfold x3
    refine State.putReq_inv ?_
    exact h0
  clear_value x3
  have hx4 : State.Inv x4 := by
    unfold x4
    refine State.setKv_inv ?_
    exact hx3
  clear_value x4
  refine State.placeBlocks_inv ?_
  exact hx4

theorem State.charge_inv {s : Machine.State} {t : Nat} {w : Rat} (h0 : State.Inv s) :
    State.Inv (State.charge s t w) := by
  unfold State.charge
  extract_lets -merge y0 x1 y2
  have hx1 : State.Inv x1 := by
    unfold x1
    refine State.setServe_inv ?_
    exact h0
  clear_value x1
  refine ite_of ?_ ?_
  · refine State.setServe_inv ?_
    exact hx1
  · exact hx1

theorem State.useQuota_inv {s : Machine.State} {m : Nat} {n : Nat} (h0 : State.Inv s) :
    State.Inv (State.useQuota s m n) := by
  unfold State.useQuota
  extract_lets -merge y0
  split
  · exact h0
  · refine State.setServe_inv ?_
    exact h0

theorem State.capRefuse_inv {s : Machine.State} {w : Rat} (h0 : State.Inv s) :
    State.Inv (State.capRefuse s w) := by
  unfold State.capRefuse
  extract_lets -merge y0 y1
  refine foldl_inv ?_ ?_
  · intro _ _ h2
    refine State.refuseBusy_inv ?_
    refine State.unqueue_inv ?_
    exact h2
  · exact h0

theorem State.placeOne_inv {s : Machine.State} {x : QItem} (h0 : State.Inv s) :
    State.Inv (State.placeOne s x) := by
  unfold State.placeOne
  extract_lets -merge y0 x1
  have hx1 : State.Inv x1 := by
    unfold x1
    refine State.unqueue_inv ?_
    exact h0
  clear_value x1
  split
  · refine State.unqueue_inv ?_
    exact h0
  · extract_lets -merge y2 y3 y4 y5 y6 y7 y8 y9
    refine ite_of ?_ ?_
    · refine State.unqueue_inv ?_
      exact h0
    · refine ite_of ?_ ?_
      · refine State.finish_inv ?_
        refine State.unqueue_inv ?_
        exact h0
      · refine ite_of ?_ ?_
        · refine State.finish_inv ?_
          refine State.unqueue_inv ?_
          exact h0
        · split
          · refine ite_of ?_ ?_
            · refine State.refuseBusy_inv ?_
              refine State.unqueue_inv ?_
              exact h0
            · refine State.finish_inv ?_
              refine State.unqueue_inv ?_
              exact h0
          · split
            · refine State.unqueue_inv ?_
              exact h0
            · extract_lets -merge x10 y11
              have hx10 : OptInv x10 := by
                unfold x10
                first | split | (clear_value y4; split)
                · refine State.admitResume_inv ?_
                  exact hx1
                · refine State.admitNew_inv ?_
                  exact hx1
              clear_value x10
              refine ite_of ?_ ?_
              · refine State.capRefuse_inv ?_
                exact h0
              · refine ite_of ?_ ?_
                · refine State.finish_inv ?_
                  refine State.bump_inv ?_
                  refine State.unqueue_inv ?_
                  exact h0
                · refine ite_of ?_ ?_
                  · refine State.finish_inv ?_
                    refine State.bump_inv ?_
                    refine State.unqueue_inv ?_
                    exact h0
                  · split
                    · refine State.useQuota_inv ?_
                      refine State.charge_inv ?_
                      refine State.bump_inv ?_
                      first
                        | exact hx10
                        | (refine OptInv_some (by assumption) ?_; exact hx10)
                    · refine ite_of ?_ ?_
                      · exact h0
                      · refine State.finish_inv ?_
                        refine State.bump_inv ?_
                        exact hx1

theorem State.passItems_inv {n : Nat} {l : List QItem} {s : Machine.State} (h0 : State.Inv s) :
    State.Inv (State.passItems n l s) := by
  induction n generalizing s l with
  | zero => exact h0
  | succ n ih =>
    unfold State.passItems
    extract_lets -merge y0 y1 y2 y3
    split
    · exact h0
    · split
      · exact h0
      · exact ih (ite_of (p := State.Inv) (State.placeOne_inv (State.setServe_inv h0)) (State.setServe_inv h0))

end Sys2Proof.Machine
end

