-- ==== Sys2Proof/Laws/InvTrain.lean ====
section
/-! SUPPORT. Every function of Machine/Train.lean that answers a state keeps the invariant. -/

namespace Sys2Proof.Machine

set_option linter.tactic.unusedName false

theorem trainStep_inv {fits : Bool} {t : Nat} {q : Nat} {s : Machine.State} {i : Item} (h0 : State.Inv s) :
    State.Inv (trainStep fits t q s i) := by
  unfold trainStep
  extract_lets -merge y0 y1 y2 y4 y5 y6 y7
  have hy2 : ∀ a0, State.Inv a0 → State.Inv (y2 a0) := by
    unfold y2
    intro _ h3
    refine State.finish_inv ?_
    exact h3
  clear_value y2
  have hy7 : ∀ a0, State.Inv a0 → ∀ a1, State.Inv (y7 a0 a1) := by
    unfold y7
    intro _ h8 _
    refine ite_of ?_ ?_
    · refine State.finish_inv ?_
      exact h8
    · refine ite_of ?_ ?_
      · refine State.finish_inv ?_
        exact h8
      · refine State.emit_inv ?_
        refine State.setJob_inv ?_
        exact h8
  clear_value y7
  split
  · refine hy2 _ ?_
    exact h0
  · refine ite_of ?_ ?_
    · refine hy2 _ ?_
      exact h0
    · refine ite_of ?_ ?_
      · refine State.finishBusy_inv ?_
        exact h0
      · split
        · refine hy2 _ ?_
          exact h0
        · refine hy7 _ ?_ _
          exact h0
        · refine ite_of ?_ ?_
          · refine hy2 _ ?_
            exact h0
          · refine hy7 _ ?_ _
            exact h0
        · refine ite_of ?_ ?_
          · refine hy2 _ ?_
            exact h0
          · refine hy7 _ ?_ _
            exact h0

theorem execTrainStep_inv {t : Nat} {q : Nat} {fits : Bool} {s : Machine.State} (h0 : State.Inv s) :
    Kept (execTrainStep t q fits s) := by
  unfold execTrainStep
  extract_lets -merge x0
  have hx0 : State.Inv x0 := by
    unfold x0
    refine State.takeRow_inv ?_
    exact h0
  clear_value x0
  show State.Inv _
  split
  · exact hx0
  · refine ite_of ?_ ?_
    · exact hx0
    · refine trainStep_inv ?_
      refine State.updItem_inv ?_
      exact hx0

theorem State.putStep_inv {s : Machine.State} {k : Nat} {x : StepItem} (h0 : State.Inv s) :
    State.Inv (State.putStep s k x) := by
  unfold State.putStep
  split
  · exact h0
  · refine State.setJob_inv ?_
    exact h0

theorem State.putClosing_inv {s : Machine.State} {k : Nat} {x : StepItem} (h0 : State.Inv s) :
    State.Inv (State.putClosing s k x) := by
  unfold State.putClosing
  split
  · exact h0
  · refine State.setJob_inv ?_
    exact h0

theorem execPipeline_inv {job : Nat} {tenant : Nat} {model : Nat} {t0 : Nat} {addr : Nat} {desc : List Byte} {tbl : List Byte} {table : List Byte} {parts : List TensorPart} {s : Machine.State} (h0 : State.Inv s) :
    Kept (execPipeline job tenant model t0 addr desc tbl table parts s) := by
  unfold execPipeline
  extract_lets -merge y0 y1 y2 y3 x4 y6
  have hx4 : OptInv x4 := by
    unfold x4
    refine ite_of ?_ ?_
    · show State.Inv _
      exact h0
    · refine map_of (p := State.Inv) (q := State.Inv) ?_ ?_
      · intro _ h5
        refine State.writeBytes_inv ?_
        exact h5
      · refine State.addCue_inv ?_
        exact h0
  clear_value x4
  split
  · show State.Inv _
    exact h0
  · split
    · extract_lets -merge y7 y8 y9 y10 y11
      refine ite_of ?_ ?_
      · show State.Inv _
        exact h0
      · refine ite_of ?_ ?_
        · show State.Inv _
          refine OptInv_some (by assumption) ?_
          refine State.takeCue_inv ?_
          first
            | exact hx4
            | (refine OptInv_some (by assumption) ?_; exact hx4)
        · show State.Inv _
          refine State.setJob_inv ?_
          refine OptInv_some (by assumption) ?_
          refine State.takeCue_inv ?_
          first
            | exact hx4
            | (refine OptInv_some (by assumption) ?_; exact hx4)
    · show State.Inv _
      first
        | exact hx4
        | (refine OptInv_some (by assumption) ?_; exact hx4)

theorem startWork_inv {s : Machine.State} {job : Nat} {j : Job} {x : StepItem} {e : PipeEnt} {att : optParam (List (List Word32)) []} (h0 : State.Inv s) :
    State.Inv (startWork s job j x e att) := by
  unfold startWork
  refine State.emit_inv ?_
  refine State.putStep_inv ?_
  exact h0

theorem startEntry_inv {act : Nat} {ok : Job → StepItem → PipeEnt → Bool} {job : Nat} {s : Machine.State} {att : optParam (List (List Word32)) []} (h0 : State.Inv s) :
    State.Inv (startEntry act ok job s att) := by
  unfold startEntry
  split
  · exact h0
  · split
    · exact h0
    · refine startWork_inv ?_
      exact h0

theorem execGather_inv {job : Nat} {s : Machine.State} (h0 : State.Inv s) :
    Kept (execGather job s) := by
  unfold execGather
  show State.Inv _
  refine startEntry_inv ?_
  exact h0

theorem execFwd_inv {job : Nat} {att : List (List (Word32 × List Word32))} {s : Machine.State} (h0 : State.Inv s) :
    Kept (execFwd job att s) := by
  unfold execFwd
  show State.Inv _
  refine startEntry_inv ?_
  exact h0

theorem execBwd_inv {job : Nat} {s : Machine.State} (h0 : State.Inv s) :
    Kept (execBwd job s) := by
  unfold execBwd
  show State.Inv _
  refine startEntry_inv ?_
  exact h0

theorem execUpdateEntry_inv {job : Nat} {s : Machine.State} (h0 : State.Inv s) :
    Kept (execUpdateEntry job s) := by
  unfold execUpdateEntry
  split
  · show State.Inv _
    exact h0
  · extract_lets -merge y0
    split
    · show State.Inv _
      exact h0
    · extract_lets -merge y1 y2 x3
      have hx3 : State.Inv x3 := by
        unfold x3
        refine State.putClosing_inv ?_
        exact h0
      clear_value x3
      refine ite_of ?_ ?_
      · show State.Inv _
        exact h0
      · refine ite_of ?_ ?_
        · show State.Inv _
          exact hx3
        · refine ite_of ?_ ?_
          · show State.Inv _
            exact h0
          · show State.Inv _
            refine State.emit_inv ?_
            exact hx3

theorem State.normReady_inv {s : Machine.State} {k : Nat} (h0 : State.Inv s) :
    State.Inv (State.normReady s k) := by
  unfold State.normReady
  split
  · exact h0
  · extract_lets -merge y0 y1 y2
    split
    · exact h0
    · extract_lets -merge y3
      refine ite_of ?_ ?_
      · exact h0
      · refine State.setJob_inv ?_
        exact h0

theorem State.takeSum_inv {s : Machine.State} {k : Nat} {n2 : Word32} {flags : Nat} (h0 : State.Inv s) :
    State.Inv (State.takeSum s k n2 flags) := by
  unfold State.takeSum
  split
  · exact h0
  · refine State.normReady_inv ?_
    refine State.putStep_inv ?_
    exact h0

theorem State.takeMaxima_inv {s : Machine.State} {k : Nat} {ws : List Nat} (h0 : State.Inv s) :
    State.Inv (State.takeMaxima s k ws) := by
  unfold State.takeMaxima
  split
  · exact h0
  · refine State.normReady_inv ?_
    refine State.putStep_inv ?_
    exact h0

theorem State.takeMask_inv {s : Machine.State} {k : Nat} {lchunk : Nat} {tensor : Nat} {reps : List Nat} {mask : List Bool} {me : Option (Nat × Bool)} {own : List Erf} (h0 : State.Inv s) :
    State.Inv (State.takeMask s k lchunk tensor reps mask me own) := by
  unfold State.takeMask
  extract_lets -merge y0
  split
  · exact h0
  · extract_lets -merge y1 y2 y3 y4 y5 y6 y7
    split
    · refine State.putStep_inv ?_
      exact h0
    · refine State.setJob_inv ?_
      exact h0
    · extract_lets -merge y8
      refine ite_of ?_ ?_
      · refine State.setJob_inv ?_
        exact h0
      · refine State.setJob_inv ?_
        exact h0

theorem State.takeGrad_inv {s : Machine.State} {k : Nat} {g : Grad} (h0 : State.Inv s) :
    State.Inv (State.takeGrad s k g) := by
  unfold State.takeGrad
  split
  · exact h0
  · refine State.putStep_inv ?_
    exact h0

theorem State.endStep_inv {s : Machine.State} {k : Nat} {full : Bool} (h0 : State.Inv s) :
    State.Inv (State.endStep s k full) := by
  unfold State.endStep
  split
  · exact h0
  · extract_lets -merge y0 x1 y2
    have hx1 : State.Inv x1 := by
      unfold x1
      refine State.setJob_inv ?_
      exact h0
    clear_value x1
    refine ite_of ?_ ?_
    · refine State.jobFault_inv ?_
      exact h0
    · split
      · exact hx1
      · extract_lets -merge x3
        have hx3 : State.Inv x3 := by
          unfold x3
          refine State.regionWrite_inv ?_
          exact hx1
        clear_value x3
        refine State.endRef_inv ?_
        exact hx3

end Sys2Proof.Machine
end

