-- ==== Sys2Proof/Laws/InvCollOps.lean ====
section
/-! SUPPORT. Every function of Machine/CollOps.lean that answers a state keeps the invariant. -/

namespace Sys2Proof.Machine

set_option linter.tactic.unusedName false

theorem State.setColl_inv {s : Machine.State} {x : CollSt} (h0 : State.Inv s) :
    State.Inv (State.setColl s x) := by
  unfold State.setColl
  exact State.Inv.same (h0) rfl rfl rfl rfl rfl rfl

theorem State.showColl_inv {s : Machine.State} (h0 : State.Inv s) :
    State.Inv (State.showColl s) := by
  unfold State.showColl
  extract_lets -merge y0 y1
  refine State.setRegN_inv ?_
  exact h0

theorem State.putColl_inv {s : Machine.State} {c : CollRun} (h0 : State.Inv s) :
    State.Inv (State.putColl s c) := by
  unfold State.putColl
  extract_lets -merge y0
  refine State.showColl_inv ?_
  refine State.setColl_inv ?_
  exact h0

theorem State.collFrame_inv {s : Machine.State} {c : CollRun} {dst : Nat} {sub : Nat} {step : Nat} {chunk : Nat} {off : Nat} {nmem : Nat} {bs : List Byte} {last : Bool} (h0 : State.Inv s) :
    SndInv (State.collFrame s c dst sub step chunk off nmem bs last) := by
  unfold State.collFrame
  extract_lets -merge y0 y1 x2
  have hx2 : SndInv x2 := by
    unfold x2
    refine State.issue_inv ?_
    exact h0
  clear_value x2
  refine ite_of ?_ ?_
  · show State.Inv _
    refine State.setColl_inv ?_
    exact h0
  · refine ite_of ?_ ?_
    · show State.Inv _
      refine State.sendPlain_inv ?_
      exact h0
    · show State.Inv _
      show SndInv _
      exact hx2

theorem State.collSend_inv {s : Machine.State} {c : CollRun} {dst : Nat} {sub : Nat} {step : Nat} {chunk : Nat} {bs : List Byte} (h0 : State.Inv s) :
    SndInv (State.collSend s c dst sub step chunk bs) := by
  unfold State.collSend
  extract_lets -merge y0 y1
  refine foldl_of (p := SndInv) ?_ ?_
  · intro _ _ h2
    extract_lets -merge x3
    have hx3 : SndInv x3 := by
      unfold x3
      refine State.collFrame_inv ?_
      show SndInv _
      exact h2
    clear_value x3
    show State.Inv _
    show SndInv _
    exact hx3
  · show State.Inv _
    exact h0

theorem State.sendAgg_inv {s : Machine.State} {c : CollRun} (h0 : State.Inv s) :
    State.Inv (State.sendAgg s c) := by
  unfold State.sendAgg
  refine foldl_inv ?_ ?_
  · intro _ _ h0
    refine foldl_inv ?_ ?_
    · intro _ _ h1
      show SndInv _
      refine State.collFrame_inv ?_
      exact h1
    · exact h0
  · exact h0

theorem State.trySend_inv {s : Machine.State} {key : Nat} {k : Nat} (h0 : State.Inv s) :
    State.Inv (State.trySend s key k) := by
  unfold State.trySend
  split
  · exact h0
  · extract_lets -merge y0
    refine ite_of ?_ ?_
    · exact h0
    · refine ite_of ?_ ?_
      · refine ite_of ?_ ?_
        · refine State.putColl_inv ?_
          refine State.sendAgg_inv ?_
          exact h0
        · exact h0
      · split
        · exact h0
        · refine State.putColl_inv ?_
          refine foldl_inv ?_ ?_
          · intro _ _ h1
            show SndInv _
            refine State.collSend_inv ?_
            exact h1
          · exact h0

theorem State.tryGather_inv {s : Machine.State} {key : Nat} {j : Nat} (h0 : State.Inv s) :
    State.Inv (State.tryGather s key j) := by
  unfold State.tryGather
  split
  · exact h0
  · extract_lets -merge y0 y1
    refine ite_of ?_ ?_
    · exact h0
    · refine ite_of ?_ ?_
      · refine State.putColl_inv ?_
        refine foldl_inv ?_ ?_
        · intro _ _ h2
          refine foldl_inv ?_ ?_
          · intro _ _ h3
            show SndInv _
            refine State.collSend_inv ?_
            exact h3
          · exact h2
        · exact h0
      · exact h0

theorem State.tryRedo_inv {s : Machine.State} {key : Nat} (h0 : State.Inv s) :
    State.Inv (State.tryRedo s key) := by
  unfold State.tryRedo
  split
  · exact h0
  · refine ite_of ?_ ?_
    · exact h0
    · refine State.putColl_inv ?_
      refine foldl_inv ?_ ?_
      · intro _ _ h0
        show SndInv _
        refine State.collSend_inv ?_
        exact h0
      · exact h0

theorem State.collUse_inv {s : Machine.State} {c : CollRun} {result : List Byte} (h0 : State.Inv s) :
    State.Inv (State.collUse s c result) := by
  unfold State.collUse
  split
  · refine State.takeGrad_inv ?_
    exact h0
  · refine ite_of ?_ ?_
    · split
      · exact h0
      · refine State.takeSum_inv ?_
        exact h0
    · refine State.takeSum_inv ?_
      exact h0
  · refine State.takeMaxima_inv ?_
    exact h0
  · exact h0

theorem State.collDone_inv {s : Machine.State} {c : CollRun} {at_ : Nat} {bs : List Byte} (h0 : State.Inv s) :
    State.Inv (State.collDone s c at_ bs) := by
  unfold State.collDone
  extract_lets -merge x0 x1 x2
  have hx0 : State.Inv x0 := by
    unfold x0
    refine State.writeRole_inv ?_
    exact h0
  clear_value x0
  have hx1 : State.Inv x1 := by
    unfold x1
    refine State.bump_inv ?_
    refine State.putColl_inv ?_
    exact hx0
  clear_value x1
  have hx2 : State.Inv x2 := by
    unfold x2
    refine foldl_inv ?_ ?_
    · intro _ _ h3
      split
      · exact h3
      · refine State.setCtx_inv ?_
        exact h3
    · exact hx1
  clear_value x2
  refine State.collUse_inv ?_
  exact hx2

theorem State.collFault_inv {s : Machine.State} {c : CollRun} (h0 : State.Inv s) :
    State.Inv (State.collFault s c) := by
  unfold State.collFault
  refine State.bump_inv ?_
  refine State.putColl_inv ?_
  exact h0

theorem State.a2aDone_inv {s : Machine.State} {c : CollRun} (h0 : State.Inv s) :
    State.Inv (State.a2aDone s c) := by
  unfold State.a2aDone
  extract_lets -merge y0 y1 y2 y3 y4 y5 y6 y7 y8 y9
  refine ite_of ?_ ?_
  · exact h0
  · refine State.collDone_inv ?_
    refine State.bump_inv ?_
    refine State.writeRole_inv ?_
    exact h0

theorem State.tryFinish_inv {s : Machine.State} {key : Nat} (h0 : State.Inv s) :
    State.Inv (State.tryFinish s key) := by
  unfold State.tryFinish
  split
  · exact h0
  · extract_lets -merge y0 y1 y2 y3 y4 y5 x6 y8
    have hx6 : State.Inv x6 := by
      unfold x6
      refine foldl_inv ?_ ?_
      · intro _ _ h7
        show SndInv _
        refine State.collSend_inv ?_
        exact h7
      · exact h0
    clear_value x6
    refine ite_of ?_ ?_
    · exact h0
    · refine ite_of ?_ ?_
      · split
        · exact h0
        · refine State.collDone_inv ?_
          exact h0
      · refine ite_of ?_ ?_
        · refine ite_of ?_ ?_
          · exact h0
          · refine State.a2aDone_inv ?_
            exact h0
        · refine ite_of ?_ ?_
          · refine ite_of ?_ ?_
            · refine ite_of ?_ ?_
              · exact h0
              · refine State.collDone_inv ?_
                exact h0
            · split
              · exact h0
              · refine State.collDone_inv ?_
                exact h0
          · refine ite_of ?_ ?_
            · refine ite_of ?_ ?_
              · refine ite_of ?_ ?_
                · refine State.collDone_inv ?_
                  exact hx6
                · exact h0
              · split
                · exact h0
                · refine State.collDone_inv ?_
                  exact h0
            · first | split | (clear_value y8; split)
              · exact h0
              · extract_lets -merge y9 y10
                refine ite_of ?_ ?_
                · refine State.collDone_inv ?_
                  exact h0
                · refine ite_of ?_ ?_
                  · refine State.collDone_inv ?_
                    exact h0
                  · refine State.putColl_inv ?_
                    exact h0

theorem State.advance_inv {s : Machine.State} {key : Nat} (h0 : State.Inv s) :
    State.Inv (State.advance s key) := by
  unfold State.advance
  split
  · exact h0
  · extract_lets -merge y0 x1 x3
    have hx1 : State.Inv x1 := by
      unfold x1
      refine foldl_inv ?_ ?_
      · intro _ _ h2
        refine State.trySend_inv ?_
        exact h2
      · exact h0
    clear_value x1
    have hx3 : State.Inv x3 := by
      unfold x3
      refine State.tryFinish_inv ?_
      refine State.tryRedo_inv ?_
      exact hx1
    clear_value x3
    refine State.tryFinish_inv ?_
    refine foldl_inv ?_ ?_
    · intro _ _ h4
      refine State.tryGather_inv ?_
      exact h4
    · exact hx3

theorem State.takeCollMask_inv {s : Machine.State} {key : Nat} {redo : Bool} {m : List Bool} (h0 : State.Inv s) :
    State.Inv (State.takeCollMask s key redo m) := by
  unfold State.takeCollMask
  extract_lets -merge y0
  split
  · exact h0
  · extract_lets -merge y1 x2 x3 x4 y5 y6 x7
    have hx2 : State.Inv x2 := by
      unfold x2
      refine State.roleRec_inv ?_
      refine State.putColl_inv ?_
      exact h0
    clear_value x2
    have hx3 : State.Inv x3 := by
      unfold x3
      refine State.bump_inv ?_
      exact hx2
    clear_value x3
    have hx4 : State.Inv x4 := by
      unfold x4
      refine ite_of ?_ ?_
      · refine State.bump_inv ?_
        exact hx3
      · exact hx3
    clear_value x4
    have hx7 : State.Inv x7 := by
      unfold x7
      split
      · split
        · exact hx4
        · exact State.Inv.same (hx4) rfl rfl rfl rfl rfl rfl
      · refine State.takeMask_inv ?_
        exact hx4
      · refine State.endStep_inv ?_
        exact hx4
      · exact hx4
    clear_value x7
    refine ite_of ?_ ?_
    · exact h0
    · refine State.advance_inv ?_
      exact hx7

theorem State.sendMask_inv {s : Machine.State} {key : Nat} {redo : Bool} {m : List Bool} (h0 : State.Inv s) :
    State.Inv (State.sendMask s key redo m) := by
  unfold State.sendMask
  split
  · exact h0
  · extract_lets -merge y0 x1
    have hx1 : State.Inv x1 := by
      unfold x1
      refine foldl_inv ?_ ?_
      · intro _ _ h2
        show SndInv _
        refine State.collFrame_inv ?_
        exact h2
      · exact h0
    clear_value x1
    refine State.takeCollMask_inv ?_
    exact hx1

theorem State.takeReport_inv {s : Machine.State} {key : Nat} {rank : Nat} {r : CollReport} (h0 : State.Inv s) :
    State.Inv (State.takeReport s key rank r) := by
  unfold State.takeReport
  split
  · exact h0
  · extract_lets -merge y0 x1 y2
    have hx1 : State.Inv x1 := by
      unfold x1
      refine State.putColl_inv ?_
      exact h0
    clear_value x1
    refine ite_of ?_ ?_
    · exact h0
    · refine ite_of ?_ ?_
      · refine State.sendMask_inv ?_
        exact hx1
      · exact hx1

theorem State.sendReport_inv {s : Machine.State} {key : Nat} (h0 : State.Inv s) :
    State.Inv (State.sendReport s key) := by
  unfold State.sendReport
  split
  · exact h0
  · extract_lets -merge y0 x1
    have hx1 : State.Inv x1 := by
      unfold x1
      refine State.putColl_inv ?_
      exact h0
    clear_value x1
    refine ite_of ?_ ?_
    · exact h0
    · refine ite_of ?_ ?_
      · refine State.takeReport_inv ?_
        exact hx1
      · show SndInv _
        refine State.collFrame_inv ?_
        exact hx1

theorem State.holdPlan_inv {s : Machine.State} {role : Nat} {p : CollPlan} (h0 : State.Inv s) :
    State.Inv (State.holdPlan s role p) := by
  unfold State.holdPlan
  refine ite_of ?_ ?_
  · exact h0
  · refine State.roleRec_inv ?_
    refine State.putColl_inv ?_
    exact h0

theorem State.rejectRank_inv {s : Machine.State} {key : Nat} {rank : Nat} {malformed : Bool} (h0 : State.Inv s) :
    State.Inv (State.rejectRank s key rank malformed) := by
  unfold State.rejectRank
  extract_lets -merge x0
  have hx0 : State.Inv x0 := by
    unfold x0
    refine State.bump_inv ?_
    refine ite_of ?_ ?_
    · refine State.bump_inv ?_
      exact h0
    · exact h0
  clear_value x0
  split
  · exact h0
  · refine ite_of ?_ ?_
    · refine State.collFault_inv ?_
      exact hx0
    · refine State.putColl_inv ?_
      exact hx0

theorem State.takeOwn_inv {s : Machine.State} {key : Nat} (h0 : State.Inv s) :
    State.Inv (State.takeOwn s key) := by
  unfold State.takeOwn
  split
  · exact h0
  · extract_lets -merge y0 y1 y2 y3
    refine ite_of ?_ ?_
    · exact h0
    · refine ite_of ?_ ?_
      · refine State.rejectRank_inv ?_
        exact h0
      · refine State.putColl_inv ?_
        exact h0

theorem State.openSlot_inv {s : Machine.State} {key : Nat} {opens : Bool} {ready : Bool} (h0 : State.Inv s) :
    State.Inv (State.openSlot s key opens ready) := by
  unfold State.openSlot
  split
  · exact h0
  · extract_lets -merge x0 x1 x2
    have hx0 : State.Inv x0 := by
      unfold x0
      refine ite_of ?_ ?_
      · refine State.putColl_inv ?_
        exact h0
      · exact h0
    clear_value x0
    have hx1 : State.Inv x1 := by
      unfold x1
      refine ite_of ?_ ?_
      · refine State.takeOwn_inv ?_
        exact hx0
      · exact hx0
    clear_value x1
    have hx2 : State.Inv x2 := by
      unfold x2
      split
      · exact hx1
      · refine ite_of ?_ ?_
        · refine State.sendReport_inv ?_
          exact hx1
        · exact hx1
    clear_value x2
    refine State.advance_inv ?_
    exact hx2

end Sys2Proof.Machine
end

