-- ==== Sys2Proof/Laws/InvCollIn.lean ====
section
/-! SUPPORT. Every function of Machine/CollIn.lean that answers a state keeps the invariant. -/

namespace Sys2Proof.Machine

set_option linter.tactic.unusedName false

theorem State.collData_inv {s : Machine.State} {f : Frame} {c : CollRun} {rank : Nat} (h0 : State.Inv s) :
    State.Inv (State.collData s f c rank) := by
  unfold State.collData
  extract_lets -merge y0 y1 y2 y3 y4 y5 y6 y7 y8 y9 x10 x11
  have hx10 : State.Inv x10 := by
    unfold x10
    refine State.putColl_inv ?_
    exact h0
  clear_value x10
  have hx11 : State.Inv x11 := by
    unfold x11
    refine ite_of ?_ ?_
    · show SndInv _
      refine State.collFrame_inv ?_
      exact hx10
    · exact hx10
  clear_value x11
  refine ite_of ?_ ?_
  · refine State.bump_inv ?_
    exact h0
  · refine ite_of ?_ ?_
    · refine State.rejectRank_inv ?_
      exact h0
    · refine State.advance_inv ?_
      exact hx11

theorem State.collAgg_inv {s : Machine.State} {f : Frame} {c : CollRun} {rank : Nat} (h0 : State.Inv s) :
    State.Inv (State.collAgg s f c rank) := by
  unfold State.collAgg
  extract_lets -merge y0 y1 y2 y3 y4
  refine ite_of ?_ ?_
  · refine State.bump_inv ?_
    exact h0
  · refine ite_of ?_ ?_
    · refine State.rejectRank_inv ?_
      exact h0
    · refine State.advance_inv ?_
      refine State.putColl_inv ?_
      exact h0

theorem State.collBypass_inv {s : Machine.State} {f : Frame} {c : CollRun} (h0 : State.Inv s) :
    State.Inv (State.collBypass s f c) := by
  unfold State.collBypass
  extract_lets -merge y0 y1 x2
  have hx2 : State.Inv x2 := by
    unfold x2
    refine foldl_inv ?_ ?_
    · intro _ _ h3
      split
      · exact h3
      · show SndInv _
        refine State.collSend_inv ?_
        exact h3
    · refine State.putColl_inv ?_
      exact h0
  clear_value x2
  refine ite_of ?_ ?_
  · exact h0
  · refine State.advance_inv ?_
    exact hx2

theorem State.collWithdraw_inv {s : Machine.State} {key : Nat} (h0 : State.Inv s) :
    State.Inv (State.collWithdraw s key) := by
  unfold State.collWithdraw
  split
  · exact h0
  · split
    · exact h0
    · refine foldl_inv ?_ ?_
      · intro _ _ h0
        extract_lets -merge y1
        split
        · exact h0
        · extract_lets -merge y2 y3 y4 y5
          first | split | (clear_value y4; split)
          · extract_lets -merge y6 x7
            have hx7 : SndInv x7 := by
              unfold x7
              refine State.collSend_inv ?_
              exact h0
            clear_value x7
            refine State.putColl_inv ?_
            show SndInv _
            exact hx7
          · exact h0
      · exact h0

theorem State.collCopy_inv {s : Machine.State} {f : Frame} {c : CollRun} {rank : Nat} (h0 : State.Inv s) :
    State.Inv (State.collCopy s f c rank) := by
  unfold State.collCopy
  extract_lets -merge y0 y1 y2 x3
  have hx3 : State.Inv x3 := by
    unfold x3
    refine State.putColl_inv ?_
    exact h0
  clear_value x3
  refine ite_of ?_ ?_
  · refine State.rejectRank_inv ?_
    exact h0
  · refine State.advance_inv ?_
    refine State.collWithdraw_inv ?_
    exact hx3

theorem State.collRepair_inv {s : Machine.State} {f : Frame} {c : CollRun} {rank : Nat} (h0 : State.Inv s) :
    State.Inv (State.collRepair s f c rank) := by
  unfold State.collRepair
  extract_lets -merge y0 y1 y2 y3
  split
  · exact h0
  · refine ite_of ?_ ?_
    · exact h0
    · show SndInv _
      refine State.collFrame_inv ?_
      exact h0

theorem State.collQuery_inv {s : Machine.State} {f : Frame} {c : CollRun} (h0 : State.Inv s) :
    State.Inv (State.collQuery s f c) := by
  unfold State.collQuery
  extract_lets -merge y0 x1
  have hx1 : State.Inv x1 := by
    unfold x1
    show SndInv _
    refine State.collFrame_inv ?_
    exact h0
  clear_value x1
  split
  · exact hx1
  · show SndInv _
    refine State.collFrame_inv ?_
    exact hx1

theorem State.collIn_inv {s : Machine.State} {f : Frame} (h0 : State.Inv s) :
    State.Inv (State.collIn s f) := by
  unfold State.collIn
  extract_lets -merge y0
  split
  · exact h0
  · extract_lets -merge y1 y2 y3 x4
    have hx4 : State.Inv x4 := by
      unfold x4
      refine State.putColl_inv ?_
      exact h0
    clear_value x4
    split
    · exact h0
    · split
      · refine ite_of ?_ ?_
        · refine ite_of ?_ ?_
          · refine State.bump_inv ?_
            exact h0
          · exact h0
        · refine State.collData_inv ?_
          exact h0
      · refine ite_of ?_ ?_
        · exact h0
        · refine State.collAgg_inv ?_
          exact h0
      · refine State.takeReport_inv ?_
        exact h0
      · refine ite_of ?_ ?_
        · refine State.sendMask_inv ?_
          exact h0
        · refine State.takeCollMask_inv ?_
          exact h0
      · refine State.collBypass_inv ?_
        exact h0
      · refine State.collCopy_inv ?_
        exact h0
      · refine ite_of ?_ ?_
        · refine State.rejectRank_inv ?_
          exact h0
        · refine State.advance_inv ?_
          refine State.bump_inv ?_
          exact hx4
      · refine State.collRepair_inv ?_
        exact h0
      · refine State.collQuery_inv ?_
        exact h0
      · exact h0

theorem State.collLoop_inv {n : Nat} {s : Machine.State} (h0 : State.Inv s) : State.Inv (State.collLoop n s) := by
  induction n generalizing s with
  | zero => exact h0
  | succ n ih =>
    unfold State.collLoop
    split
    · exact h0
    · exact ih (State.collIn_inv (State.setColl_inv h0))

theorem State.collDeadline_inv {s : Machine.State} {key : Nat} {step : Nat} (h0 : State.Inv s) :
    State.Inv (State.collDeadline s key step) := by
  unfold State.collDeadline
  split
  · exact h0
  · extract_lets -merge y0 y1 y2 x3 x4 y5 x6
    have hx3 : State.Inv x3 := by
      unfold x3
      refine State.bump_inv ?_
      refine State.putColl_inv ?_
      exact h0
    clear_value x3
    have hx4 : SndInv x4 := by
      unfold x4
      refine State.collFrame_inv ?_
      exact hx3
    clear_value x4
    have hx6 : State.Inv x6 := by
      unfold x6
      refine ite_of ?_ ?_
      · refine ite_of ?_ ?_
        · exact h0
        · refine State.advance_inv ?_
          refine State.collWithdraw_inv ?_
          show SndInv _
          exact hx4
      · refine ite_of ?_ ?_
        · refine State.putColl_inv ?_
          exact h0
        · exact h0
    clear_value x6
    split
    · exact h0
    · refine ite_of ?_ ?_
      · exact h0
      · refine ite_of ?_ ?_
        · refine State.sendReport_inv ?_
          exact hx6
        · exact hx6

theorem State.collShort_inv {s : Machine.State} {key : Nat} (h0 : State.Inv s) :
    State.Inv (State.collShort s key) := by
  unfold State.collShort
  split
  · exact h0
  · extract_lets -merge y0 y1 y2 x3
    have hx3 : State.Inv x3 := by
      unfold x3
      refine State.putColl_inv ?_
      exact h0
    clear_value x3
    refine ite_of ?_ ?_
    · exact h0
    · refine foldl_inv ?_ ?_
      · intro _ _ h4
        refine foldl_inv ?_ ?_
        · intro _ _ h5
          refine State.bump_inv ?_
          show SndInv _
          refine State.collFrame_inv ?_
          exact h5
        · exact h4
      · exact hx3

theorem State.collLost_inv {s : Machine.State} {m : Nat} (h0 : State.Inv s) :
    State.Inv (State.collLost s m) := by
  unfold State.collLost
  refine foldl_inv ?_ ?_
  · intro _ _ h0
    extract_lets -merge y1 x2
    have hx2 : State.Inv x2 := by
      unfold x2
      refine State.advance_inv ?_
      exact h0
    clear_value x2
    split
    · exact h0
    · refine ite_of ?_ ?_
      · exact h0
      · split
        · exact hx2
        · refine ite_of ?_ ?_
          · exact hx2
          · refine State.collFault_inv ?_
            exact hx2
  · exact h0

theorem State.collHeldMask_inv {s : Machine.State} {key : Nat} {redo : Bool} {m : List Bool} (h0 : State.Inv s) :
    State.Inv (State.collHeldMask s key redo m) := by
  unfold State.collHeldMask
  extract_lets -merge x0
  have hx0 : State.Inv x0 := by
    unfold x0
    refine State.takeCollMask_inv ?_
    exact h0
  clear_value x0
  split
  · exact hx0
  · refine ite_of ?_ ?_
    · exact hx0
    · refine State.collFault_inv ?_
      exact hx0

theorem State.collTakeover_inv {s : Machine.State} {role : Nat} {plans : List CollPlan} {masks : List (Nat × Bool × List Bool)} (h0 : State.Inv s) :
    State.Inv (State.collTakeover s role plans masks) := by
  unfold State.collTakeover
  refine foldl_inv ?_ ?_
  · intro _ _ h0
    extract_lets -merge y1 y2 y3 x4 y5 y6
    have hx4 : State.Inv x4 := by
      unfold x4
      refine State.holdPlan_inv ?_
      exact h0
    clear_value x4
    split
    · exact hx4
    · extract_lets -merge x7 y9 y10 x11
      have hx7 : State.Inv x7 := by
        unfold x7
        refine ite_of ?_ ?_
        · refine foldl_inv ?_ ?_
          · intro _ _ h8
            show SndInv _
            refine State.collFrame_inv ?_
            exact h8
          · exact hx4
        · exact hx4
      clear_value x7
      have hx11 : State.Inv x11 := by
        unfold x11
        refine foldl_inv ?_ ?_
        · intro _ _ h12
          refine State.bump_inv ?_
          show SndInv _
          refine State.collFrame_inv ?_
          exact h12
        · refine State.putColl_inv ?_
          exact hx7
      clear_value x11
      first | split | (clear_value y6; split)
      · exact hx11
      · refine State.collHeldMask_inv ?_
        refine ite_of ?_ ?_
        · refine State.sendMask_inv ?_
          exact hx11
        · exact hx11
  · exact h0

theorem execSlot_inv {role : Nat} {cid : Nat} {plan : Option CollPlan} {ready : Bool} {s : Machine.State} (h0 : State.Inv s) :
    Kept (execSlot role cid plan ready s) := by
  unfold execSlot
  extract_lets -merge y0 x1
  have hx1 : State.Inv x1 := by
    unfold x1
    split
    · exact h0
    · extract_lets -merge y2
      refine ite_of ?_ ?_
      · exact h0
      · split
        · exact h0
        · refine State.holdPlan_inv ?_
          refine OptInv_some (by assumption) ?_
          refine foldl_of (p := OptInv) ?_ ?_
          · intro _ _ h3
            refine bind_of (p := State.Inv) (q := State.Inv) ?_ ?_
            · intro _ h4
              refine State.addCue_inv ?_
              exact h4
            · exact h3
          · show State.Inv _
            exact h0
  clear_value x1
  split
  · show State.Inv _
    refine State.collLoop_inv ?_
    refine State.openSlot_inv ?_
    refine OptInv_some (by assumption) ?_
    refine State.takeCue_inv ?_
    exact hx1
  · show State.Inv _
    refine ite_of ?_ ?_
    · refine State.collLoop_inv ?_
      refine State.openSlot_inv ?_
      exact hx1
    · exact hx1

theorem execCollStepDeadline_inv {role : Nat} {cid : Nat} {step : Nat} {s : Machine.State} (h0 : State.Inv s) :
    Kept (execCollStepDeadline role cid step s) := by
  unfold execCollStepDeadline
  show State.Inv _
  refine State.collLoop_inv ?_
  refine State.collDeadline_inv ?_
  exact h0

theorem execCollReportClose_inv {role : Nat} {cid : Nat} {s : Machine.State} (h0 : State.Inv s) :
    Kept (execCollReportClose role cid s) := by
  unfold execCollReportClose
  extract_lets -merge y0
  split
  · show State.Inv _
    exact h0
  · extract_lets -merge y1
    refine ite_of ?_ ?_
    · show State.Inv _
      exact h0
    · show State.Inv _
      refine State.collLoop_inv ?_
      refine State.sendMask_inv ?_
      exact h0

theorem execCollDataDeadline_inv {role : Nat} {cid : Nat} {s : Machine.State} (h0 : State.Inv s) :
    Kept (execCollDataDeadline role cid s) := by
  unfold execCollDataDeadline
  show State.Inv _
  refine State.collLoop_inv ?_
  refine State.collShort_inv ?_
  exact h0

theorem openEntry_inv {act : Nat} {job : Nat} {plans : List CollPlan} {ready : Bool} {s : Machine.State} (h0 : State.Inv s) :
    State.Inv (openEntry act job plans ready s) := by
  unfold openEntry
  split
  · exact h0
  · split
    · refine foldl_inv ?_ ?_
      · intro _ _ h0
        refine ite_of ?_ ?_
        · refine State.openSlot_inv ?_
          exact h0
        · exact h0
      · exact h0
    · extract_lets -merge y1 x2
      have hx2 : State.Inv x2 := by
        unfold x2
        refine ite_of ?_ ?_
        · refine State.putClosing_inv ?_
          exact h0
        · refine State.putStep_inv ?_
          exact h0
      clear_value x2
      refine State.collLoop_inv ?_
      refine foldl_inv ?_ ?_
      · intro _ _ h3
        refine State.openSlot_inv ?_
        refine State.holdPlan_inv ?_
        exact h3
      · exact hx2

theorem execRscat_inv {job : Nat} {plans : List CollPlan} {ready : Bool} {s : Machine.State} (h0 : State.Inv s) :
    Kept (execRscat job plans ready s) := by
  unfold execRscat
  show State.Inv _
  refine openEntry_inv ?_
  exact h0

theorem execNorm_inv {job : Nat} {plans : List CollPlan} {ready : Bool} {tnext : Option Nat} {s : Machine.State} (h0 : State.Inv s) :
    Kept (execNorm job plans ready tnext s) := by
  unfold execNorm
  extract_lets -merge x0
  have hx0 : State.Inv x0 := by
    unfold x0
    split
    · exact h0
    · refine State.putStep_inv ?_
      exact h0
  clear_value x0
  show State.Inv _
  refine openEntry_inv ?_
  exact hx0

theorem execDoneEntry_inv {job : Nat} {plans : List CollPlan} {ready : Bool} {others : List (Nat × Nat × List Bool)} {s : Machine.State} (h0 : State.Inv s) :
    Kept (execDoneEntry job plans ready others s) := by
  unfold execDoneEntry
  extract_lets -merge x0
  have hx0 : State.Inv x0 := by
    unfold x0
    split
    · exact h0
    · refine State.putClosing_inv ?_
      exact h0
  clear_value x0
  show State.Inv _
  refine openEntry_inv ?_
  exact hx0

end Sys2Proof.Machine
end

