-- ==== Sys2Proof/Laws/InvMoves.lean ====
section
/-! SUPPORT. Every function of Machine/Moves.lean that answers a state keeps the invariant. -/

namespace Sys2Proof.Machine

set_option linter.tactic.unusedName false

theorem State.loadSeg_inv {s : Machine.State} {base : Nat} {g : Seg} (h0 : State.Inv s) :
    State.Inv (State.loadSeg s base g) := by
  unfold State.loadSeg
  extract_lets -merge x0
  have hx0 : State.Inv x0 := by
    unfold x0
    refine State.writeBytes_inv ?_
    exact h0
  clear_value x0
  refine foldl_inv ?_ ?_
  · intro _ _ h1
    extract_lets -merge y2
    refine State.markPoison_inv ?_
    exact h1
  · exact hx0

theorem State.partWrite_inv {s : Machine.State} {src a n i0 : Nat} (h0 : State.Inv s) : State.Inv (State.partWrite s src a n i0) :=
  ⟨Memory.wf_foldl _ (fun m _ w => ite_of (p := fun m : Memory => m.wf = true) (Memory.wf_write m _ _ w) w) _ _ h0.mem', h0.regs',
    foldl_of (p := fun p : List Nat => risingFrom 0 p = true) (fun _ _ w => ite_of (p := fun p : List Nat => risingFrom 0 p = true)
      (risingFrom_insert _ _ _ (Nat.zero_le _) w) (ite_of (p := fun p : List Nat => risingFrom 0 p = true) (risingFrom_filter _ _ _ w) w)) h0.poison',
    h0.grans', h0.cues', h0.audit'⟩

theorem State.partMove_inv {s : Machine.State} {store : Bool} {base : Nat} {gs : List (Nat × Seg)} (h0 : State.Inv s) :
    State.Inv (State.partMove s store base gs) := by
  unfold State.partMove
  extract_lets -merge x0 x4
  have hx0 : FstInv x0 := by
    unfold x0
    refine foldl_of (p := FstInv) ?_ ?_
    · intro _ _ h1
      extract_lets -merge y2 x3
      have hx3 : State.Inv x3 := by
        unfold x3
        refine ite_of ?_ ?_
        · show FstInv _
          exact h1
        · refine ite_of ?_ ?_
          · refine State.partWrite_inv ?_
            show FstInv _
            exact h1
          · refine State.partWrite_inv ?_
            show FstInv _
            exact h1
      clear_value x3
      show State.Inv _
      exact hx3
    · show State.Inv _
      exact h0
  clear_value x0
  have hx4 : State.Inv x4 := by
    unfold x4
    show FstInv _
    exact hx0
  clear_value x4
  exact State.Inv.same (hx4) rfl rfl rfl rfl rfl rfl

theorem State.startLoad_inv {n : Nat} {p : Nat} {stream : Nat} {t : Nat} {base : Nat} {x : Nat × Seg} {r : List Await × Machine.State} (h0 : SndInv r) :
    SndInv (State.startLoad n p stream t base x r) := by
  unfold State.startLoad
  extract_lets -merge y0 x1 y2
  have hx1 : SndInv x1 := by
    unfold x1
    refine State.sendRead_inv ?_
    show SndInv _
    exact h0
  clear_value x1
  refine ite_of ?_ ?_
  · show State.Inv _
    refine State.loadSeg_inv ?_
    show SndInv _
    exact h0
  · refine ite_of ?_ ?_
    · show State.Inv _
      show SndInv _
      exact hx1
    · show State.Inv _
      refine State.regionRead_inv ?_
      show SndInv _
      exact h0

theorem State.startStore_inv {n : Nat} {p : Nat} {stream : Nat} {t : Nat} {base : Nat} {x : Nat × Seg} {r : List Await × Machine.State} (h0 : SndInv r) :
    SndInv (State.startStore n p stream t base x r) := by
  unfold State.startStore
  extract_lets -merge y0 y1 x2 x3 y4
  have hx2 : SndInv x2 := by
    unfold x2
    refine State.mirrorWrite_inv ?_
    refine State.writeBytes_inv ?_
    show SndInv _
    exact h0
  clear_value x2
  have hx3 : SndInv x3 := by
    unfold x3
    refine State.sendWrite_inv ?_
    show SndInv _
    exact h0
  clear_value x3
  refine ite_of ?_ ?_
  · show State.Inv _
    show SndInv _
    exact hx2
  · refine ite_of ?_ ?_
    · show State.Inv _
      show SndInv _
      exact hx3
    · show State.Inv _
      refine State.regionWrite_inv ?_
      show SndInv _
      exact h0

theorem State.failAwait_inv {s : Machine.State} {p : Await → Bool} (h0 : State.Inv s) :
    State.Inv (State.failAwait s p) := by
  unfold State.failAwait
  refine State.dropAwait_inv ?_
  refine foldl_inv ?_ ?_
  · intro _ _ h0
    refine State.stopCtx_inv ?_
    exact h0
  · exact h0

theorem startMove_inv {eng : Nat} {l : Loc} {s : Machine.State} (h0 : State.Inv s) :
    State.Inv (startMove eng l s) := by
  unfold startMove
  extract_lets -merge y0
  refine State.startHead_inv ?_ ?_
  · exact h0
  · intro _ _
    extract_lets -merge y1 y2 y4 y5
    have hy2 : ∀ a0, State.Inv a0 → ∀ a1, State.Inv (y2 a0 a1) := by
      unfold y2
      intro _ h3 _
      refine State.haltCtx_inv ?_
      refine State.setCtx_inv ?_
      exact h3
    clear_value y2
    refine ite_of ?_ ?_
    · exact h0
    · split
      · refine hy2 _ ?_ _
        exact h0
      · extract_lets -merge y6 y7 y8 x9 y11
        have hx9 : SndInv x9 := by
          unfold x9
          refine foldl_of (p := SndInv) ?_ ?_
          · intro _ _ h10
            refine ite_of ?_ ?_
            · refine State.startStore_inv ?_
              exact h10
            · refine State.startLoad_inv ?_
              exact h10
          · show State.Inv _
            exact h0
        clear_value x9
        refine ite_of ?_ ?_
        · refine hy2 _ ?_ _
          exact h0
        · refine ite_of ?_ ?_
          · refine hy2 _ ?_ _
            exact h0
          · refine ite_of ?_ ?_
            · exact h0
            · refine ite_of ?_ ?_
              · refine hy2 _ ?_ _
                exact h0
              · split
                · refine hy2 _ ?_ _
                  refine State.partMove_inv ?_
                  exact h0
                · split
                  · refine hy2 _ ?_ _
                    refine State.partMove_inv ?_
                    exact h0
                  · refine State.putCtx_inv ?_
                    show SndInv _
                    exact hx9

theorem execLdT_inv {l : Loc} {s : Machine.State} (h0 : State.Inv s) :
    Kept (execLdT l s) := by
  unfold execLdT
  show State.Inv _
  refine startMove_inv ?_
  exact h0

theorem execStT_inv {l : Loc} {s : Machine.State} (h0 : State.Inv s) :
    Kept (execStT l s) := by
  unfold execStT
  show State.Inv _
  refine startMove_inv ?_
  exact h0

theorem startAtom_inv {l : Loc} {s : Machine.State} (h0 : State.Inv s) :
    State.Inv (startAtom l s) := by
  unfold startAtom
  refine State.startHead_inv ?_ ?_
  · exact h0
  · intro _ _
    extract_lets -merge y0 y1 y3 y4 y5 y6 y7
    have hy1 : ∀ a0, State.Inv a0 → ∀ a1, State.Inv (y1 a0 a1) := by
      unfold y1
      intro _ h2 _
      refine State.haltCtx_inv ?_
      refine State.setCtx_inv ?_
      exact h2
    clear_value y1
    refine ite_of ?_ ?_
    · exact h0
    · refine ite_of ?_ ?_
      · refine hy1 _ ?_ _
        exact h0
      · refine ite_of ?_ ?_
        · refine hy1 _ ?_ _
          exact h0
        · split
          · refine hy1 _ ?_ _
            exact h0
          · refine hy1 _ ?_ _
            exact h0
          · extract_lets -merge y8 x9 x10
            have hx9 : SndInv x9 := by
              unfold x9
              refine State.mirrorWrite_inv ?_
              refine State.writeBytes_inv ?_
              exact h0
            clear_value x9
            have hx10 : State.Inv x10 := by
              unfold x10
              refine State.writeBytes_inv ?_
              show SndInv _
              exact hx9
            clear_value x10
            refine ite_of ?_ ?_
            · exact h0
            · refine ite_of ?_ ?_
              · refine hy1 _ ?_ _
                exact h0
              · refine State.putCtx_inv ?_
                exact hx10
          · extract_lets -merge y11 x12 y13 y14 x15
            have hx12 : SndInv x12 := by
              unfold x12
              refine State.issue_inv ?_
              exact h0
            clear_value x12
            have hx15 : State.Inv x15 := by
              unfold x15
              refine State.setFab_inv ?_
              show SndInv _
              exact hx12
            clear_value x15
            refine ite_of ?_ ?_
            · refine hy1 _ ?_ _
              exact h0
            · refine ite_of ?_ ?_
              · exact h0
              · refine State.putCtx_inv ?_
                exact hx15

theorem execStAt_inv {l : Loc} {s : Machine.State} (h0 : State.Inv s) :
    Kept (execStAt l s) := by
  unfold execStAt
  show State.Inv _
  refine startAtom_inv ?_
  exact h0

theorem execMoveComplete_inv {core : Nat} {part : Nat} {k : Nat} {s : Machine.State} (h0 : State.Inv s) :
    Kept (execMoveComplete core part k s) := by
  unfold execMoveComplete
  split
  · show State.Inv _
    exact h0
  · split
    · show State.Inv _
      exact h0
    · extract_lets -merge y0
      show State.Inv _
      refine ite_of ?_ ?_
      · refine State.putCtx_inv ?_
        exact h0
      · exact h0

end Sys2Proof.Machine
end

