-- ==== Sys2Proof/Laws/InvFabIn.lean ====
section
/-! SUPPORT. Every function of Machine/FabIn.lean that answers a state keeps the invariant. -/

namespace Sys2Proof.Machine

set_option linter.tactic.unusedName false

theorem State.sendReject_inv {s : Machine.State} {f : Frame} {reason : Nat} (h0 : State.Inv s) :
    State.Inv (State.sendReject s f reason) := by
  unfold State.sendReject
  extract_lets -merge y0
  refine State.bump_inv ?_
  refine State.sendPlain_inv ?_
  exact h0

theorem State.sendResp_inv {s : Machine.State} {f : Frame} {a : Nat} {n : Nat} (h0 : State.Inv s) :
    State.Inv (State.sendResp s f a n) := by
  unfold State.sendResp
  extract_lets -merge y0
  refine foldl_inv ?_ ?_
  · intro _ _ h1
    extract_lets -merge y2
    refine State.sendPlain_inv ?_
    exact h1
  · exact h0

theorem State.sendAtomResp_inv {s : Machine.State} {f : Frame} {r : AtomRec} (h0 : State.Inv s) :
    State.Inv (State.sendAtomResp s f r) := by
  unfold State.sendAtomResp
  refine State.sendPlain_inv ?_
  exact h0

theorem State.putAtomRec_inv {s : Machine.State} {f : Frame} {r : AtomRec} (h0 : State.Inv s) :
    State.Inv (State.putAtomRec s f r) := by
  unfold State.putAtomRec
  extract_lets -merge y0
  refine State.setFab_inv ?_
  exact h0

theorem State.mirDone_inv {r : List Nat × Machine.State} (h0 : SndInv r) :
    AppInv (State.mirDone r) := by
  unfold State.mirDone
  split
  · show State.Inv _
    show SndInv _
    exact h0
  · show State.Inv _
    show SndInv _
    exact h0

theorem State.applyWrite_inv {s : Machine.State} {f : Frame} (h0 : State.Inv s) :
    AppInv (State.applyWrite s f) := by
  unfold State.applyWrite
  extract_lets -merge y0
  refine ite_of ?_ ?_
  · show State.Inv _
    exact h0
  · split
    · show State.Inv _
      refine State.sendReject_inv ?_
      exact h0
    · refine ite_of ?_ ?_
      · trivial
      · refine State.mirDone_inv ?_
        refine State.mirrorWrite_inv ?_
        refine State.writeBytes_inv ?_
        exact h0

theorem State.applyRead_inv {s : Machine.State} {f : Frame} (h0 : State.Inv s) :
    AppInv (State.applyRead s f) := by
  unfold State.applyRead
  split
  · show State.Inv _
    refine State.sendReject_inv ?_
    exact h0
  · show State.Inv _
    refine State.sendResp_inv ?_
    exact h0

theorem State.applyAtomic_inv {s : Machine.State} {f : Frame} (h0 : State.Inv s) :
    AppInv (State.applyAtomic s f) := by
  unfold State.applyAtomic
  extract_lets -merge y0 y1
  split
  · show State.Inv _
    refine State.bump_inv ?_
    refine State.sendAtomResp_inv ?_
    exact h0
  · split
    · show State.Inv _
      refine State.sendReject_inv ?_
      exact h0
    · extract_lets -merge y2 y3 y4 x5 x6
      have hx5 : SndInv x5 := by
        unfold x5
        refine State.mirrorWrite_inv ?_
        refine State.putAtomRec_inv ?_
        refine State.writeBytes_inv ?_
        exact h0
      clear_value x5
      have hx6 : SndInv x6 := by
        unfold x6
        refine State.sendMirror_inv ?_
        show SndInv _
        exact hx5
      clear_value x6
      refine ite_of ?_ ?_
      · trivial
      · refine ite_of ?_ ?_
        · show State.Inv _
          refine State.sendAtomResp_inv ?_
          refine State.putAtomRec_inv ?_
          exact h0
        · refine ite_of ?_ ?_
          · show State.Inv _
            refine State.sendAtomResp_inv ?_
            show SndInv _
            exact hx5
          · show State.Inv _
            show SndInv _
            exact hx6

theorem State.applyChunkReq_inv {s : Machine.State} {f : Frame} {raw : Option (List Byte)} (h0 : State.Inv s) :
    State.Inv (State.applyChunkReq s f raw) := by
  unfold State.applyChunkReq
  extract_lets -merge y0 y1 y2 y3
  split
  · exact h0
  · split
    · exact h0
    · extract_lets -merge y4 y5
      split
      · exact h0
      · extract_lets -merge y6 y7
        refine State.bump_inv ?_
        refine foldl_inv ?_ ?_
        · intro _ _ h8
          refine State.sendPlain_inv ?_
          exact h8
        · refine State.countRig_inv ?_
          exact h0

theorem State.recordIn_inv {s : Machine.State} {kind : Nat} {b : List Byte} (h0 : State.Inv s) :
    State.Inv (State.recordIn s kind b) := by
  unfold State.recordIn
  extract_lets -merge y0 y1 y2
  refine ite_of ?_ ?_
  · split
    · exact h0
    · extract_lets -merge y3
      refine ite_of ?_ ?_
      · refine State.putGran_inv ?_
        exact h0
      · exact h0
  · refine ite_of ?_ ?_
    · refine ite_of ?_ ?_
      · refine ite_of ?_ ?_
        · refine State.putGran_inv ?_
          exact h0
        · exact h0
      · refine ite_of ?_ ?_
        · refine State.freeGran_inv ?_
          exact h0
        · exact h0
    · exact h0

theorem State.applyMirror_inv {s : Machine.State} {f : Frame} (h0 : State.Inv s) :
    State.Inv (State.applyMirror s f) := by
  unfold State.applyMirror
  extract_lets -merge y0 y1 y2 y3 y4 y5 y6 x7 x8
  have hx7 : State.Inv x7 := by
    unfold x7
    exact State.Inv.same (h0) rfl rfl rfl rfl rfl rfl
  clear_value x7
  have hx8 : State.Inv x8 := by
    unfold x8
    refine ite_of ?_ ?_
    · refine State.setField_inv ?_
      exact h0
    · exact h0
  clear_value x8
  split
  · refine State.writeBytes_inv ?_
    exact h0
  · refine State.setPair_inv ?_
    refine State.recordIn_inv ?_
    exact h0
  · refine State.bump_inv ?_
    show SndInv _
    refine State.sendMirror_inv ?_
    exact h0
  · refine ite_of ?_ ?_
    · exact h0
    · refine ite_of ?_ ?_
      · refine State.giveUp_inv ?_
        exact hx7
      · refine State.bump_inv ?_
        refine State.writeBytes_inv ?_
        exact hx7
  · refine ite_of ?_ ?_
    · refine State.bump_inv ?_
      refine State.pairTo_inv ?_
      exact h0
    · exact h0
  · refine State.setField_inv ?_
    refine State.writeBytes_inv ?_
    exact hx8
  · refine ite_of ?_ ?_
    · refine State.pairTo_inv ?_
      refine State.setRegN_inv ?_
      exact h0
    · exact h0
  · exact h0

theorem State.applyFrame_inv {s : Machine.State} {f : Frame} {raw : Option (List Byte)} (h0 : State.Inv s) :
    AppInv (State.applyFrame s f raw) := by
  unfold State.applyFrame
  split
  · refine State.applyWrite_inv ?_
    exact h0
  · refine State.applyRead_inv ?_
    exact h0
  · refine State.applyAtomic_inv ?_
    exact h0
  · show State.Inv _
    refine State.applyChunkReq_inv ?_
    exact h0
  · show State.Inv _
    refine State.collLoop_inv ?_
    refine State.collIn_inv ?_
    exact h0
  · show State.Inv _
    refine State.applyMirror_inv ?_
    exact h0
  · show State.Inv _
    exact h0

theorem State.passFrame_inv {s : Machine.State} {k : Nat} (h0 : State.Inv s) :
    State.Inv (State.passFrame s k) := by
  unfold State.passFrame
  extract_lets -merge y0
  refine State.setIn_inv ?_
  exact h0

theorem State.drainFlow_inv {raw : Option (List Byte)} {k n : Nat} {s : Machine.State} (h0 : State.Inv s) :
    State.Inv (State.drainFlow raw k n s) := by
  induction n generalizing s with
  | zero => exact h0
  | succ n ih =>
    unfold State.drainFlow
    extract_lets -merge y0 x1
    have hx1 : State.Inv x1 := State.passFrame_inv h0
    split
    · exact h0
    · split
      · refine ite_of h0 ?_
        extract_lets -merge x2
        refine ih ?_
        refine ite_of (p := State.Inv) ?_ hx1
        split
        · exact State.sendAtomResp_inv hx1
        · exact hx1
      · split
        · exact h0
        · exact ih (State.passFrame_inv (AppInv_done (by assumption) (State.applyFrame_inv h0)))
        · exact State.setIn_inv (AppInv_mirror (by assumption) (State.applyFrame_inv h0))

theorem State.drainAll_inv {s : Machine.State} (h0 : State.Inv s) :
    State.Inv (State.drainAll s) := by
  unfold State.drainAll
  refine foldl_inv ?_ ?_
  · intro _ _ h0
    refine State.drainFlow_inv ?_
    exact h0
  · exact h0

theorem State.heartbeat_inv {s : Machine.State} (h0 : State.Inv s) :
    State.Inv (State.heartbeat s) := by
  unfold State.heartbeat
  extract_lets -merge y0 x1 x2 y3
  have hx1 : State.Inv x1 := by
    unfold x1
    refine State.setPair_inv ?_
    exact h0
  clear_value x1
  have hx2 : State.Inv x2 := by
    unfold x2
    refine State.pairTo_inv ?_
    exact hx1
  clear_value x2
  refine ite_of ?_ ?_
  · refine foldl_inv ?_ ?_
    · intro _ _ h4
      refine State.emit_inv ?_
      exact h4
    · refine State.setPair_inv ?_
      exact hx2
  · exact hx1

theorem State.peerHeard_inv {s : Machine.State} {m : Nat} (h0 : State.Inv s) :
    State.Inv (State.peerHeard s m) := by
  unfold State.peerHeard
  extract_lets -merge y0 x1 x2
  have hx1 : State.Inv x1 := by
    unfold x1
    refine State.setPeer_inv ?_
    exact h0
  clear_value x1
  have hx2 : State.Inv x2 := by
    unfold x2
    refine State.setPeerState_inv ?_
    exact hx1
  clear_value x2
  refine ite_of ?_ ?_
  · refine foldl_inv ?_ ?_
    · intro _ _ h3
      refine State.pump_inv ?_
      exact h3
    · exact hx2
  · exact hx1

theorem State.takeFrame_inv {s : Machine.State} {a : Arrival} {f : Frame} {raw : Option (List Byte)} (h0 : State.Inv s) :
    State.Inv (State.takeFrame s a f raw) := by
  unfold State.takeFrame
  extract_lets -merge y0 y1 y2 y3 y4 x5 x6
  have hx5 : State.Inv x5 := by
    unfold x5
    refine State.setIn_inv ?_
    exact h0
  clear_value x5
  have hx6 : State.Inv x6 := by
    unfold x6
    refine ite_of ?_ ?_
    · refine ite_of ?_ ?_
      · split
        · refine State.bump_inv ?_
          refine State.sendAtomResp_inv ?_
          exact hx5
        · exact hx5
      · exact hx5
    · refine State.drainFlow_inv ?_
      refine State.setIn_inv ?_
      exact h0
  clear_value x6
  refine ite_of ?_ ?_
  · exact h0
  · refine ite_of ?_ ?_
    · refine State.bump_inv ?_
      exact h0
    · refine ite_of ?_ ?_
      · refine State.sendAck_inv ?_
        exact hx6
      · exact hx6

theorem State.frameIn_inv {s : Machine.State} {a : Arrival} {raw : Option (List Byte)} (h0 : State.Inv s) :
    SndInv (State.frameIn s a raw) := by
  unfold State.frameIn
  extract_lets -merge x0 y1 y2 x3 x4 x5
  have hx0 : State.Inv x0 := by
    unfold x0
    refine State.bump_inv ?_
    refine State.bump_inv ?_
    refine State.bump_inv ?_
    exact h0
  clear_value x0
  have hx3 : State.Inv x3 := by
    unfold x3
    refine State.peerHeard_inv ?_
    refine ite_of ?_ ?_
    · refine State.bump_inv ?_
      exact hx0
    · exact hx0
  clear_value x3
  have hx4 : State.Inv x4 := by
    unfold x4
    refine ite_of ?_ ?_
    · refine State.heartbeat_inv ?_
      exact hx3
    · exact hx3
  clear_value x4
  have hx5 : State.Inv x5 := by
    unfold x5
    refine State.takeFrame_inv ?_
    exact hx4
  clear_value x5
  refine ite_of ?_ ?_
  · show State.Inv _
    exact h0
  · refine ite_of ?_ ?_
    · show State.Inv _
      refine State.bump_inv ?_
      exact hx0
    · refine ite_of ?_ ?_
      · show State.Inv _
        refine State.bump_inv ?_
        exact hx0
      · refine ite_of ?_ ?_
        · show State.Inv _
          refine State.bump_inv ?_
          exact hx0
        · refine ite_of ?_ ?_
          · show State.Inv _
            refine State.takeFrame_inv ?_
            refine State.sendReject_inv ?_
            refine State.bump_inv ?_
            exact hx0
          · refine ite_of ?_ ?_
            · show State.Inv _
              refine ite_of ?_ ?_
              · refine State.fenceReset_inv ?_
                exact hx5
              · exact hx5
            · show State.Inv _
              exact hx4

theorem State.seqRow_inv {type : Nat} {sub : Option (Nat × Nat)} {a : Arrival} {raw : Option (List Byte)} {s : Machine.State} (h0 : State.Inv s) :
    State.Inv (State.seqRow type sub a raw s) := by
  unfold State.seqRow
  refine ite_of ?_ ?_
  · show SndInv _
    refine State.frameIn_inv ?_
    exact h0
  · exact h0

theorem State.plainRow_inv {type : Nat} {sub : Option (Nat × Nat)} {a : Arrival} {k : Machine.State → Frame → Machine.State} {s : Machine.State} (h0 : ∀ a0, State.Inv a0 → ∀ a3, State.Inv (k a0 a3)) (h1 : State.Inv s) :
    State.Inv (State.plainRow type sub a k s) := by
  unfold State.plainRow
  refine ite_of ?_ ?_
  · exact h1
  · split
    · refine ite_of ?_ ?_
      · refine h0 _ ?_ _
        refine SndInv_mk (by assumption) ?_
        refine State.frameIn_inv ?_
        exact h1
      · refine SndInv_mk (by assumption) ?_
        refine State.frameIn_inv ?_
        exact h1
    · refine SndInv_mk (by assumption) ?_
      refine State.frameIn_inv ?_
      exact h1

end Sys2Proof.Machine
end

