-- ==== Sys2Proof/Laws/InvFabric.lean ====
section
/-! SUPPORT. Every function of Machine/Fabric.lean that answers a state keeps the invariant. -/

namespace Sys2Proof.Machine

set_option linter.tactic.unusedName false

theorem execWriteFrame_inv {a : Arrival} {s : Machine.State} (h0 : State.Inv s) :
    Kept (execWriteFrame a s) := by
  unfold execWriteFrame
  show State.Inv _
  refine State.seqRow_inv ?_
  exact h0

theorem execReadFrame_inv {a : Arrival} {s : Machine.State} (h0 : State.Inv s) :
    Kept (execReadFrame a s) := by
  unfold execReadFrame
  show State.Inv _
  refine State.seqRow_inv ?_
  exact h0

theorem execAtomic_inv {a : Arrival} {s : Machine.State} (h0 : State.Inv s) :
    Kept (execAtomic a s) := by
  unfold execAtomic
  show State.Inv _
  refine State.seqRow_inv ?_
  exact h0

theorem execChunkReq_inv {a : Arrival} {raw : Option (List Byte)} {s : Machine.State} (h0 : State.Inv s) :
    Kept (execChunkReq a raw s) := by
  unfold execChunkReq
  show State.Inv _
  refine State.seqRow_inv ?_
  exact h0

theorem execCollData_inv {a : Arrival} {s : Machine.State} (h0 : State.Inv s) :
    Kept (execCollData a s) := by
  unfold execCollData
  show State.Inv _
  refine State.seqRow_inv ?_
  exact h0

theorem execCollReport_inv {a : Arrival} {s : Machine.State} (h0 : State.Inv s) :
    Kept (execCollReport a s) := by
  unfold execCollReport
  show State.Inv _
  refine State.seqRow_inv ?_
  exact h0

theorem execCollMask_inv {a : Arrival} {s : Machine.State} (h0 : State.Inv s) :
    Kept (execCollMask a s) := by
  unfold execCollMask
  show State.Inv _
  refine State.seqRow_inv ?_
  exact h0

theorem execBypassReq_inv {a : Arrival} {s : Machine.State} (h0 : State.Inv s) :
    Kept (execBypassReq a s) := by
  unfold execBypassReq
  show State.Inv _
  refine State.seqRow_inv ?_
  exact h0

theorem execCollCopy_inv {a : Arrival} {s : Machine.State} (h0 : State.Inv s) :
    Kept (execCollCopy a s) := by
  unfold execCollCopy
  show State.Inv _
  refine State.seqRow_inv ?_
  exact h0

theorem execWithdraw_inv {a : Arrival} {s : Machine.State} (h0 : State.Inv s) :
    Kept (execWithdraw a s) := by
  unfold execWithdraw
  show State.Inv _
  refine State.seqRow_inv ?_
  exact h0

theorem execCollRepairReq_inv {a : Arrival} {s : Machine.State} (h0 : State.Inv s) :
    Kept (execCollRepairReq a s) := by
  unfold execCollRepairReq
  show State.Inv _
  refine State.seqRow_inv ?_
  exact h0

theorem execQuery_inv {a : Arrival} {s : Machine.State} (h0 : State.Inv s) :
    Kept (execQuery a s) := by
  unfold execQuery
  show State.Inv _
  refine State.seqRow_inv ?_
  exact h0

theorem execAggUp_inv {a : Arrival} {s : Machine.State} (h0 : State.Inv s) :
    Kept (execAggUp a s) := by
  unfold execAggUp
  show State.Inv _
  refine State.plainRow_inv ?_ ?_
  · intro _ h0 _
    refine State.collLoop_inv ?_
    refine State.collIn_inv ?_
    exact h0
  · exact h0

theorem markRange_inv {s : Machine.State} {pm : Nat} {n : Nat} {at_ : Nat → Nat} (h0 : State.Inv s) :
    State.Inv (markRange s pm n at_) := by
  unfold markRange
  refine foldl_inv ?_ ?_
  · intro _ _ h0
    refine ite_of ?_ ?_
    · refine State.markPoison_inv ?_
      exact h0
    · exact h0
  · exact h0

theorem readBlock_inv {s : Machine.State} {b : KvBlock} {o : Nat} {bs : List Byte} {pm : Nat} (h0 : State.Inv s) :
    State.Inv (readBlock s b o bs pm) := by
  unfold readBlock
  refine ite_of ?_ ?_
  · exact h0
  · refine markRange_inv ?_
    refine State.blockWrite_inv ?_
    exact h0

theorem readResp_inv {s : Machine.State} {f : Frame} (h0 : State.Inv s) :
    State.Inv (readResp s f) := by
  unfold readResp
  extract_lets -merge y0 y1 y2
  split
  · exact h0
  · extract_lets -merge y3 y4 y5 y6 x9
    have hy6 : ∀ a0, State.Inv a0 → State.Inv (y6 a0) := by
      unfold y6
      intro _ h7
      extract_lets -merge y8
      refine State.setFab_inv ?_
      exact h7
    clear_value y6
    have hx9 : State.Inv x9 := by
      unfold x9
      refine hy6 _ ?_
      refine markRange_inv ?_
      refine State.writeBytes_inv ?_
      exact h0
    clear_value x9
    refine ite_of ?_ ?_
    · exact h0
    · split
      · split
        · refine hy6 _ ?_
          exact h0
        · extract_lets -merge x10
          have hx10 : State.Inv x10 := by
            unfold x10
            refine hy6 _ ?_
            refine readBlock_inv ?_
            exact h0
          clear_value x10
          refine ite_of ?_ ?_
          · refine State.fetchDone_inv ?_
            exact hx10
          · exact hx10
      · refine ite_of ?_ ?_
        · refine hy6 _ ?_
          exact h0
        · refine ite_of ?_ ?_
          · refine State.dropAwait_inv ?_
            exact hx9
          · exact hx9

theorem execReadResp_inv {a : Arrival} {s : Machine.State} (h0 : State.Inv s) :
    Kept (execReadResp a s) := by
  unfold execReadResp
  show State.Inv _
  refine State.plainRow_inv ?_ ?_
  · intro _ h0 _
    refine readResp_inv ?_
    exact h0
  · exact h0

theorem execReadTimeout_inv {rtag : Nat} {s : Machine.State} (h0 : State.Inv s) :
    Kept (execReadTimeout rtag s) := by
  unfold execReadTimeout
  split
  · show State.Inv _
    exact h0
  · split
    · show State.Inv _
      exact h0
    · extract_lets -merge x0 y1 y2
      have hx0 : SndInv x0 := by
        unfold x0
        refine State.issue_inv ?_
        exact h0
      clear_value x0
      refine ite_of ?_ ?_
      · show State.Inv _
        exact h0
      · show State.Inv _
        refine State.setFab_inv ?_
        show SndInv _
        exact hx0

theorem atomResp_inv {s : Machine.State} {f : Frame} (h0 : State.Inv s) :
    State.Inv (atomResp s f) := by
  unfold atomResp
  extract_lets -merge y0 y1
  split
  · exact h0
  · extract_lets -merge y2 x3 y4
    have hx3 : State.Inv x3 := by
      unfold x3
      refine State.setFab_inv ?_
      exact h0
    clear_value x3
    refine ite_of ?_ ?_
    · exact hx3
    · refine ite_of ?_ ?_
      · refine State.dropAwait_inv ?_
        refine foldl_inv ?_ ?_
        · intro _ _ h5
          refine State.stopCtx_inv ?_
          exact h5
        · exact hx3
      · refine State.dropAwait_inv ?_
        refine State.writeBytes_inv ?_
        exact hx3

theorem execAtomicResp_inv {a : Arrival} {s : Machine.State} (h0 : State.Inv s) :
    Kept (execAtomicResp a s) := by
  unfold execAtomicResp
  show State.Inv _
  refine State.plainRow_inv ?_ ?_
  · intro _ h0 _
    refine atomResp_inv ?_
    exact h0
  · exact h0

theorem rejected_inv {s : Machine.State} {f : Frame} (h0 : State.Inv s) :
    State.Inv (rejected s f) := by
  unfold rejected
  extract_lets -merge y0 x1 y2 y3 y4 y5 y6 x7
  have hx1 : State.Inv x1 := by
    unfold x1
    refine State.bump_inv ?_
    exact h0
  clear_value x1
  have hx7 : State.Inv x7 := by
    unfold x7
    refine State.setFab_inv ?_
    exact hx1
  clear_value x7
  refine State.kvTargetFails_inv ?_
  refine State.failAwait_inv ?_
  exact hx7

theorem execReject_inv {a : Arrival} {s : Machine.State} (h0 : State.Inv s) :
    Kept (execReject a s) := by
  unfold execReject
  show State.Inv _
  refine State.plainRow_inv ?_ ?_
  · intro _ h0 _
    refine rejected_inv ?_
    exact h0
  · exact h0

theorem chunkIn_inv {s : Machine.State} {f : Frame} (h0 : State.Inv s) :
    State.Inv (chunkIn s f) := by
  unfold chunkIn
  extract_lets -merge y0 y1 y2 y3 y4 y5
  have hy5 : ∀ a0, State.Inv a0 → State.Inv (y5 a0) := by
    unfold y5
    intro _ h6
    split
    · exact h6
    · refine State.issueChunks_inv ?_
      exact h6
  clear_value y5
  split
  · exact h0
  · extract_lets -merge y7 y8 y9
    split
    · exact h0
    · refine ite_of ?_ ?_
      · exact h0
      · refine ite_of ?_ ?_
        · refine State.putChunk_inv ?_
          exact h0
        · refine ite_of ?_ ?_
          · refine hy5 _ ?_
            refine State.chunkFail_inv ?_
            exact h0
          · refine hy5 _ ?_
            refine State.chunkDone_inv ?_
            exact h0

theorem execChunk_inv {a : Arrival} {s : Machine.State} (h0 : State.Inv s) :
    Kept (execChunk a s) := by
  unfold execChunk
  show State.Inv _
  refine State.plainRow_inv ?_ ?_
  · intro _ h0 _
    refine chunkIn_inv ?_
    exact h0
  · exact h0

theorem rateAck_inv {s : Machine.State} {m : Nat} {ce : Nat} {rx : Nat} (h0 : State.Inv s) :
    State.Inv (rateAck s m ce rx) := by
  unfold rateAck
  extract_lets -merge y0 y1 y2
  split
  · exact h0
  · extract_lets -merge y3 y4 y5 y6
    refine ite_of ?_ ?_
    · exact h0
    · refine State.setFab_inv ?_
      exact h0

theorem ackIn_inv {s : Machine.State} {f : Frame} (h0 : State.Inv s) :
    State.Inv (ackIn s f) := by
  unfold ackIn
  extract_lets -merge y0 y1 y2 y3 y4 y5 y6 y7 y8 x9 y10 x11 y14 y15 x16 x17 x18
  have hx9 : State.Inv x9 := by
    unfold x9
    refine State.setFlow_inv ?_
    exact h0
  clear_value x9
  have hx11 : State.Inv x11 := by
    unfold x11
    refine foldl_inv ?_ ?_
    · intro _ _ h12
      extract_lets -merge y13
      refine ite_of ?_ ?_
      · exact h12
      · refine State.setPath_inv ?_
        exact h12
    · exact hx9
  clear_value x11
  have hx16 : State.Inv x16 := by
    unfold x16
    refine State.dropAwait_inv ?_
    refine State.setFab_inv ?_
    exact hx11
  clear_value x16
  have hx17 : State.Inv x17 := by
    unfold x17
    refine ite_of ?_ ?_
    · refine rateAck_inv ?_
      exact hx16
    · exact hx16
  clear_value x17
  have hx18 : State.Inv x18 := by
    unfold x18
    refine State.pump_inv ?_
    exact hx17
  clear_value x18
  refine ite_of ?_ ?_
  · refine State.drainAll_inv ?_
    refine State.openGates_inv ?_
    exact hx18
  · refine ite_of ?_ ?_
    · refine State.spillAcked_inv ?_
      exact hx18
    · exact hx18

theorem execAck_inv {a : Arrival} {s : Machine.State} (h0 : State.Inv s) :
    Kept (execAck a s) := by
  unfold execAck
  show State.Inv _
  refine State.plainRow_inv ?_ ?_
  · intro _ h0 _
    refine ackIn_inv ?_
    exact h0
  · exact h0

theorem execAckTimer_inv {src : Nat} {dst : Nat} {cls : Nat} {s : Machine.State} (h0 : State.Inv s) :
    Kept (execAckTimer src dst cls s) := by
  unfold execAckTimer
  extract_lets -merge y0
  split
  · show State.Inv _
    exact h0
  · show State.Inv _
    refine ite_of ?_ ?_
    · refine State.sendAck_inv ?_
      exact h0
    · exact h0

theorem resend_inv {s : Machine.State} {k : Nat} {psn : Nat} (h0 : State.Inv s) :
    State.Inv (resend s k psn) := by
  unfold resend
  extract_lets -merge y0
  split
  · exact h0
  · extract_lets -merge y1 y2
    split
    · exact h0
    · extract_lets -merge x3
      have hx3 : State.Inv x3 := by
        unfold x3
        refine State.setFlow_inv ?_
        exact h0
      clear_value x3
      refine State.bump_inv ?_
      refine State.sendOn_inv ?_
      exact hx3

theorem probePeer_inv {s : Machine.State} {m : Nat} (h0 : State.Inv s) :
    State.Inv (probePeer s m) := by
  unfold probePeer
  extract_lets -merge y0
  refine ite_of ?_ ?_
  · exact h0
  · refine foldl_inv ?_ ?_
    · intro _ _ h1
      refine State.sendCtrl_inv ?_
      exact h1
    · refine State.setPeer_inv ?_
      exact h0

theorem pathDown_inv {s : Machine.State} {m : Nat} {p : Nat} (h0 : State.Inv s) :
    State.Inv (pathDown s m p) := by
  unfold pathDown
  extract_lets -merge x0 y1
  have hx0 : State.Inv x0 := by
    unfold x0
    refine State.pathBit_inv ?_
    refine State.setPath_inv ?_
    exact h0
  clear_value x0
  refine foldl_inv ?_ ?_
  · intro _ _ h2
    refine resend_inv ?_
    exact h2
  · refine State.bump_inv ?_
    exact hx0

theorem execRetransmit_inv {src : Nat} {dst : Nat} {cls : Nat} {psn : Nat} {s : Machine.State} (h0 : State.Inv s) :
    Kept (execRetransmit src dst cls psn s) := by
  unfold execRetransmit
  extract_lets -merge y0 y1
  split
  · show State.Inv _
    exact h0
  · split
    · show State.Inv _
      exact h0
    · extract_lets -merge y2 x3 x4
      have hx3 : State.Inv x3 := by
        unfold x3
        refine State.setPath_inv ?_
        exact h0
      clear_value x3
      have hx4 : State.Inv x4 := by
        unfold x4
        refine ite_of ?_ ?_
        · refine pathDown_inv ?_
          exact hx3
        · refine resend_inv ?_
          exact hx3
      clear_value x4
      refine ite_of ?_ ?_
      · show State.Inv _
        exact h0
      · show State.Inv _
        refine probePeer_inv ?_
        exact hx4

theorem execPathHoldExpiry_inv {m : Nat} {p : Nat} {s : Machine.State} (h0 : State.Inv s) :
    Kept (execPathHoldExpiry m p s) := by
  unfold execPathHoldExpiry
  extract_lets -merge y0
  split
  · show State.Inv _
    exact h0
  · refine ite_of ?_ ?_
    · show State.Inv _
      exact h0
    · show State.Inv _
      refine State.sendCtrl_inv ?_
      refine State.setPath_inv ?_
      exact h0

theorem execPathProbeTimeout_inv {m : Nat} {p : Nat} {s : Machine.State} (h0 : State.Inv s) :
    Kept (execPathProbeTimeout m p s) := by
  unfold execPathProbeTimeout
  extract_lets -merge y0
  split
  · show State.Inv _
    exact h0
  · refine ite_of ?_ ?_
    · show State.Inv _
      exact h0
    · show State.Inv _
      refine State.setPath_inv ?_
      exact h0

theorem execRateIncrease_inv {m : Nat} {s : Machine.State} (h0 : State.Inv s) :
    Kept (execRateIncrease m s) := by
  unfold execRateIncrease
  extract_lets -merge y0 y1
  split
  · show State.Inv _
    exact h0
  · extract_lets -merge y2 y3
    refine ite_of ?_ ?_
    · show State.Inv _
      exact h0
    · show State.Inv _
      refine State.setFab_inv ?_
      exact h0

theorem execProbe_inv {a : Arrival} {s : Machine.State} (h0 : State.Inv s) :
    Kept (execProbe a s) := by
  unfold execProbe
  show State.Inv _
  refine State.plainRow_inv ?_ ?_
  · intro _ h0 _
    refine State.sendCtrl_inv ?_
    exact h0
  · exact h0

theorem probeReply_inv {s : Machine.State} {f : Frame} {port : Nat} (h0 : State.Inv s) :
    State.Inv (probeReply s f port) := by
  unfold probeReply
  extract_lets -merge y0 x1 x2 y4 x5
  have hx1 : State.Inv x1 := by
    unfold x1
    split
    · refine ite_of ?_ ?_
      · refine State.pathBit_inv ?_
        refine State.setPath_inv ?_
        exact h0
      · exact h0
    · exact h0
  clear_value x1
  have hx2 : State.Inv x2 := by
    unfold x2
    refine foldl_inv ?_ ?_
    · intro _ _ h3
      refine State.pump_inv ?_
      exact h3
    · exact hx1
  clear_value x2
  have hx5 : State.Inv x5 := by
    unfold x5
    refine State.setPair_inv ?_
    exact hx2
  clear_value x5
  split
  · refine ite_of ?_ ?_
    · refine ite_of ?_ ?_
      · refine State.dropRepairs_inv ?_
        refine State.bump_inv ?_
        refine State.pairTo_inv ?_
        exact hx5
      · exact hx5
    · exact hx2
  · exact hx2

theorem execProbeReply_inv {a : Arrival} {s : Machine.State} (h0 : State.Inv s) :
    Kept (execProbeReply a s) := by
  unfold execProbeReply
  show State.Inv _
  refine State.plainRow_inv ?_ ?_
  · intro _ h0 _
    refine probeReply_inv ?_
    exact h0
  · exact h0

theorem lossHeard_inv {s : Machine.State} {lost : Nat} (h0 : State.Inv s) :
    State.Inv (lossHeard s lost) := by
  unfold lossHeard
  extract_lets -merge x0 y1
  have hx0 : SndInv x0 := by
    unfold x0
    refine State.sendMirror_inv ?_
    exact h0
  clear_value x0
  refine ite_of ?_ ?_
  · exact h0
  · refine State.bump_inv ?_
    refine State.setPair_inv ?_
    show SndInv _
    exact hx0

theorem execLossTimeout_inv {m : Nat} {s : Machine.State} (h0 : State.Inv s) :
    Kept (execLossTimeout m s) := by
  unfold execLossTimeout
  extract_lets -merge y0 y1 y2 x3 y4 x5
  have hx3 : State.Inv x3 := by
    unfold x3
    refine State.bump_inv ?_
    refine State.setPeer_inv ?_
    refine State.setPeerState_inv ?_
    exact h0
  clear_value x3
  have hx5 : State.Inv x5 := by
    unfold x5
    refine ite_of ?_ ?_
    · refine lossHeard_inv ?_
      exact hx3
    · refine State.sendCtrl_inv ?_
      exact hx3
  clear_value x5
  refine ite_of ?_ ?_
  · show State.Inv _
    exact h0
  · show State.Inv _
    refine State.collLost_inv ?_
    exact hx5

theorem execLossReport_inv {a : Arrival} {s : Machine.State} (h0 : State.Inv s) :
    Kept (execLossReport a s) := by
  unfold execLossReport
  show State.Inv _
  refine State.plainRow_inv ?_ ?_
  · intro _ h0 _
    refine lossHeard_inv ?_
    exact h0
  · exact h0

theorem failPeer_inv {s : Machine.State} {m : Nat} (h0 : State.Inv s) :
    State.Inv (failPeer s m) := by
  unfold failPeer
  extract_lets -merge y0 y1 y2 x3
  have hx3 : State.Inv x3 := by
    unfold x3
    refine State.setFab_inv ?_
    exact h0
  clear_value x3
  refine State.kvTargetFails_inv ?_
  refine State.failAwait_inv ?_
  exact hx3

theorem execUnreachableTimeout_inv {m : Nat} {s : Machine.State} (h0 : State.Inv s) :
    Kept (execUnreachableTimeout m s) := by
  unfold execUnreachableTimeout
  refine ite_of ?_ ?_
  · show State.Inv _
    exact h0
  · show State.Inv _
    refine failPeer_inv ?_
    refine State.setPeerState_inv ?_
    exact h0

theorem resyncFlows_inv {s : Machine.State} {m : Nat} (h0 : State.Inv s) :
    State.Inv (resyncFlows s m) := by
  unfold resyncFlows
  refine foldl_inv ?_ ?_
  · intro _ _ h0
    extract_lets -merge y1 y2 y3
    refine State.sendResync_inv ?_
    refine State.setFlow_inv ?_
    exact h0
  · exact h0

theorem takeoverIn_inv {s : Machine.State} {f : Frame} (h0 : State.Inv s) :
    State.Inv (takeoverIn s f) := by
  unfold takeoverIn
  extract_lets -merge y0 x1 x2
  have hx1 : State.Inv x1 := by
    unfold x1
    refine State.setField_inv ?_
    refine State.setPeerState_inv ?_
    exact h0
  clear_value x1
  have hx2 : State.Inv x2 := by
    unfold x2
    refine ite_of ?_ ?_
    · refine resyncFlows_inv ?_
      refine State.bump_inv ?_
      refine State.setField_inv ?_
      refine State.setPeerState_inv ?_
      exact h0
    · exact h0
  clear_value x2
  refine ite_of ?_ ?_
  · exact h0
  · refine ite_of ?_ ?_
    · refine State.sendCtrl_inv ?_
      refine resyncFlows_inv ?_
      exact hx1
    · refine ite_of ?_ ?_
      · exact h0
      · refine State.sendCtrl_inv ?_
        exact hx2

theorem execTakeover_inv {a : Arrival} {s : Machine.State} (h0 : State.Inv s) :
    Kept (execTakeover a s) := by
  unfold execTakeover
  show State.Inv _
  refine State.plainRow_inv ?_ ?_
  · intro _ h0 _
    refine takeoverIn_inv ?_
    exact h0
  · exact h0

theorem execTakeoverAck_inv {a : Arrival} {s : Machine.State} (h0 : State.Inv s) :
    Kept (execTakeoverAck a s) := by
  unfold execTakeoverAck
  show State.Inv _
  refine State.plainRow_inv ?_ ?_
  · intro _ h0 _
    extract_lets -merge y1
    refine State.setFab_inv ?_
    exact h0
  · exact h0

theorem execTakeoverRepeat_inv {member : Nat} {s : Machine.State} (h0 : State.Inv s) :
    Kept (execTakeoverRepeat member s) := by
  unfold execTakeoverRepeat
  extract_lets -merge y0 y1
  split
  · show State.Inv _
    exact h0
  · extract_lets -merge y2
    refine ite_of ?_ ?_
    · show State.Inv _
      exact h0
    · refine ite_of ?_ ?_
      · show State.Inv _
        refine State.setFab_inv ?_
        exact h0
      · show State.Inv _
        refine State.sendCtrl_inv ?_
        refine State.setFab_inv ?_
        exact h0

theorem execResync_inv {a : Arrival} {s : Machine.State} (h0 : State.Inv s) :
    Kept (execResync a s) := by
  unfold execResync
  show State.Inv _
  refine State.plainRow_inv ?_ ?_
  · intro _ h0 _
    extract_lets -merge y1 y2
    refine State.sendPlain_inv ?_
    refine State.setIn_inv ?_
    exact h0
  · exact h0

theorem execResyncAck_inv {a : Arrival} {s : Machine.State} (h0 : State.Inv s) :
    Kept (execResyncAck a s) := by
  unfold execResyncAck
  show State.Inv _
  refine State.plainRow_inv ?_ ?_
  · intro _ h0 _
    extract_lets -merge y1 y2 y3
    refine ite_of ?_ ?_
    · exact h0
    · refine State.bump_inv ?_
      refine State.pump_inv ?_
      refine State.setFlow_inv ?_
      exact h0
  · exact h0

theorem execNeighbourSolicitation_inv {port : Nat} {addr : Nat} {s : Machine.State} (h0 : State.Inv s) :
    Kept (execNeighbourSolicitation port addr s) := by
  unfold execNeighbourSolicitation
  refine ite_of ?_ ?_
  · show State.Inv _
    refine State.emit_inv ?_
    exact h0
  · show State.Inv _
    exact h0

theorem execNeighbourAdvertisement_inv {port : Nat} {addr : Nat} {hop : List Byte} {s : Machine.State} (h0 : State.Inv s) :
    Kept (execNeighbourAdvertisement port addr hop s) := by
  unfold execNeighbourAdvertisement
  extract_lets -merge y0
  refine ite_of ?_ ?_
  · show State.Inv _
    refine State.setFab_inv ?_
    exact h0
  · show State.Inv _
    exact h0

theorem execNonBexicaFrame_inv {port : Nat} {s : Machine.State} (h0 : State.Inv s) :
    Kept (execNonBexicaFrame port s) := by
  unfold execNonBexicaFrame
  refine ite_of ?_ ?_
  · show State.Inv _
    refine State.bump_inv ?_
    exact h0
  · show State.Inv _
    exact h0

theorem State.showFab_inv {s : Machine.State} (h0 : State.Inv s) :
    State.Inv (State.showFab s) := by
  unfold State.showFab
  extract_lets -merge y0 y1 y2
  refine State.setField_inv ?_
  refine State.setField_inv ?_
  refine State.setField_inv ?_
  exact h0

theorem State.setLink_inv {s : Machine.State} {p : Nat} {st : Nat} (h0 : State.Inv s) :
    State.Inv (State.setLink s p st) := by
  unfold State.setLink
  extract_lets -merge y0 x1 y2 x3 x4 x6
  have hx1 : State.Inv x1 := by
    unfold x1
    refine ite_of ?_ ?_
    · exact h0
    · refine State.raise_inv ?_
      exact h0
  clear_value x1
  have hx3 : State.Inv x3 := by
    unfold x3
    refine State.setFab_inv ?_
    refine State.setField_inv ?_
    exact hx1
  clear_value x3
  have hx4 : State.Inv x4 := by
    unfold x4
    refine ite_of ?_ ?_
    · exact hx3
    · refine foldl_inv ?_ ?_
      · intro _ _ h5
        refine State.pathBit_inv ?_
        refine State.setPath_inv ?_
        exact h5
      · exact hx3
  clear_value x4
  have hx6 : State.Inv x6 := by
    unfold x6
    refine State.showFab_inv ?_
    exact hx4
  clear_value x6
  refine ite_of ?_ ?_
  · refine foldl_inv ?_ ?_
    · intro _ _ h7
      refine State.pump_inv ?_
      exact h7
    · exact hx6
  · exact hx6

theorem execSignalDetected_inv {port : Nat} {s : Machine.State} (h0 : State.Inv s) :
    Kept (execSignalDetected port s) := by
  unfold execSignalDetected
  refine ite_of ?_ ?_
  · show State.Inv _
    refine State.setLink_inv ?_
    exact h0
  · show State.Inv _
    exact h0

theorem execLockAchieved_inv {port : Nat} {s : Machine.State} (h0 : State.Inv s) :
    Kept (execLockAchieved port s) := by
  unfold execLockAchieved
  refine ite_of ?_ ?_
  · show State.Inv _
    refine State.setLink_inv ?_
    exact h0
  · show State.Inv _
    exact h0

theorem execTrainingTimeout_inv {port : Nat} {s : Machine.State} (h0 : State.Inv s) :
    Kept (execTrainingTimeout port s) := by
  unfold execTrainingTimeout
  refine ite_of ?_ ?_
  · show State.Inv _
    refine State.setLink_inv ?_
    exact h0
  · show State.Inv _
    exact h0

theorem execMkaPeerLive_inv {port : Nat} {s : Machine.State} (h0 : State.Inv s) :
    Kept (execMkaPeerLive port s) := by
  unfold execMkaPeerLive
  extract_lets -merge y0 x1
  have hx1 : State.Inv x1 := by
    unfold x1
    refine State.setFab_inv ?_
    exact h0
  clear_value x1
  refine ite_of ?_ ?_
  · show State.Inv _
    refine State.setLink_inv ?_
    exact hx1
  · show State.Inv _
    exact h0

theorem execSecuringTimeout_inv {port : Nat} {s : Machine.State} (h0 : State.Inv s) :
    Kept (execSecuringTimeout port s) := by
  unfold execSecuringTimeout
  refine ite_of ?_ ?_
  · show State.Inv _
    refine State.setLink_inv ?_
    exact h0
  · show State.Inv _
    exact h0

theorem execLinkLoss_inv {port : Nat} {uncorr : Nat} {s : Machine.State} (h0 : State.Inv s) :
    Kept (execLinkLoss port uncorr s) := by
  unfold execLinkLoss
  extract_lets -merge y0
  refine ite_of ?_ ?_
  · show State.Inv _
    refine State.setLink_inv ?_
    refine State.bump_inv ?_
    refine State.setFab_inv ?_
    exact h0
  · show State.Inv _
    exact h0

theorem execSakInstall_inv {port : Nat} {s : Machine.State} (h0 : State.Inv s) :
    Kept (execSakInstall port s) := by
  unfold execSakInstall
  extract_lets -merge y0
  refine ite_of ?_ ?_
  · show State.Inv _
    refine State.setFab_inv ?_
    exact h0
  · show State.Inv _
    exact h0

theorem State.zeroCak_inv {s : Machine.State} (h0 : State.Inv s) :
    State.Inv (State.zeroCak s) := by
  unfold State.zeroCak
  refine foldl_inv ?_ ?_
  · intro _ _ h0
    refine State.setRegN_inv ?_
    exact h0
  · exact h0

theorem State.cakLoad_inv {s : Machine.State} (h0 : State.Inv s) :
    State.Inv (State.cakLoad s) := by
  unfold State.cakLoad
  extract_lets -merge y0 x1 y2 y3 x4
  have hx1 : State.Inv x1 := by
    unfold x1
    refine State.auditInternal_inv ?_
    exact h0
  clear_value x1
  have hx4 : State.Inv x4 := by
    unfold x4
    refine State.showFab_inv ?_
    refine State.setField_inv ?_
    refine State.setFab_inv ?_
    refine State.zeroCak_inv ?_
    exact hx1
  clear_value x4
  refine foldl_inv ?_ ?_
  · intro _ _ h5
    refine State.emit_inv ?_
    exact h5
  · exact hx4

theorem State.cakClear_inv {s : Machine.State} (h0 : State.Inv s) :
    State.Inv (State.cakClear s) := by
  unfold State.cakClear
  extract_lets -merge x0 y1 x2
  have hx0 : State.Inv x0 := by
    unfold x0
    refine State.auditInternal_inv ?_
    exact h0
  clear_value x0
  have hx2 : State.Inv x2 := by
    unfold x2
    refine State.setField_inv ?_
    refine State.setFab_inv ?_
    refine State.zeroCak_inv ?_
    exact hx0
  clear_value x2
  refine State.showFab_inv ?_
  refine foldl_inv ?_ ?_
  · intro _ _ h3
    refine State.setLink_inv ?_
    exact h3
  · exact hx2

theorem execFabCakLoad_inv {s : Machine.State} (h0 : State.Inv s) :
    Kept (execFabCakLoad s) := by
  unfold execFabCakLoad
  show State.Inv _
  refine ite_of ?_ ?_
  · exact h0
  · refine State.cakLoad_inv ?_
    exact h0

theorem execFabCakClear_inv {s : Machine.State} (h0 : State.Inv s) :
    Kept (execFabCakClear s) := by
  unfold execFabCakClear
  show State.Inv _
  refine ite_of ?_ ?_
  · exact h0
  · refine State.cakClear_inv ?_
    exact h0

end Sys2Proof.Machine
end

