-- ==== Sys2Proof/Laws/InvBootOps.lean ====
section
/-! SUPPORT. Every function of Machine/BootOps.lean that answers a state keeps the invariant. -/

namespace Sys2Proof.Machine

set_option linter.tactic.unusedName false

theorem State.setBoot_inv {s : Machine.State} {b : BootSt} (h0 : State.Inv s) (hb : auditChain b.audit = true) :
    State.Inv (State.setBoot s b) :=
  ⟨h0.mem', h0.regs', h0.poison', h0.grans', h0.cues', hb⟩

theorem State.setFlash_inv {s : Machine.State} {f : FlashSt} (h0 : State.Inv s) :
    State.Inv (State.setFlash s f) := by
  unfold State.setFlash
  extract_lets -merge y0
  exact State.Inv.same (h0) rfl rfl rfl rfl rfl rfl

theorem State.setBootState_inv {s : Machine.State} {st : Nat} (h0 : State.Inv s) :
    State.Inv (State.setBootState s st) := by
  unfold State.setBootState
  refine State.setField_inv ?_
  exact h0

theorem State.setBootCause_inv {s : Machine.State} {c : Nat} (h0 : State.Inv s) :
    State.Inv (State.setBootCause s c) := by
  unfold State.setBootCause
  refine State.setField_inv ?_
  exact h0

theorem State.setUpd_inv {s : Machine.State} {st : Nat} (h0 : State.Inv s) :
    State.Inv (State.setUpd s st) := by
  unfold State.setUpd
  extract_lets -merge y0
  refine State.raise_inv ?_
  refine State.setField_inv ?_
  refine State.setFlash_inv ?_
  exact h0

theorem State.showBytes_inv {s : Machine.State} {off : Nat → Nat} {n : Nat} {b : List Byte} (h0 : State.Inv s) :
    State.Inv (State.showBytes s off n b) := by
  unfold State.showBytes
  refine foldl_inv ?_ ?_
  · intro _ _ h0
    refine State.setRegN_inv ?_
    exact h0
  · exact h0

theorem State.startFallback_inv {s : Machine.State} (h0 : State.Inv s) :
    State.Inv (State.startFallback s) := by
  unfold State.startFallback
  extract_lets -merge x0
  have hx0 : State.Inv x0 := by
    unfold x0
    refine State.setRegN_inv ?_
    refine State.setUpd_inv ?_
    exact h0
  clear_value x0
  refine ite_of ?_ ?_
  · exact h0
  · refine getD_inv ?_ ?_
    · refine State.addCue_inv ?_
      exact hx0
    · exact hx0

end Sys2Proof.Machine
end

