-- ==== Sys2Proof/Laws/InvVecOps.lean ====
section
/-! SUPPORT. Every function of Machine/VecOps.lean that answers a state keeps the invariant. -/

namespace Sys2Proof.Machine

set_option linter.tactic.unusedName false

theorem State.vecServed_inv {s : Machine.State} {n : Nat} {i : Nat} (h0 : State.Inv s) :
    State.Inv (State.vecServed s n i) := by
  unfold State.vecServed
  extract_lets -merge y0
  refine State.setCore_inv ?_
  exact h0

theorem beginVec_inv {sem : VecEnv → Run VecOut} {n : Nat} {p : Nat} {stream : Nat} {k : Nat} {s : Machine.State} {c : Ctx} {q : QEnt} (h0 : State.Inv s) :
    State.Inv (beginVec sem n p stream k s c q) := by
  unfold beginVec
  split
  · refine ite_of ?_ ?_
    · exact h0
    · refine State.vecServed_inv ?_
      refine State.haltCtx_inv ?_
      refine State.putCtx_inv ?_
      exact h0
  · extract_lets -merge x0
    have hx0 : State.Inv x0 := by
      unfold x0
      refine State.putCtx_inv ?_
      exact h0
    clear_value x0
    refine State.vecServed_inv ?_
    exact State.Inv.same (hx0) rfl rfl rfl rfl rfl rfl

theorem startVec_inv {op : Nat} {sem : VecEnv → Run VecOut} {n : Nat} {p : Nat} {stream : Nat} {s : Machine.State} (h0 : State.Inv s) :
    State.Inv (startVec op sem n p stream s) := by
  unfold startVec
  refine ite_of ?_ ?_
  · exact h0
  · split
    · split
      · refine ite_of ?_ ?_
        · refine beginVec_inv ?_
          exact h0
        · exact h0
      · exact h0
    · refine State.startHead_inv ?_ ?_
      · exact h0
      · intro _ _
        refine beginVec_inv ?_
        exact h0

end Sys2Proof.Machine
end

