-- ==== Sys2Proof/Laws/InvMatrix.lean ====
section
/-! SUPPORT. Every function of Machine/Matrix.lean that answers a state keeps the invariant. -/

namespace Sys2Proof.Machine

set_option linter.tactic.unusedName false

theorem State.ldsStep_inv {s : Machine.State} {n : Nat} {pi : Nat} (h0 : State.Inv s) :
    State.Inv (State.ldsStep s n pi) := by
  unfold State.ldsStep
  extract_lets -merge y0
  split
  · split
    · refine State.haltCtx_inv ?_
      exact h0
    · refine State.setPart_inv ?_
      exact h0
  · exact h0

theorem startMx_inv {op : Nat} {n : Nat} {p : Nat} {stream : Nat} {s : Machine.State} {k : Part → Ctx → QEnt → Run Part} (h0 : State.Inv s) :
    State.Inv (startMx op n p stream s k) := by
  unfold startMx
  refine State.startHead_inv ?_ ?_
  · exact h0
  · intro _ _
    split
    · refine ite_of ?_ ?_
      · exact h0
      · refine State.haltCtx_inv ?_
        refine State.putCtx_inv ?_
        exact h0
    · refine State.putCtx_inv ?_
      refine State.setPart_inv ?_
      exact h0

theorem execMxLds_inv {l : Loc} {s : Machine.State} (h0 : State.Inv s) :
    Kept (execMxLds l s) := by
  unfold execMxLds
  show State.Inv _
  refine startMx_inv ?_
  exact h0

theorem execMxSwap_inv {l : Loc} {s : Machine.State} (h0 : State.Inv s) :
    Kept (execMxSwap l s) := by
  unfold execMxSwap
  show State.Inv _
  refine startMx_inv ?_
  exact h0

theorem State.issueRow_inv {s : Machine.State} {n : Nat} {pi : Nat} (h0 : State.Inv s) :
    State.Inv (State.issueRow s n pi) := by
  unfold State.issueRow
  extract_lets -merge y0
  split
  · split
    · refine State.haltCtx_inv ?_
      exact h0
    · extract_lets -merge y1
      refine State.setPart_inv ?_
      exact h0
  · exact h0

theorem State.fillRows_inv {n pi k : Nat} {s : Machine.State} (h0 : State.Inv s) : State.Inv (State.fillRows n pi k s) := by
  induction k generalizing s with
  | zero => exact h0
  | succ k ih =>
    unfold State.fillRows
    exact ite_of (ih (State.issueRow_inv h0)) h0

theorem execMxMac_inv {l : Loc} {s : Machine.State} (h0 : State.Inv s) :
    Kept (execMxMac l s) := by
  unfold execMxMac
  extract_lets -merge x0
  have hx0 : State.Inv x0 := by
    unfold x0
    refine startMx_inv ?_
    exact h0
  clear_value x0
  show State.Inv _
  refine ite_of ?_ ?_
  · exact h0
  · refine State.issueRow_inv ?_
    exact hx0

theorem execSliceAccumulate_inv {core : Nat} {part : Nat} {s : Machine.State} (h0 : State.Inv s) :
    Kept (execSliceAccumulate core part s) := by
  unfold execSliceAccumulate
  extract_lets -merge x0 y1
  have hx0 : State.Inv x0 := by
    unfold x0
    refine State.fillRows_inv ?_
    exact h0
  clear_value x0
  split
  · show State.Inv _
    exact hx0
  · extract_lets -merge y2
    refine ite_of ?_ ?_
    · show State.Inv _
      exact hx0
    · show State.Inv _
      refine State.setPart_inv ?_
      exact hx0

theorem execMxDrain_inv {l : Loc} {s : Machine.State} (h0 : State.Inv s) :
    Kept (execMxDrain l s) := by
  unfold execMxDrain
  show State.Inv _
  refine startMx_inv ?_
  exact h0

theorem flushErf_inv {s : Machine.State} {base : Nat} {a : Int} {last : Bool} {k : Nat} {d : Drain} (h0 : State.Inv s) :
    FstInv (flushErf s base a last k d) := by
  induction k generalizing s d with
  | zero => exact h0
  | succ k ih =>
    unfold flushErf
    exact ite_of (ih (State.writeBytes_inv h0)) h0

theorem drainStep_inv {s : Machine.State} {n : Nat} {pi : Nat} {p : Part} {c : Ctx} {d : Drain} (h0 : State.Inv s) :
    State.Inv (drainStep s n pi p c d) := by
  unfold drainStep
  extract_lets -merge y0 y1 y2 y3 y4 y5 y6 y7 y8 y9 y10 y11 y12 y13 y14 x15
  have hx15 : FstInv x15 := by
    unfold x15
    refine flushErf_inv ?_
    exact h0
  clear_value x15
  refine ite_of ?_ ?_
  · exact h0
  · refine ite_of ?_ ?_
    · refine State.setPart_inv ?_
      exact h0
    · refine ite_of ?_ ?_
      · refine State.setPart_inv ?_
        show FstInv _
        exact hx15
      · refine State.setPart_inv ?_
        refine State.writeBytes_inv ?_
        exact h0

theorem execDrainEntryRead_inv {core : Nat} {part : Nat} {s : Machine.State} (h0 : State.Inv s) :
    Kept (execDrainEntryRead core part s) := by
  unfold execDrainEntryRead
  extract_lets -merge y0
  split
  · show State.Inv _
    refine drainStep_inv ?_
    exact h0
  · show State.Inv _
    exact h0

theorem execTileQueuePush_inv {core : Nat} {part : Nat} {s : Machine.State} (h0 : State.Inv s) :
    Kept (execTileQueuePush core part s) := by
  unfold execTileQueuePush
  extract_lets -merge y0
  split
  · show State.Inv _
    exact h0
  · refine ite_of ?_ ?_
    · show State.Inv _
      refine State.setPart_inv ?_
      exact h0
    · show State.Inv _
      exact h0

theorem execMxGhost_inv {l : Loc} {s : Machine.State} (h0 : State.Inv s) :
    Kept (execMxGhost l s) := by
  unfold execMxGhost
  show State.Inv _
  refine startMx_inv ?_
  exact h0

theorem execGhostLightStart_inv {core : Nat} {part : Nat} {rows : Nat} {s : Machine.State} (h0 : State.Inv s) :
    Kept (execGhostLightStart core part rows s) := by
  unfold execGhostLightStart
  extract_lets -merge y0 y1 y2
  show State.Inv _
  refine ite_of ?_ ?_
  · refine State.setPart_inv ?_
    exact h0
  · exact h0

theorem execGhostLightEnd_inv {core : Nat} {part : Nat} {s : Machine.State} (h0 : State.Inv s) :
    Kept (execGhostLightEnd core part s) := by
  unfold execGhostLightEnd
  extract_lets -merge y0 y1
  show State.Inv _
  refine ite_of ?_ ?_
  · refine State.setPart_inv ?_
    exact h0
  · exact h0

theorem State.endGhosts_inv {s : Machine.State} {h : Nat} (h0 : State.Inv s) :
    State.Inv (State.endGhosts s h) := by
  unfold State.endGhosts
  refine foldl_inv ?_ ?_
  · intro _ _ h0
    refine foldl_inv ?_ ?_
    · intro _ _ h1
      refine ite_of ?_ ?_
      · refine State.setPart_inv ?_
        exact h1
      · exact h1
    · exact h0
  · exact h0

end Sys2Proof.Machine
end

