-- ==== Sys2Proof/Laws/InvVector.lean ====
section
/-! SUPPORT. Every function of Machine/Vector.lean that answers a state keeps the invariant. -/

namespace Sys2Proof.Machine

set_option linter.tactic.unusedName false

theorem execVxLdv_inv {l : Loc} {s : Machine.State} (h0 : State.Inv s) :
    Kept (execVxLdv l s) := by
  unfold execVxLdv
  show State.Inv _
  refine startVec_inv ?_
  exact h0

theorem execVxStv_inv {l : Loc} {s : Machine.State} (h0 : State.Inv s) :
    Kept (execVxStv l s) := by
  unfold execVxStv
  show State.Inv _
  refine startVec_inv ?_
  exact h0

theorem execVxAdd_inv {l : Loc} {s : Machine.State} (h0 : State.Inv s) :
    Kept (execVxAdd l s) := by
  unfold execVxAdd
  show State.Inv _
  refine startVec_inv ?_
  exact h0

theorem execVxSub_inv {l : Loc} {s : Machine.State} (h0 : State.Inv s) :
    Kept (execVxSub l s) := by
  unfold execVxSub
  show State.Inv _
  refine startVec_inv ?_
  exact h0

theorem execVxMul_inv {l : Loc} {s : Machine.State} (h0 : State.Inv s) :
    Kept (execVxMul l s) := by
  unfold execVxMul
  show State.Inv _
  refine startVec_inv ?_
  exact h0

theorem execVxFma_inv {l : Loc} {s : Machine.State} (h0 : State.Inv s) :
    Kept (execVxFma l s) := by
  unfold execVxFma
  show State.Inv _
  refine startVec_inv ?_
  exact h0

theorem execVxMax_inv {l : Loc} {s : Machine.State} (h0 : State.Inv s) :
    Kept (execVxMax l s) := by
  unfold execVxMax
  show State.Inv _
  refine startVec_inv ?_
  exact h0

theorem execVxMin_inv {l : Loc} {s : Machine.State} (h0 : State.Inv s) :
    Kept (execVxMin l s) := by
  unfold execVxMin
  show State.Inv _
  refine startVec_inv ?_
  exact h0

theorem execVxAbs_inv {l : Loc} {s : Machine.State} (h0 : State.Inv s) :
    Kept (execVxAbs l s) := by
  unfold execVxAbs
  show State.Inv _
  refine startVec_inv ?_
  exact h0

theorem execVxNeg_inv {l : Loc} {s : Machine.State} (h0 : State.Inv s) :
    Kept (execVxNeg l s) := by
  unfold execVxNeg
  show State.Inv _
  refine startVec_inv ?_
  exact h0

theorem execVxDiv_inv {l : Loc} {s : Machine.State} (h0 : State.Inv s) :
    Kept (execVxDiv l s) := by
  unfold execVxDiv
  show State.Inv _
  refine startVec_inv ?_
  exact h0

theorem execVxSqrt_inv {l : Loc} {s : Machine.State} (h0 : State.Inv s) :
    Kept (execVxSqrt l s) := by
  unfold execVxSqrt
  show State.Inv _
  refine startVec_inv ?_
  exact h0

theorem execVxRsqrt_inv {l : Loc} {s : Machine.State} (h0 : State.Inv s) :
    Kept (execVxRsqrt l s) := by
  unfold execVxRsqrt
  show State.Inv _
  refine startVec_inv ?_
  exact h0

theorem execVxExp_inv {l : Loc} {s : Machine.State} (h0 : State.Inv s) :
    Kept (execVxExp l s) := by
  unfold execVxExp
  show State.Inv _
  refine startVec_inv ?_
  exact h0

theorem execVxLog_inv {l : Loc} {s : Machine.State} (h0 : State.Inv s) :
    Kept (execVxLog l s) := by
  unfold execVxLog
  show State.Inv _
  refine startVec_inv ?_
  exact h0

theorem execVxCmp_inv {l : Loc} {s : Machine.State} (h0 : State.Inv s) :
    Kept (execVxCmp l s) := by
  unfold execVxCmp
  show State.Inv _
  refine startVec_inv ?_
  exact h0

theorem execVxSel_inv {l : Loc} {s : Machine.State} (h0 : State.Inv s) :
    Kept (execVxSel l s) := by
  unfold execVxSel
  show State.Inv _
  refine startVec_inv ?_
  exact h0

theorem execVxCvt_inv {l : Loc} {s : Machine.State} (h0 : State.Inv s) :
    Kept (execVxCvt l s) := by
  unfold execVxCvt
  show State.Inv _
  refine startVec_inv ?_
  exact h0

theorem execVxRsum_inv {l : Loc} {s : Machine.State} (h0 : State.Inv s) :
    Kept (execVxRsum l s) := by
  unfold execVxRsum
  show State.Inv _
  refine startVec_inv ?_
  exact h0

theorem execVxRmax_inv {l : Loc} {s : Machine.State} (h0 : State.Inv s) :
    Kept (execVxRmax l s) := by
  unfold execVxRmax
  show State.Inv _
  refine startVec_inv ?_
  exact h0

theorem execVxRmin_inv {l : Loc} {s : Machine.State} (h0 : State.Inv s) :
    Kept (execVxRmin l s) := by
  unfold execVxRmin
  show State.Inv _
  refine startVec_inv ?_
  exact h0

theorem execVxRarg_inv {l : Loc} {s : Machine.State} (h0 : State.Inv s) :
    Kept (execVxRarg l s) := by
  unfold execVxRarg
  show State.Inv _
  refine startVec_inv ?_
  exact h0

theorem execVxRcnt_inv {l : Loc} {s : Machine.State} (h0 : State.Inv s) :
    Kept (execVxRcnt l s) := by
  unfold execVxRcnt
  show State.Inv _
  refine startVec_inv ?_
  exact h0

theorem execVxRdot_inv {l : Loc} {s : Machine.State} (h0 : State.Inv s) :
    Kept (execVxRdot l s) := by
  unfold execVxRdot
  show State.Inv _
  refine startVec_inv ?_
  exact h0

theorem execVxEadd_inv {l : Loc} {s : Machine.State} (h0 : State.Inv s) :
    Kept (execVxEadd l s) := by
  unfold execVxEadd
  show State.Inv _
  refine startVec_inv ?_
  exact h0

theorem execVxAdam_inv {l : Loc} {s : Machine.State} (h0 : State.Inv s) :
    Kept (execVxAdam l s) := by
  unfold execVxAdam
  show State.Inv _
  refine startVec_inv ?_
  exact h0

theorem execVxTopk_inv {l : Loc} {s : Machine.State} (h0 : State.Inv s) :
    Kept (execVxTopk l s) := by
  unfold execVxTopk
  show State.Inv _
  refine startVec_inv ?_
  exact h0

theorem execVxTopp_inv {l : Loc} {s : Machine.State} (h0 : State.Inv s) :
    Kept (execVxTopp l s) := by
  unfold execVxTopp
  show State.Inv _
  refine startVec_inv ?_
  exact h0

theorem execVxGmax_inv {l : Loc} {s : Machine.State} (h0 : State.Inv s) :
    Kept (execVxGmax l s) := by
  unfold execVxGmax
  show State.Inv _
  refine startVec_inv ?_
  exact h0

theorem execVxRnd_inv {l : Loc} {s : Machine.State} (h0 : State.Inv s) :
    Kept (execVxRnd l s) := by
  unfold execVxRnd
  show State.Inv _
  refine startVec_inv ?_
  exact h0

theorem execTileQueuePop_inv {core : Nat} {part : Nat} {s : Machine.State} (h0 : State.Inv s) :
    Kept (execTileQueuePop core part s) := by
  unfold execTileQueuePop
  extract_lets -merge y0
  split
  · show State.Inv _
    exact h0
  · split
    · show State.Inv _
      exact h0
    · refine ite_of ?_ ?_
      · show State.Inv _
        refine State.setPart_inv ?_
        exact h0
      · show State.Inv _
        exact h0

end Sys2Proof.Machine
end

