-- ==== Sys2Proof/Laws/InvControl.lean ====
section
/-! SUPPORT. Every function of Machine/Control.lean that answers a state keeps the invariant. -/

namespace Sys2Proof.Machine

set_option linter.tactic.unusedName false

theorem semLi_inv {l : Loc} {w : IWord} {s : Machine.State} {c : Ctx} (h0 : State.Inv s) : RunFst (semLi l w s c) := h0

theorem semLih_inv {l : Loc} {w : IWord} {s : Machine.State} {c : Ctx} (h0 : State.Inv s) : RunFst (semLih l w s c) := h0

theorem semAdd_inv {l : Loc} {w : IWord} {s : Machine.State} {c : Ctx} (h0 : State.Inv s) : RunFst (semAdd l w s c) := h0

theorem semSub_inv {l : Loc} {w : IWord} {s : Machine.State} {c : Ctx} (h0 : State.Inv s) : RunFst (semSub l w s c) := h0

theorem semMul_inv {l : Loc} {w : IWord} {s : Machine.State} {c : Ctx} (h0 : State.Inv s) : RunFst (semMul l w s c) := h0

theorem semAnd_inv {l : Loc} {w : IWord} {s : Machine.State} {c : Ctx} (h0 : State.Inv s) : RunFst (semAnd l w s c) := h0

theorem semOr_inv {l : Loc} {w : IWord} {s : Machine.State} {c : Ctx} (h0 : State.Inv s) : RunFst (semOr l w s c) := h0

theorem semXor_inv {l : Loc} {w : IWord} {s : Machine.State} {c : Ctx} (h0 : State.Inv s) : RunFst (semXor l w s c) := h0

theorem semShl_inv {l : Loc} {w : IWord} {s : Machine.State} {c : Ctx} (h0 : State.Inv s) : RunFst (semShl l w s c) := h0

theorem semShr_inv {l : Loc} {w : IWord} {s : Machine.State} {c : Ctx} (h0 : State.Inv s) : RunFst (semShr l w s c) := h0

theorem semSra_inv {l : Loc} {w : IWord} {s : Machine.State} {c : Ctx} (h0 : State.Inv s) : RunFst (semSra l w s c) := h0

theorem semCmpCp_inv {l : Loc} {w : IWord} {s : Machine.State} {c : Ctx} (h0 : State.Inv s) : RunFst (semCmpCp l w s c) := h0

theorem semRss_inv {l : Loc} {w : IWord} {s : Machine.State} {c : Ctx} (h0 : State.Inv s) : RunFst (semRss l w s c) := h0

theorem semScr_inv {l : Loc} {w : IWord} {s : Machine.State} {c : Ctx} (h0 : State.Inv s) : RunFst (semScr l w s c) := h0

theorem semScw_inv {l : Loc} {w : IWord} {s : Machine.State} {c : Ctx} (h0 : State.Inv s) : RunFst (semScw l w s c) := h0

theorem semGset_inv {l : Loc} {w : IWord} {s : Machine.State} {c : Ctx} (h0 : State.Inv s) : RunFst (semGset l w s c) := h0

theorem semNop_inv {l : Loc} {w : IWord} {s : Machine.State} {c : Ctx} (h0 : State.Inv s) : RunFst (semNop l w s c) := h0

theorem semLd_inv {l : Loc} {w : IWord} {s : Machine.State} {c : Ctx} (h0 : State.Inv s) : RunFst (semLd l w s c) := by
  unfold semLd
  cases cpStage w c with
  | error e => trivial
  | ok a =>
    show RunFst (Except.bind (s.stageRead l.core c a 8) _)
    cases s.stageRead l.core c a 8 with
    | error e => trivial
    | ok b => exact h0

theorem semSt_inv {l : Loc} {w : IWord} {s : Machine.State} {c : Ctx} (h0 : State.Inv s) : RunFst (semSt l w s c) := by
  unfold semSt
  cases cpStage w c with
  | error e => trivial
  | ok a =>
    show RunFst (Except.bind (c.stageRoom a 8) _)
    cases c.stageRoom a 8 with
    | error e => trivial
    | ok b => exact State.writeBytes_inv h0

theorem semBr_inv {l : Loc} {w : IWord} {s : Machine.State} {c : Ctx} (h0 : State.Inv s) : RunFst (semBr l w s c) := h0

theorem semJ_inv {l : Loc} {w : IWord} {s : Machine.State} {c : Ctx} (h0 : State.Inv s) : RunFst (semJ l w s c) := by
  unfold semJ
  exact ite_of (p := RunFst) trivial h0

theorem semFork_inv {l : Loc} {w : IWord} {s : Machine.State} {c : Ctx} (h0 : State.Inv s) : RunFst (semFork l w s c) := by
  unfold semFork
  exact ite_of (p := RunFst) h0 trivial

theorem semEnd_inv {l : Loc} {w : IWord} {s : Machine.State} {c : Ctx} (h0 : State.Inv s) : RunFst (semEnd l w s c) := h0

theorem semPark_inv {l : Loc} {w : IWord} {s : Machine.State} {c : Ctx} (h0 : State.Inv s) : RunFst (semPark l w s c) := by
  unfold semPark
  exact ite_of (p := RunFst) h0 (ite_of (p := RunFst) h0 trivial)

theorem semQsh_inv {l : Loc} {w : IWord} {s : Machine.State} {c : Ctx} (h0 : State.Inv s) : RunFst (semQsh l w s c) := by
  unfold semQsh
  exact ite_of (p := RunFst) trivial h0

theorem semEvt_inv {l : Loc} {w : IWord} {s : Machine.State} {c : Ctx} (h0 : State.Inv s) : RunFst (semEvt l w s c) := by
  show State.Inv _
  exact ite_of (State.raise_inv (State.raise_inv h0)) (State.raise_inv h0)

theorem cpSem_inv {op : Nat} {l : Loc} {w : IWord} {s : Machine.State} {c : Ctx} (h0 : State.Inv s) : RunFst (cpSem op l w s c) := by
  let p : CpSem → Prop := fun f => RunFst (f l w s c)
  show p (cpSem op)
  unfold cpSem
  refine ite_of (p := p) (semLi_inv h0) ?_
  refine ite_of (p := p) (semLih_inv h0) ?_
  refine ite_of (p := p) (semAdd_inv h0) ?_
  refine ite_of (p := p) (semSub_inv h0) ?_
  refine ite_of (p := p) (semMul_inv h0) ?_
  refine ite_of (p := p) (semAnd_inv h0) ?_
  refine ite_of (p := p) (semOr_inv h0) ?_
  refine ite_of (p := p) (semXor_inv h0) ?_
  refine ite_of (p := p) (semShl_inv h0) ?_
  refine ite_of (p := p) (semShr_inv h0) ?_
  refine ite_of (p := p) (semSra_inv h0) ?_
  refine ite_of (p := p) (semCmpCp_inv h0) ?_
  refine ite_of (p := p) (semLd_inv h0) ?_
  refine ite_of (p := p) (semSt_inv h0) ?_
  refine ite_of (p := p) (semBr_inv h0) ?_
  refine ite_of (p := p) (semJ_inv h0) ?_
  refine ite_of (p := p) (semRss_inv h0) ?_
  refine ite_of (p := p) (semScr_inv h0) ?_
  refine ite_of (p := p) (semScw_inv h0) ?_
  refine ite_of (p := p) (semGset_inv h0) ?_
  refine ite_of (p := p) (semFork_inv h0) ?_
  refine ite_of (p := p) (semEnd_inv h0) ?_
  refine ite_of (p := p) (semPark_inv h0) ?_
  refine ite_of (p := p) (semQsh_inv h0) ?_
  refine ite_of (p := p) (semEvt_inv h0) ?_
  exact semNop_inv h0

theorem cpRun_inv {sem : CpSem} {l : Loc} {w : IWord} {s : Machine.State} {c : Ctx}
    (h0 : ∀ l w a, State.Inv a → ∀ c, RunFst (sem l w a c)) (h1 : State.Inv s) : State.Inv (cpRun sem l w s c) := by
  unfold cpRun
  extract_lets -merge y0 y1
  refine ite_of (State.setCtx_inv h1) (ite_of (State.haltCtx_inv h1) ?_)
  split
  · exact State.setCtx_inv h1
  · exact State.haltCtx_inv h1
  · exact State.putCtx_inv (RunFst_ok (by assumption) (h0 _ _ _ h1 _))

theorem cpExec_inv {op : Nat} {sem : CpSem} {l : Loc} {w : IWord} {s : Machine.State}
    (h0 : ∀ l w a, State.Inv a → ∀ c, RunFst (sem l w a c)) (h1 : State.Inv s) : State.Inv (cpExec op sem l w s) := by
  unfold cpExec
  split
  · exact h1
  · exact ite_of (cpRun_inv h0 h1) h1

theorem execCpLi_inv {l : Loc} {w : IWord} {s : Machine.State} (h0 : State.Inv s) :
    Kept (execCpLi l w s) := by
  unfold execCpLi
  show State.Inv _
  refine cpExec_inv ?_ ?_
  · intro _ _ _ h0 _
    refine semLi_inv ?_
    exact h0
  · exact h0

theorem execCpLih_inv {l : Loc} {w : IWord} {s : Machine.State} (h0 : State.Inv s) :
    Kept (execCpLih l w s) := by
  unfold execCpLih
  show State.Inv _
  refine cpExec_inv ?_ ?_
  · intro _ _ _ h0 _
    refine semLih_inv ?_
    exact h0
  · exact h0

theorem execCpAdd_inv {l : Loc} {w : IWord} {s : Machine.State} (h0 : State.Inv s) :
    Kept (execCpAdd l w s) := by
  unfold execCpAdd
  show State.Inv _
  refine cpExec_inv ?_ ?_
  · intro _ _ _ h0 _
    refine semAdd_inv ?_
    exact h0
  · exact h0

theorem execCpSub_inv {l : Loc} {w : IWord} {s : Machine.State} (h0 : State.Inv s) :
    Kept (execCpSub l w s) := by
  unfold execCpSub
  show State.Inv _
  refine cpExec_inv ?_ ?_
  · intro _ _ _ h0 _
    refine semSub_inv ?_
    exact h0
  · exact h0

theorem execCpMul_inv {l : Loc} {w : IWord} {s : Machine.State} (h0 : State.Inv s) :
    Kept (execCpMul l w s) := by
  unfold execCpMul
  show State.Inv _
  refine cpExec_inv ?_ ?_
  · intro _ _ _ h0 _
    refine semMul_inv ?_
    exact h0
  · exact h0

theorem execCpAnd_inv {l : Loc} {w : IWord} {s : Machine.State} (h0 : State.Inv s) :
    Kept (execCpAnd l w s) := by
  unfold execCpAnd
  show State.Inv _
  refine cpExec_inv ?_ ?_
  · intro _ _ _ h0 _
    refine semAnd_inv ?_
    exact h0
  · exact h0

theorem execCpOr_inv {l : Loc} {w : IWord} {s : Machine.State} (h0 : State.Inv s) :
    Kept (execCpOr l w s) := by
  unfold execCpOr
  show State.Inv _
  refine cpExec_inv ?_ ?_
  · intro _ _ _ h0 _
    refine semOr_inv ?_
    exact h0
  · exact h0

theorem execCpXor_inv {l : Loc} {w : IWord} {s : Machine.State} (h0 : State.Inv s) :
    Kept (execCpXor l w s) := by
  unfold execCpXor
  show State.Inv _
  refine cpExec_inv ?_ ?_
  · intro _ _ _ h0 _
    refine semXor_inv ?_
    exact h0
  · exact h0

theorem execCpShl_inv {l : Loc} {w : IWord} {s : Machine.State} (h0 : State.Inv s) :
    Kept (execCpShl l w s) := by
  unfold execCpShl
  show State.Inv _
  refine cpExec_inv ?_ ?_
  · intro _ _ _ h0 _
    refine semShl_inv ?_
    exact h0
  · exact h0

theorem execCpShr_inv {l : Loc} {w : IWord} {s : Machine.State} (h0 : State.Inv s) :
    Kept (execCpShr l w s) := by
  unfold execCpShr
  show State.Inv _
  refine cpExec_inv ?_ ?_
  · intro _ _ _ h0 _
    refine semShr_inv ?_
    exact h0
  · exact h0

theorem execCpSra_inv {l : Loc} {w : IWord} {s : Machine.State} (h0 : State.Inv s) :
    Kept (execCpSra l w s) := by
  unfold execCpSra
  show State.Inv _
  refine cpExec_inv ?_ ?_
  · intro _ _ _ h0 _
    refine semSra_inv ?_
    exact h0
  · exact h0

theorem execCpCmp_inv {l : Loc} {w : IWord} {s : Machine.State} (h0 : State.Inv s) :
    Kept (execCpCmp l w s) := by
  unfold execCpCmp
  show State.Inv _
  refine cpExec_inv ?_ ?_
  · intro _ _ _ h0 _
    refine semCmpCp_inv ?_
    exact h0
  · exact h0

theorem execCpLd_inv {l : Loc} {w : IWord} {s : Machine.State} (h0 : State.Inv s) :
    Kept (execCpLd l w s) := by
  unfold execCpLd
  show State.Inv _
  refine cpExec_inv ?_ ?_
  · intro _ _ _ h0 _
    refine semLd_inv ?_
    exact h0
  · exact h0

theorem execCpSt_inv {l : Loc} {w : IWord} {s : Machine.State} (h0 : State.Inv s) :
    Kept (execCpSt l w s) := by
  unfold execCpSt
  show State.Inv _
  refine cpExec_inv ?_ ?_
  · intro _ _ _ h0 _
    refine semSt_inv ?_
    exact h0
  · exact h0

theorem execCpBr_inv {l : Loc} {w : IWord} {s : Machine.State} (h0 : State.Inv s) :
    Kept (execCpBr l w s) := by
  unfold execCpBr
  show State.Inv _
  refine cpExec_inv ?_ ?_
  · intro _ _ _ h0 _
    refine semBr_inv ?_
    exact h0
  · exact h0

theorem execCpJ_inv {l : Loc} {w : IWord} {s : Machine.State} (h0 : State.Inv s) :
    Kept (execCpJ l w s) := by
  unfold execCpJ
  show State.Inv _
  refine cpExec_inv ?_ ?_
  · intro _ _ _ h0 _
    refine semJ_inv ?_
    exact h0
  · exact h0

theorem execCpRss_inv {l : Loc} {w : IWord} {s : Machine.State} (h0 : State.Inv s) :
    Kept (execCpRss l w s) := by
  unfold execCpRss
  show State.Inv _
  refine cpExec_inv ?_ ?_
  · intro _ _ _ h0 _
    refine semRss_inv ?_
    exact h0
  · exact h0

theorem execCpScr_inv {l : Loc} {w : IWord} {s : Machine.State} (h0 : State.Inv s) :
    Kept (execCpScr l w s) := by
  unfold execCpScr
  show State.Inv _
  refine cpExec_inv ?_ ?_
  · intro _ _ _ h0 _
    refine semScr_inv ?_
    exact h0
  · exact h0

theorem execCpScw_inv {l : Loc} {w : IWord} {s : Machine.State} (h0 : State.Inv s) :
    Kept (execCpScw l w s) := by
  unfold execCpScw
  show State.Inv _
  refine cpExec_inv ?_ ?_
  · intro _ _ _ h0 _
    refine semScw_inv ?_
    exact h0
  · exact h0

theorem execCpGset_inv {l : Loc} {w : IWord} {s : Machine.State} (h0 : State.Inv s) :
    Kept (execCpGset l w s) := by
  unfold execCpGset
  show State.Inv _
  refine cpExec_inv ?_ ?_
  · intro _ _ _ h0 _
    refine semGset_inv ?_
    exact h0
  · exact h0

theorem execCpFork_inv {l : Loc} {w : IWord} {s : Machine.State} (h0 : State.Inv s) :
    Kept (execCpFork l w s) := by
  unfold execCpFork
  show State.Inv _
  refine cpExec_inv ?_ ?_
  · intro _ _ _ h0 _
    refine semFork_inv ?_
    exact h0
  · exact h0

theorem execCpEnd_inv {l : Loc} {w : IWord} {s : Machine.State} (h0 : State.Inv s) :
    Kept (execCpEnd l w s) := by
  unfold execCpEnd
  show State.Inv _
  refine cpExec_inv ?_ ?_
  · intro _ _ _ h0 _
    refine semEnd_inv ?_
    exact h0
  · exact h0

theorem execCpPark_inv {l : Loc} {w : IWord} {s : Machine.State} (h0 : State.Inv s) :
    Kept (execCpPark l w s) := by
  unfold execCpPark
  show State.Inv _
  refine cpExec_inv ?_ ?_
  · intro _ _ _ h0 _
    refine semPark_inv ?_
    exact h0
  · exact h0

theorem execCpQsh_inv {l : Loc} {w : IWord} {s : Machine.State} (h0 : State.Inv s) :
    Kept (execCpQsh l w s) := by
  unfold execCpQsh
  show State.Inv _
  refine cpExec_inv ?_ ?_
  · intro _ _ _ h0 _
    refine semQsh_inv ?_
    exact h0
  · exact h0

theorem execCpEvt_inv {l : Loc} {w : IWord} {s : Machine.State} (h0 : State.Inv s) :
    Kept (execCpEvt l w s) := by
  unfold execCpEvt
  show State.Inv _
  refine cpExec_inv ?_ ?_
  · intro _ _ _ h0 _
    refine semEvt_inv ?_
    exact h0
  · exact h0

theorem execCpNop_inv {l : Loc} {w : IWord} {s : Machine.State} (h0 : State.Inv s) :
    Kept (execCpNop l w s) := by
  unfold execCpNop
  show State.Inv _
  refine cpExec_inv ?_ ?_
  · intro _ _ _ h0 _
    refine semNop_inv ?_
    exact h0
  · exact h0

theorem enqueue_inv {l : Loc} {w : IWord} {s : Machine.State} {c : Ctx} (h0 : State.Inv s) :
    State.Inv (enqueue l w s c) := by
  unfold enqueue
  extract_lets -merge y0 y1 y2
  refine State.setCtx_inv ?_
  exact h0

theorem issue_inv {l : Loc} {ext : FetchExt} {s : Machine.State} {c : Ctx} (h0 : State.Inv s) :
    State.Inv (issue l ext s c) := by
  unfold issue
  extract_lets -merge y0
  split
  · refine State.haltCtx_inv ?_
    exact h0
  · refine ite_of ?_ ?_
    · refine State.setCtx_inv ?_
      exact h0
    · refine ite_of ?_ ?_
      · refine cpRun_inv ?_ ?_
        · intro _ _ _ h1 _
          refine cpSem_inv ?_
          exact h1
        · exact h0
      · refine ite_of ?_ ?_
        · refine State.haltCtx_inv ?_
          exact h0
        · refine ite_of ?_ ?_
          · refine State.stopCtx_inv ?_
            exact h0
          · refine enqueue_inv ?_
            exact h0

theorem execInstructionIssue_inv {l : Loc} {ext : FetchExt} {s : Machine.State} (h0 : State.Inv s) :
    Kept (execInstructionIssue l ext s) := by
  unfold execInstructionIssue
  split
  · show State.Inv _
    exact h0
  · show State.Inv _
    refine ite_of ?_ ?_
    · refine issue_inv ?_
      exact h0
    · exact h0

theorem finishLoad_inv {n pi k : Nat} {s : Machine.State} (h0 : State.Inv s) : State.Inv (finishLoad n pi k s) := by
  induction k generalizing s with
  | zero => exact h0
  | succ k ih =>
    unfold finishLoad
    exact ite_of (ih (State.ldsStep_inv h0)) h0

theorem retireMatrix_inv {n : Nat} {pi : Nat} {s0 : Machine.State} (h0 : State.Inv s0) :
    State.Inv (retireMatrix n pi s0) := by
  unfold retireMatrix
  extract_lets -merge x0 y1
  have hx0 : State.Inv x0 := by
    unfold x0
    refine ite_of ?_ ?_
    · refine finishLoad_inv ?_
      exact h0
    · exact h0
  clear_value x0
  split
  · exact hx0
  · split
    · refine State.putCtx_inv ?_
      refine State.setPart_inv ?_
      exact hx0
    · split
      · exact hx0
      · extract_lets -merge y2
        refine ite_of ?_ ?_
        · exact hx0
        · refine State.putCtx_inv ?_
          refine State.setPart_inv ?_
          exact hx0

theorem retireVector_inv {n : Nat} {pi : Nat} {s : Machine.State} (h0 : State.Inv s) :
    State.Inv (retireVector n pi s) := by
  unfold retireVector
  split
  · exact h0
  · split
    · exact h0
    · refine ite_of ?_ ?_
      · exact h0
      · refine State.putCtx_inv ?_
        refine foldl_inv ?_ ?_
        · intro _ _ h0
          refine State.writeBytes_inv ?_
          exact h0
        · exact h0

theorem execInstructionRetire_inv {core : Nat} {part : Nat} {eng : Nat} {s : Machine.State} (h0 : State.Inv s) :
    Kept (execInstructionRetire core part eng s) := by
  unfold execInstructionRetire
  show State.Inv _
  refine ite_of ?_ ?_
  · refine retireMatrix_inv ?_
    exact h0
  · refine ite_of ?_ ?_
    · refine retireVector_inv ?_
      exact h0
    · exact h0

end Sys2Proof.Machine
end

