-- ==== Sys2Proof/Laws/InvContext.lean ====
section
/-! SUPPORT. Every function of Machine/Context.lean that answers a state keeps the invariant. -/

namespace Sys2Proof.Machine

set_option linter.tactic.unusedName false

theorem execContextStop_inv {l : Loc} {eng : Nat} {cause : Nat} {word : IWord} {pc : BitVec 48} {va : Nat} {s : Machine.State} (h0 : State.Inv s) :
    Kept (execContextStop l eng cause word pc va s) := by
  unfold execContextStop
  show State.Inv _
  refine ite_of ?_ ?_
  · refine State.stopCtx_inv ?_
    exact h0
  · exact h0

theorem execPartitionFault_inv {l : Loc} {cause : Nat} {word : IWord} {pc : BitVec 48} {s : Machine.State} (h0 : State.Inv s) :
    Kept (execPartitionFault l cause word pc s) := by
  unfold execPartitionFault
  extract_lets -merge x0
  have hx0 : State.Inv x0 := by
    unfold x0
    refine State.setPart_inv ?_
    exact h0
  clear_value x0
  show State.Inv _
  refine ite_of ?_ ?_
  · refine State.stopCtx_inv ?_
    exact hx0
  · exact hx0

theorem execParityError_inv {l : Loc} {word : IWord} {pc : BitVec 48} {s : Machine.State} (h0 : State.Inv s) :
    Kept (execParityError l word pc s) := by
  unfold execParityError
  show State.Inv _
  refine State.stopCtx_inv ?_
  refine State.countParity_inv ?_
  exact h0

theorem execPoisonConsumption_inv {l : Loc} {eng : Nat} {word : IWord} {pc : BitVec 48} {s : Machine.State} (h0 : State.Inv s) :
    Kept (execPoisonConsumption l eng word pc s) := by
  unfold execPoisonConsumption
  show State.Inv _
  refine State.stopCtx_inv ?_
  exact h0

theorem execContextComplete_inv {core : Nat} {part : Nat} {s : Machine.State} (h0 : State.Inv s) :
    Kept (execContextComplete core part s) := by
  unfold execContextComplete
  split
  · show State.Inv _
    exact h0
  · refine ite_of ?_ ?_
    · show State.Inv _
      refine State.emit_inv ?_
      refine State.setCtx_inv ?_
      exact h0
    · show State.Inv _
      exact h0

theorem State.yieldTest_inv {s : Machine.State} {n : Nat} {d : Dispatch} (h0 : State.Inv s) :
    State.Inv (State.yieldTest s n d) := by
  unfold State.yieldTest
  extract_lets -merge y0
  split
  · exact h0
  · refine ite_of ?_ ?_
    · refine State.showIst_inv ?_
      refine State.bump_inv ?_
      refine State.setCore_inv ?_
      exact h0
    · exact h0

theorem State.reshape_inv {s : Machine.State} {n : Nat} {code : Nat} (h0 : State.Inv s) :
    OptInv (State.reshape s n code) := by
  unfold State.reshape
  extract_lets -merge y0
  refine ite_of ?_ ?_
  · show State.Inv _
    refine State.setCore_inv ?_
    exact h0
  · trivial

theorem State.startCtx_inv {s : Machine.State} {n : Nat} {p : Nat} {tenant : Nat} {ctxid : Nat} {slot : Option Nat} {entry : BitVec 48} {base : Nat} {len : Nat} (h0 : State.Inv s) :
    OptInv (State.startCtx s n p tenant ctxid slot entry base len) := by
  unfold State.startCtx
  refine ite_of ?_ ?_
  · show State.Inv _
    refine State.setCtx_inv ?_
    exact h0
  · trivial

theorem State.predictGap_inv {s : Machine.State} {n : Nat} {p : Nat} {ns : Nat} (h0 : State.Inv s) :
    State.Inv (State.predictGap s n p ns) := by
  unfold State.predictGap
  extract_lets -merge y0 y1
  refine State.setPart_inv ?_
  exact h0

theorem State.requestSave_inv {s : Machine.State} {n : Nat} {p : Nat} {deadline : Option Nat} {addr : Nat} (h0 : State.Inv s) :
    State.Inv (State.requestSave s n p deadline addr) := by
  unfold State.requestSave
  split
  · exact h0
  · refine ite_of ?_ ?_
    · exact h0
    · refine State.setCtx_inv ?_
      exact h0

theorem State.zeroPart_inv {s : Machine.State} {n : Nat} {p : Nat} (h0 : State.Inv s) :
    State.Inv (State.zeroPart s n p) := by
  unfold State.zeroPart
  refine State.setPart_inv ?_
  exact h0

theorem State.releaseCtx_inv {s : Machine.State} {n : Nat} {p : Nat} (h0 : State.Inv s) :
    State.Inv (State.releaseCtx s n p) := by
  unfold State.releaseCtx
  extract_lets -merge y0
  split
  · exact h0
  · refine ite_of ?_ ?_
    · refine State.zeroPart_inv ?_
      exact h0
    · refine ite_of ?_ ?_
      · refine State.setPart_inv ?_
        exact h0
      · exact h0

theorem State.suspend_inv {s : Machine.State} {n : Nat} {c : Ctx} (h0 : State.Inv s) :
    FstInv (State.suspend s n c) := by
  unfold State.suspend
  split
  · show State.Inv _
    exact h0
  · show State.Inv _
    refine foldl_inv ?_ ?_
    · intro _ _ h0
      refine State.writeBytes_inv ?_
      exact h0
    · exact h0

theorem execContextSave_inv {core : Nat} {part : Nat} {s : Machine.State} (h0 : State.Inv s) :
    Kept (execContextSave core part s) := by
  unfold execContextSave
  extract_lets -merge y0
  split
  · show State.Inv _
    exact h0
  · extract_lets -merge x1
    have hx1 : FstInv x1 := by
      unfold x1
      refine State.suspend_inv ?_
      exact h0
    clear_value x1
    split
    · show State.Inv _
      exact h0
    · refine ite_of ?_ ?_
      · show State.Inv _
        refine State.emit_inv ?_
        refine State.zeroPart_inv ?_
        refine State.writeBytes_inv ?_
        show FstInv _
        exact hx1
      · show State.Inv _
        exact h0

theorem execSaveTimeout_inv {core : Nat} {part : Nat} {s : Machine.State} (h0 : State.Inv s) :
    Kept (execSaveTimeout core part s) := by
  unfold execSaveTimeout
  split
  · show State.Inv _
    exact h0
  · split
    · show State.Inv _
      exact h0
    · show State.Inv _
      refine ite_of ?_ ?_
      · refine State.stopCtx_inv ?_
        exact h0
      · exact h0

theorem resumeVec_inv {s : Machine.State} {n : Nat} {p : Nat} (h0 : State.Inv s) :
    State.Inv (resumeVec s n p) := by
  unfold resumeVec
  split
  · exact h0
  · refine startVec_inv ?_
    exact h0

theorem restoreStage_inv {s : Machine.State} {n : Nat} {base : Nat} {i : Image} (h0 : State.Inv s) :
    State.Inv (restoreStage s n base i) := by
  unfold restoreStage
  extract_lets -merge y0 y1 x2 y3
  have hx2 : State.Inv x2 := by
    unfold x2
    refine State.writeBytes_inv ?_
    exact h0
  clear_value x2
  refine ite_of ?_ ?_
  · exact hx2
  · refine foldl_inv ?_ ?_
    · intro _ _ h4
      refine ite_of ?_ ?_
      · exact h4
      · refine State.markPoison_inv ?_
        exact h4
    · exact hx2

theorem State.restoreCtx_inv {s : Machine.State} {n : Nat} {addr : Nat} {tenant : Nat} {ctxid : Nat} {slot : Option Nat} {base : Nat} (h0 : State.Inv s) :
    OptInv (State.restoreCtx s n addr tenant ctxid slot base) := by
  unfold State.restoreCtx
  split
  · show State.Inv _
    refine State.emit_inv ?_
    exact h0
  · extract_lets -merge x0 y1
    have hx0 : State.Inv x0 := by
      unfold x0
      refine restoreStage_inv ?_
      exact h0
    clear_value x0
    refine ite_of ?_ ?_
    · trivial
    · split
      · trivial
      · extract_lets -merge x2
        have hx2 : State.Inv x2 := by
          unfold x2
          refine State.setPart_inv ?_
          exact hx0
        clear_value x2
        show State.Inv _
        refine State.emit_inv ?_
        refine resumeVec_inv ?_
        exact hx2

theorem State.dispatch_inv {s : Machine.State} {n : Nat} {d : Dispatch} (h0 : State.Inv s) :
    OptInv (State.dispatch s n d) := by
  cases d with
  | start p t c slot e b ln => exact State.startCtx_inv h0
  | gap p ns => exact State.predictGap_inv (s := s) (n := n) (p := p) h0
  | shape code => exact State.reshape_inv h0
  | save p dl a => exact State.requestSave_inv (s := s) h0
  | restore a t c slot b =>
    show OptInv (s.restoreCtx n a t c slot b)
    with_reducible exact State.restoreCtx_inv h0
  | release p => exact State.releaseCtx_inv (s := s) h0

theorem State.dispatchAll_inv {n : Nat} {l : List Waiting} {s : Machine.State} (h0 : State.Inv s) :
    State.Inv (State.dispatchAll n l s) := by
  induction l generalizing s with
  | nil => exact State.setCore_inv h0
  | cons d ds ih =>
    unfold State.dispatchAll
    split
    · exact ih (OptInv_some (by assumption) (State.dispatch_inv h0))
    · exact State.setCore_inv h0

theorem State.dispatchEntry_inv {s : Machine.State} {n : Nat} {sched : Nat} {d : Dispatch} (h0 : State.Inv s) :
    State.Inv (State.dispatchEntry s n sched d) := by
  unfold State.dispatchEntry
  extract_lets -merge x0
  have hx0 : State.Inv x0 := by
    unfold x0
    refine State.yieldTest_inv ?_
    exact h0
  clear_value x0
  refine ite_of ?_ ?_
  · exact h0
  · refine State.dispatchAll_inv ?_
    exact hx0

theorem execDispatchEntry_inv {core : Nat} {sched : Nat} {d : Dispatch} {s : Machine.State} (h0 : State.Inv s) :
    Kept (execDispatchEntry core sched d s) := by
  unfold execDispatchEntry
  show State.Inv _
  refine State.dispatchEntry_inv ?_
  exact h0

theorem execShapeChange_inv {core : Nat} {sched : Nat} {code : Nat} {s : Machine.State} (h0 : State.Inv s) :
    Kept (execShapeChange core sched code s) := by
  unfold execShapeChange
  show State.Inv _
  refine State.dispatchEntry_inv ?_
  exact h0

theorem execSaveRequest_inv {core : Nat} {sched : Nat} {part : Nat} {deadline : Option Nat} {addr : Nat} {s : Machine.State} (h0 : State.Inv s) :
    Kept (execSaveRequest core sched part deadline addr s) := by
  unfold execSaveRequest
  show State.Inv _
  refine State.dispatchEntry_inv ?_
  exact h0

theorem execRestore_inv {core : Nat} {sched : Nat} {addr : Nat} {tenant : Nat} {ctxid : Nat} {slot : Option Nat} {base : Nat} {s : Machine.State} (h0 : State.Inv s) :
    Kept (execRestore core sched addr tenant ctxid slot base s) := by
  unfold execRestore
  show State.Inv _
  refine State.dispatchEntry_inv ?_
  exact h0

theorem execContextRelease_inv {core : Nat} {sched : Nat} {part : Nat} {s : Machine.State} (h0 : State.Inv s) :
    Kept (execContextRelease core sched part s) := by
  unfold execContextRelease
  show State.Inv _
  refine State.dispatchEntry_inv ?_
  exact h0

theorem execPartitionZeroed_inv {core : Nat} {part : Nat} {s : Machine.State} (h0 : State.Inv s) :
    Kept (execPartitionZeroed core part s) := by
  unfold execPartitionZeroed
  extract_lets -merge y0 x1
  have hx1 : State.Inv x1 := by
    unfold x1
    split
    · refine State.setCore_inv ?_
      exact h0
    · refine ite_of ?_ ?_
      · refine State.setPart_inv ?_
        exact h0
      · exact h0
  clear_value x1
  show State.Inv _
  refine State.dispatchAll_inv ?_
  exact hx1

end Sys2Proof.Machine
end

