-- ==== Sys2Proof/Laws/InvNmv.lean ====
section
/-! SUPPORT. Every function of Machine/Nmv.lean that answers a state keeps the invariant. -/

namespace Sys2Proof.Machine

set_option linter.tactic.unusedName false

theorem addNmv_inv {s : Machine.State} {n : Nat} {p : Nat} {ctxid : Nat} {up : Bool} (h0 : State.Inv s) :
    State.Inv (addNmv s n p ctxid up) := by
  unfold addNmv
  split
  · exact h0
  · refine ite_of ?_ ?_
    · refine State.putCtx_inv ?_
      exact h0
    · exact h0

theorem execNmvWorkItem_inv {unit : Nat} {item : Nat} {slot : Option Nat} {s : Machine.State} (h0 : State.Inv s) :
    Kept (execNmvWorkItem unit item slot s) := by
  unfold execNmvWorkItem
  extract_lets -merge y0 y1 x2
  have hx2 : State.Inv x2 := by
    unfold x2
    exact State.Inv.same (h0) rfl rfl rfl rfl rfl rfl
  clear_value x2
  refine ite_of ?_ ?_
  · show State.Inv _
    exact h0
  · show State.Inv _
    split
    · exact hx2
    · refine addNmv_inv ?_
      exact hx2

theorem nmvDeliver_inv {s : Machine.State} {a : Option (Nat × Nat × Nat × Nat)} (h0 : State.Inv s) :
    State.Inv (nmvDeliver s a) := by
  unfold nmvDeliver
  split
  · exact h0
  · split
    · exact h0
    · extract_lets -merge y0
      refine ite_of ?_ ?_
      · refine State.putCtx_inv ?_
        exact h0
      · exact h0

theorem nmvFault_inv {s : Machine.State} {w : NmvItem} (h0 : State.Inv s) :
    State.Inv (nmvFault s w) := by
  unfold nmvFault
  extract_lets -merge y0
  refine ite_of ?_ ?_
  · refine State.itemFault_inv ?_
    exact h0
  · exact h0

theorem execNmvComplete_inv {unit : Nat} {s : Machine.State} (h0 : State.Inv s) :
    Kept (execNmvComplete unit s) := by
  unfold execNmvComplete
  split
  · show State.Inv _
    exact h0
  · extract_lets -merge x0 x1 x2
    have hx0 : State.Inv x0 := by
      unfold x0
      exact State.Inv.same (h0) rfl rfl rfl rfl rfl rfl
    clear_value x0
    have hx1 : State.Inv x1 := by
      unfold x1
      refine ite_of ?_ ?_
      · exact hx0
      · refine State.writeBytes_inv ?_
        exact hx0
    clear_value x1
    have hx2 : State.Inv x2 := by
      unfold x2
      refine State.writeBytes_inv ?_
      exact hx1
    clear_value x2
    show State.Inv _
    refine nmvFault_inv ?_
    refine nmvDeliver_inv ?_
    exact hx2

end Sys2Proof.Machine
end

