-- ==== Sys2Proof/Laws/InvServe.lean ====
section
/-! SUPPORT. Every function of Machine/Serve.lean that answers a state keeps the invariant. -/

namespace Sys2Proof.Machine

set_option linter.tactic.unusedName false

theorem State.makeRoom_inv {s : Machine.State} {t : Nat} (h0 : State.Inv s) :
    SndInv (State.makeRoom s t) := by
  unfold State.makeRoom
  extract_lets -merge y0 y1
  refine ite_of ?_ ?_
  · show State.Inv _
    exact h0
  · refine ite_of ?_ ?_
    · show State.Inv _
      exact h0
    · first | split | (clear_value y1; split)
      · show State.Inv _
        exact h0
      · show State.Inv _
        refine State.refuseBusy_inv ?_
        refine State.unqueue_inv ?_
        exact h0

theorem State.receive_inv {s : Machine.State} {t : Nat} {q : Nat} {i : Item} {m : Option Model} {slot : Option Nat} {new : Nat} {ctx : Nat} {maxnew : Nat} (h0 : State.Inv s) :
    State.Inv (State.receive s t q i m slot new ctx maxnew) := by
  unfold State.receive
  extract_lets -merge y0 y1 y2 y3 y4 x5 x6 y7 y8
  have hx5 : SndInv x5 := by
    unfold x5
    refine State.makeRoom_inv ?_
    exact h0
  clear_value x5
  have hx6 : State.Inv x6 := by
    unfold x6
    show SndInv _
    exact hx5
  clear_value x6
  refine ite_of ?_ ?_
  · refine State.refuseBusy_inv ?_
    exact h0
  · refine ite_of ?_ ?_
    · refine State.refuseBusy_inv ?_
      exact h0
    · refine ite_of ?_ ?_
      · refine State.refuseBusy_inv ?_
        exact h0
      · refine ite_of ?_ ?_
        · refine State.refuseBusy_inv ?_
          exact h0
        · refine ite_of ?_ ?_
          · refine State.refuseBusy_inv ?_
            exact h0
          · refine ite_of ?_ ?_
            · refine State.finish_inv ?_
              refine State.bump_inv ?_
              exact h0
            · refine ite_of ?_ ?_
              · refine State.refuseBusy_inv ?_
                exact h0
              · refine ite_of ?_ ?_
                · refine State.refuseBusy_inv ?_
                  exact h0
                · refine State.queueRec_inv ?_
                  refine State.showQueue_inv ?_
                  refine State.setServe_inv ?_
                  exact hx6

theorem generateAsk_inv {s : Machine.State} {t : Nat} {q : Nat} {i : Item} (h0 : State.Inv s) :
    State.Inv (generateAsk s t q i) := by
  unfold generateAsk
  extract_lets -merge y0
  refine ite_of ?_ ?_
  · refine State.finish_inv ?_
    exact h0
  · refine ite_of ?_ ?_
    · refine State.refuseBusy_inv ?_
      exact h0
    · refine State.receive_inv ?_
      exact h0

theorem resumeAsk_inv {s : Machine.State} {t : Nat} {q : Nat} {i : Item} (h0 : State.Inv s) :
    State.Inv (resumeAsk s t q i) := by
  unfold resumeAsk
  extract_lets -merge y0
  refine ite_of ?_ ?_
  · refine State.finish_inv ?_
    exact h0
  · split
    · refine State.finish_inv ?_
      exact h0
    · refine ite_of ?_ ?_
      · refine State.finish_inv ?_
        exact h0
      · refine ite_of ?_ ?_
        · refine State.refuseBusy_inv ?_
          exact h0
        · refine State.receive_inv ?_
          exact h0

theorem State.enterPaused_inv {s : Machine.State} {slot : Nat} {r : Req} (h0 : State.Inv s) :
    State.Inv (State.enterPaused s slot r) := by
  unfold State.enterPaused
  extract_lets -merge y0 y1 x2
  have hx2 : State.Inv x2 := by
    unfold x2
    refine State.putReq_inv ?_
    exact h0
  clear_value x2
  refine ite_of ?_ ?_
  · refine State.endReq_inv ?_
    exact hx2
  · refine State.setKv_inv ?_
    exact hx2

theorem State.segmentOk_inv {s : Machine.State} {r : Req} {reason : Nat} (h0 : State.Inv s) :
    State.Inv (State.segmentOk s r reason) := by
  unfold State.segmentOk
  refine State.closeSegment_inv ?_
  exact h0

theorem State.learnLen_inv {s : Machine.State} {r : Req} (h0 : State.Inv s) :
    State.Inv (State.learnLen s r) := by
  unfold State.learnLen
  extract_lets -merge y0
  split
  · exact h0
  · refine State.putCoef_inv ?_
    exact h0

theorem State.askPaused_inv {s : Machine.State} {slot : Nat} {kind : Nat} {q : Nat} {seq : Nat} (h0 : State.Inv s) :
    State.Inv (State.askPaused s slot kind q seq) := by
  unfold State.askPaused
  split
  · exact h0
  · extract_lets -merge x0
    have hx0 : State.Inv x0 := by
      unfold x0
      refine ite_of ?_ ?_
      · refine State.enterPaused_inv ?_
        refine State.segmentOk_inv ?_
        exact h0
      · exact h0
    clear_value x0
    refine ite_of ?_ ?_
    · refine State.finish_inv ?_
      exact hx0
    · refine State.finish_inv ?_
      refine State.endReq_inv ?_
      exact h0

theorem State.askHeld_inv {slot : Nat} {l : List (Nat × Nat × Nat)} {s : Machine.State} (h0 : State.Inv s) :
    State.Inv (State.askHeld slot l s) := by
  induction l generalizing s with
  | nil => exact h0
  | cons a l ih =>
    unfold State.askHeld
    refine ih ?_
    split
    · exact h0
    · exact State.askPaused_inv (State.putReq_inv h0)

theorem steerAsk_inv {kind : Nat} {s : Machine.State} {t : Nat} {q : Nat} {i : Item} (h0 : State.Inv s) :
    State.Inv (steerAsk kind s t q i) := by
  unfold steerAsk
  extract_lets -merge y0
  refine ite_of ?_ ?_
  · refine State.finish_inv ?_
    exact h0
  · split
    · refine State.finish_inv ?_
      exact h0
    · refine ite_of ?_ ?_
      · refine State.askPaused_inv ?_
        exact h0
      · refine ite_of ?_ ?_
        · refine ite_of ?_ ?_
          · refine State.finishBusy_inv ?_
            exact h0
          · refine State.finish_inv ?_
            refine State.endReq_inv ?_
            exact h0
        · refine State.putReq_inv ?_
          exact h0

theorem execGenerate_inv {t : Nat} {q : Nat} {s : Machine.State} (h0 : State.Inv s) :
    Kept (execGenerate t q s) := by
  unfold execGenerate
  show State.Inv _
  refine State.runRow_inv ?_ ?_
  · exact h0
  · intro _ h0 _
    refine generateAsk_inv ?_
    exact h0

theorem execResume_inv {t : Nat} {q : Nat} {s : Machine.State} (h0 : State.Inv s) :
    Kept (execResume t q s) := by
  unfold execResume
  show State.Inv _
  refine State.runRow_inv ?_ ?_
  · exact h0
  · intro _ h0 _
    refine resumeAsk_inv ?_
    exact h0

theorem execPause_inv {t : Nat} {q : Nat} {s : Machine.State} (h0 : State.Inv s) :
    Kept (execPause t q s) := by
  unfold execPause
  show State.Inv _
  refine State.runRow_inv ?_ ?_
  · exact h0
  · intro _ h0 _
    refine steerAsk_inv ?_
    exact h0

theorem execCancel_inv {t : Nat} {q : Nat} {s : Machine.State} (h0 : State.Inv s) :
    Kept (execCancel t q s) := by
  unfold execCancel
  show State.Inv _
  refine State.runRow_inv ?_ ?_
  · exact h0
  · intro _ h0 _
    refine steerAsk_inv ?_
    exact h0

theorem execBucketRefill_inv {s : Machine.State} (h0 : State.Inv s) :
    Kept (execBucketRefill s) := by
  unfold execBucketRefill
  extract_lets -merge y0
  show State.Inv _
  refine State.setServe_inv ?_
  exact h0

theorem execPlacementPass_inv {s : Machine.State} (h0 : State.Inv s) :
    Kept (execPlacementPass s) := by
  unfold execPlacementPass
  extract_lets -merge y0
  show State.Inv _
  refine State.passItems_inv ?_
  exact State.Inv.same (h0) rfl rfl rfl rfl rfl rfl

theorem execOverloadWindow_inv {waited : Bool} {quotas : List (Nat × Nat)} {s : Machine.State} (h0 : State.Inv s) :
    Kept (execOverloadWindow waited quotas s) := by
  unfold execOverloadWindow
  extract_lets -merge y0 y1 y2 y3 y4 y5 x6 x7 y8
  have hx6 : State.Inv x6 := by
    unfold x6
    refine State.setServe_inv ?_
    exact h0
  clear_value x6
  have hx7 : State.Inv x7 := by
    unfold x7
    refine State.setRegN_inv ?_
    refine State.setRegN_inv ?_
    exact hx6
  clear_value x7
  show State.Inv _
  refine ite_of ?_ ?_
  · refine State.setAdm_inv ?_
    refine State.setServe_inv ?_
    exact hx7
  · refine ite_of ?_ ?_
    · refine State.setAdm_inv ?_
      exact hx7
    · exact hx7

theorem State.beginSpill_inv {s : Machine.State} {slot : Nat} {r : Req} (h0 : State.Inv s) :
    State.Inv (State.beginSpill s slot r) := by
  unfold State.beginSpill
  extract_lets -merge x0
  have hx0 : State.Inv x0 := by
    unfold x0
    refine State.putReq_inv ?_
    exact h0
  clear_value x0
  refine State.setKv_inv ?_
  exact hx0

theorem State.growKv_inv {s : Machine.State} {slot : Nat} {n : Nat} (h0 : State.Inv s) :
    SndInv (State.growKv s slot n) := by
  unfold State.growKv
  extract_lets -merge y0
  split
  · show State.Inv _
    exact h0
  · split
    · show State.Inv _
      exact h0
    · split
      · show State.Inv _
        refine OptInv_some (by assumption) ?_
        refine State.placeBlocks_inv ?_
        exact h0
      · split
        · show State.Inv _
          exact h0
        · show State.Inv _
          refine State.beginSpill_inv ?_
          exact h0

theorem State.takeDecode_inv {batch : Nat} {l : List (Nat × Req)} {acc : List Nat} {s : Machine.State} (h0 : State.Inv s) :
    SndInv (State.takeDecode batch l acc s) := by
  induction l generalizing s acc with
  | nil => exact h0
  | cons x xs ih =>
    unfold State.takeDecode
    refine ite_of (p := SndInv) h0 (ite_of (p := SndInv) (ih h0) (ih ?_))
    exact State.growKv_inv h0

theorem State.curtainPause_inv {s : Machine.State} {id : Nat} (h0 : State.Inv s) :
    State.Inv (State.curtainPause s id) := by
  unfold State.curtainPause
  refine foldl_inv ?_ ?_
  · intro _ _ h0
    extract_lets -merge y1 x2
    have hx2 : State.Inv x2 := by
      unfold x2
      refine State.putReq_inv ?_
      exact h0
    clear_value x2
    refine State.askHeld_inv ?_
    exact hx2
  · exact h0

theorem execStepFormation_inv {model : Nat} {epoch : Nat} {batch : Nat} {s : Machine.State} (h0 : State.Inv s) :
    Kept (execStepFormation model epoch batch s) := by
  unfold execStepFormation
  split
  · show State.Inv _
    exact h0
  · extract_lets -merge x0 x1 y2 y3 y4 y5 y6 y7 y8 y9 y10 y11 x12 y14
    have hx0 : SndInv x0 := by
      unfold x0
      refine State.takeDecode_inv ?_
      exact h0
    clear_value x0
    have hx1 : State.Inv x1 := by
      unfold x1
      show SndInv _
      exact hx0
    clear_value x1
    have hx12 : State.Inv x12 := by
      unfold x12
      refine foldl_inv ?_ ?_
      · intro _ _ h13
        split
        · exact h13
        · refine State.putReq_inv ?_
          exact h13
      · exact hx1
    clear_value x12
    refine ite_of ?_ ?_
    · show State.Inv _
      exact h0
    · refine ite_of ?_ ?_
      · show State.Inv _
        refine State.curtainPause_inv ?_
        exact h0
      · refine ite_of ?_ ?_
        · show State.Inv _
          exact h0
        · refine ite_of ?_ ?_
          · show State.Inv _
            exact h0
          · refine ite_of ?_ ?_
            · show State.Inv _
              exact hx1
            · show State.Inv _
              refine State.setServe_inv ?_
              exact hx12

theorem State.measure_inv {s : Machine.State} {sg : Segm} {ts : List Token} (h0 : State.Inv s) :
    SndInv (State.measure s sg ts) := by
  unfold State.measure
  extract_lets -merge y0 y1 y2 y3
  refine ite_of ?_ ?_
  · show State.Inv _
    refine ite_of ?_ ?_
    · refine State.bump_inv ?_
      exact h0
    · exact h0
  · show State.Inv _
    refine ite_of ?_ ?_
    · refine State.bump_inv ?_
      exact h0
    · exact h0

theorem State.fillKv_inv {s : Machine.State} {slot : Nat} {from_ : Nat} {upto : Nat} {epoch : Nat} (h0 : State.Inv s) :
    State.Inv (State.fillKv s slot from_ upto epoch) := by
  unfold State.fillKv
  extract_lets -merge y0 x1
  have hx1 : State.Inv x1 := by
    unfold x1
    split
    · exact h0
    · refine foldl_inv ?_ ?_
      · intro _ _ h2
        refine State.zeroRows_inv ?_
        exact h2
      · exact h0
  clear_value x1
  refine State.setKv_inv ?_
  exact hx1

theorem State.afterStep_inv {s : Machine.State} {slot : Nat} {r : Req} {stop : Option Nat} (h0 : State.Inv s) :
    State.Inv (State.afterStep s slot r stop) := by
  unfold State.afterStep
  extract_lets -merge x0
  have hx0 : State.Inv x0 := by
    unfold x0
    refine State.learnLen_inv ?_
    exact h0
  clear_value x0
  split
  · refine State.endReq_inv ?_
    refine State.putReq_inv ?_
    exact h0
  · split
    · refine ite_of ?_ ?_
      · refine State.askHeld_inv ?_
        refine State.enterPaused_inv ?_
        refine State.segmentOk_inv ?_
        exact hx0
      · refine State.endReq_inv ?_
        refine State.putReq_inv ?_
        exact hx0
    · split
      · refine State.putReq_inv ?_
        exact h0
      · extract_lets -merge x1 x2
        have hx1 : State.Inv x1 := by
          unfold x1
          refine State.enterPaused_inv ?_
          refine State.segmentOk_inv ?_
          exact h0
        clear_value x1
        have hx2 : State.Inv x2 := by
          unfold x2
          refine foldl_inv ?_ ?_
          · intro _ _ h3
            refine State.finish_inv ?_
            exact h3
          · exact hx1
        clear_value x2
        refine ite_of ?_ ?_
        · refine State.endReq_inv ?_
          refine State.putReq_inv ?_
          exact h0
        · refine State.askHeld_inv ?_
          exact hx2

theorem State.boundaryOne_inv {run : StepRun} {slot : Nat} {pos : List PosRow} {s : Machine.State} (h0 : State.Inv s) :
    State.Inv (State.boundaryOne run slot pos s) := by
  unfold State.boundaryOne
  extract_lets -merge y0
  split
  · exact h0
  · extract_lets -merge y1 y2 y3 y4 y5
    refine ite_of ?_ ?_
    · exact h0
    · split
      · refine State.putReq_inv ?_
        exact h0
      · extract_lets -merge y6 x7 y8 y9 x10 x11 y12 x13 y14 y15
        have hx7 : SndInv x7 := by
          unfold x7
          refine State.measure_inv ?_
          exact h0
        clear_value x7
        have hx10 : State.Inv x10 := by
          unfold x10
          refine State.bump_inv ?_
          refine State.bump_inv ?_
          show SndInv _
          exact hx7
        clear_value x10
        have hx11 : State.Inv x11 := by
          unfold x11
          refine State.fillKv_inv ?_
          exact hx10
        clear_value x11
        have hx13 : State.Inv x13 := by
          unfold x13
          refine ite_of ?_ ?_
          · refine State.sendTokens_inv ?_
            exact hx11
          · exact hx11
        clear_value x13
        refine ite_of ?_ ?_
        · refine State.endReq_inv ?_
          refine State.putReq_inv ?_
          exact h0
        · refine ite_of ?_ ?_
          · refine State.afterStep_inv ?_
            refine State.fillKv_inv ?_
            exact h0
          · refine State.afterStep_inv ?_
            exact hx13

theorem execStepBoundary_inv {model : Nat} {rows : List StepRow} {preNs : Nat} {decNs : Nat} {s : Machine.State} (h0 : State.Inv s) :
    Kept (execStepBoundary model rows preNs decNs s) := by
  unfold execStepBoundary
  split
  · show State.Inv _
    exact h0
  · extract_lets -merge x0 y2 y3 y4 x5
    have hx0 : State.Inv x0 := by
      unfold x0
      refine foldl_inv ?_ ?_
      · intro _ _ h1
        refine State.boundaryOne_inv ?_
        exact h1
      · exact h0
    clear_value x0
    have hx5 : State.Inv x5 := by
      unfold x5
      refine State.setServe_inv ?_
      refine State.putCoef_inv ?_
      exact hx0
    clear_value x5
    refine ite_of ?_ ?_
    · show State.Inv _
      exact h0
    · show State.Inv _
      refine ite_of ?_ ?_
      · refine State.curtainPause_inv ?_
        exact hx5
      · exact hx5

theorem execDeadlineExpiry_inv {slot : Nat} {s : Machine.State} (h0 : State.Inv s) :
    Kept (execDeadlineExpiry slot s) := by
  unfold execDeadlineExpiry
  split
  · show State.Inv _
    exact h0
  · show State.Inv _
    refine ite_of ?_ ?_
    · exact h0
    · refine State.endReq_inv ?_
      exact h0

theorem State.poolTake_inv {s : Machine.State} {t : Nat} {c : Nat} {len : Nat} (h0 : State.Inv s) :
    OptInv (State.poolTake s t c len) := by
  unfold State.poolTake
  extract_lets -merge y0 y1 y2
  refine ite_of ?_ ?_
  · trivial
  · show State.Inv _
    refine foldl_inv ?_ ?_
    · intro _ _ h3
      extract_lets -merge x4 y5
      have hx4 : SndInv x4 := by
        unfold x4
        refine State.sendMirror_inv ?_
        exact h3
      clear_value x4
      refine State.setServe_inv ?_
      show SndInv _
      exact hx4
    · exact h0

theorem execKvSpill_inv {slot : Nat} {pos : Nat} {group : Nat} {copy : Option Nat} {s : Machine.State} (h0 : State.Inv s) :
    Kept (execKvSpill slot pos group copy s) := by
  unfold execKvSpill
  split
  · extract_lets -merge y0 y1 y2 y3 y4
    refine ite_of ?_ ?_
    · show State.Inv _
      exact h0
    · refine ite_of ?_ ?_
      · show State.Inv _
        refine State.loseBlock_inv ?_
        exact h0
      · split
        · show State.Inv _
          refine ite_of ?_ ?_
          · refine State.loseBlock_inv ?_
            exact h0
          · refine State.spillLater_inv ?_
            exact h0
        · extract_lets -merge y5 y6
          refine ite_of ?_ ?_
          · refine ite_of ?_ ?_
            · show State.Inv _
              refine State.loseBlock_inv ?_
              exact h0
            · show State.Inv _
              refine State.regionWrite_inv ?_
              refine State.putBlock_inv ?_
              exact h0
          · refine ite_of ?_ ?_
            · show State.Inv _
              refine State.loseBlock_inv ?_
              exact h0
            · refine ite_of ?_ ?_
              · show State.Inv _
                exact h0
              · split
                · show State.Inv _
                  refine State.spillLater_inv ?_
                  exact h0
                · extract_lets -merge x7 x8
                  have hx7 : State.Inv x7 := by
                    unfold x7
                    refine State.putBlock_inv ?_
                    refine OptInv_some (by assumption) ?_
                    refine State.poolTake_inv ?_
                    exact h0
                  clear_value x7
                  have hx8 : SndInv x8 := by
                    unfold x8
                    refine State.sendWrite_inv ?_
                    exact hx7
                  clear_value x8
                  refine ite_of ?_ ?_
                  · show State.Inv _
                    exact hx7
                  · show State.Inv _
                    refine State.putBlock_inv ?_
                    show SndInv _
                    exact hx8
  · show State.Inv _
    exact h0

theorem execKvHoldExpiry_inv {slot : Nat} {s : Machine.State} (h0 : State.Inv s) :
    Kept (execKvHoldExpiry slot s) := by
  unfold execKvHoldExpiry
  split
  · show State.Inv _
    exact h0
  · show State.Inv _
    refine ite_of ?_ ?_
    · refine State.beginSpill_inv ?_
      exact h0
    · exact h0

theorem execKvSpillRetry_inv {slot : Nat} {s : Machine.State} (h0 : State.Inv s) :
    Kept (execKvSpillRetry slot s) := by
  unfold execKvSpillRetry
  extract_lets -merge y0
  split
  · show State.Inv _
    exact h0
  · show State.Inv _
    refine ite_of ?_ ?_
    · refine State.beginSpill_inv ?_
      exact h0
    · exact h0

theorem execKvFetch_inv {slot : Nat} {pos : Nat} {group : Nat} {s : Machine.State} (h0 : State.Inv s) :
    Kept (execKvFetch slot pos group s) := by
  unfold execKvFetch
  split
  · show State.Inv _
    refine ite_of ?_ ?_
    · refine State.fetchBegin_inv ?_
      exact h0
    · exact h0
  · show State.Inv _
    exact h0

theorem execTtlExpiry_inv {slot : Nat} {s : Machine.State} (h0 : State.Inv s) :
    Kept (execTtlExpiry slot s) := by
  unfold execTtlExpiry
  split
  · show State.Inv _
    exact h0
  · extract_lets -merge y0
    show State.Inv _
    refine ite_of ?_ ?_
    · refine State.endReq_inv ?_
      exact h0
    · exact h0

theorem State.evictWhile_inv {need : Machine.State → Bool} {n : Nat} {s : Machine.State} (h0 : State.Inv s) :
    State.Inv (State.evictWhile need n s) := by
  induction n generalizing s with
  | zero => exact h0
  | succ n ih =>
    unfold State.evictWhile
    refine ite_of h0 ?_
    extract_lets -merge y0
    split
    · exact h0
    · exact ih (State.evictVariant_inv h0)

theorem State.copyLoft_inv {l : LoftModel} {gs : List Nat} {n : Nat} {s : Machine.State} (h0 : State.Inv s) :
    State.Inv (State.copyLoft l gs n s) := by
  unfold State.copyLoft
  refine foldl_inv (fun _ _ h => ?_) h0
  extract_lets -merge y1 y2 x3 y4
  have h3 : State.Inv x3 := State.writeBytes_inv h
  clear_value x3 y1 y2
  exact ⟨h3.mem', h3.regs', rising_foldl (fun w => w - y1 / 64 + y2 / 64) _ _ h3.poison', h3.grans', h3.cues', h3.audit'⟩

theorem execVariantSwapIn_inv {model : Nat} {s : Machine.State} (h0 : State.Inv s) :
    Kept (execVariantSwapIn model s) := by
  unfold execVariantSwapIn
  split
  · extract_lets -merge y0 y1 x2
    have hx2 : State.Inv x2 := by
      unfold x2
      refine State.evictWhile_inv ?_
      exact h0
    clear_value x2
    refine ite_of ?_ ?_
    · show State.Inv _
      exact h0
    · refine ite_of ?_ ?_
      · show State.Inv _
        exact hx2
      · split
        · show State.Inv _
          exact hx2
        · extract_lets -merge x3
          have hx3 : State.Inv x3 := by
            unfold x3
            refine State.copyLoft_inv ?_
            refine OptSnd_some (by assumption) ?_
            refine State.allocsFor_inv ?_
            exact hx2
          clear_value x3
          split
          · show State.Inv _
            exact hx2
          · extract_lets -merge y4 y5
            show State.Inv _
            refine State.bump_inv ?_
            refine State.showVariants_inv ?_
            refine State.setServe_inv ?_
            refine OptInv_some (by assumption) ?_
            refine State.mapPages_inv ?_
            exact hx3
  · show State.Inv _
    exact h0

theorem execVariantEvict_inv {model : Nat} {s : Machine.State} (h0 : State.Inv s) :
    Kept (execVariantEvict model s) := by
  unfold execVariantEvict
  split
  · show State.Inv _
    exact h0
  · show State.Inv _
    refine ite_of ?_ ?_
    · exact h0
    · refine State.evictVariant_inv ?_
      exact h0

end Sys2Proof.Machine
end

