-- ==== Sys2Proof/Laws/InvRole.lean ====
section
/-! SUPPORT. Every function of Machine/Role.lean that answers a state keeps the invariant. -/

namespace Sys2Proof.Machine

set_option linter.tactic.unusedName false

theorem State.takeHost_inv {s : Machine.State} {v : Bool} {h : Handed} (h0 : State.Inv s) :
    State.Inv (State.takeHost s v h) := by
  unfold State.takeHost
  extract_lets -merge x0 x2 y7 x8
  have hx0 : State.Inv x0 := by
    unfold x0
    refine foldl_inv ?_ ?_
    · intro _ _ h1
      refine State.setRegN_inv ?_
      exact h1
    · exact h0
  clear_value x0
  have hx2 : State.Inv x2 := by
    unfold x2
    refine foldl_inv ?_ ?_
    · intro _ _ h3
      extract_lets -merge y4 x5
      have hx5 : State.Inv x5 := by
        unfold x5
        refine State.setRegN_inv ?_
        refine State.setRegN_inv ?_
        refine State.setRegN_inv ?_
        exact h3
      clear_value x5
      refine foldl_inv ?_ ?_
      · intro _ _ h6
        refine State.setRegN_inv ?_
        exact h6
      · exact hx5
    · exact hx0
  clear_value x2
  have hx8 : State.Inv x8 := by
    unfold x8
    refine State.setHost_inv ?_
    exact hx2
  clear_value x8
  refine foldl_inv ?_ ?_
  · intro _ _ h9
    extract_lets -merge y10
    refine State.setHost_inv ?_
    exact h9
  · exact hx8

theorem State.takeGrans_inv {s : Machine.State} {v : Bool} {h : Handed} (h0 : State.Inv s) :
    State.Inv (State.takeGrans s v h) := by
  unfold State.takeGrans
  refine foldl_inv ?_ ?_
  · intro _ _ h0
    refine ite_of ?_ ?_
    · refine State.putServed_inv ?_
      exact h0
    · refine State.putGran_inv ?_
      exact h0
  · exact h0

theorem State.takeLeaf_inv {s : Machine.State} {v : Bool} {l : Nat × Nat × Nat × Nat} (h0 : State.Inv s) :
    State.Inv (State.takeLeaf s v l) := by
  unfold State.takeLeaf
  extract_lets -merge y0 y1 y2
  refine ite_of ?_ ?_
  · refine getD_inv ?_ ?_
    · refine State.putLeaf_inv ?_
      exact h0
    · exact h0
  · refine ite_of ?_ ?_
    · refine getD_inv ?_ ?_
      · refine State.putLeaf_inv ?_
        exact h0
      · exact h0
    · refine foldl_inv ?_ ?_
      · intro _ _ h3
        split
        · exact h3
        · refine getD_inv ?_ ?_
          · refine State.putLeaf_inv ?_
            exact h3
          · exact h3
      · exact h0

theorem State.takeServe_inv {s : Machine.State} {v : Bool} {h : Handed} (h0 : State.Inv s) :
    State.Inv (State.takeServe s v h) := by
  unfold State.takeServe
  extract_lets -merge y0 x1 x2
  have hx1 : State.Inv x1 := by
    unfold x1
    refine State.setServe_inv ?_
    exact h0
  clear_value x1
  have hx2 : State.Inv x2 := by
    unfold x2
    refine foldl_inv ?_ ?_
    · intro _ _ h3
      split
      · exact h3
      · split
        · refine OptSnd_some (by assumption) ?_
          refine State.kvEntry_inv ?_
          exact h3
        · refine State.setKv_inv ?_
          refine OptSnd_some (by assumption) ?_
          refine State.kvEntry_inv ?_
          exact h3
    · exact hx1
  clear_value x2
  refine State.showQueue_inv ?_
  refine foldl_inv ?_ ?_
  · intro _ _ h4
    refine State.showSlots_inv ?_
    exact h4
  · exact hx2

theorem State.takeCurtain_inv {s : Machine.State} {v : Bool} {h : Handed} (h0 : State.Inv s) :
    State.Inv (State.takeCurtain s v h) := by
  unfold State.takeCurtain
  extract_lets -merge y0 y1 x2 y3
  have hx2 : State.Inv x2 := by
    unfold x2
    refine State.setCurtain_inv ?_
    exact h0
  clear_value x2
  refine State.showQueued_inv ?_
  refine State.setTrain_inv ?_
  exact hx2

theorem State.takeCues_inv {s : Machine.State} {v : Bool} {h : Handed} (h0 : State.Inv s) :
    State.Inv (State.takeCues s v h) := by
  unfold State.takeCues
  refine foldl_inv ?_ ?_
  · intro _ _ h0
    refine getD_inv ?_ ?_
    · refine State.addCue_inv ?_
      exact h0
    · exact h0
  · exact h0

theorem State.returnItem_inv {s : Machine.State} {t : Nat} {q : Nat} {seq : Nat} (h0 : State.Inv s) :
    State.Inv (State.returnItem s t q seq) := by
  unfold State.returnItem
  refine State.bump_inv ?_
  refine State.finish_inv ?_
  exact h0

theorem State.endRecovered_inv {s : Machine.State} {slot : Nat} (h0 : State.Inv s) :
    State.Inv (State.endRecovered s slot) := by
  unfold State.endRecovered
  split
  · exact h0
  · extract_lets -merge x0
    have hx0 : State.Inv x0 := by
      unfold x0
      split
      · exact h0
      · refine State.returnItem_inv ?_
        exact h0
    clear_value x0
    refine State.endReq_inv ?_
    refine State.putReq_inv ?_
    exact hx0

theorem State.returnItems_inv {s : Machine.State} {v : Bool} {h : Handed} (h0 : State.Inv s) :
    State.Inv (State.returnItems s v h) := by
  unfold State.returnItems
  refine foldl_inv ?_ ?_
  · intro _ _ h0
    extract_lets -merge y1 y2
    refine foldl_inv ?_ ?_
    · intro _ _ h3
      refine State.returnItem_inv ?_
      exact h3
    · exact h0
  · exact h0

theorem State.endModelReqs_inv {s : Machine.State} {k : Nat} {p : Req → Bool} (h0 : State.Inv s) :
    State.Inv (State.endModelReqs s k p) := by
  unfold State.endModelReqs
  refine foldl_inv ?_ ?_
  · intro _ _ h0
    refine State.endRecovered_inv ?_
    exact h0
  · exact h0

theorem State.startRebuild_inv {s : Machine.State} {v : Bool} {k : Nat} {m : Model} (h0 : State.Inv s) :
    State.Inv (State.startRebuild s v k m) := by
  unfold State.startRebuild
  extract_lets -merge y0 x1 y2 x3 y4
  have hx1 : State.Inv x1 := by
    unfold x1
    refine State.endModelReqs_inv ?_
    exact h0
  clear_value x1
  have hx3 : State.Inv x3 := by
    unfold x3
    refine ite_of ?_ ?_
    · refine State.endModelReqs_inv ?_
      exact hx1
    · exact hx1
  clear_value x3
  refine ite_of ?_ ?_
  · refine State.setCurtain_inv ?_
    exact hx3
  · split
    · refine State.endModelReqs_inv ?_
      exact h0
    · extract_lets -merge y5 x6 x8
      have hx6 : State.Inv x6 := by
        unfold x6
        refine foldl_inv ?_ ?_
        · intro _ _ h7
          refine State.emit_inv ?_
          exact h7
        · refine State.putRun_inv ?_
          refine OptSnd_some (by assumption) ?_
          refine State.allocWings_inv ?_
          exact h0
      clear_value x6
      have hx8 : State.Inv x8 := by
        unfold x8
        refine foldl_inv ?_ ?_
        · intro _ _ h9
          split
          · refine State.putRun_inv ?_
            exact h9
          · exact h9
        · exact hx6
      clear_value x8
      split
      · exact hx8
      · refine State.issueChunks_inv ?_
        exact hx8

theorem State.takeShards_inv {s : Machine.State} {v : Bool} {h : Handed} (h0 : State.Inv s) :
    State.Inv (State.takeShards s v h) := by
  unfold State.takeShards
  refine foldl_inv ?_ ?_
  · intro _ _ h0
    extract_lets -merge y1 y2 x3
    have hx3 : State.Inv x3 := by
      unfold x3
      refine State.endModelReqs_inv ?_
      exact h0
    clear_value x3
    split
    · exact hx3
    · refine ite_of ?_ ?_
      · refine State.startRebuild_inv ?_
        exact hx3
      · exact hx3
  · exact h0

theorem State.takeRuns_inv {s : Machine.State} {v : Bool} {h : Handed} (h0 : State.Inv s) :
    State.Inv (State.takeRuns s v h) := by
  unfold State.takeRuns
  refine foldl_inv ?_ ?_
  · intro _ _ h0
    split
    · exact h0
    · extract_lets -merge x1
      have hx1 : State.Inv x1 := by
        unfold x1
        split
        · exact h0
        · split
          · refine State.notReady_inv ?_
            exact h0
          · refine State.putRun_inv ?_
            refine OptSnd_some (by assumption) ?_
            refine State.allocWings_inv ?_
            exact h0
      clear_value x1
      split
      · exact hx1
      · refine ite_of ?_ ?_
        · refine State.issueChunks_inv ?_
          exact hx1
        · exact hx1
  · exact h0

theorem State.takeRole_inv {s : Machine.State} {v : Bool} {h : Handed} (h0 : State.Inv s) :
    State.Inv (State.takeRole s v h) := by
  unfold State.takeRole
  extract_lets -merge x0 x1 x3 x4 x6
  have hx0 : State.Inv x0 := by
    unfold x0
    refine State.takeGrans_inv ?_
    refine State.takeHost_inv ?_
    exact h0
  clear_value x0
  have hx1 : State.Inv x1 := by
    unfold x1
    refine foldl_inv ?_ ?_
    · intro _ _ h2
      refine State.takeLeaf_inv ?_
      exact h2
    · exact hx0
  clear_value x1
  have hx3 : State.Inv x3 := by
    unfold x3
    refine State.takeCues_inv ?_
    refine State.takeServe_inv ?_
    refine State.takeCurtain_inv ?_
    exact hx1
  clear_value x3
  have hx4 : State.Inv x4 := by
    unfold x4
    refine foldl_inv ?_ ?_
    · intro _ _ h5
      refine State.endRecovered_inv ?_
      exact h5
    · exact hx3
  clear_value x4
  have hx6 : State.Inv x6 := by
    unfold x6
    refine foldl_inv ?_ ?_
    · intro _ _ h7
      refine ite_of ?_ ?_
      · exact h7
      · refine State.endRecovered_inv ?_
        exact h7
    · exact hx4
  clear_value x6
  refine State.takeShards_inv ?_
  refine State.takeRuns_inv ?_
  refine State.returnItems_inv ?_
  exact hx6

theorem State.ownRead_inv {s : Machine.State} {tag : Nat} {r : ReadRun} (h0 : State.Inv s) :
    State.Inv (State.ownRead s tag r) := by
  unfold State.ownRead
  extract_lets -merge y0 y1 y2 x3 y4 x5
  have hx3 : State.Inv x3 := by
    unfold x3
    refine State.setFab_inv ?_
    exact h0
  clear_value x3
  have hx5 : State.Inv x5 := by
    unfold x5
    refine foldl_inv ?_ ?_
    · intro _ _ h6
      refine State.markPoison_inv ?_
      exact h6
    · refine State.writeBytes_inv ?_
      exact hx3
  clear_value x5
  refine ite_of ?_ ?_
  · refine State.failAwait_inv ?_
    exact hx3
  · refine ite_of ?_ ?_
    · exact hx3
    · refine State.dropAwait_inv ?_
      exact hx5

theorem State.ownWrite_inv {s : Machine.State} {k : Nat} {f : Frame} (h0 : State.Inv s) :
    State.Inv (State.ownWrite s k f) := by
  unfold State.ownWrite
  extract_lets -merge y0 y1
  split
  · refine ite_of ?_ ?_
    · refine State.dropAwait_inv ?_
      exact h0
    · refine State.failAwait_inv ?_
      exact h0
  · refine State.dropAwait_inv ?_
    refine ite_of ?_ ?_
    · refine State.writeRole_inv ?_
      exact h0
    · exact h0

theorem State.ownAtom_inv {s : Machine.State} {x : AtomRun} {done : Option AtomRec} {f : Frame} (h0 : State.Inv s) :
    State.Inv (State.ownAtom s x done f) := by
  unfold State.ownAtom
  extract_lets -merge y0 y1 y2 x3
  have hx3 : State.Inv x3 := by
    unfold x3
    refine State.setFab_inv ?_
    exact h0
  clear_value x3
  split
  · refine State.failAwait_inv ?_
    exact hx3
  · extract_lets -merge y4 x5
    have hx5 : State.Inv x5 := by
      unfold x5
      refine ite_of ?_ ?_
      · exact hx3
      · refine State.writeRole_inv ?_
        exact hx3
    clear_value x5
    refine State.dropAwait_inv ?_
    refine State.writeBytes_inv ?_
    exact hx5

theorem State.ownOps_inv {s : Machine.State} {h : Handed} (h0 : State.Inv s) :
    State.Inv (State.ownOps s h) := by
  unfold State.ownOps
  extract_lets -merge y0 y1 y2 x3 x5 x7 y10
  have hx3 : State.Inv x3 := by
    unfold x3
    refine foldl_inv ?_ ?_
    · intro _ _ h4
      refine ite_of ?_ ?_
      · refine State.ownWrite_inv ?_
        exact h4
      · exact h4
    · exact h0
  clear_value x3
  have hx5 : State.Inv x5 := by
    unfold x5
    refine foldl_inv ?_ ?_
    · intro _ _ h6
      refine State.ownRead_inv ?_
      exact h6
    · exact hx3
  clear_value x5
  have hx7 : State.Inv x7 := by
    unfold x7
    refine foldl_inv ?_ ?_
    · intro _ _ h8
      extract_lets -merge y9
      split
      · refine State.ownAtom_inv ?_
        exact h8
      · first | split | (clear_value y9; split)
        · refine State.ownAtom_inv ?_
          exact h8
        · refine State.failAwait_inv ?_
          exact h8
    · exact hx5
  clear_value x7
  refine State.setFab_inv ?_
  exact hx7

theorem State.dropContexts_inv {s : Machine.State} {t : Nat} (h0 : State.Inv s) :
    State.Inv (State.dropContexts s t) := by
  unfold State.dropContexts
  extract_lets -merge y0 y1 x2 y4 x5 y8 y9 y10 y11
  have hx2 : State.Inv x2 := by
    unfold x2
    refine foldl_inv ?_ ?_
    · intro _ _ h3
      refine State.zeroPart_inv ?_
      exact h3
    · exact h0
  clear_value x2
  have hx5 : State.Inv x5 := by
    unfold x5
    refine foldl_inv ?_ ?_
    · intro _ _ h6
      extract_lets -merge y7
      refine State.setCore_inv ?_
      exact h6
    · exact hx2
  clear_value x5
  exact State.Inv.same (hx5) rfl rfl rfl rfl rfl rfl

theorem State.clearRole_inv {s : Machine.State} {f : Nat} (h0 : State.Inv s) : State.Inv (State.clearRole s f) :=
  ⟨h0.mem', regsWfFrom_filter _ _ _ h0.regs', h0.poison', h0.grans', h0.cues', h0.audit'⟩

theorem State.dropRole_inv {s : Machine.State} (h0 : State.Inv s) :
    State.Inv (State.dropRole s) := by
  unfold State.dropRole
  extract_lets -merge x0 x2 y4 y5 y6 y7 x8 y9 x10 y11 x12 y13 x14
  have hx0 : State.Inv x0 := by
    unfold x0
    refine foldl_inv ?_ ?_
    · intro _ _ h1
      refine State.dropContexts_inv ?_
      exact h1
    · exact h0
  clear_value x0
  have hx2 : State.Inv x2 := by
    unfold x2
    refine foldl_inv ?_ ?_
    · intro _ _ h3
      refine State.closeQp_inv ?_
      exact h3
    · exact hx0
  clear_value x2
  have hx8 : State.Inv x8 := by
    unfold x8
    refine State.setHost_inv ?_
    exact hx2
  clear_value x8
  have hx10 : State.Inv x10 := by
    unfold x10
    refine State.setServe_inv ?_
    exact hx8
  clear_value x10
  have hx12 : State.Inv x12 := by
    unfold x12
    refine State.setCurtain_inv ?_
    exact hx10
  clear_value x12
  have hx14 : State.Inv x14 := by
    unfold x14
    refine State.dropCues_inv ?_
    refine State.setTrain_inv ?_
    exact hx12
  clear_value x14
  refine State.clearRole_inv ?_
  exact hx14

end Sys2Proof.Machine
end

