-- ==== Sys2Proof/Laws/InvPair.lean ====
section
/-! SUPPORT. Every function of Machine/Pair.lean that answers a state keeps the invariant. -/

namespace Sys2Proof.Machine

set_option linter.tactic.unusedName false

theorem State.sendHello_inv {s : Machine.State} {role : Nat} (h0 : State.Inv s) :
    State.Inv (State.sendHello s role) := by
  unfold State.sendHello
  refine State.sendPlain_inv ?_
  exact h0

theorem State.releaseHeld_inv {s : Machine.State} (h0 : State.Inv s) :
    State.Inv (State.releaseHeld s) := by
  unfold State.releaseHeld
  extract_lets -merge y0
  refine State.sendOut_inv ?_
  refine State.setPair_inv ?_
  exact h0

theorem State.freshPair_inv {s : Machine.State} (h0 : State.Inv s) :
    State.Inv (State.freshPair s) := by
  unfold State.freshPair
  extract_lets -merge y0 y1 y2
  refine State.setFab_inv ?_
  exact h0

theorem State.startCopy_inv {s : Machine.State} {mirs : List (Nat × Nat)} (h0 : State.Inv s) :
    State.Inv (State.startCopy s mirs) := by
  unfold State.startCopy
  extract_lets -merge x0 y2 x3 y6
  have hx0 : State.Inv x0 := by
    unfold x0
    refine foldl_inv ?_ ?_
    · intro _ _ h1
      refine ite_of ?_ ?_
      · refine State.pairGran_inv ?_
        exact h1
      · exact h1
    · refine State.pairTo_inv ?_
      refine State.freshPair_inv ?_
      exact h0
  clear_value x0
  have hx3 : State.Inv x3 := by
    unfold x3
    refine foldl_inv ?_ ?_
    · intro _ _ h4
      refine foldl_inv ?_ ?_
      · intro _ _ h5
        refine State.addMirBytes_inv ?_
        show SndInv _
        refine State.sendMirror_inv ?_
        exact h5
      · exact h4
    · exact hx0
  clear_value x3
  refine State.setPair_inv ?_
  exact hx3

theorem State.helloIn_inv {s : Machine.State} {f : Frame} {mirs : List (Nat × Nat)} (h0 : State.Inv s) :
    State.Inv (State.helloIn s f mirs) := by
  unfold State.helloIn
  extract_lets -merge y0 y1 y2 x3 x4 y5 y6
  have hx3 : State.Inv x3 := by
    unfold x3
    refine State.setBoot_inv ?_ ?_
    · exact h0
    · refine State.Inv.audit' ?_
      exact h0
  clear_value x3
  have hx4 : State.Inv x4 := by
    unfold x4
    refine ite_of ?_ ?_
    · refine State.startFallback_inv ?_
      exact hx3
    · exact hx3
  clear_value x4
  refine ite_of ?_ ?_
  · exact hx4
  · split
    · refine ite_of ?_ ?_
      · refine State.setField_inv ?_
        refine State.setField_inv ?_
        refine State.pairTo_inv ?_
        exact hx4
      · extract_lets -merge y7
        refine State.setPair_inv ?_
        refine State.sendHello_inv ?_
        refine State.setField_inv ?_
        refine State.pairTo_inv ?_
        exact hx4
    · refine ite_of ?_ ?_
      · refine State.setField_inv ?_
        refine State.setField_inv ?_
        refine State.pairTo_inv ?_
        exact hx4
      · refine State.startCopy_inv ?_
        refine State.sendHello_inv ?_
        exact hx4
    · refine State.startCopy_inv ?_
      refine State.sendHello_inv ?_
      exact hx4
    · exact hx4

theorem execHello_inv {a : Arrival} {mirs : List (Nat × Nat)} {s : Machine.State} (h0 : State.Inv s) :
    Kept (execHello a mirs s) := by
  unfold execHello
  show State.Inv _
  refine State.plainRow_inv ?_ ?_
  · intro _ h0 _
    refine State.helloIn_inv ?_
    exact h0
  · exact h0

theorem execHelloTick_inv {s : Machine.State} (h0 : State.Inv s) :
    Kept (execHelloTick s) := by
  unfold execHelloTick
  show State.Inv _
  refine ite_of ?_ ?_
  · refine State.sendHello_inv ?_
    exact h0
  · exact h0

theorem execBeatTick_inv {s : Machine.State} (h0 : State.Inv s) :
    Kept (execBeatTick s) := by
  unfold execBeatTick
  extract_lets -merge y0
  refine ite_of ?_ ?_
  · show State.Inv _
    exact h0
  · show State.Inv _
    refine foldl_inv ?_ ?_
    · intro _ _ h1
      refine State.sendOn_inv ?_
      exact h1
    · exact h0

theorem execBeat_inv {a : Arrival} {s : Machine.State} (h0 : State.Inv s) :
    Kept (execBeat a s) := by
  unfold execBeat
  show State.Inv _
  refine State.plainRow_inv ?_ ?_
  · intro _ h0 _
    exact h0
  · exact h0

theorem execHeartbeatSilence_inv {s : Machine.State} (h0 : State.Inv s) :
    Kept (execHeartbeatSilence s) := by
  unfold execHeartbeatSilence
  extract_lets -merge y0 x1
  have hx1 : State.Inv x1 := by
    unfold x1
    refine State.bump_inv ?_
    refine State.setPair_inv ?_
    exact h0
  clear_value x1
  refine ite_of ?_ ?_
  · show State.Inv _
    exact h0
  · show State.Inv _
    refine foldl_inv ?_ ?_
    · intro _ _ h2
      refine State.sendCtrl_inv ?_
      exact h2
    · exact hx1

theorem State.serveRole_inv {s : Machine.State} {v : Bool} {h : Handed} {f : Option Nat} {e : State.AuditArg} (h0 : State.Inv s) :
    State.Inv (State.serveRole s v h f e) := by
  unfold State.serveRole
  extract_lets -merge y0 y1 x2 x3 x4 y5 x6 y8
  have hx2 : State.Inv x2 := by
    unfold x2
    refine State.setField_inv ?_
    refine State.setField_inv ?_
    exact h0
  clear_value x2
  have hx3 : State.Inv x3 := by
    unfold x3
    refine State.emit_inv ?_
    refine State.takeRole_inv ?_
    exact hx2
  clear_value x3
  have hx4 : State.Inv x4 := by
    unfold x4
    refine State.auditInternal_inv ?_
    exact hx3
  clear_value x4
  have hx6 : State.Inv x6 := by
    unfold x6
    refine foldl_inv ?_ ?_
    · intro _ _ h7
      refine State.sendCtrl_inv ?_
      exact h7
    · exact hx4
  clear_value x6
  refine State.setFab_inv ?_
  exact hx6

theorem State.takeover_inv {s : Machine.State} {h : Handed} {own : Handed} {plans : List CollPlan} (h0 : State.Inv s) :
    State.Inv (State.takeover s h own plans) := by
  unfold State.takeover
  extract_lets -merge y0 x1 x2 x3 y4 x5 x6 x7 y8 x9 x10
  have hx1 : SndInv x1 := by
    unfold x1
    refine State.sendMirror_inv ?_
    exact h0
  clear_value x1
  have hx2 : State.Inv x2 := by
    unfold x2
    refine State.pairTo_inv ?_
    refine State.bump_inv ?_
    show SndInv _
    exact hx1
  clear_value x2
  have hx3 : State.Inv x3 := by
    unfold x3
    refine State.setField_inv ?_
    refine State.setPeerState_inv ?_
    exact hx2
  clear_value x3
  have hx5 : State.Inv x5 := by
    unfold x5
    refine State.setPair_inv ?_
    exact hx3
  clear_value x5
  have hx6 : State.Inv x6 := by
    unfold x6
    refine State.drainAll_inv ?_
    refine State.releaseHeld_inv ?_
    refine State.poolLost_inv ?_
    refine State.dropRepairs_inv ?_
    exact hx5
  clear_value x6
  have hx7 : State.Inv x7 := by
    unfold x7
    refine ite_of ?_ ?_
    · refine State.setField_inv ?_
      exact hx6
    · exact hx6
  clear_value x7
  have hx9 : State.Inv x9 := by
    unfold x9
    refine State.ownOps_inv ?_
    refine State.serveRole_inv ?_
    exact hx7
  clear_value x9
  have hx10 : State.Inv x10 := by
    unfold x10
    refine ite_of ?_ ?_
    · exact hx9
    · refine State.serveRole_inv ?_
      exact hx9
  clear_value x10
  refine State.collLoop_inv ?_
  refine State.collTakeover_inv ?_
  refine State.bump_inv ?_
  exact hx10

theorem State.resyncFails_inv {s : Machine.State} {missing : List Nat} (h0 : State.Inv s) :
    State.Inv (State.resyncFails s missing) := by
  unfold State.resyncFails
  extract_lets -merge x0
  have hx0 : State.Inv x0 := by
    unfold x0
    refine foldl_inv ?_ ?_
    · intro _ _ h1
      refine foldl_inv ?_ ?_
      · intro _ _ h2
        refine State.markPoison_inv ?_
        exact h2
      · exact h1
    · exact h0
  clear_value x0
  refine State.dropCues_inv ?_
  exact hx0

theorem execFailureDeclared_inv {h : Handed} {own : Handed} {plans : List CollPlan} {missing : List Nat} {s : Machine.State} (h0 : State.Inv s) :
    Kept (execFailureDeclared h own plans missing s) := by
  unfold execFailureDeclared
  extract_lets -merge y0 x1
  have hx1 : State.Inv x1 := by
    unfold x1
    refine ite_of ?_ ?_
    · exact h0
    · refine State.resyncFails_inv ?_
      exact h0
  clear_value x1
  refine ite_of ?_ ?_
  · show State.Inv _
    exact h0
  · show State.Inv _
    refine State.takeover_inv ?_
    exact hx1

theorem execMirrorData_inv {a : Arrival} {s : Machine.State} (h0 : State.Inv s) :
    Kept (execMirrorData a s) := by
  unfold execMirrorData
  show State.Inv _
  refine State.seqRow_inv ?_
  exact h0

theorem execMirrorState_inv {a : Arrival} {s : Machine.State} (h0 : State.Inv s) :
    Kept (execMirrorState a s) := by
  unfold execMirrorState
  show State.Inv _
  refine State.seqRow_inv ?_
  exact h0

theorem execMirrorRepairReq_inv {a : Arrival} {s : Machine.State} (h0 : State.Inv s) :
    Kept (execMirrorRepairReq a s) := by
  unfold execMirrorRepairReq
  show State.Inv _
  refine State.seqRow_inv ?_
  exact h0

theorem execRepairData_inv {a : Arrival} {s : Machine.State} (h0 : State.Inv s) :
    Kept (execRepairData a s) := by
  unfold execRepairData
  show State.Inv _
  refine State.chunksRetry_inv ?_
  refine State.drainAll_inv ?_
  refine State.seqRow_inv ?_
  exact h0

theorem execFence_inv {a : Arrival} {s : Machine.State} (h0 : State.Inv s) :
    Kept (execFence a s) := by
  unfold execFence
  show State.Inv _
  refine State.seqRow_inv ?_
  exact h0

theorem execMirrorCopy_inv {a : Arrival} {s : Machine.State} (h0 : State.Inv s) :
    Kept (execMirrorCopy a s) := by
  unfold execMirrorCopy
  show State.Inv _
  refine State.seqRow_inv ?_
  exact h0

theorem State.writeSplit_inv {s : Machine.State} (h0 : State.Inv s) :
    State.Inv (State.writeSplit s) := by
  unfold State.writeSplit
  extract_lets -merge y0
  refine ite_of ?_ ?_
  · exact h0
  · split
    · exact h0
    · extract_lets -merge y1
      refine State.emit_inv ?_
      refine State.setReg64_inv ?_
      refine State.setPair_inv ?_
      refine OptInv_some (by assumption) ?_
      refine State.addCue_inv ?_
      exact h0

theorem execCopyDone_inv {a : Option Arrival} {s : Machine.State} (h0 : State.Inv s) :
    Kept (execCopyDone a s) := by
  unfold execCopyDone
  extract_lets -merge y0 x1 x2 y3
  have hx1 : SndInv x1 := by
    unfold x1
    refine State.sendMirror_inv ?_
    exact h0
  clear_value x1
  have hx2 : State.Inv x2 := by
    unfold x2
    refine State.setRegN_inv ?_
    refine State.pairTo_inv ?_
    show SndInv _
    exact hx1
  clear_value x2
  split
  · show State.Inv _
    refine State.seqRow_inv ?_
    exact h0
  · refine ite_of ?_ ?_
    · show State.Inv _
      exact h0
    · show State.Inv _
      refine State.writeSplit_inv ?_
      refine State.setPair_inv ?_
      exact hx2

theorem State.holdCleared_inv {s : Machine.State} (h0 : State.Inv s) :
    State.Inv (State.holdCleared s) := by
  unfold State.holdCleared
  refine State.writeSplit_inv ?_
  refine State.setField_inv ?_
  exact h0

theorem execHoldClear_inv {s : Machine.State} (h0 : State.Inv s) :
    Kept (execHoldClear s) := by
  unfold execHoldClear
  show State.Inv _
  refine State.holdCleared_inv ?_
  exact h0

theorem execFormtoExpiry_inv {s : Machine.State} (h0 : State.Inv s) :
    Kept (execFormtoExpiry s) := by
  unfold execFormtoExpiry
  refine ite_of ?_ ?_
  · show State.Inv _
    refine State.setField_inv ?_
    refine State.pairTo_inv ?_
    exact h0
  · show State.Inv _
    exact h0

theorem execSevertoExpiry_inv {h : Handed} {plans : List CollPlan} {s : Machine.State} (h0 : State.Inv s) :
    Kept (execSevertoExpiry h plans s) := by
  unfold execSevertoExpiry
  extract_lets -merge y0
  refine ite_of ?_ ?_
  · show State.Inv _
    exact h0
  · refine ite_of ?_ ?_
    · refine ite_of ?_ ?_
      · show State.Inv _
        refine State.fenceReset_inv ?_
        exact h0
      · show State.Inv _
        exact h0
    · refine ite_of ?_ ?_
      · show State.Inv _
        refine State.takeover_inv ?_
        exact h0
      · show State.Inv _
        exact h0

theorem giveRole_inv {s : Machine.State} (h0 : State.Inv s) :
    State.Inv (giveRole s) := by
  unfold giveRole
  extract_lets -merge y0 x1 x2 y3
  have hx1 : State.Inv x1 := by
    unfold x1
    refine State.setField_inv ?_
    refine State.setPeerState_inv ?_
    refine State.setField_inv ?_
    refine State.setField_inv ?_
    exact h0
  clear_value x1
  have hx2 : State.Inv x2 := by
    unfold x2
    refine ite_of ?_ ?_
    · refine State.setField_inv ?_
      refine State.emit_inv ?_
      refine State.dropRole_inv ?_
      exact hx1
    · exact hx1
  clear_value x2
  refine resyncFlows_inv ?_
  refine State.setFab_inv ?_
  exact hx2

theorem execSplit_inv {time : Nat} {h : Handed} {s : Machine.State} (h0 : State.Inv s) :
    Kept (execSplit time h s) := by
  unfold execSplit
  extract_lets -merge x0
  have hx0 : State.Inv x0 := by
    unfold x0
    refine ite_of ?_ ?_
    · refine getD_inv ?_ ?_
      · refine map_of (p := State.Inv) (q := State.Inv) ?_ ?_
        · intro _ h1
          extract_lets -merge y2
          refine State.setReg64_inv ?_
          refine State.setPair_inv ?_
          exact h1
        · refine State.addCue_inv ?_
          exact h0
      · exact h0
    · exact h0
  clear_value x0
  refine ite_of ?_ ?_
  · show State.Inv _
    exact hx0
  · split
    · show State.Inv _
      exact hx0
    · extract_lets -merge x3 x4 y5
      have hx3 : State.Inv x3 := by
        unfold x3
        refine ite_of ?_ ?_
        · refine giveRole_inv ?_
          refine OptInv_some (by assumption) ?_
          refine State.takeCue_inv ?_
          exact hx0
        · refine State.serveRole_inv ?_
          refine OptInv_some (by assumption) ?_
          refine State.takeCue_inv ?_
          exact hx0
      clear_value x3
      have hx4 : State.Inv x4 := by
        unfold x4
        refine State.setRegN_inv ?_
        refine State.pairTo_inv ?_
        exact hx3
      clear_value x4
      show State.Inv _
      refine State.setPair_inv ?_
      exact hx4

end Sys2Proof.Machine
end

