-- ==== Sys2Proof/Laws/InvPower.lean ====
section
/-! SUPPORT. Every function of Machine/Power.lean that answers a state keeps the invariant. -/

namespace Sys2Proof.Machine

set_option linter.tactic.unusedName false

theorem State.setPow_inv {s : Machine.State} {p : PowSt} (h0 : State.Inv s) :
    State.Inv (State.setPow s p) := by
  unfold State.setPow
  exact State.Inv.same (h0) rfl rfl rfl rfl rfl rfl

theorem State.setAlert_inv {s : Machine.State} {on : Bool} (h0 : State.Inv s) :
    State.Inv (State.setAlert s on) := by
  unfold State.setAlert
  extract_lets -merge x0
  have hx0 : State.Inv x0 := by
    unfold x0
    refine State.setField_inv ?_
    exact h0
  clear_value x0
  refine ite_of ?_ ?_
  · refine State.raise_inv ?_
    exact hx0
  · exact hx0

theorem State.showLevel_inv {s : Machine.State} (h0 : State.Inv s) :
    State.Inv (State.showLevel s) := by
  unfold State.showLevel
  refine ite_of ?_ ?_
  · exact h0
  · refine State.raise_inv ?_
    refine State.showTargets_inv ?_
    refine State.setField_inv ?_
    exact h0

theorem State.tightenTo_inv {s : Machine.State} {c : Nat} {l : Nat} (h0 : State.Inv s) :
    State.Inv (State.tightenTo s c l) := by
  unfold State.tightenTo
  extract_lets -merge y0 x1 y2 x3 x4
  have hx1 : State.Inv x1 := by
    unfold x1
    refine State.setPow_inv ?_
    exact h0
  clear_value x1
  have hx3 : State.Inv x3 := by
    unfold x3
    refine State.bump_inv ?_
    refine State.setPow_inv ?_
    exact hx1
  clear_value x3
  have hx4 : State.Inv x4 := by
    unfold x4
    refine ite_of ?_ ?_
    · refine State.bump_inv ?_
      exact hx3
    · refine ite_of ?_ ?_
      · refine State.bump_inv ?_
        exact hx3
      · exact hx3
  clear_value x4
  refine ite_of ?_ ?_
  · exact hx1
  · refine State.showLevel_inv ?_
    refine State.setField_inv ?_
    exact hx4

theorem State.setFloor_inv {s : Machine.State} {l : Nat} (h0 : State.Inv s) :
    State.Inv (State.setFloor s l) := by
  unfold State.setFloor
  extract_lets -merge x0
  have hx0 : State.Inv x0 := by
    unfold x0
    refine State.setField_inv ?_
    exact h0
  clear_value x0
  refine ite_of ?_ ?_
  · refine State.showLevel_inv ?_
    refine State.setField_inv ?_
    refine State.bump_inv ?_
    exact hx0
  · refine State.showLevel_inv ?_
    exact hx0

theorem State.fmResult_inv {s : Machine.State} {count : Nat} {ramp : Bool} (h0 : State.Inv s) :
    State.Inv (State.fmResult s count ramp) := by
  unfold State.fmResult
  extract_lets -merge x0 y1
  have hx0 : State.Inv x0 := by
    unfold x0
    refine State.setRegN_inv ?_
    refine State.setRegN_inv ?_
    exact h0
  clear_value x0
  refine State.raise_inv ?_
  refine State.setPow_inv ?_
  exact hx0

theorem State.fmGo_inv {s : Machine.State} (h0 : State.Inv s) :
    State.Inv (State.fmGo s) := by
  unfold State.fmGo
  extract_lets -merge y0
  refine ite_of ?_ ?_
  · refine State.setPow_inv ?_
    exact h0
  · exact h0

theorem State.fmMark_inv {s : Machine.State} {h : Nat} (h0 : State.Inv s) :
    State.Inv (State.fmMark s h) := by
  unfold State.fmMark
  extract_lets -merge y0
  refine ite_of ?_ ?_
  · refine State.setPow_inv ?_
    exact h0
  · exact h0

theorem State.rejectPort_inv {s : Machine.State} {p : Nat} (h0 : State.Inv s) :
    State.Inv (State.rejectPort s p) := by
  unfold State.rejectPort
  refine ite_of ?_ ?_
  · refine State.raise_inv ?_
    refine State.setField_inv ?_
    exact h0
  · refine State.raise_inv ?_
    refine State.setField_inv ?_
    exact h0

theorem State.clearHalf_inv {s : Machine.State} {h : Nat} (h0 : State.Inv s) :
    State.Inv (State.clearHalf s h) := by
  unfold State.clearHalf
  extract_lets -merge y0 y1 x2
  have hx2 : State.Inv x2 := by
    unfold x2
    refine foldl_inv ?_ ?_
    · intro _ _ h3
      extract_lets -merge y4
      refine State.setCore_inv ?_
      exact h3
    · exact h0
  clear_value x2
  exact ⟨Memory.wf_filter _ _ hx2.mem', hx2.regs', risingFrom_filter _ _ _ hx2.poison', hx2.grans', hx2.cues', hx2.audit'⟩

theorem State.askMigrate_inv {s : Machine.State} (h0 : State.Inv s) :
    State.Inv (State.askMigrate s) := by
  unfold State.askMigrate
  refine foldl_inv ?_ ?_
  · intro _ _ h0
    refine ite_of ?_ ?_
    · exact h0
    · refine foldl_inv ?_ ?_
      · intro _ _ h1
        refine foldl_inv ?_ ?_
        · intro _ _ h2
          split
          · exact h2
          · refine State.emit_inv ?_
            exact h2
        · exact h1
      · exact h0
  · exact h0

theorem execPwrEnRise_inv {s : Machine.State} (h0 : State.Inv s) :
    Kept (execPwrEnRise s) := by
  unfold execPwrEnRise
  extract_lets -merge y0
  refine ite_of ?_ ?_
  · show State.Inv _
    exact h0
  · show State.Inv _
    refine State.powerUp_inv ?_
    refine State.setPow_inv ?_
    exact h0

theorem execPwrEnFall_inv {s : Machine.State} (h0 : State.Inv s) :
    Kept (execPwrEnFall s) := by
  unfold execPwrEnFall
  extract_lets -merge y0 y1 y2 y3 x4 x5 y6
  have hx4 : State.Inv x4 := by
    unfold x4
    refine State.setBoot_inv ?_ ?_
    · exact h0
    · refine State.Inv.audit' ?_
      exact h0
  clear_value x4
  have hx5 : State.Inv x5 := by
    unfold x5
    refine State.setField_inv ?_
    refine State.moduleReset_inv ?_
    exact hx4
  clear_value x5
  refine ite_of ?_ ?_
  · show State.Inv _
    exact h0
  · refine ite_of ?_ ?_
    · show State.Inv _
      refine State.setPow_inv ?_
      exact h0
    · show State.Inv _
      refine State.setPow_inv ?_
      exact hx5

theorem execInputVoltageStop_inv {cv : Nat} {s : Machine.State} (h0 : State.Inv s) :
    Kept (execInputVoltageStop cv s) := by
  unfold execInputVoltageStop
  extract_lets -merge y0 x1
  have hx1 : State.Inv x1 := by
    unfold x1
    refine State.setPow_inv ?_
    exact h0
  clear_value x1
  refine ite_of ?_ ?_
  · trivial
  · refine ite_of ?_ ?_
    · show State.Inv _
      exact h0
    · show State.Inv _
      refine ite_of ?_ ?_
      · refine State.moduleReset_inv ?_
        exact hx1
      · refine State.showSupply_inv ?_
        exact hx1

theorem execInputValid_inv {cv : Nat} {s : Machine.State} (h0 : State.Inv s) :
    Kept (execInputValid cv s) := by
  unfold execInputValid
  extract_lets -merge y0
  refine ite_of ?_ ?_
  · show State.Inv _
    exact h0
  · show State.Inv _
    refine State.powerUp_inv ?_
    refine State.showSupply_inv ?_
    refine State.setRegN_inv ?_
    refine State.setPow_inv ?_
    exact h0

theorem State.reset464_inv {s : Machine.State} {cause : Nat} {pll : Nat} (h0 : State.Inv s) :
    State.Inv (State.reset464 s cause pll) := by
  unfold State.reset464
  extract_lets -merge x0 y1
  have hx0 : State.Inv x0 := by
    unfold x0
    refine State.moduleReset_inv ?_
    exact h0
  clear_value x0
  refine ite_of ?_ ?_
  · exact h0
  · refine State.setPow_inv ?_
    exact hx0

theorem execResetN_inv {s : Machine.State} (h0 : State.Inv s) :
    Kept (execResetN s) := by
  unfold execResetN
  show State.Inv _
  refine State.reset464_inv ?_
  exact h0

theorem execClockLoss_inv {cause : Nat} {pll : Nat} {s : Machine.State} (h0 : State.Inv s) :
    Kept (execClockLoss cause pll s) := by
  unfold execClockLoss
  refine ite_of ?_ ?_
  · show State.Inv _
    refine State.reset464_inv ?_
    exact h0
  · refine ite_of ?_ ?_
    · show State.Inv _
      refine State.reset464_inv ?_
      exact h0
    · show State.Inv _
      exact h0

theorem execRef100Return_inv {s : Machine.State} (h0 : State.Inv s) :
    Kept (execRef100Return s) := by
  unfold execRef100Return
  refine ite_of ?_ ?_
  · show State.Inv _
    refine State.powerUp_inv ?_
    exact h0
  · show State.Inv _
    exact h0

theorem execTimeBaseRetry_inv {count : Nat} {s : Machine.State} (h0 : State.Inv s) :
    Kept (execTimeBaseRetry count s) := by
  unfold execTimeBaseRetry
  extract_lets -merge x0 y1 y2
  have hx0 : State.Inv x0 := by
    unfold x0
    refine State.powerUp_inv ?_
    exact h0
  clear_value x0
  split
  · show State.Inv _
    exact h0
  · refine ite_of ?_ ?_
    · show State.Inv _
      exact h0
    · refine ite_of ?_ ?_
      · show State.Inv _
        refine State.setPow_inv ?_
        exact hx0
      · show State.Inv _
        refine State.setPow_inv ?_
        exact h0

theorem execPllFixedCount_inv {p : Nat} {s : Machine.State} (h0 : State.Inv s) :
    Kept (execPllFixedCount p s) := by
  unfold execPllFixedCount
  extract_lets -merge y0 x1 y2 y3 x4
  have hx1 : State.Inv x1 := by
    unfold x1
    refine State.setPow_inv ?_
    exact h0
  clear_value x1
  have hx4 : State.Inv x4 := by
    unfold x4
    refine State.setFlash_inv ?_
    exact hx1
  clear_value x4
  refine ite_of ?_ ?_
  · show State.Inv _
    exact h0
  · refine ite_of ?_ ?_
    · show State.Inv _
      refine State.setField_inv ?_
      refine State.setBootState_inv ?_
      exact hx4
    · show State.Inv _
      exact hx1

theorem execPllComparison_inv {p : Nat} {count : Nat} {s : Machine.State} (h0 : State.Inv s) :
    Kept (execPllComparison p count s) := by
  unfold execPllComparison
  extract_lets -merge y0 y1 y2 x3 x4 y5
  have hx3 : State.Inv x3 := by
    unfold x3
    refine State.setPow_inv ?_
    exact h0
  clear_value x3
  have hx4 : State.Inv x4 := by
    unfold x4
    refine State.moduleReset_inv ?_
    exact hx3
  clear_value x4
  refine ite_of ?_ ?_
  · show State.Inv _
    exact h0
  · refine ite_of ?_ ?_
    · show State.Inv _
      refine State.fmGo_inv ?_
      refine State.setPow_inv ?_
      exact h0
    · refine ite_of ?_ ?_
      · show State.Inv _
        exact hx3
      · refine ite_of ?_ ?_
        · show State.Inv _
          refine State.fmGo_inv ?_
          refine State.rejectPort_inv ?_
          exact hx3
        · show State.Inv _
          refine State.setPow_inv ?_
          exact hx4

theorem State.fmStart_inv {s : Machine.State} (h0 : State.Inv s) :
    State.Inv (State.fmStart s) := by
  unfold State.fmStart
  extract_lets -merge x0 y1 y2
  have hx0 : State.Inv x0 := by
    unfold x0
    refine State.setRegN_inv ?_
    exact h0
  clear_value x0
  refine ite_of ?_ ?_
  · refine State.fmResult_inv ?_
    exact hx0
  · refine ite_of ?_ ?_
    · refine State.setPow_inv ?_
      exact hx0
    · refine State.setPow_inv ?_
      exact hx0

theorem execFmStart_inv {s : Machine.State} (h0 : State.Inv s) :
    Kept (execFmStart s) := by
  unfold execFmStart
  show State.Inv _
  refine State.fmStart_inv ?_
  exact h0

theorem execFmDone_inv {count : Nat} {s : Machine.State} (h0 : State.Inv s) :
    Kept (execFmDone count s) := by
  unfold execFmDone
  split
  · show State.Inv _
    exact h0
  · refine ite_of ?_ ?_
    · show State.Inv _
      exact h0
    · show State.Inv _
      refine State.fmResult_inv ?_
      exact h0

theorem execHdoff_inv {mask : BitVec 16} {s : Machine.State} (h0 : State.Inv s) :
    Kept (execHdoff mask s) := by
  unfold execHdoff
  show State.Inv _
  refine State.askMigrate_inv ?_
  refine State.showTargets_inv ?_
  refine State.setField_inv ?_
  exact h0

theorem execLoftoff_inv {off : Bool} {s : Machine.State} (h0 : State.Inv s) :
    Kept (execLoftoff off s) := by
  unfold execLoftoff
  show State.Inv _
  refine State.setField_inv ?_
  exact h0

theorem execDomainSwitched_inv {d : Nat} {s : Machine.State} (h0 : State.Inv s) :
    Kept (execDomainSwitched d s) := by
  unfold execDomainSwitched
  extract_lets -merge y0 y1 x2
  have hx2 : State.Inv x2 := by
    unfold x2
    refine State.setField_inv ?_
    exact State.Inv.same (h0) rfl rfl rfl rfl rfl rfl
  clear_value x2
  refine ite_of ?_ ?_
  · show State.Inv _
    exact h0
  · refine ite_of ?_ ?_
    · refine ite_of ?_ ?_
      · refine ite_of ?_ ?_
        · show State.Inv _
          refine State.setField_inv ?_
          refine State.clearHalf_inv ?_
          exact h0
        · show State.Inv _
          exact h0
      · refine ite_of ?_ ?_
        · show State.Inv _
          exact h0
        · show State.Inv _
          refine ite_of ?_ ?_
          · exact hx2
          · refine State.loftState_inv ?_
            exact hx2
    · show State.Inv _
      refine State.showTargets_inv ?_
      refine State.setField_inv ?_
      exact h0

theorem execReefTighten_inv {cause : Nat} {s : Machine.State} (h0 : State.Inv s) :
    Kept (execReefTighten cause s) := by
  unfold execReefTighten
  extract_lets -merge x0
  have hx0 : State.Inv x0 := by
    unfold x0
    refine ite_of ?_ ?_
    · refine State.setAlert_inv ?_
      exact h0
    · exact h0
  clear_value x0
  refine ite_of ?_ ?_
  · show State.Inv _
    exact h0
  · show State.Inv _
    refine State.tightenTo_inv ?_
    exact hx0

theorem execReefRelax_inv {pin : Nat} {pvar : Nat} {s : Machine.State} (h0 : State.Inv s) :
    Kept (execReefRelax pin pvar s) := by
  unfold execReefRelax
  extract_lets -merge y0 y1 y2
  refine ite_of ?_ ?_
  · show State.Inv _
    refine State.showLevel_inv ?_
    refine State.bump_inv ?_
    refine State.setPow_inv ?_
    exact h0
  · show State.Inv _
    exact h0

theorem execDividerStep_inv {h : Nat} {s : Machine.State} (h0 : State.Inv s) :
    Kept (execDividerStep h s) := by
  unfold execDividerStep
  extract_lets -merge y0 x1 x2 y3 x4 y5 y6 y7
  have hx1 : State.Inv x1 := by
    unfold x1
    refine ite_of ?_ ?_
    · refine State.showTargets_inv ?_
      refine State.setPow_inv ?_
      exact h0
    · refine State.showTargets_inv ?_
      exact h0
  clear_value x1
  have hx2 : State.Inv x2 := by
    unfold x2
    refine ite_of ?_ ?_
    · refine State.endGhosts_inv ?_
      exact hx1
    · exact hx1
  clear_value x2
  have hx4 : State.Inv x4 := by
    unfold x4
    refine State.setPow_inv ?_
    exact hx2
  clear_value x4
  refine ite_of ?_ ?_
  · show State.Inv _
    exact h0
  · refine ite_of ?_ ?_
    · show State.Inv _
      refine ite_of ?_ ?_
      · refine State.setField_inv ?_
        refine State.fmMark_inv ?_
        exact hx4
      · exact hx4
    · refine ite_of ?_ ?_
      · show State.Inv _
        refine State.setField_inv ?_
        refine State.fmMark_inv ?_
        exact hx4
      · refine ite_of ?_ ?_
        · show State.Inv _
          refine State.setField_inv ?_
          refine State.fmMark_inv ?_
          exact hx4
        · show State.Inv _
          refine ite_of ?_ ?_
          · refine State.setField_inv ?_
            refine State.fmMark_inv ?_
            exact hx4
          · exact hx4

theorem execIdleRamp_inv {h : Nat} {s : Machine.State} (h0 : State.Inv s) :
    Kept (execIdleRamp h s) := by
  unfold execIdleRamp
  extract_lets -merge y0
  refine ite_of ?_ ?_
  · show State.Inv _
    exact h0
  · show State.Inv _
    refine State.endGhosts_inv ?_
    refine State.showTargets_inv ?_
    refine State.setPow_inv ?_
    exact h0

theorem execTemperatureRead_inv {temps : List (BitVec 16)} {cv : BitVec 16} {avg : BitVec 16} {peak : BitVec 16} {sec : BitVec 16} {s : Machine.State} (h0 : State.Inv s) :
    Kept (execTemperatureRead temps cv avg peak sec s) := by
  unfold execTemperatureRead
  extract_lets -merge x0 x2 y3 y4 x5 x6 x7 y8
  have hx0 : State.Inv x0 := by
    unfold x0
    refine foldl_inv ?_ ?_
    · intro _ _ h1
      refine State.setRegN_inv ?_
      exact h1
    · exact h0
  clear_value x0
  have hx2 : State.Inv x2 := by
    unfold x2
    refine State.setRegN_inv ?_
    refine State.setRegN_inv ?_
    refine State.setRegN_inv ?_
    exact hx0
  clear_value x2
  have hx5 : State.Inv x5 := by
    unfold x5
    refine State.setPow_inv ?_
    exact hx2
  clear_value x5
  have hx6 : State.Inv x6 := by
    unfold x6
    refine ite_of ?_ ?_
    · refine State.bump_inv ?_
      exact hx5
    · exact hx5
  clear_value x6
  have hx7 : State.Inv x7 := by
    unfold x7
    refine State.setAlert_inv ?_
    exact hx6
  clear_value x7
  refine ite_of ?_ ?_
  · show State.Inv _
    exact h0
  · split
    · show State.Inv _
      exact hx7
    · extract_lets -merge x9 y10
      have hx9 : State.Inv x9 := by
        unfold x9
        refine State.moduleReset_inv ?_
        refine State.setFlash_inv ?_
        exact hx7
      clear_value x9
      show State.Inv _
      refine State.setPow_inv ?_
      exact hx9

end Sys2Proof.Machine
end

