-- ==== Sys2Proof/Laws/InvTenant.lean ====
section
/-! SUPPORT. Every function of Machine/Tenant.lean that answers a state keeps the invariant. -/

namespace Sys2Proof.Machine

set_option linter.tactic.unusedName false

theorem State.dropPlans_inv {s : Machine.State} {t : Nat} (h0 : State.Inv s) :
    State.Inv (State.dropPlans s t) := by
  unfold State.dropPlans
  extract_lets -merge y0 x1 y2 y3
  have hx1 : State.Inv x1 := by
    unfold x1
    refine State.dropCues_inv ?_
    exact h0
  clear_value x1
  exact State.Inv.same (hx1) rfl rfl rfl rfl rfl rfl

theorem State.dropRequests_inv {s : Machine.State} {t : Nat} (h0 : State.Inv s) :
    State.Inv (State.dropRequests s t) := by
  unfold State.dropRequests
  extract_lets -merge y0 x1 x2
  have hx1 : State.Inv x1 := by
    unfold x1
    refine State.setServe_inv ?_
    exact h0
  clear_value x1
  have hx2 : State.Inv x2 := by
    unfold x2
    refine foldl_inv ?_ ?_
    · intro _ _ h3
      extract_lets -merge x4
      have hx4 : SndInv x4 := by
        unfold x4
        refine State.fresh_inv ?_
        exact h3
      clear_value x4
      refine State.endReq_inv ?_
      show SndInv _
      exact hx4
    · exact hx1
  clear_value x2
  refine State.setRegN_inv ?_
  exact hx2

theorem State.dropMemory_inv {s : Machine.State} {t : Nat} (h0 : State.Inv s) :
    State.Inv (State.dropMemory s t) := by
  unfold State.dropMemory
  extract_lets -merge x0 y1 x2
  have hx0 : State.Inv x0 := by
    unfold x0
    refine ite_of ?_ ?_
    · exact h0
    · refine State.writeBytes_inv ?_
      exact h0
  clear_value x0
  have hx2 : State.Inv x2 := by
    unfold x2
    exact State.Inv.same (hx0) rfl rfl rfl rfl rfl rfl
  clear_value x2
  refine foldl_inv ?_ ?_
  · intro _ _ h3
    refine State.freeFor_inv ?_
    exact h3
  · exact hx2

theorem State.dropModels_inv {s : Machine.State} {t : Nat} (h0 : State.Inv s) :
    State.Inv (State.dropModels s t) := by
  unfold State.dropModels
  extract_lets -merge y0 x1 y3 y4 x5 y6 x7 y8
  have hx1 : State.Inv x1 := by
    unfold x1
    refine foldl_inv ?_ ?_
    · intro _ _ h2
      refine State.notReady_inv ?_
      exact h2
    · exact h0
  clear_value x1
  have hx5 : State.Inv x5 := by
    unfold x5
    refine State.setCurtain_inv ?_
    exact hx1
  clear_value x5
  have hx7 : State.Inv x7 := by
    unfold x7
    refine State.setServe_inv ?_
    exact hx5
  clear_value x7
  refine State.showVariants_inv ?_
  refine State.setTrain_inv ?_
  exact hx7

theorem State.endItems_inv {s : Machine.State} {t : Nat} (h0 : State.Inv s) :
    State.Inv (State.endItems s t) := by
  unfold State.endItems
  refine foldl_inv ?_ ?_
  · intro _ _ h0
    refine foldl_inv ?_ ?_
    · intro _ _ h1
      refine State.finish_inv ?_
      exact h1
    · exact h0
  · exact h0

theorem State.resetTenant_inv {s : Machine.State} {t : Nat} {absent : Bool} {own : Bool} (h0 : State.Inv s) :
    State.Inv (State.resetTenant s t absent own) := by
  unfold State.resetTenant
  extract_lets -merge y0 y1 x2
  have hx2 : State.Inv x2 := by
    unfold x2
    refine State.tenantRec_inv ?_
    refine State.setHost_inv ?_
    refine State.setRegN_inv ?_
    exact h0
  clear_value x2
  refine ite_of ?_ ?_
  · exact h0
  · split
    · refine State.setHost_inv ?_
      exact h0
    · refine State.endItems_inv ?_
      refine State.dropMemory_inv ?_
      refine State.dropModels_inv ?_
      refine State.dropContexts_inv ?_
      refine State.dropRequests_inv ?_
      refine State.dropPlans_inv ?_
      exact hx2

theorem State.forgetTenant_inv {s : Machine.State} {t : Nat} (h0 : State.Inv s) :
    State.Inv (State.forgetTenant s t) := by
  unfold State.forgetTenant
  extract_lets -merge x0 x2 y4 x5 x6 y9 x10 y11 x12
  have hx0 : State.Inv x0 := by
    unfold x0
    refine foldl_inv ?_ ?_
    · intro _ _ h1
      refine State.dropQueue_inv ?_
      exact h1
    · exact h0
  clear_value x0
  have hx2 : State.Inv x2 := by
    unfold x2
    refine foldl_inv ?_ ?_
    · intro _ _ h3
      refine State.closeQp_inv ?_
      exact h3
    · exact hx0
  clear_value x2
  have hx5 : State.Inv x5 := by
    unfold x5
    refine State.setHost_inv ?_
    exact hx2
  clear_value x5
  have hx6 : State.Inv x6 := by
    unfold x6
    refine foldl_inv ?_ ?_
    · intro _ _ h7
      refine foldl_inv ?_ ?_
      · intro _ _ h8
        refine State.setRegN_inv ?_
        exact h8
      · exact h7
    · exact hx5
  clear_value x6
  have hx10 : State.Inv x10 := by
    unfold x10
    refine State.setServe_inv ?_
    exact hx6
  clear_value x10
  have hx12 : State.Inv x12 := by
    unfold x12
    exact State.Inv.same (hx10) rfl rfl rfl rfl rfl rfl
  clear_value x12
  refine State.setRegN_inv ?_
  refine State.setRegN_inv ?_
  refine State.setRegN_inv ?_
  exact hx12

theorem execResetDesc_inv {t : Nat} {q : Nat} {s : Machine.State} (h0 : State.Inv s) :
    Kept (execResetDesc t q s) := by
  unfold execResetDesc
  show State.Inv _
  refine State.runRow_inv ?_ ?_
  · exact h0
  · intro _ h0 _
    refine ite_of ?_ ?_
    · refine foldl_inv ?_ ?_
      · intro _ _ h1
        refine State.finish_inv ?_
        exact h1
      · refine State.finish_inv ?_
        exact h0
    · refine ite_of ?_ ?_
      · refine State.finish_inv ?_
        exact h0
      · refine State.resetTenant_inv ?_
        exact h0

theorem execTntCtrlReset_inv {t : Nat} {s : Machine.State} (h0 : State.Inv s) :
    Kept (execTntCtrlReset t s) := by
  unfold execTntCtrlReset
  show State.Inv _
  refine ite_of ?_ ?_
  · exact h0
  · refine State.resetTenant_inv ?_
    exact h0

theorem execTenantResetComplete_inv {t : Nat} {s : Machine.State} (h0 : State.Inv s) :
    Kept (execTenantResetComplete t s) := by
  unfold execTenantResetComplete
  extract_lets -merge x0 y2 x3
  have hx0 : State.Inv x0 := by
    unfold x0
    refine foldl_inv ?_ ?_
    · intro _ _ h1
      refine State.sendRing_inv ?_
      exact h1
    · exact h0
  clear_value x0
  have hx3 : State.Inv x3 := by
    unfold x3
    refine State.bump_inv ?_
    refine State.setHost_inv ?_
    exact hx0
  clear_value x3
  split
  · show State.Inv _
    exact h0
  · extract_lets -merge x4 x5
    have hx4 : State.Inv x4 := by
      unfold x4
      refine State.auditInternal_inv ?_
      exact hx3
    clear_value x4
    have hx5 : State.Inv x5 := by
      unfold x5
      refine ite_of ?_ ?_
      · refine State.forgetTenant_inv ?_
        exact hx4
      · refine State.setRegN_inv ?_
        exact hx4
    clear_value x5
    refine ite_of ?_ ?_
    · show State.Inv _
      exact h0
    · show State.Inv _
      refine State.tenantRec_inv ?_
      exact hx5

end Sys2Proof.Machine
end

