-- ==== Sys2Proof/Laws/InvTimeOps.lean ====
section
/-! SUPPORT. Every function of Machine/TimeOps.lean that answers a state keeps the invariant. -/

namespace Sys2Proof.Machine

set_option linter.tactic.unusedName false

theorem State.showFreq_inv {s : Machine.State} (h0 : State.Inv s) :
    State.Inv (State.showFreq s) := by
  unfold State.showFreq
  refine State.setReg_inv ?_
  exact h0

theorem State.tick_inv {s : Machine.State} (h0 : State.Inv s) :
    State.Inv (State.tick s) := by
  unfold State.tick
  extract_lets -merge y0 y1 y2
  refine ite_of ?_ ?_
  · exact State.Inv.same (h0) rfl rfl rfl rfl rfl rfl
  · refine ite_of ?_ ?_
    · refine State.showFreq_inv ?_
      exact State.Inv.same (h0) rfl rfl rfl rfl rfl rfl
    · refine State.showFreq_inv ?_
      exact State.Inv.same (h0) rfl rfl rfl rfl rfl rfl

theorem State.timeTo_inv {s : Machine.State} {st : Nat} (h0 : State.Inv s) :
    State.Inv (State.timeTo s st) := by
  unfold State.timeTo
  extract_lets -merge y0 y1 x2 x3
  have hx2 : State.Inv x2 := by
    unfold x2
    refine State.setTime_inv ?_ ?_
    · exact h0
    · refine State.Inv.cues' ?_
      exact h0
  clear_value x2
  have hx3 : State.Inv x3 := by
    unfold x3
    refine State.setAdm_inv ?_
    refine State.setField_inv ?_
    refine State.setField_inv ?_
    exact hx2
  clear_value x3
  refine State.raise_inv ?_
  refine ite_of ?_ ?_
  · refine State.bump_inv ?_
    exact hx3
  · exact hx3

theorem State.showSource_inv {s : Machine.State} (h0 : State.Inv s) :
    State.Inv (State.showSource s) := by
  unfold State.showSource
  refine State.setField_inv ?_
  exact h0

theorem State.correct_inv {s : Machine.State} {off : Int} (h0 : State.Inv s) :
    State.Inv (State.correct s off) := by
  unfold State.correct
  extract_lets -merge y0 y1 y2 y3
  refine ite_of ?_ ?_
  · refine State.showFreq_inv ?_
    refine State.bump_inv ?_
    exact ⟨h0.mem', h0.regs', h0.poison', h0.grans', cueSorted_map _ (fun a b => by simp only [Cue.before]; split <;> split <;> rfl) _ h0.cues', h0.audit'⟩
  · refine State.showFreq_inv ?_
    refine State.setTime_inv ?_ ?_
    · exact h0
    · refine State.Inv.cues' ?_
      exact h0

theorem State.offset_inv {s : Machine.State} {off : Int} (h0 : State.Inv s) :
    State.Inv (State.offset s off) := by
  unfold State.offset
  extract_lets -merge y0 x1 y2 y3 y4 x5
  have hx1 : State.Inv x1 := by
    unfold x1
    refine State.correct_inv ?_
    refine State.setReg_inv ?_
    exact h0
  clear_value x1
  have hx5 : State.Inv x5 := by
    unfold x5
    refine State.setTime_inv ?_ ?_
    · exact hx1
    · refine State.Inv.cues' ?_
      exact hx1
  clear_value x5
  split
  · refine ite_of ?_ ?_
    · refine State.timeTo_inv ?_
      exact hx5
    · exact hx5
  · refine State.timeTo_inv ?_
    exact hx5
  · refine ite_of ?_ ?_
    · refine State.timeTo_inv ?_
      exact hx5
    · exact hx5

theorem State.sourceGone_inv {s : Machine.State} (h0 : State.Inv s) :
    State.Inv (State.sourceGone s) := by
  unfold State.sourceGone
  extract_lets -merge x0
  have hx0 : State.Inv x0 := by
    unfold x0
    refine State.showSource_inv ?_
    exact h0
  clear_value x0
  refine ite_of ?_ ?_
  · refine State.timeTo_inv ?_
    exact hx0
  · exact hx0

theorem State.ccueCtl_inv {s : Machine.State} {arm : Bool} {cancel : Bool} (h0 : State.Inv s) :
    OptInv (State.ccueCtl s arm cancel) := by
  unfold State.ccueCtl
  extract_lets -merge y0
  refine ite_of ?_ ?_
  · show State.Inv _
    exact h0
  · refine ite_of ?_ ?_
    · refine State.addCue_inv ?_
      exact h0
    · refine ite_of ?_ ?_
      · show State.Inv _
        refine State.dropCues_inv ?_
        exact h0
      · show State.Inv _
        exact h0

theorem State.setTod_inv {s : Machine.State} (h0 : State.Inv s) :
    State.Inv (State.setTod s) := by
  unfold State.setTod
  extract_lets -merge y0
  refine State.setTime_inv ?_ ?_
  · exact h0
  · refine State.Inv.cues' ?_
    exact h0

theorem State.syncDrop_inv {s : Machine.State} {src : Nat} {macsec : Bool} (h0 : State.Inv s) :
    OptInv (State.syncDrop s src macsec) := by
  unfold State.syncDrop
  extract_lets -merge y0
  refine ite_of ?_ ?_
  · trivial
  · refine ite_of ?_ ?_
    · show State.Inv _
      refine State.bump_inv ?_
      exact h0
    · refine ite_of ?_ ?_
      · show State.Inv _
        refine State.bump_inv ?_
        exact h0
      · trivial

theorem execSync_inv {src : Nat} {time : Nat} {macsec : Bool} {s : Machine.State} (h0 : State.Inv s) :
    Kept (execSync src time macsec s) := by
  unfold execSync
  split
  · show State.Inv _
    refine OptInv_some (by assumption) ?_
    refine State.syncDrop_inv ?_
    exact h0
  · refine ite_of ?_ ?_
    · show State.Inv _
      refine State.offset_inv ?_
      exact h0
    · show State.Inv _
      exact h0

theorem execPpsPulse_inv {s : Machine.State} (h0 : State.Inv s) :
    Kept (execPpsPulse s) := by
  unfold execPpsPulse
  extract_lets -merge x0 y1
  have hx0 : State.Inv x0 := by
    unfold x0
    refine State.setField_inv ?_
    exact h0
  clear_value x0
  split
  · show State.Inv _
    exact hx0
  · extract_lets -merge x2
    have hx2 : State.Inv x2 := by
      unfold x2
      refine State.setTime_inv ?_ ?_
      · exact hx0
      · refine State.Inv.cues' ?_
        exact hx0
    clear_value x2
    show State.Inv _
    refine ite_of ?_ ?_
    · refine State.offset_inv ?_
      exact hx2
    · exact hx2

theorem execSourceQualified_inv {src : Nat} {ptp : Option Nat} {s : Machine.State} (h0 : State.Inv s) :
    Kept (execSourceQualified src ptp s) := by
  unfold execSourceQualified
  extract_lets -merge y0 x1 y2 y3 y4
  have hx1 : State.Inv x1 := by
    unfold x1
    refine State.setField_inv ?_
    refine State.setField_inv ?_
    exact h0
  clear_value x1
  refine ite_of ?_ ?_
  · show State.Inv _
    exact h0
  · refine ite_of ?_ ?_
    · show State.Inv _
      refine State.showSource_inv ?_
      refine State.setTime_inv ?_ ?_
      · exact h0
      · refine State.Inv.cues' ?_
        exact h0
    · first | split | (clear_value y3; split)
      · show State.Inv _
        exact hx1
      · show State.Inv _
        refine State.showSource_inv ?_
        refine State.setTime_inv ?_ ?_
        · exact hx1
        · refine State.Inv.cues' ?_
          exact hx1

theorem execSourceLost_inv {src : Nat} {ref10 : Bool} {s : Machine.State} (h0 : State.Inv s) :
    Kept (execSourceLost src ref10 s) := by
  unfold execSourceLost
  extract_lets -merge y0 y1 x2 y3 x4
  have hx2 : State.Inv x2 := by
    unfold x2
    refine ite_of ?_ ?_
    · refine State.setTime_inv ?_ ?_
      · refine State.setField_inv ?_
        refine State.setField_inv ?_
        exact h0
      · refine State.Inv.cues' ?_
        exact h0
    · exact h0
  clear_value x2
  have hx4 : State.Inv x4 := by
    unfold x4
    refine State.setTime_inv ?_ ?_
    · exact hx2
    · refine State.Inv.cues' ?_
      exact hx2
  clear_value x4
  refine ite_of ?_ ?_
  · show State.Inv _
    exact h0
  · show State.Inv _
    refine ite_of ?_ ?_
    · refine State.sourceGone_inv ?_
      exact hx4
    · exact hx4

theorem execHoldoverExpiry_inv {s : Machine.State} (h0 : State.Inv s) :
    Kept (execHoldoverExpiry s) := by
  unfold execHoldoverExpiry
  refine ite_of ?_ ?_
  · show State.Inv _
    refine State.timeTo_inv ?_
    exact h0
  · show State.Inv _
    exact h0

theorem execTimTod_inv {sec : BitVec 64} {s : Machine.State} (h0 : State.Inv s) :
    Kept (execTimTod sec s) := by
  unfold execTimTod
  show State.Inv _
  refine State.setTod_inv ?_
  refine State.setReg64_inv ?_
  exact h0

theorem execTimCcueArm_inv {s : Machine.State} (h0 : State.Inv s) :
    Kept (execTimCcueArm s) := by
  unfold execTimCcueArm
  show State.Inv _
  refine getD_inv ?_ ?_
  · refine State.ccueCtl_inv ?_
    exact h0
  · exact h0

theorem execTimCcueCancel_inv {s : Machine.State} (h0 : State.Inv s) :
    Kept (execTimCcueCancel s) := by
  unfold execTimCcueCancel
  show State.Inv _
  refine getD_inv ?_ ?_
  · refine State.ccueCtl_inv ?_
    exact h0
  · exact h0

end Sys2Proof.Machine
end

