-- ==== Sys2Proof/Laws/InvConfLoad.lean ====
section
/-! SUPPORT. Every function of Machine/ConfLoad.lean that answers a state keeps the invariant. -/

namespace Sys2Proof.Machine

set_option linter.tactic.unusedName false

theorem State.loadReg_inv {s : Machine.State} {c : Conf} {off : Nat} (h0 : State.Inv s) :
    State.Inv (State.loadReg s c off) := by
  unfold State.loadReg
  extract_lets -merge y0 y1 y2 y3
  refine State.setRegN_inv ?_
  exact h0

theorem State.loadRegs_inv {s : Machine.State} {c : Conf} (h0 : State.Inv s) :
    State.Inv (State.loadRegs s c) := by
  unfold State.loadRegs
  extract_lets -merge x0 y2
  have hx0 : State.Inv x0 := by
    unfold x0
    refine foldl_inv ?_ ?_
    · intro _ _ h1
      refine State.loadReg_inv ?_
      exact h1
    · exact h0
  clear_value x0
  exact State.Inv.same (hx0) rfl rfl rfl rfl rfl rfl

theorem State.keepLevel_inv {s : Machine.State} {t : Nat} {rqBurst : Nat} {tkBurst : Nat} (h0 : State.Inv s) :
    State.Inv (State.keepLevel s t rqBurst tkBurst) := by
  unfold State.keepLevel
  extract_lets -merge y0 y1 y2 y3 y4
  refine State.setServe_inv ?_
  exact h0

theorem State.keepLevels_inv {s : Machine.State} {t : Nat} {rqBurst : Nat} {tkBurst : Nat} (h0 : State.Inv s) :
    State.Inv (State.keepLevels s t rqBurst tkBurst) := by
  unfold State.keepLevels
  extract_lets -merge x0
  have hx0 : State.Inv x0 := by
    unfold x0
    refine State.keepLevel_inv ?_
    exact h0
  clear_value x0
  refine ite_of ?_ ?_
  · refine State.keepLevel_inv ?_
    exact hx0
  · exact hx0

theorem State.closeQueues_inv {s : Machine.State} {t : Nat} {old : Nat} {new : Nat} (h0 : State.Inv s) :
    State.Inv (State.closeQueues s t old new) := by
  unfold State.closeQueues
  refine foldl_inv ?_ ?_
  · intro _ _ h0
    extract_lets -merge y1
    refine State.reapQueue_inv ?_
    refine State.setHq_inv ?_
    exact h0
  · exact h0

theorem State.loadTenant_inv {s : Machine.State} {c : Conf} {t : Nat} (h0 : State.Inv s) :
    State.Inv (State.loadTenant s c t) := by
  unfold State.loadTenant
  extract_lets -merge y0 y1 y2 x3 x4 x5 x6 x7
  have hx3 : State.Inv x3 := by
    unfold x3
    refine ite_of ?_ ?_
    · refine ite_of ?_ ?_
      · refine State.resetTenant_inv ?_
        exact h0
      · exact h0
    · refine ite_of ?_ ?_
      · refine State.keepLevel_inv ?_
        refine State.closeQueues_inv ?_
        exact h0
      · refine State.setRegN_inv ?_
        exact h0
  clear_value x3
  have hx4 : State.Inv x4 := by
    unfold x4
    refine State.setRegN_inv ?_
    exact hx3
  clear_value x4
  have hx5 : State.Inv x5 := by
    unfold x5
    refine State.setRegN_inv ?_
    refine State.setField_inv ?_
    exact hx4
  clear_value x5
  have hx6 : State.Inv x6 := by
    unfold x6
    refine State.setRegN_inv ?_
    exact hx5
  clear_value x6
  have hx7 : State.Inv x7 := by
    unfold x7
    refine State.setRegN_inv ?_
    refine State.setRegN_inv ?_
    refine State.setRegN_inv ?_
    exact hx6
  clear_value x7
  refine ite_of ?_ ?_
  · refine State.setField_inv ?_
    refine State.closeQueues_inv ?_
    exact h0
  · refine ite_of ?_ ?_
    · exact hx5
    · refine State.setRegN_inv ?_
      refine State.setRegN_inv ?_
      exact hx7

theorem State.loadPeer_inv {c : Conf} {m : Nat} {s : Machine.State} {i : Nat} (h0 : State.Inv s) :
    State.Inv (State.loadPeer c m s i) := by
  unfold State.loadPeer
  extract_lets -merge y0 y1 x2 y3
  have hx2 : State.Inv x2 := by
    unfold x2
    refine State.setPeerState_inv ?_
    refine State.setField_inv ?_
    exact h0
  clear_value x2
  refine ite_of ?_ ?_
  · refine failPeer_inv ?_
    refine foldl_inv ?_ ?_
    · intro _ _ h4
      refine State.pathBit_inv ?_
      exact h4
    · exact hx2
  · refine ite_of ?_ ?_
    · refine foldl_inv ?_ ?_
      · intro _ _ h5
        refine State.pathBit_inv ?_
        exact h5
      · exact hx2
    · exact hx2

theorem State.loadDomain_inv {s : Machine.State} {c : Conf} {m : Nat} (h0 : State.Inv s) :
    State.Inv (State.loadDomain s c m) := by
  unfold State.loadDomain
  extract_lets -merge y0 x1 x2 x3 x5 x6 x8 x10 y13
  have hx1 : State.Inv x1 := by
    unfold x1
    refine State.setReg64_inv ?_
    refine State.setRegN_inv ?_
    refine State.setRegN_inv ?_
    exact h0
  clear_value x1
  have hx2 : State.Inv x2 := by
    unfold x2
    refine State.setReg64_inv ?_
    refine State.setField_inv ?_
    refine State.setField_inv ?_
    exact hx1
  clear_value x2
  have hx3 : State.Inv x3 := by
    unfold x3
    refine foldl_inv ?_ ?_
    · intro _ _ h4
      refine State.setRegN_inv ?_
      exact h4
    · exact hx2
  clear_value x3
  have hx5 : State.Inv x5 := by
    unfold x5
    refine State.setField_inv ?_
    refine State.setField_inv ?_
    exact hx3
  clear_value x5
  have hx6 : State.Inv x6 := by
    unfold x6
    refine foldl_inv ?_ ?_
    · intro _ _ h7
      refine State.setField_inv ?_
      exact h7
    · exact hx5
  clear_value x6
  have hx8 : State.Inv x8 := by
    unfold x8
    refine foldl_inv ?_ ?_
    · intro _ _ h9
      refine State.loadPeer_inv ?_
      exact h9
    · exact hx6
  clear_value x8
  have hx10 : State.Inv x10 := by
    unfold x10
    refine foldl_inv ?_ ?_
    · intro _ _ h11
      extract_lets -merge y12
      refine ite_of ?_ ?_
      · refine State.setLink_inv ?_
        exact h11
      · refine ite_of ?_ ?_
        · refine State.setLink_inv ?_
          exact h11
        · exact h11
    · exact hx8
  clear_value x10
  refine foldl_inv ?_ ?_
  · intro _ _ h14
    refine State.showPort_inv ?_
    refine State.setField_inv ?_
    refine State.setField_inv ?_
    exact h14
  · exact hx10

theorem State.loadTime_inv {s : Machine.State} {c : Conf} (h0 : State.Inv s) :
    State.Inv (State.loadTime s c) := by
  unfold State.loadTime
  extract_lets -merge y0 y1 y2 y3 y4
  refine ite_of ?_ ?_
  · exact h0
  · refine State.sourceGone_inv ?_
    refine State.setTime_inv ?_ ?_
    · refine State.setRegN_inv ?_
      exact h0
    · refine State.Inv.cues' ?_
      exact h0

theorem State.loadConf_inv {s : Machine.State} {c : Conf} {m : Nat} (h0 : State.Inv s) :
    State.Inv (State.loadConf s c m) := by
  unfold State.loadConf
  extract_lets -merge y0 y1 x2 x3 x4
  have hx2 : State.Inv x2 := by
    unfold x2
    refine State.setBoot_inv ?_ ?_
    · exact h0
    · refine State.Inv.audit' ?_
      exact h0
  clear_value x2
  have hx3 : State.Inv x3 := by
    unfold x3
    refine State.setField_inv ?_
    refine State.showBytes_inv ?_
    refine State.showBytes_inv ?_
    exact hx2
  clear_value x3
  have hx4 : State.Inv x4 := by
    unfold x4
    refine State.loadDomain_inv ?_
    refine State.loadRegs_inv ?_
    exact hx3
  clear_value x4
  refine State.loadMgr_inv ?_
  refine State.loadTime_inv ?_
  refine foldl_inv ?_ ?_
  · intro _ _ h5
    refine State.loadTenant_inv ?_
    exact h5
  · exact hx4

end Sys2Proof.Machine
end

