-- ==== Sys2Proof/Laws/InvUpdate.lean ====
section
/-! SUPPORT. Every function of Machine/Update.lean that answers a state keeps the invariant. -/

namespace Sys2Proof.Machine

set_option linter.tactic.unusedName false

theorem State.showPend_inv {s : Machine.State} (h0 : State.Inv s) :
    State.Inv (State.showPend s) := by
  unfold State.showPend
  refine State.setRegN_inv ?_
  refine State.setRegN_inv ?_
  exact h0

theorem State.applyChange_inv {s : Machine.State} {x : Nat × Option (List Byte)} (h0 : State.Inv s) :
    State.Inv (State.applyChange s x) := by
  unfold State.applyChange
  extract_lets -merge y0 y1 y2 x3 y4
  have hx3 : State.Inv x3 := by
    unfold x3
    refine State.showPend_inv ?_
    refine State.setFlash_inv ?_
    exact h0
  clear_value x3
  split
  · exact hx3
  · extract_lets -merge x5 x6
    have hx5 : State.Inv x5 := by
      unfold x5
      refine State.auditPut_inv ?_
      exact hx3
    clear_value x5
    have hx6 : State.Inv x6 := by
      unfold x6
      refine ite_of ?_ ?_
      · refine State.auditInternal_inv ?_
        exact hx5
      · exact hx5
    clear_value x6
    split
    · exact hx6
    · refine State.loadConf_inv ?_
      exact hx6

theorem State.applyUpTo_inv {h : Nat} {l : List (Nat × Option (List Byte))} {s : Machine.State} (h0 : State.Inv s) :
    State.Inv (State.applyUpTo h l s) := by
  induction l generalizing s with
  | nil => exact h0
  | cons x xs ih =>
    unfold State.applyUpTo
    exact ite_of h0 (ih (State.applyChange_inv h0))

theorem State.leaveMaint_inv {s : Machine.State} {ok : Bool} (h0 : State.Inv s) :
    State.Inv (State.leaveMaint s ok) := by
  unfold State.leaveMaint
  extract_lets -merge y0
  refine ite_of ?_ ?_
  · refine State.setBoot_inv ?_ ?_
    · exact h0
    · refine State.Inv.audit' ?_
      exact h0
  · exact h0

theorem State.runFw_inv {s : Machine.State} {b : List Byte} (h0 : State.Inv s) :
    State.Inv (State.runFw s b) := by
  unfold State.runFw
  extract_lets -merge y0
  refine State.setField_inv ?_
  refine State.showBytes_inv ?_
  refine State.setBoot_inv ?_ ?_
  · exact h0
  · refine State.Inv.audit' ?_
    exact h0

theorem State.restoreFw_inv {s : Machine.State} (h0 : State.Inv s) :
    State.Inv (State.restoreFw s) := by
  unfold State.restoreFw
  extract_lets -merge y0 x1 y2
  have hx1 : State.Inv x1 := by
    unfold x1
    refine State.setFlash_inv ?_
    exact h0
  clear_value x1
  refine State.setUpd_inv ?_
  refine State.setBoot_inv ?_ ?_
  · exact hx1
  · refine State.Inv.audit' ?_
    exact hx1

theorem State.handBack_inv {s : Machine.State} (h0 : State.Inv s) :
    State.Inv (State.handBack s) := by
  unfold State.handBack
  extract_lets -merge y0 x1
  have hx1 : State.Inv x1 := by
    unfold x1
    refine State.auditInternal_inv ?_
    refine State.runFw_inv ?_
    exact h0
  clear_value x1
  refine State.restoreFw_inv ?_
  refine State.setRegN_inv ?_
  exact hx1

theorem State.arm_inv {s : Machine.State} {mate : Option (Nat × List Byte × Nat)} (h0 : State.Inv s) :
    OptInv (State.arm s mate) := by
  unfold State.arm
  extract_lets -merge y0
  refine ite_of ?_ ?_
  · trivial
  · refine map_of (p := State.Inv) (q := State.Inv) ?_ ?_
    · intro _ h1
      refine State.setUpd_inv ?_
      exact h1
    · refine foldl_of (p := OptInv) ?_ ?_
      · intro _ _ h2
        refine bind_of (p := State.Inv) (q := State.Inv) ?_ ?_
        · intro _ h3
          refine State.addCue_inv ?_
          exact h3
        · exact h2
      · show State.Inv _
        exact h0

theorem State.discard_inv {s : Machine.State} (h0 : State.Inv s) :
    State.Inv (State.discard s) := by
  unfold State.discard
  refine ite_of ?_ ?_
  · refine State.restoreFw_inv ?_
    refine State.dropCues_inv ?_
    exact h0
  · exact h0

theorem State.fallback_inv {s : Machine.State} (h0 : State.Inv s) :
    State.Inv (State.fallback s) := by
  unfold State.fallback
  refine State.startFallback_inv ?_
  exact h0

theorem imageItem_inv {s : Machine.State} {t : Nat} {q : Nat} {i : Item} {bad : Nat} {k : Machine.State → List Byte → Machine.State} (h0 : State.Inv s) (h1 : ∀ a0, State.Inv a0 → ∀ a3, State.Inv (k a0 a3)) :
    State.Inv (imageItem s t q i bad k) := by
  unfold imageItem
  extract_lets -merge y0 y1
  refine ite_of ?_ ?_
  · refine State.finish_inv ?_
    exact h0
  · refine ite_of ?_ ?_
    · refine State.finish_inv ?_
      exact h0
    · refine h1 _ ?_ _
      exact h0

theorem execConfigurationImage_inv {t : Nat} {q : Nat} {s : Machine.State} (h0 : State.Inv s) :
    Kept (execConfigurationImage t q s) := by
  unfold execConfigurationImage
  show State.Inv _
  refine State.runRow_inv ?_ ?_
  · exact h0
  · intro _ h0 _
    refine imageItem_inv ?_ ?_
    · exact h0
    · intro _ h1 _
      extract_lets -merge y2 y3 y4 y5 y6 x7
      have hx7 : State.Inv x7 := by
        unfold x7
        refine State.setFlash_inv ?_
        exact h1
      clear_value x7
      refine ite_of ?_ ?_
      · refine State.finish_inv ?_
        exact h1
      · refine ite_of ?_ ?_
        · refine State.finish_inv ?_
          exact h1
        · refine ite_of ?_ ?_
          · refine State.finish_inv ?_
            exact h1
          · refine ite_of ?_ ?_
            · refine State.finish_inv ?_
              refine State.leaveMaint_inv ?_
              exact hx7
            · refine State.finish_inv ?_
              refine State.showPend_inv ?_
              refine State.setFlash_inv ?_
              exact h1

theorem execDelta_inv {t : Nat} {q : Nat} {s : Machine.State} (h0 : State.Inv s) :
    Kept (execDelta t q s) := by
  unfold execDelta
  show State.Inv _
  refine State.runRow_inv ?_ ?_
  · exact h0
  · intro _ h0 _
    refine imageItem_inv ?_ ?_
    · exact h0
    · intro _ h1 _
      extract_lets -merge y2
      split
      · refine State.finish_inv ?_
        exact h1
      · extract_lets -merge y3
        refine ite_of ?_ ?_
        · refine State.finish_inv ?_
          exact h1
        · refine ite_of ?_ ?_
          · refine State.finish_inv ?_
            exact h1
          · refine State.finish_inv ?_
            refine State.showPend_inv ?_
            refine State.setFlash_inv ?_
            exact h1

theorem execFirmwareImage_inv {t : Nat} {q : Nat} {s : Machine.State} (h0 : State.Inv s) :
    Kept (execFirmwareImage t q s) := by
  unfold execFirmwareImage
  extract_lets -merge y0
  have hy0 : ∀ a0, State.Inv a0 → ∀ a1, ∀ a2, State.Inv (y0 a0 a1 a2) := by
    unfold y0
    intro _ h1 _ _
    refine State.setField_inv ?_
    refine State.setField_inv ?_
    exact h1
  clear_value y0
  show State.Inv _
  refine State.runRow_inv ?_ ?_
  · exact h0
  · intro _ h2 _
    refine imageItem_inv ?_ ?_
    · exact h2
    · intro _ h3 _
      extract_lets -merge y4 y5 y6 x7 y8 x9 y10 x11
      have hx7 : State.Inv x7 := by
        unfold x7
        refine State.setFlash_inv ?_
        exact h3
      clear_value x7
      have hx9 : State.Inv x9 := by
        unfold x9
        refine State.setFlash_inv ?_
        exact h3
      clear_value x9
      have hx11 : State.Inv x11 := by
        unfold x11
        refine State.mirrorRec_inv ?_
        refine State.setBoot_inv ?_ ?_
        · exact hx9
        · refine State.Inv.audit' ?_
          exact hx9
      clear_value x11
      refine ite_of ?_ ?_
      · refine State.finish_inv ?_
        exact h3
      · refine ite_of ?_ ?_
        · refine State.finish_inv ?_
          refine hy0 _ ?_ _ _
          exact h3
        · refine ite_of ?_ ?_
          · refine State.finish_inv ?_
            refine State.leaveMaint_inv ?_
            refine hy0 _ ?_ _ _
            exact hx7
          · refine State.setUpd_inv ?_
            refine State.setField_inv ?_
            refine hy0 _ ?_ _ _
            exact hx11

theorem execFirmwareWritten_inv {ok : Bool} {s : Machine.State} (h0 : State.Inv s) :
    Kept (execFirmwareWritten ok s) := by
  unfold execFirmwareWritten
  extract_lets -merge y0 x1 y2 x3 y4
  have hx1 : State.Inv x1 := by
    unfold x1
    refine State.setField_inv ?_
    refine State.setField_inv ?_
    exact h0
  clear_value x1
  have hx3 : State.Inv x3 := by
    unfold x3
    refine ite_of ?_ ?_
    · refine State.auditInternal_inv ?_
      refine State.setUpd_inv ?_
      refine State.setFlash_inv ?_
      exact hx1
    · refine State.restoreFw_inv ?_
      exact hx1
  clear_value x3
  refine ite_of ?_ ?_
  · show State.Inv _
    exact h0
  · show State.Inv _
    refine State.endRef_inv ?_
    refine State.setBoot_inv ?_ ?_
    · exact hx3
    · refine State.Inv.audit' ?_
      exact hx3

theorem execConfigCue_inv {handle : Nat} {s : Machine.State} (h0 : State.Inv s) :
    Kept (execConfigCue handle s) := by
  unfold execConfigCue
  split
  · show State.Inv _
    exact h0
  · show State.Inv _
    refine ite_of ?_ ?_
    · refine State.applyUpTo_inv ?_
      refine OptInv_some (by assumption) ?_
      refine State.takeCue_inv ?_
      exact h0
    · refine OptInv_some (by assumption) ?_
      refine State.takeCue_inv ?_
      exact h0

theorem execHandover_inv {accepted : Bool} {s : Machine.State} (h0 : State.Inv s) :
    Kept (execHandover accepted s) := by
  unfold execHandover
  split
  · show State.Inv _
    exact h0
  · extract_lets -merge x0 y1
    have hx0 : State.Inv x0 := by
      unfold x0
      refine State.auditInternal_inv ?_
      refine State.runFw_inv ?_
      refine OptInv_some (by assumption) ?_
      refine State.takeCue_inv ?_
      exact h0
    clear_value x0
    refine ite_of ?_ ?_
    · show State.Inv _
      refine State.handBack_inv ?_
      refine OptInv_some (by assumption) ?_
      refine State.takeCue_inv ?_
      exact h0
    · refine ite_of ?_ ?_
      · show State.Inv _
        refine OptInv_some (by assumption) ?_
        refine State.takeCue_inv ?_
        exact h0
      · refine ite_of ?_ ?_
        · show State.Inv _
          refine State.setUpd_inv ?_
          refine State.setBoot_inv ?_ ?_
          · exact hx0
          · refine State.Inv.audit' ?_
            exact hx0
        · show State.Inv _
          refine State.handBack_inv ?_
          refine State.setUpd_inv ?_
          exact hx0

theorem execUpdArm_inv {mate : Option (Nat × List Byte × Nat)} {s : Machine.State} (h0 : State.Inv s) :
    Kept (execUpdArm mate s) := by
  unfold execUpdArm
  show State.Inv _
  refine getD_inv ?_ ?_
  · refine State.arm_inv ?_
    exact h0
  · exact h0

theorem execUpdDiscard_inv {s : Machine.State} (h0 : State.Inv s) :
    Kept (execUpdDiscard s) := by
  unfold execUpdDiscard
  show State.Inv _
  refine State.discard_inv ?_
  exact h0

theorem execUpdFallback_inv {s : Machine.State} (h0 : State.Inv s) :
    Kept (execUpdFallback s) := by
  unfold execUpdFallback
  show State.Inv _
  refine State.fallback_inv ?_
  exact h0

theorem execUpdateConfirmed_inv {s : Machine.State} (h0 : State.Inv s) :
    Kept (execUpdateConfirmed s) := by
  unfold execUpdateConfirmed
  extract_lets -merge y0 x1
  have hx1 : State.Inv x1 := by
    unfold x1
    refine State.setUpd_inv ?_
    refine State.setBoot_inv ?_ ?_
    · exact h0
    · refine State.Inv.audit' ?_
      exact h0
  clear_value x1
  split
  · show State.Inv _
    exact h0
  · refine ite_of ?_ ?_
    · show State.Inv _
      refine State.auditInternal_inv ?_
      exact hx1
    · show State.Inv _
      exact h0

theorem execUpdateWindowExpiry_inv {s : Machine.State} (h0 : State.Inv s) :
    Kept (execUpdateWindowExpiry s) := by
  unfold execUpdateWindowExpiry
  split
  · show State.Inv _
    exact h0
  · refine ite_of ?_ ?_
    · show State.Inv _
      refine State.startFallback_inv ?_
      exact h0
    · show State.Inv _
      exact h0

theorem execFirmwareFault_inv {s : Machine.State} (h0 : State.Inv s) :
    Kept (execFirmwareFault s) := by
  unfold execFirmwareFault
  show State.Inv _
  refine State.startFallback_inv ?_
  exact h0

end Sys2Proof.Machine
end

