-- ==== Sys2Proof/Laws/InvBoot.lean ====
section
/-! SUPPORT. Every function of Machine/Boot.lean that answers a state keeps the invariant. -/

namespace Sys2Proof.Machine

set_option linter.tactic.unusedName false

theorem State.loadCores_inv {s : Machine.State} (h0 : State.Inv s) :
    State.Inv (State.loadCores s) := by
  unfold State.loadCores
  refine foldl_inv ?_ ?_
  · intro _ _ h0
    extract_lets -merge y1
    refine State.setField_inv ?_
    refine State.setField_inv ?_
    refine State.setCore_inv ?_
    exact h0
  · exact h0

theorem State.toMaintenance_inv {s : Machine.State} {cause : Nat} (h0 : State.Inv s) :
    State.Inv (State.toMaintenance s cause) := by
  unfold State.toMaintenance
  extract_lets -merge x0 x1 x3
  have hx0 : State.Inv x0 := by
    unfold x0
    refine State.setBootCause_inv ?_
    refine State.setBootState_inv ?_
    exact h0
  clear_value x0
  have hx1 : State.Inv x1 := by
    unfold x1
    refine foldl_inv ?_ ?_
    · intro _ _ h2
      refine ite_of ?_ ?_
      · exact h2
      · refine State.setLink_inv ?_
        exact h2
    · exact hx0
  clear_value x1
  have hx3 : State.Inv x3 := by
    unfold x3
    refine State.showTargets_inv ?_
    refine State.setField_inv ?_
    exact hx1
  clear_value x3
  refine ite_of ?_ ?_
  · refine State.setField_inv ?_
    exact hx3
  · exact hx3

theorem State.loadPriors.fromImage_inv {s : Machine.State} (h0 : State.Inv s) :
    State.Inv (State.loadPriors.fromImage s) := by
  unfold State.loadPriors.fromImage
  extract_lets -merge y0
  refine State.setRegN_inv ?_
  refine State.setServe_inv ?_
  exact h0

theorem State.loadPriors_inv {s : Machine.State} (h0 : State.Inv s) :
    State.Inv (State.loadPriors s) := by
  unfold State.loadPriors
  extract_lets -merge y0 y1
  split
  · refine ite_of ?_ ?_
    · refine State.setRegN_inv ?_
      refine State.setField_inv ?_
      refine State.setServe_inv ?_
      exact h0
    · refine State.loadPriors.fromImage_inv ?_
      exact h0
  · refine State.loadPriors.fromImage_inv ?_
    exact h0

theorem State.attStart_inv {s : Machine.State} (h0 : State.Inv s) :
    State.Inv (State.attStart s) := by
  unfold State.attStart
  extract_lets -merge y0
  refine State.setRegN_inv ?_
  refine State.setBoot_inv ?_ ?_
  · exact h0
  · refine State.Inv.audit' ?_
    exact h0

theorem State.exportTo_inv {s : Machine.State} {v : Nat} (h0 : State.Inv s) :
    State.Inv (State.exportTo s v) := by
  unfold State.exportTo
  refine ite_of ?_ ?_
  · exact h0
  · refine State.logShow_inv ?_
    refine State.setReg64_inv ?_
    exact h0

theorem execIdentity_inv {ok : Bool} {s : Machine.State} (h0 : State.Inv s) :
    Kept (execIdentity ok s) := by
  unfold execIdentity
  extract_lets -merge y0 x1 x2
  have hx1 : State.Inv x1 := by
    unfold x1
    refine State.showBytes_inv ?_
    refine State.setBoot_inv ?_ ?_
    · exact h0
    · refine State.Inv.audit' ?_
      exact h0
  clear_value x1
  have hx2 : State.Inv x2 := by
    unfold x2
    refine State.auditInternal_inv ?_
    exact hx1
  clear_value x2
  refine ite_of ?_ ?_
  · show State.Inv _
    exact h0
  · refine ite_of ?_ ?_
    · show State.Inv _
      refine State.setBootCause_inv ?_
      refine State.setBootState_inv ?_
      exact h0
    · show State.Inv _
      refine State.setBootState_inv ?_
      refine State.loadCores_inv ?_
      exact hx2

theorem execConfigVerify_inv {img : List Byte} {deltas : List (List Byte)} {s : Machine.State} (h0 : State.Inv s) :
    Kept (execConfigVerify img deltas s) := by
  unfold execConfigVerify
  extract_lets -merge y0 y1 y2 y3 x4 y5
  have hx4 : State.Inv x4 := by
    unfold x4
    refine State.showPend_inv ?_
    refine State.setFlash_inv ?_
    exact h0
  clear_value x4
  refine ite_of ?_ ?_
  · show State.Inv _
    exact h0
  · split
    · split
      · show State.Inv _
        refine State.setBootCause_inv ?_
        refine State.setBootState_inv ?_
        refine State.loadConf_inv ?_
        exact hx4
      · show State.Inv _
        refine State.toMaintenance_inv ?_
        exact hx4
    · show State.Inv _
      refine State.toMaintenance_inv ?_
      refine State.setBoot_inv ?_ ?_
      · exact hx4
      · refine State.Inv.audit' ?_
        exact hx4
    · show State.Inv _
      refine State.toMaintenance_inv ?_
      exact hx4

theorem execFirmwareVerify_inv {active : List Byte} {fallback : List Byte} {mate : Option (List Byte)} {s : Machine.State} (h0 : State.Inv s) :
    Kept (execFirmwareVerify active fallback mate s) := by
  unfold execFirmwareVerify
  extract_lets -merge y0 y1 x2 y3 y4
  have hx2 : State.Inv x2 := by
    unfold x2
    refine State.setFlash_inv ?_
    exact h0
  clear_value x2
  refine ite_of ?_ ?_
  · show State.Inv _
    exact h0
  · refine ite_of ?_ ?_
    · split
      · show State.Inv _
        exact hx2
      · refine ite_of ?_ ?_
        · show State.Inv _
          exact hx2
        · show State.Inv _
          refine State.setBootCause_inv ?_
          refine State.auditInternal_inv ?_
          refine State.restoreFw_inv ?_
          refine State.setFlash_inv ?_
          exact hx2
    · refine ite_of ?_ ?_
      · show State.Inv _
        refine State.setBootCause_inv ?_
        refine State.auditInternal_inv ?_
        refine State.restoreFw_inv ?_
        exact hx2
      · refine ite_of ?_ ?_
        · show State.Inv _
          refine State.setBootState_inv ?_
          refine State.runFw_inv ?_
          exact hx2
        · refine ite_of ?_ ?_
          · show State.Inv _
            refine State.setBootState_inv ?_
            refine State.runFw_inv ?_
            refine State.setFlash_inv ?_
            exact hx2
          · show State.Inv _
            refine State.toMaintenance_inv ?_
            exact hx2

theorem execHbmTrained_inv {s : Machine.State} (h0 : State.Inv s) :
    Kept (execHbmTrained s) := by
  unfold execHbmTrained
  extract_lets -merge y0 x1 x2 y4 x5
  have hx1 : State.Inv x1 := by
    unfold x1
    refine State.setPow_inv ?_
    refine State.setRegN_inv ?_
    refine State.setRegN_inv ?_
    exact h0
  clear_value x1
  have hx2 : State.Inv x2 := by
    unfold x2
    refine foldl_inv ?_ ?_
    · intro _ _ h3
      refine State.putGran_inv ?_
      exact h3
    · exact hx1
  clear_value x2
  have hx5 : State.Inv x5 := by
    unfold x5
    refine foldl_inv ?_ ?_
    · intro _ _ h6
      refine State.putGran_inv ?_
      exact h6
    · exact hx2
  clear_value x5
  refine ite_of ?_ ?_
  · show State.Inv _
    exact h0
  · show State.Inv _
    refine State.setRegN_inv ?_
    exact hx5

theorem execAdmissionOpen_inv {s : Machine.State} (h0 : State.Inv s) :
    Kept (execAdmissionOpen s) := by
  unfold execAdmissionOpen
  refine ite_of ?_ ?_
  · show State.Inv _
    refine State.setAdm_inv ?_
    refine State.setBootState_inv ?_
    refine State.loadPriors_inv ?_
    exact h0
  · show State.Inv _
    exact h0

theorem execMaintenanceReset_inv {s : Machine.State} (h0 : State.Inv s) :
    Kept (execMaintenanceReset s) := by
  unfold execMaintenanceReset
  refine ite_of ?_ ?_
  · show State.Inv _
    refine State.powerUp_inv ?_
    refine State.setField_inv ?_
    refine State.moduleReset_inv ?_
    exact h0
  · show State.Inv _
    exact h0

theorem execAttStart_inv {s : Machine.State} (h0 : State.Inv s) :
    Kept (execAttStart s) := by
  unfold execAttStart
  show State.Inv _
  refine State.attStart_inv ?_
  exact h0

theorem execAttestationDone_inv {s : Machine.State} (h0 : State.Inv s) :
    Kept (execAttestationDone s) := by
  unfold execAttestationDone
  extract_lets -merge x0 y1
  have hx0 : SndInv x0 := by
    unfold x0
    refine State.fresh_inv ?_
    exact h0
  clear_value x0
  split
  · show State.Inv _
    exact h0
  · extract_lets -merge y2 y3
    show State.Inv _
    refine State.raise_inv ?_
    refine State.setRegN_inv ?_
    refine State.setBoot_inv ?_ ?_
    · show SndInv _
      exact hx0
    · refine State.Inv.audit' ?_
      show SndInv _
      exact hx0

theorem execLogExport_inv {mark : BitVec 64} {s : Machine.State} (h0 : State.Inv s) :
    Kept (execLogExport mark s) := by
  unfold execLogExport
  show State.Inv _
  refine State.exportTo_inv ?_
  exact h0

theorem execAuditFlush_inv {s : Machine.State} (h0 : State.Inv s) :
    Kept (execAuditFlush s) := by
  unfold execAuditFlush
  extract_lets -merge y0
  show State.Inv _
  refine State.setBoot_inv ?_ ?_
  · exact h0
  · refine State.Inv.audit' ?_
    exact h0

end Sys2Proof.Machine
end

