-- ==== Sys2Proof/Laws/InvEvents.lean ====
section
/-! SUPPORT. Every function of Machine/Events.lean that answers a state keeps the invariant. -/

namespace Sys2Proof.Machine

set_option linter.tactic.unusedName false

theorem State.setEvc_inv {s : Machine.State} {x : EvcSt} (h0 : State.Inv s) :
    State.Inv (State.setEvc s x) := by
  unfold State.setEvc
  exact State.Inv.same (h0) rfl rfl rfl rfl rfl rfl

theorem State.evClear_inv {s : Machine.State} {src : Nat} (h0 : State.Inv s) :
    State.Inv (State.evClear s src) := by
  unfold State.evClear
  extract_lets -merge y0 x1
  have hx1 : State.Inv x1 := by
    unfold x1
    refine State.setRegN_inv ?_
    exact h0
  clear_value x1
  refine ite_of ?_ ?_
  · refine State.setRegN_inv ?_
    exact hx1
  · exact hx1

theorem State.evDeliver_inv {s : Machine.State} {src : Nat} (h0 : State.Inv s) :
    State.Inv (State.evDeliver s src) := by
  unfold State.evDeliver
  extract_lets -merge y0 y1 y2 x3 y4 y5
  have hx3 : State.Inv x3 := by
    unfold x3
    refine State.bump_inv ?_
    refine State.evClear_inv ?_
    exact h0
  clear_value x3
  refine ite_of ?_ ?_
  · refine State.sendRing_inv ?_
    exact hx3
  · refine State.setEvc_inv ?_
    refine State.emit_inv ?_
    exact hx3

theorem State.evSet_inv {s : Machine.State} {src : Nat} {data : Nat} (h0 : State.Inv s) :
    State.Inv (State.evSet s src data) := by
  unfold State.evSet
  refine State.raise_inv ?_
  exact h0

theorem State.evMask_inv {s : Machine.State} {src : Nat} {on : Bool} (h0 : State.Inv s) :
    State.Inv (State.evMask s src on) := by
  unfold State.evMask
  extract_lets -merge y0
  refine State.setEvc_inv ?_
  exact h0

theorem State.evW1c_inv {s : Machine.State} {src : Nat} (h0 : State.Inv s) :
    State.Inv (State.evW1c s src) := by
  unfold State.evW1c
  refine ite_of ?_ ?_
  · exact h0
  · refine State.evClear_inv ?_
    exact h0

theorem execEventArrival_inv {src : Nat} {data : Nat} {s : Machine.State} (h0 : State.Inv s) :
    Kept (execEventArrival src data s) := by
  unfold execEventArrival
  show State.Inv _
  refine ite_of ?_ ?_
  · exact h0
  · refine State.raise_inv ?_
    exact h0

theorem execEvcSetpend_inv {src : Nat} {data : Nat} {s : Machine.State} (h0 : State.Inv s) :
    Kept (execEvcSetpend src data s) := by
  unfold execEvcSetpend
  show State.Inv _
  refine State.evSet_inv ?_
  exact h0

theorem execEventDelivery_inv {target : Nat} {s : Machine.State} (h0 : State.Inv s) :
    Kept (execEventDelivery target s) := by
  unfold execEventDelivery
  show State.Inv _
  split
  · exact h0
  · refine State.evDeliver_inv ?_
    exact h0

theorem execEventAck_inv {target : Nat} {s : Machine.State} (h0 : State.Inv s) :
    Kept (execEventAck target s) := by
  unfold execEventAck
  extract_lets -merge y0
  show State.Inv _
  refine State.setEvc_inv ?_
  exact h0

theorem execEvcMaskEffect_inv {src : Nat} {s : Machine.State} (h0 : State.Inv s) :
    Kept (execEvcMaskEffect src s) := by
  unfold execEvcMaskEffect
  extract_lets -merge y0
  show State.Inv _
  split
  · exact h0
  · refine ite_of ?_ ?_
    · refine State.setEvc_inv ?_
      exact h0
    · exact h0

theorem execPend_inv {src : Nat} {arrival : Option Nat} {s : Machine.State} (h0 : State.Inv s) :
    Kept (execPend src arrival s) := by
  unfold execPend
  show State.Inv _
  split
  · refine State.evW1c_inv ?_
    exact h0
  · refine State.raise_inv ?_
    refine State.evW1c_inv ?_
    exact h0

end Sys2Proof.Machine
end

