-- ==== Sys2Proof/Laws/InvHost.lean ====
section
/-! SUPPORT. Every function of Machine/Host.lean that answers a state keeps the invariant. -/

namespace Sys2Proof.Machine

set_option linter.tactic.unusedName false

theorem execSend_inv {k : HostPkt} {msg : List Byte} {s : Machine.State} (h0 : State.Inv s) :
    Kept (execSend k msg s) := by
  unfold execSend
  extract_lets -merge y0 x1 x2
  have hx1 : SndInv x1 := by
    unfold x1
    refine State.hostIn_inv ?_
    exact h0
  clear_value x1
  have hx2 : State.Inv x2 := by
    unfold x2
    show SndInv _
    exact hx1
  clear_value x2
  refine ite_of ?_ ?_
  · show State.Inv _
    exact hx2
  · split
    · show State.Inv _
      refine State.bump_inv ?_
      exact hx2
    · extract_lets -merge y3 y4 y5 x6
      have hx6 : State.Inv x6 := by
        unfold x6
        refine State.askConsumer_inv ?_
        refine State.setHq_inv ?_
        exact hx2
      clear_value x6
      refine ite_of ?_ ?_
      · show State.Inv _
        exact hx2
      · refine ite_of ?_ ?_
        · show State.Inv _
          refine State.bindTry_inv ?_
          refine State.bump_inv ?_
          exact hx2
        · refine ite_of ?_ ?_
          · show State.Inv _
            refine State.takeSend_inv ?_
            exact hx2
          · refine ite_of ?_ ?_
            · show State.Inv _
              refine State.acceptJunk_inv ?_
              refine State.takeSend_inv ?_
              exact hx2
            · show State.Inv _
              refine ite_of ?_ ?_
              · exact hx6
              · refine State.acceptJunk_inv ?_
                refine State.takeAsking_inv ?_
                exact hx6

theorem execConnectionRequest_inv {k : HostPkt} {role : Nat} {service : Nat} {s : Machine.State} (h0 : State.Inv s) :
    Kept (execConnectionRequest k role service s) := by
  unfold execConnectionRequest
  extract_lets -merge y0 y1 y2 y3 y4 x5 x6 x7 x8 x9 x10 y11
  have hx5 : SndInv x5 := by
    unfold x5
    refine State.hostIn_inv ?_
    exact h0
  clear_value x5
  have hx6 : State.Inv x6 := by
    unfold x6
    show SndInv _
    exact hx5
  clear_value x6
  have hx7 : SndInv x7 := by
    unfold x7
    refine State.fresh_inv ?_
    exact hx6
  clear_value x7
  have hx8 : SndInv x8 := by
    unfold x8
    refine State.fresh_inv ?_
    show SndInv _
    exact hx7
  clear_value x8
  have hx9 : SndInv x9 := by
    unfold x9
    refine State.fresh_inv ?_
    show SndInv _
    exact hx8
  clear_value x9
  have hx10 : SndInv x10 := by
    unfold x10
    refine State.fresh_inv ?_
    show SndInv _
    exact hx9
  clear_value x10
  refine ite_of ?_ ?_
  · show State.Inv _
    exact hx6
  · refine ite_of ?_ ?_
    · show State.Inv _
      refine State.emit_inv ?_
      exact hx6
    · show State.Inv _
      refine State.emit_inv ?_
      refine State.regAdd_inv ?_
      refine State.setQp_inv ?_
      show SndInv _
      exact hx10

theorem execCnp_inv {k : HostPkt} {s : Machine.State} (h0 : State.Inv s) :
    Kept (execCnp k s) := by
  unfold execCnp
  extract_lets -merge y0 x1 x2
  have hx1 : SndInv x1 := by
    unfold x1
    refine State.hostIn_inv ?_
    exact h0
  clear_value x1
  have hx2 : State.Inv x2 := by
    unfold x2
    refine State.bump_inv ?_
    show SndInv _
    exact hx1
  clear_value x2
  refine ite_of ?_ ?_
  · show State.Inv _
    show SndInv _
    exact hx1
  · split
    · show State.Inv _
      exact hx2
    · show State.Inv _
      refine State.setQp_inv ?_
      exact hx2

theorem execBind_inv {k : HostPkt} {msg : List Byte} {s : Machine.State} (h0 : State.Inv s) :
    Kept (execBind k msg s) := by
  unfold execBind
  extract_lets -merge y0 x1
  have hx1 : SndInv x1 := by
    unfold x1
    refine State.hostIn_inv ?_
    exact h0
  clear_value x1
  refine ite_of ?_ ?_
  · show State.Inv _
    show SndInv _
    exact hx1
  · split
    · show State.Inv _
      refine State.bump_inv ?_
      show SndInv _
      exact hx1
    · refine ite_of ?_ ?_
      · show State.Inv _
        show SndInv _
        exact hx1
      · show State.Inv _
        refine State.bindTry_inv ?_
        refine State.bump_inv ?_
        show SndInv _
        exact hx1

theorem regionSet_inv {s : Machine.State} {t : Nat} {q : Nat} {i : Item} (h0 : State.Inv s) :
    State.Inv (regionSet s t q i) := by
  unfold regionSet
  extract_lets -merge y0 y1 y2 y3 y4 y5 y6 y7 x8 x9
  have hx8 : State.Inv x8 := by
    unfold x8
    refine State.setRegN_inv ?_
    refine State.setRegN_inv ?_
    exact h0
  clear_value x8
  have hx9 : State.Inv x9 := by
    unfold x9
    refine State.setReg64_inv ?_
    exact hx8
  clear_value x9
  refine ite_of ?_ ?_
  · refine State.finishSt_inv ?_
    exact h0
  · refine ite_of ?_ ?_
    · refine State.finishBusy_inv ?_
      exact h0
    · refine State.finishSt_inv ?_
      refine State.tenantRec_inv ?_
      refine State.setReg64_inv ?_
      exact hx9

theorem flushRefused_inv {t q n : Nat} {s : Machine.State} (h0 : State.Inv s) : State.Inv (flushRefused t q n s) := by
  induction n generalizing s with
  | zero => exact h0
  | succ n ih =>
    unfold flushRefused
    exact ite_of (ih (State.writeRecord_inv h0)) h0

theorem ringSet_inv {s : Machine.State} {t : Nat} {q : Nat} {i : Item} (h0 : State.Inv s) :
    State.Inv (ringSet s t q i) := by
  unfold ringSet
  extract_lets -merge y0 y1 y2 y3 y4 y5 y6 x7 y8 y9 x10 x11
  have hx7 : State.Inv x7 := by
    unfold x7
    refine flushRefused_inv ?_
    exact h0
  clear_value x7
  have hx10 : State.Inv x10 := by
    unfold x10
    refine State.tenantRec_inv ?_
    refine State.setRegN_inv ?_
    refine State.setHq_inv ?_
    exact hx7
  clear_value x10
  have hx11 : State.Inv x11 := by
    unfold x11
    refine ite_of ?_ ?_
    · refine State.sendOwn_inv ?_
      exact hx10
    · exact hx10
  clear_value x11
  refine ite_of ?_ ?_
  · refine State.finishSt_inv ?_
    exact h0
  · refine ite_of ?_ ?_
    · refine State.finishBusy_inv ?_
      exact h0
    · refine State.finishSt_inv ?_
      exact hx11

theorem faultlogSet_inv {s : Machine.State} {t : Nat} {q : Nat} {i : Item} (h0 : State.Inv s) :
    State.Inv (faultlogSet s t q i) := by
  unfold faultlogSet
  extract_lets -merge y0 y1 y2 y3
  refine ite_of ?_ ?_
  · refine State.finishSt_inv ?_
    exact h0
  · refine State.finishSt_inv ?_
    refine State.tenantRec_inv ?_
    refine State.setHost_inv ?_
    exact h0

theorem execRegionSet_inv {t : Nat} {q : Nat} {s : Machine.State} (h0 : State.Inv s) :
    Kept (execRegionSet t q s) := by
  unfold execRegionSet
  show State.Inv _
  refine State.runRow_inv ?_ ?_
  · exact h0
  · intro _ h0 _
    refine regionSet_inv ?_
    exact h0

theorem execRingSet_inv {t : Nat} {q : Nat} {s : Machine.State} (h0 : State.Inv s) :
    Kept (execRingSet t q s) := by
  unfold execRingSet
  show State.Inv _
  refine State.runRow_inv ?_ ?_
  · exact h0
  · intro _ h0 _
    refine ringSet_inv ?_
    exact h0

theorem execFaultlogSet_inv {t : Nat} {q : Nat} {s : Machine.State} (h0 : State.Inv s) :
    Kept (execFaultlogSet t q s) := by
  unfold execFaultlogSet
  show State.Inv _
  refine State.runRow_inv ?_ ?_
  · exact h0
  · intro _ h0 _
    refine faultlogSet_inv ?_
    exact h0

theorem outputError_inv {s : Machine.State} {t : Nat} {q : Nat} {seq : Nat} (h0 : State.Inv s) :
    State.Inv (outputError s t q seq) := by
  unfold outputError
  refine ite_of ?_ ?_
  · exact h0
  · split
    · extract_lets -merge y0
      refine ite_of ?_ ?_
      · refine State.putReq_inv ?_
        exact h0
      · refine State.endReq_inv ?_
        exact h0
    · refine State.updItem_inv ?_
      exact h0

theorem execHostWriteAck_inv {k : HostPkt} {id : Nat} {ok : Bool} {s : Machine.State} (h0 : State.Inv s) :
    Kept (execHostWriteAck k id ok s) := by
  unfold execHostWriteAck
  extract_lets -merge x0 x1 y2 x3
  have hx0 : SndInv x0 := by
    unfold x0
    refine State.hostIn_inv ?_
    exact h0
  clear_value x0
  have hx1 : State.Inv x1 := by
    unfold x1
    show SndInv _
    exact hx0
  clear_value x1
  have hx3 : State.Inv x3 := by
    unfold x3
    refine State.setHost_inv ?_
    exact hx1
  clear_value x3
  refine ite_of ?_ ?_
  · show State.Inv _
    exact hx1
  · split
    · show State.Inv _
      exact hx1
    · split
      · show State.Inv _
        exact hx1
      · show State.Inv _
        exact hx1
      · show State.Inv _
        exact hx1
      · show State.Inv _
        exact hx1
      · show State.Inv _
        refine ite_of ?_ ?_
        · refine State.spillDone_inv ?_
          exact hx3
        · refine State.loseBlock_inv ?_
          exact hx3
      · extract_lets -merge y4
        show State.Inv _
        refine ite_of ?_ ?_
        · refine State.dropAwait_inv ?_
          exact hx3
        · refine State.failAwait_inv ?_
          exact hx3
      · show State.Inv _
        refine ite_of ?_ ?_
        · exact hx3
        · refine outputError_inv ?_
          exact hx3
      · split
        · show State.Inv _
          exact hx3
        · extract_lets -merge x5
          have hx5 : State.Inv x5 := by
            unfold x5
            refine State.setQp_inv ?_
            exact hx3
          clear_value x5
          refine ite_of ?_ ?_
          · show State.Inv _
            refine State.closeQp_inv ?_
            exact hx5
          · split
            · show State.Inv _
              exact hx5
            · show State.Inv _
              refine State.sendMsg_inv ?_
              exact hx5
      · show State.Inv _
        refine ite_of ?_ ?_
        · refine State.roleRec_inv ?_
          exact hx3
        · refine State.regionWrite_inv ?_
          exact hx3
      · show State.Inv _
        exact hx3

theorem execCompletionWrite_inv {t : Nat} {q : Nat} {s : Machine.State} (h0 : State.Inv s) :
    Kept (execCompletionWrite t q s) := by
  unfold execCompletionWrite
  show State.Inv _
  refine State.writeRecord_inv ?_
  exact h0

theorem execCompletionNotice_inv {t : Nat} {q : Nat} {s : Machine.State} (h0 : State.Inv s) :
    Kept (execCompletionNotice t q s) := by
  unfold execCompletionNotice
  split
  · show State.Inv _
    exact h0
  · refine ite_of ?_ ?_
    · show State.Inv _
      refine State.notify_inv ?_
      exact h0
    · show State.Inv _
      exact h0

theorem execHstCakLoad_inv {port : Nat} {s : Machine.State} (h0 : State.Inv s) :
    Kept (execHstCakLoad port s) := by
  unfold execHstCakLoad
  refine ite_of ?_ ?_
  · show State.Inv _
    exact h0
  · show State.Inv _
    refine State.cakEffect_inv ?_
    refine State.auditPut_inv ?_
    exact h0

theorem execHstCakClear_inv {port : Nat} {s : Machine.State} (h0 : State.Inv s) :
    Kept (execHstCakClear port s) := by
  unfold execHstCakClear
  refine ite_of ?_ ?_
  · show State.Inv _
    exact h0
  · show State.Inv _
    refine State.cakEffect_inv ?_
    refine State.auditPut_inv ?_
    exact h0

theorem execHostRdmaRequest_inv {k : HostPkt} {s : Machine.State} (h0 : State.Inv s) :
    Kept (execHostRdmaRequest k s) := by
  unfold execHostRdmaRequest
  extract_lets -merge x0 x1
  have hx0 : SndInv x0 := by
    unfold x0
    refine State.hostIn_inv ?_
    exact h0
  clear_value x0
  have hx1 : State.Inv x1 := by
    unfold x1
    refine State.bump_inv ?_
    show SndInv _
    exact hx0
  clear_value x1
  refine ite_of ?_ ?_
  · show State.Inv _
    show SndInv _
    exact hx0
  · split
    · show State.Inv _
      exact hx1
    · show State.Inv _
      refine State.emit_inv ?_
      exact hx1

theorem execRdmaReadResponse_inv {k : HostPkt} {id : Nat} {resp : Option (List Byte)} {s : Machine.State} (h0 : State.Inv s) :
    Kept (execRdmaReadResponse k id resp s) := by
  unfold execRdmaReadResponse
  extract_lets -merge x0 x1 y2 x3
  have hx0 : SndInv x0 := by
    unfold x0
    refine State.hostIn_inv ?_
    exact h0
  clear_value x0
  have hx1 : State.Inv x1 := by
    unfold x1
    show SndInv _
    exact hx0
  clear_value x1
  have hx3 : State.Inv x3 := by
    unfold x3
    refine State.setHost_inv ?_
    exact hx1
  clear_value x3
  refine ite_of ?_ ?_
  · show State.Inv _
    exact hx1
  · split
    · show State.Inv _
      exact hx1
    · split
      · show State.Inv _
        refine State.loftRead_inv ?_
        exact hx3
      · show State.Inv _
        refine State.loseBlock_inv ?_
        exact hx3
      · split
        · show State.Inv _
          exact hx3
        · show State.Inv _
          refine ite_of ?_ ?_
          · refine State.fetchDone_inv ?_
            refine State.blockWrite_inv ?_
            exact hx3
          · exact hx3
      · show State.Inv _
        refine State.failAwait_inv ?_
        exact hx3
      · extract_lets -merge y4
        show State.Inv _
        refine ite_of ?_ ?_
        · exact hx3
        · refine State.dropAwait_inv ?_
          refine State.writeBytes_inv ?_
          exact hx3
      · show State.Inv _
        refine State.acceptJunk_inv ?_
        refine State.takeAsking_inv ?_
        exact hx3
      · show State.Inv _
        refine State.finishSt_inv ?_
        exact hx3
      · extract_lets -merge y5
        split
        · show State.Inv _
          exact hx3
        · extract_lets -merge x6
          have hx6 : State.Inv x6 := by
            unfold x6
            refine State.tenantRec_inv ?_
            refine State.setHq_inv ?_
            exact hx3
          clear_value x6
          show State.Inv _
          refine State.acceptJunk_inv ?_
          refine State.takeAsking_inv ?_
          exact hx6
      · show State.Inv _
        refine State.updItem_inv ?_
        exact hx3
      · show State.Inv _
        exact hx1

theorem execHostLinkChange_inv {port : Nat} {link : Bool} {mka : Bool} {s : Machine.State} (h0 : State.Inv s) :
    Kept (execHostLinkChange port link mka s) := by
  unfold execHostLinkChange
  extract_lets -merge y0 y1
  refine ite_of ?_ ?_
  · show State.Inv _
    exact h0
  · show State.Inv _
    refine State.showPort_inv ?_
    refine State.setHost_inv ?_
    exact h0

end Sys2Proof.Machine
end

