-- ==== Sys2Proof/Laws/InvIdle.lean ====
section
/-! SUPPORT. Every function of Machine/Idle.lean that answers a state keeps the invariant. -/

namespace Sys2Proof.Machine

set_option linter.tactic.unusedName false

theorem loadRows_inv {n p k : Nat} {s : Machine.State} (h0 : State.Inv s) : State.Inv (loadRows n p k s) := by
  induction k generalizing s with
  | zero => exact h0
  | succ k ih => exact ih (State.ldsStep_inv h0)

theorem State.vecTick_inv {s : Machine.State} {n : Nat} {p : Nat} (h0 : State.Inv s) :
    State.Inv (State.vecTick s n p) := by
  unfold State.vecTick
  split
  · exact h0
  · split
    · exact h0
    · refine State.setCtx_inv ?_
      exact h0

theorem State.partTick_inv {s : Machine.State} {n : Nat} {p : Nat} (h0 : State.Inv s) :
    State.Inv (State.partTick s n p) := by
  unfold State.partTick
  refine State.vecTick_inv ?_
  refine loadRows_inv ?_
  refine State.fillRows_inv ?_
  exact h0

theorem State.coreTicks_inv {s : Machine.State} (h0 : State.Inv s) :
    State.Inv (State.coreTicks s) := by
  unfold State.coreTicks
  refine foldl_inv ?_ ?_
  · intro _ _ h0
    refine foldl_inv ?_ ?_
    · intro _ _ h1
      refine State.partTick_inv ?_
      exact h1
    · exact h0
  · exact h0

theorem State.idleTick_inv {s : Machine.State} (h0 : State.Inv s) :
    State.Inv (State.idleTick s) := by
  unfold State.idleTick
  refine State.coreTicks_inv ?_
  refine State.tick_inv ?_
  exact h0

end Sys2Proof.Machine
end

