-- ==== Sys2Proof/Laws/InvIst.lean ====
section
/-! SUPPORT. Every function of Machine/Ist.lean that answers a state keeps the invariant. -/

namespace Sys2Proof.Machine

set_option linter.tactic.unusedName false

theorem State.setIst_inv {s : Machine.State} {x : IstSt} (h0 : State.Inv s) :
    State.Inv (State.setIst s x) := by
  unfold State.setIst
  exact State.Inv.same (h0) rfl rfl rfl rfl rfl rfl

theorem State.istPass_inv {s : Machine.State} {n : Nat} {parts : List Nat} (h0 : State.Inv s) :
    State.Inv (State.istPass s n parts) := by
  unfold State.istPass
  extract_lets -merge y0 y1 y2 y3
  refine ite_of ?_ ?_
  · refine State.setField_inv ?_
    refine State.bump_inv ?_
    refine State.setIst_inv ?_
    exact h0
  · refine State.setIst_inv ?_
    exact h0

theorem State.istFail_inv {s : Machine.State} {n : Nat} {kind : Nat} {res : Nat} (h0 : State.Inv s) :
    State.Inv (State.istFail s n kind res) := by
  unfold State.istFail
  extract_lets -merge y0 x1 x2 y3 y4
  have hx1 : State.Inv x1 := by
    unfold x1
    refine State.bump_inv ?_
    exact h0
  clear_value x1
  have hx2 : State.Inv x2 := by
    unfold x2
    refine State.setField_inv ?_
    refine State.setField_inv ?_
    exact hx1
  clear_value x2
  refine ite_of ?_ ?_
  · refine State.retireCore_inv ?_
    refine State.setIst_inv ?_
    exact hx2
  · refine State.setIst_inv ?_
    exact hx2

theorem State.istEnd_inv {s : Machine.State} {n : Nat} {kind : Nat} {res : Nat} {parts : List Nat} {ok : Bool} (h0 : State.Inv s) :
    State.Inv (State.istEnd s n kind res parts ok) := by
  unfold State.istEnd
  extract_lets -merge y0 x1 x2 y3
  have hx1 : State.Inv x1 := by
    unfold x1
    refine State.showIst_inv ?_
    refine State.bump_inv ?_
    refine State.setCore_inv ?_
    exact h0
  clear_value x1
  have hx2 : State.Inv x2 := by
    unfold x2
    refine State.raise_inv ?_
    show SndInv _
    refine State.fresh_inv ?_
    exact hx1
  clear_value x2
  refine ite_of ?_ ?_
  · refine State.istPass_inv ?_
    refine State.setIst_inv ?_
    exact hx2
  · refine State.istFail_inv ?_
    exact hx2

theorem State.istBegin_inv {s : Machine.State} {n : Nat} {kind : Nat} {res : Nat} (h0 : State.Inv s) :
    State.Inv (State.istBegin s n kind res) := by
  unfold State.istBegin
  extract_lets -merge y0
  refine State.showIst_inv ?_
  refine State.setCore_inv ?_
  exact h0

theorem State.istSlice_inv {s : Machine.State} {n : Nat} {kind : Nat} {res : Nat} {may : Bool} {parts : List Nat} {result : Option Bool} {clean : Machine.State → Machine.State} (h0 : State.Inv s) (h1 : ∀ a0, State.Inv a0 → State.Inv (clean a0)) :
    State.Inv (State.istSlice s n kind res may parts result clean) := by
  unfold State.istSlice
  split
  · refine ite_of ?_ ?_
    · refine State.istBegin_inv ?_
      exact h0
    · exact h0
  · refine ite_of ?_ ?_
    · refine State.istEnd_inv ?_
      refine h1 _ ?_
      exact h0
    · exact h0

theorem State.granSlice_inv {s : Machine.State} {kind : Nat} {g : Nat} {result : Option Bool} (h0 : State.Inv s) :
    State.Inv (State.granSlice s kind g result) := by
  unfold State.granSlice
  extract_lets -merge y0 y1 x2 y3 x4 x5
  have hx2 : State.Inv x2 := by
    unfold x2
    refine State.showIst_inv ?_
    refine State.setIst_inv ?_
    exact h0
  clear_value x2
  have hx4 : State.Inv x4 := by
    unfold x4
    refine State.clearPoison_inv ?_
    exact hx2
  clear_value x4
  have hx5 : State.Inv x5 := by
    unfold x5
    refine State.bump_inv ?_
    exact hx4.setMem (Memory.wf_filter _ _ hx2.mem')
  clear_value x5
  split
  · refine ite_of ?_ ?_
    · refine State.showIst_inv ?_
      refine State.setIst_inv ?_
      exact h0
    · exact h0
  · refine ite_of ?_ ?_
    · refine ite_of ?_ ?_
      · exact hx5
      · refine State.retireGran_inv ?_
        refine State.bump_inv ?_
        exact hx5
    · exact h0

theorem State.scaleCosts_inv {s : Machine.State} (h0 : State.Inv s) :
    State.Inv (State.scaleCosts s) := by
  unfold State.scaleCosts
  extract_lets -merge y0 y1 y2
  exact State.Inv.same (h0) rfl rfl rfl rfl rfl rfl

theorem State.retireDone_inv {s : Machine.State} {n : Nat} (h0 : State.Inv s) :
    State.Inv (State.retireDone s n) := by
  unfold State.retireDone
  extract_lets -merge y0 x1 y2 x3 y4 y5 x6
  have hx1 : State.Inv x1 := by
    unfold x1
    refine State.setCore_inv ?_
    exact h0
  clear_value x1
  have hx3 : State.Inv x3 := by
    unfold x3
    refine State.setIst_inv ?_
    exact hx1
  clear_value x3
  have hx6 : State.Inv x6 := by
    unfold x6
    refine State.mirrorRec_inv ?_
    exact State.Inv.same (hx3) rfl rfl rfl rfl rfl rfl
  clear_value x6
  refine State.showTargets_inv ?_
  refine State.scaleCosts_inv ?_
  refine State.raise_inv ?_
  refine State.auditInternal_inv ?_
  exact hx6

theorem execAkat_inv {core : Nat} {part : Nat} {result : Option Bool} {s : Machine.State} (h0 : State.Inv s) :
    Kept (execAkat core part result s) := by
  unfold execAkat
  show State.Inv _
  refine State.istSlice_inv ?_ ?_
  · exact h0
  · intro _ h0
    refine State.setPart_inv ?_
    exact h0

theorem execVkat_inv {core : Nat} {part : Nat} {result : Option Bool} {s : Machine.State} (h0 : State.Inv s) :
    Kept (execVkat core part result s) := by
  unfold execVkat
  show State.Inv _
  refine State.istSlice_inv ?_ ?_
  · exact h0
  · intro _ h0
    exact h0

theorem execSmarch_inv {core : Nat} {area : MarchArea} {result : Option Bool} {s : Machine.State} (h0 : State.Inv s) :
    Kept (execSmarch core area result s) := by
  unfold execSmarch
  split
  · extract_lets -merge y0
    show State.Inv _
    refine State.istSlice_inv ?_ ?_
    · exact h0
    · intro _ h1
      extract_lets -merge x2
      have hx2 : State.Inv x2 := by
        unfold x2
        refine State.clearPoison_inv ?_
        exact h1
      clear_value x2
      exact hx2.setMem (Memory.wf_filter _ _ h1.mem')
  · show State.Inv _
    refine State.istSlice_inv ?_ ?_
    · exact h0
    · intro _ h3
      extract_lets -merge y4
      refine State.setPart_inv ?_
      exact h3
  · show State.Inv _
    refine State.istSlice_inv ?_ ?_
    · exact h0
    · intro _ h5
      exact h5

theorem execBmarch_inv {gran : Nat} {result : Option Bool} {s : Machine.State} (h0 : State.Inv s) :
    Kept (execBmarch gran result s) := by
  unfold execBmarch
  show State.Inv _
  refine State.granSlice_inv ?_
  exact h0

theorem execHpat_inv {gran : Nat} {result : Option Bool} {s : Machine.State} (h0 : State.Inv s) :
    Kept (execHpat gran result s) := by
  unfold execHpat
  show State.Inv _
  refine State.granSlice_inv ?_
  exact h0

theorem execEye_inv {port : Nat} {widths : List (BitVec 8)} {s : Machine.State} (h0 : State.Inv s) :
    Kept (execEye port widths s) := by
  unfold execEye
  extract_lets -merge y0 y1 x2
  have hx2 : State.Inv x2 := by
    unfold x2
    refine State.bump_inv ?_
    refine State.setRegN_inv ?_
    exact h0
  clear_value x2
  refine ite_of ?_ ?_
  · show State.Inv _
    exact h0
  · show State.Inv _
    refine ite_of ?_ ?_
    · refine State.raise_inv ?_
      exact hx2
    · exact hx2

theorem execCoverageOverdue_inv {core : Nat} {s : Machine.State} (h0 : State.Inv s) :
    Kept (execCoverageOverdue core s) := by
  unfold execCoverageOverdue
  extract_lets -merge x0
  have hx0 : State.Inv x0 := by
    unfold x0
    refine ite_of ?_ ?_
    · exact h0
    · refine State.raise_inv ?_
      refine State.setField_inv ?_
      exact h0
  clear_value x0
  refine ite_of ?_ ?_
  · show State.Inv _
    exact h0
  · show State.Inv _
    refine State.emit_inv ?_
    exact hx0

theorem execIstRetire_inv {core : Nat} {s : Machine.State} (h0 : State.Inv s) :
    Kept (execIstRetire core s) := by
  unfold execIstRetire
  show State.Inv _
  refine State.retireCore_inv ?_
  exact h0

theorem State.retireSave_inv {s : Machine.State} {n : Nat} {p : Nat} {deadline : Nat} {addr : Nat} (h0 : State.Inv s) :
    State.Inv (State.retireSave s n p deadline addr) := by
  unfold State.retireSave
  split
  · exact h0
  · refine State.dispatchEntry_inv ?_
    exact h0

theorem execCoreRetirement_inv {core : Nat} {saves : List (Nat × Nat)} {s : Machine.State} (h0 : State.Inv s) :
    Kept (execCoreRetirement core saves s) := by
  unfold execCoreRetirement
  split
  · show State.Inv _
    exact h0
  · refine ite_of ?_ ?_
    · show State.Inv _
      exact h0
    · refine ite_of ?_ ?_
      · show State.Inv _
        refine State.retireDone_inv ?_
        exact h0
      · show State.Inv _
        refine foldl_inv ?_ ?_
        · intro _ _ h0
          refine State.retireSave_inv ?_
          exact h0
        · exact h0

end Sys2Proof.Machine
end

