-- ==== Sys2Proof/Laws/InvRegView.lean ====
section
/-! SUPPORT. Every function of Machine/RegView.lean that answers a state keeps the invariant. -/

namespace Sys2Proof.Machine

set_option linter.tactic.unusedName false

theorem State.regRead_inv {s : Machine.State} {off : Nat} (h0 : State.Inv s) :
    OptSnd (State.regRead s off) := by
  unfold State.regRead
  refine ite_of trivial ?_
  split
  · trivial
  · extract_lets -merge y0
    with_reducible refine ite_of ?_ ?_
    · have h : ∀ v : Nat, SndInv (v, s) := fun _ => h0
      with_reducible exact OptSnd_map h _
    refine ite_of (OptSnd_pair (State.setRegN_inv h0)) ?_
    repeat' first | exact OptSnd_pair h0 | refine ite_of ?_ ?_

theorem State.regReads_inv {off n : Nat} {s : Machine.State} (h0 : State.Inv s) : MidInv (State.regReads off n s) := by
  induction n generalizing s off with
  | zero => exact h0
  | succ n ih =>
    unfold State.regReads
    split
    · exact h0
    · exact ih (OptSnd_some (by assumption) (State.regRead_inv h0))

end Sys2Proof.Machine
end

