-- ==== Sys2Proof/Laws/InvRegs.lean ====
section
/-! SUPPORT. Every function of Machine/Regs.lean that answers a state keeps the invariant. -/

namespace Sys2Proof.Machine

set_option linter.tactic.unusedName false

theorem State.writeEvcCfg_inv {s : Machine.State} {src : Nat} {v : Word32} (h0 : State.Inv s) :
    State.Inv (State.writeEvcCfg s src v) := by
  unfold State.writeEvcCfg
  extract_lets -merge x0
  have hx0 : State.Inv x0 := by
    unfold x0
    refine State.setReg_inv ?_
    exact h0
  clear_value x0
  refine ite_of ?_ ?_
  · exact h0
  · refine ite_of ?_ ?_
    · exact hx0
    · refine State.evMask_inv ?_
      exact hx0

theorem State.writeUpdCtl_inv {s : Machine.State} {v : Word32} {mate : Option (Nat × List Byte × Nat)} (h0 : State.Inv s) :
    AnsInv (State.writeUpdCtl s v mate) := by
  unfold State.writeUpdCtl
  extract_lets -merge x0
  have hx0 : OptInv x0 := by
    unfold x0
    refine ite_of ?_ ?_
    · refine State.arm_inv ?_
      exact h0
    · show State.Inv _
      exact h0
  clear_value x0
  split
  · trivial
  · extract_lets -merge x1
    have hx1 : State.Inv x1 := by
      unfold x1
      refine ite_of ?_ ?_
      · refine State.discard_inv ?_
        first
          | exact hx0
          | (refine OptInv_some (by assumption) ?_; exact hx0)
      · first
          | exact hx0
          | (refine OptInv_some (by assumption) ?_; exact hx0)
    clear_value x1
    show State.Inv _
    refine ite_of ?_ ?_
    · refine State.fallback_inv ?_
      exact hx1
    · exact hx1

theorem State.writeHostCak_inv {s : Machine.State} {h : Nat} {v : Word32} {item : Option (Nat × Nat × Nat)} (h0 : State.Inv s) :
    AnsInv (State.writeHostCak s h v item) := by
  unfold State.writeHostCak
  extract_lets -merge y0 y1 y2 y3 x7
  have hy3 : ∀ a0, State.Inv a0 → ∀ a1, State.Inv (y3 a0 a1) := by
    unfold y3
    intro _ h4 _
    extract_lets -merge x5 y6
    have hx5 : State.Inv x5 := by
      unfold x5
      refine State.auditInternal_inv ?_
      exact h4
    clear_value x5
    split
    · refine ite_of ?_ ?_
      · refine State.setHost_inv ?_
        exact hx5
      · refine State.cakEffect_inv ?_
        exact hx5
    · refine State.cakEffect_inv ?_
      exact hx5
  clear_value y3
  have hx7 : State.Inv x7 := by
    unfold x7
    refine ite_of ?_ ?_
    · refine hy3 _ ?_ _
      exact h0
    · exact h0
  clear_value x7
  refine ite_of ?_ ?_
  · show State.Inv _
    exact h0
  · refine ite_of ?_ ?_
    · trivial
    · show State.Inv _
      refine ite_of ?_ ?_
      · refine hy3 _ ?_ _
        exact hx7
      · exact hx7

theorem State.writeFabCak_inv {s : Machine.State} {v : Word32} (h0 : State.Inv s) :
    AnsInv (State.writeFabCak s v) := by
  unfold State.writeFabCak
  extract_lets -merge x0
  have hx0 : State.Inv x0 := by
    unfold x0
    refine ite_of ?_ ?_
    · refine State.cakLoad_inv ?_
      exact h0
    · exact h0
  clear_value x0
  refine ite_of ?_ ?_
  · show State.Inv _
    exact h0
  · refine ite_of ?_ ?_
    · trivial
    · show State.Inv _
      refine ite_of ?_ ?_
      · refine State.cakClear_inv ?_
        exact hx0
      · exact hx0

theorem State.writeLftCtrl_inv {s : Machine.State} {v : Word32} (h0 : State.Inv s) :
    State.Inv (State.writeLftCtrl s v) := by
  unfold State.writeLftCtrl
  refine ite_of ?_ ?_
  · refine State.loftAbort_inv ?_
    exact h0
  · refine ite_of ?_ ?_
    · refine State.loftStart_inv ?_
      exact h0
    · exact h0

theorem State.writeTntCtrl_inv {s : Machine.State} {t : Nat} {v : Word32} (h0 : State.Inv s) :
    AnsInv (State.writeTntCtrl s t v) := by
  unfold State.writeTntCtrl
  refine ite_of ?_ ?_
  · show State.Inv _
    exact h0
  · refine ite_of ?_ ?_
    · trivial
    · show State.Inv _
      refine State.resetTenant_inv ?_
      exact h0

theorem State.writeFields_inv {s : Machine.State} {r : RegRow} {off : Nat} {v : Word32} (h0 : State.Inv s) :
    State.Inv (State.writeFields s r off v) := by
  unfold State.writeFields
  refine ite_of ?_ ?_
  · refine State.setReg_inv ?_
    exact h0
  · exact h0

theorem State.trimVariants_inv {s : Machine.State} (h0 : State.Inv s) :
    State.Inv (State.trimVariants s) := by
  unfold State.trimVariants
  refine State.evictWhile_inv ?_
  exact h0

theorem State.regAct_inv {s : Machine.State} {r : RegRow} {i : Nat} {off : Nat} {v : Word32} {x : RegExt} {item : Option (Nat × Nat × Nat)} (h0 : State.Inv s) :
    OptAns (State.regAct s r i off v x item) := by
  unfold State.regAct
  extract_lets -merge y0
  refine ite_of ?_ ?_
  · show AnsInv _
    refine State.writeUpdCtl_inv ?_
    exact h0
  · refine ite_of ?_ ?_
    · show State.Inv _
      refine ite_of ?_ ?_
      · refine State.attStart_inv ?_
        exact h0
      · exact h0
    · refine ite_of ?_ ?_
      · show State.Inv _
        refine State.setBoot_inv ?_ ?_
        · exact h0
        · refine State.Inv.audit' ?_
          exact h0
      · refine ite_of ?_ ?_
        · show State.Inv _
          refine State.exportTo_inv ?_
          exact h0
        · refine ite_of ?_ ?_
          · show State.Inv _
            refine ite_of ?_ ?_
            · refine State.fmStart_inv ?_
              exact h0
            · exact h0
          · refine ite_of ?_ ?_
            · show State.Inv _
              refine State.setFloor_inv ?_
              exact h0
            · refine ite_of ?_ ?_
              · show State.Inv _
                refine State.askMigrate_inv ?_
                refine State.showTargets_inv ?_
                refine State.writeFields_inv ?_
                exact h0
              · refine ite_of ?_ ?_
                · show State.Inv _
                  refine State.setTod_inv ?_
                  refine State.writeFields_inv ?_
                  exact h0
                · refine ite_of ?_ ?_
                  · show AnsInv _
                    split
                    · trivial
                    · show State.Inv _
                      refine OptInv_some (by assumption) ?_
                      refine State.ccueCtl_inv ?_
                      exact h0
                  · refine ite_of ?_ ?_
                    · show State.Inv _
                      refine State.evSet_inv ?_
                      exact h0
                    · refine ite_of ?_ ?_
                      · show State.Inv _
                        refine State.writeEvcCfg_inv ?_
                        exact h0
                      · refine ite_of ?_ ?_
                        · show State.Inv _
                          refine ite_of ?_ ?_
                          · refine State.evW1c_inv ?_
                            exact h0
                          · exact h0
                        · refine ite_of ?_ ?_
                          · show State.Inv _
                            refine State.retireCore_inv ?_
                            exact h0
                          · refine ite_of ?_ ?_
                            · show State.Inv _
                              refine ite_of ?_ ?_
                              · refine State.holdCleared_inv ?_
                                exact h0
                              · refine State.writeFields_inv ?_
                                exact h0
                            · refine ite_of ?_ ?_
                              · show AnsInv _
                                refine State.writeFabCak_inv ?_
                                exact h0
                              · refine ite_of ?_ ?_
                                · show AnsInv _
                                  refine State.writeHostCak_inv ?_
                                  exact h0
                                · refine ite_of ?_ ?_
                                  · show State.Inv _
                                    refine State.writeLftCtrl_inv ?_
                                    exact h0
                                  · refine ite_of ?_ ?_
                                    · show AnsInv _
                                      refine State.writeTntCtrl_inv ?_
                                      exact h0
                                    · refine ite_of ?_ ?_
                                      · show State.Inv _
                                        refine State.writeFields_inv ?_
                                        refine ite_of ?_ ?_
                                        · refine State.keepLevels_inv ?_
                                          exact h0
                                        · exact h0
                                      · refine ite_of ?_ ?_
                                        · show State.Inv _
                                          refine State.writeFields_inv ?_
                                          refine State.keepLevels_inv ?_
                                          exact h0
                                        · refine ite_of ?_ ?_
                                          · show State.Inv _
                                            refine State.trimVariants_inv ?_
                                            refine State.writeFields_inv ?_
                                            exact h0
                                          · trivial

theorem State.regWrite_inv {s : Machine.State} {off : Nat} {v : Word32} {x : RegExt} {item : Option (Nat × Nat × Nat)} (h0 : State.Inv s) :
    AnsInv (State.regWrite s off v x item) := by
  unfold State.regWrite
  refine ite_of ?_ ?_
  · trivial
  · split
    · trivial
    · refine ite_of ?_ ?_
      · trivial
      · refine getD_of (p := AnsInv) ?_ ?_
        · refine State.regAct_inv ?_
          exact h0
        · show State.Inv _
          refine State.writeFields_inv ?_
          exact h0

theorem State.regWrites_inv {x : RegExt} {item : Nat × Nat × Nat} {off : Nat} {l : List Word32} {s : Machine.State}
    (h0 : State.Inv s) : FstInv (State.regWrites x item off l s) := by
  induction l generalizing s off with
  | nil => exact h0
  | cons v vs ih =>
    unfold State.regWrites
    split
    · exact h0
    · exact ih (AnsInv_ok (by assumption) (State.regWrite_inv h0))

theorem regReadItem_inv {s : Machine.State} {t : Nat} {q : Nat} {i : Item} (h0 : State.Inv s) :
    State.Inv (regReadItem s t q i) := by
  unfold regReadItem
  extract_lets -merge y0 y1 y2
  split
  · refine State.finish_inv ?_
    exact h0
  · extract_lets -merge x3 y4 x5
    have hx3 : MidInv x3 := by
      unfold x3
      refine State.regReads_inv ?_
      exact h0
    clear_value x3
    have hx5 : State.Inv x5 := by
      unfold x5
      refine ite_of ?_ ?_
      · refine State.regionWrite_inv ?_
        show MidInv _
        exact hx3
      · show MidInv _
        exact hx3
    clear_value x5
    refine ite_of ?_ ?_
    · refine State.finish_inv ?_
      exact h0
    · split
      · refine State.finish_inv ?_
        exact hx5
      · refine State.finish_inv ?_
        exact hx5

theorem regWriteItem_inv {s : Machine.State} {t : Nat} {q : Nat} {i : Item} {x : RegExt} (h0 : State.Inv s) :
    State.Inv (regWriteItem s t q i x) := by
  unfold regWriteItem
  extract_lets -merge y0
  split
  · refine State.finish_inv ?_
    exact h0
  · extract_lets -merge y1 x2
    have hx2 : FstInv x2 := by
      unfold x2
      refine State.regWrites_inv ?_
      exact h0
    clear_value x2
    refine ite_of ?_ ?_
    · refine State.finish_inv ?_
      exact h0
    · split
      · refine State.finish_inv ?_
        show FstInv _
        exact hx2
      · refine State.finish_inv ?_
        show FstInv _
        exact hx2

theorem execRegRead_inv {t : Nat} {q : Nat} {s : Machine.State} (h0 : State.Inv s) :
    Kept (execRegRead t q s) := by
  unfold execRegRead
  show State.Inv _
  refine State.runRow_inv ?_ ?_
  · exact h0
  · intro _ h0 _
    refine regReadItem_inv ?_
    exact h0

theorem execRegWrite_inv {t : Nat} {q : Nat} {x : RegExt} {s : Machine.State} (h0 : State.Inv s) :
    Kept (execRegWrite t q x s) := by
  unfold execRegWrite
  show State.Inv _
  refine State.runRow_inv ?_ ?_
  · exact h0
  · intro _ h0 _
    refine regWriteItem_inv ?_
    exact h0

theorem execRegisterWrite_inv {off : Nat} {v : Word32} {x : RegExt} {s : Machine.State} (h0 : State.Inv s) :
    Kept (execRegisterWrite off v x s) := by
  unfold execRegisterWrite
  split
  · show State.Inv _
    refine AnsInv_ok (by assumption) ?_
    refine State.regWrite_inv ?_
    exact h0
  · show State.Inv _
    exact h0

end Sys2Proof.Machine
end

