-- ==== Sys2Proof/Laws/InvSafety.lean ====
section
/-! SUPPORT. Every function of Machine/Safety.lean that answers a state keeps the invariant. -/

namespace Sys2Proof.Machine

set_option linter.tactic.unusedName false

theorem cpLeaves_inv {s : Machine.State} {l : Loc} {w : IWord} {c : Ctx} {f : Ctx → Ctx} (h0 : State.Inv s) :
    Kept (cpLeaves s l w c f) := by
  unfold cpLeaves
  show State.Inv _
  refine State.setCtx_inv ?_
  exact h0

theorem vecLeaves_inv {s : Machine.State} {l : Loc} {c : Ctx} {w : IWord} {pc : BitVec 48} {k : Nat} {o : VecOut} (h0 : State.Inv s) :
    Kept (vecLeaves s l c w pc k o) := by
  unfold vecLeaves
  extract_lets -merge x0
  have hx0 : State.Inv x0 := by
    unfold x0
    refine State.putCtx_inv ?_
    exact h0
  clear_value x0
  show State.Inv _
  refine State.vecServed_inv ?_
  exact State.Inv.same (hx0) rfl rfl rfl rfl rfl rfl

theorem mxLeaves_inv {s : Machine.State} {l : Loc} {c : Ctx} {x : Part} (h0 : State.Inv s) :
    Kept (mxLeaves s l c x) := by
  unfold mxLeaves
  show State.Inv _
  refine State.putCtx_inv ?_
  refine State.setPart_inv ?_
  exact h0

theorem moveLeaves_inv {r : List Await × Machine.State} {l : Loc} {eng : Nat} {c : Ctx} {q : QEnt} {gs : List (Nat × Seg)} (h0 : SndInv r) :
    Kept (moveLeaves r l eng c q gs) := by
  unfold moveLeaves
  extract_lets -merge y0
  show State.Inv _
  refine State.putCtx_inv ?_
  show SndInv _
  exact h0

theorem itemStarts_inv {s : Machine.State} {t : Nat} {q : Nat} {row : Nat} {i : Item} (h0 : State.Inv s) :
    State.Inv (itemStarts s t q row i) := by
  unfold itemStarts
  refine State.updItem_inv ?_
  refine State.takeRow_inv ?_
  exact h0

theorem arrived_inv {s : Machine.State} {a : Arrival} (h0 : State.Inv s) :
    State.Inv (arrived s a) := by
  unfold arrived
  refine State.bump_inv ?_
  refine State.bump_inv ?_
  refine State.bump_inv ?_
  exact h0

theorem heard_inv {s : Machine.State} {a : Arrival} {f : Frame} (h0 : State.Inv s) :
    State.Inv (heard s a f) := by
  unfold heard
  extract_lets -merge x0 x1
  have hx0 : State.Inv x0 := by
    unfold x0
    refine arrived_inv ?_
    exact h0
  clear_value x0
  have hx1 : State.Inv x1 := by
    unfold x1
    refine State.peerHeard_inv ?_
    refine ite_of ?_ ?_
    · refine State.bump_inv ?_
      exact hx0
    · exact hx0
  clear_value x1
  refine ite_of ?_ ?_
  · refine State.heartbeat_inv ?_
    exact hx1
  · exact hx1

theorem seqEffect_inv {s : Machine.State} {a : Arrival} {f : Frame} {raw : Option (List Byte)} (h0 : State.Inv s) :
    State.Inv (seqEffect s a f raw) := by
  unfold seqEffect
  extract_lets -merge x0
  have hx0 : State.Inv x0 := by
    unfold x0
    refine State.takeFrame_inv ?_
    refine heard_inv ?_
    exact h0
  clear_value x0
  refine ite_of ?_ ?_
  · refine State.fenceReset_inv ?_
    exact hx0
  · exact hx0

end Sys2Proof.Machine
end

