-- ==== Sys2Proof/Laws/State.lean ====
section
/-! SUPPORT. What each named update leaves: the other fields of the state, other keys, other addresses; and how a core's
commands begin. -/

namespace Sys2Proof

/-! ### Tables -/

theorem Tab.drop_of_notin {α : Type} (k : Nat) : ∀ t : Tab α, (∀ x ∈ t, x.1 ≠ k) → t.drop k = t
  | [], _ => rfl
  | (i, v) :: rest, h => by
    have hi : i ≠ k := h (i, v) (by simp)
    simp only [Tab.drop, if_neg hi, Tab.drop_of_notin k rest fun x hx => h x (by simp [hx])]

theorem Tab.drop_put {α : Type} (k : Nat) (v : α) : ∀ t : Tab α, (∀ x ∈ t, x.1 ≠ k) → Tab.drop (t.put k v) k = t
  | [], _ => by simp [Tab.put, Tab.drop]
  | (i, u) :: rest, h => by
    have hi : i ≠ k := h (i, u) (by simp)
    unfold Tab.put
    split
    · simp only [Tab.drop, if_true, if_neg hi, Tab.drop_of_notin k rest fun x hx => h x (by simp [hx])]
    · simp only [Tab.drop, if_neg hi, Tab.drop_put k v rest fun x hx => h x (by simp [hx])]

/-- A key written twice holds what was written last. -/
@[simp] theorem Tab.set_set {α : Type} [DecidableEq α] (d : α) (t : Tab α) (k : Nat) (v w : α) :
    Tab.set d (Tab.set d t k v) k w = Tab.set d t k w := by
  have e : Tab.drop (Tab.set d t k v) k = t.drop k := by
    unfold Tab.set
    split
    · exact Tab.drop_of_notin k _ (Tab.drop_keys k t)
    · exact Tab.drop_put k v _ (Tab.drop_keys k t)
  unfold Tab.set at e ⊢
  rw [e]

theorem Tab.find_drop_self {α : Type} (k : Nat) : ∀ t : Tab α, Tab.find? (t.drop k) k = none
  | [] => rfl
  | (i, v) :: rest => by
    unfold Tab.drop
    split
    · exact Tab.find_drop_self k rest
    · rename_i hi
      simp only [Tab.find?, if_neg hi, Tab.find_drop_self k rest]

theorem Tab.find_put_self {α : Type} (k : Nat) (v : α) : ∀ t : Tab α, (∀ x ∈ t, x.1 ≠ k) → Tab.find? (t.put k v) k = some v
  | [], _ => by simp [Tab.put, Tab.find?]
  | (i, u) :: rest, h => by
    have hi : i ≠ k := h (i, u) (by simp)
    unfold Tab.put
    split
    · simp [Tab.find?]
    · simp only [Tab.find?, if_neg hi]
      exact Tab.find_put_self k v rest fun x hx => h x (by simp [hx])

/-- An entry just written is found. -/
@[simp] theorem Tab.find_setSome_self {α : Type} (t : Tab α) (k : Nat) (v : α) : Tab.find? (t.setSome k v) k = some v :=
  Tab.find_put_self k v _ (Tab.drop_keys k t)

theorem Tab.find_drop_ne {α : Type} (k j : Nat) (h : j ≠ k) : ∀ t : Tab α, Tab.find? (t.drop k) j = Tab.find? t j
  | [] => rfl
  | (i, v) :: rest => by
    unfold Tab.drop
    split
    · rename_i hi
      subst hi
      simp only [Tab.find?, if_neg (Ne.symm h), Tab.find_drop_ne i j h rest]
    · simp only [Tab.find?, Tab.find_drop_ne k j h rest]

theorem Tab.find_put_ne {α : Type} (k j : Nat) (v : α) (h : j ≠ k) : ∀ t : Tab α, Tab.find? (t.put k v) j = Tab.find? t j
  | [] => by simp [Tab.put, Tab.find?, Ne.symm h]
  | (i, u) :: rest => by
    unfold Tab.put
    split
    · simp only [Tab.find?, if_neg (Ne.symm h)]
    · simp only [Tab.find?, Tab.find_put_ne k j v h rest]

/-- Every other entry is found as before. -/
theorem Tab.find_setSome_ne {α : Type} (t : Tab α) (k j : Nat) (v : α) (h : j ≠ k) : Tab.find? (t.setSome k v) j = Tab.find? t j := by
  unfold Tab.setSome
  rw [Tab.find_put_ne k j v h, Tab.find_drop_ne k j h]

/-! ### Memory -/

@[simp] theorem leBytes_length : ∀ n v : Nat, (leBytes n v).length = n
  | 0, _ => rfl
  | n + 1, v => by simp [leBytes, leBytes_length n]

/-- Bytes just stored read as themselves. -/
@[simp] theorem Memory.readN_writeN_self : ∀ (bs : List Byte) (m : Memory) (a : Nat), (m.writeN a bs).readN a bs.length = bs
  | [], _, _ => rfl
  | b :: bs, m, a => by
    show Memory.read (Memory.writeN (m.write a b) (a + 1) bs) a :: Memory.readN (Memory.writeN (m.write a b) (a + 1) bs) (a + 1) bs.length = b :: bs
    rw [Memory.readN_writeN_self bs (m.write a b) (a + 1), Memory.read_writeN_out bs _ _ _ (by omega), Memory.read_write_self]

namespace Machine

/-! ### Registers of register space -/

@[simp] theorem State.reg_setReg_self (s : State) (o : Nat) (v : Word32) : (s.setReg o v).reg o = v := Tab.get_set_self _ _ _ _
theorem State.reg_setReg_ne (s : State) (o p : Nat) (v : Word32) (h : p ≠ o) : (s.setReg o v).reg p = s.reg p := by
  show Tab.get (regReset p) (Tab.set (regReset o) s.regs o v) p = Tab.get (regReset p) s.regs p
  unfold Tab.set
  split
  · exact Tab.get_drop_ne _ _ _ h _
  · rw [Tab.get_put_ne _ _ _ _ h, Tab.get_drop_ne _ _ _ h]
@[simp] theorem State.reg_setRegN_self (s : State) (o v : Nat) : (s.setRegN o v).reg o = BitVec.ofNat 32 v := State.reg_setReg_self _ _ _
theorem State.reg_setRegN_ne (s : State) (o p v : Nat) (h : p ≠ o) : (s.setRegN o v).reg p = s.reg p := State.reg_setReg_ne _ _ _ _ h
theorem State.reg_setField_ne (s : State) (o p lo n v : Nat) (h : p ≠ o) : (s.setField o lo n v).reg p = s.reg p := State.reg_setReg_ne _ _ _ _ h
theorem State.reg_bump_ne (s : State) (o p k : Nat) (h : p ≠ o) : (s.bump o k).reg p = s.reg p := State.reg_setReg_ne _ _ _ _ h

/-! ### Memory of a state -/

theorem State.readN_writeBytes_self (s : State) (a : Nat) (bs : List Byte) : (s.writeBytes a bs).readN a bs.length = bs :=
  Memory.readN_writeN_self bs s.mem a
theorem State.read8_writeBytes_out (s : State) (a b : Nat) (bs : List Byte) (h : b < a ∨ a + bs.length ≤ b) :
    (s.writeBytes a bs).read8 b = s.read8 b := Memory.read_writeN_out bs s.mem a b h

/-! ### Cores, partitions, contexts -/

@[simp] theorem State.core_setCore_self (s : State) (n : Nat) (c : CoreSt) : (s.setCore n c).core n = c := Tab.get_set_self _ _ _ _
theorem State.core_setCore_ne (s : State) (n m : Nat) (c : CoreSt) (h : m ≠ n) : (s.setCore n c).core m = s.core m := Tab.get_set_ne _ _ _ _ _ h
@[simp] theorem State.part_setPart_self (s : State) (n p : Nat) (x : Part) : (s.setPart n p x).part n p = x := by
  unfold State.part State.setPart
  rw [State.core_setCore_self]
  exact Tab.get_set_self _ _ _ _
theorem State.part_setPart_ne (s : State) (n p q : Nat) (x : Part) (h : q ≠ p) : (s.setPart n p x).part n q = s.part n q := by
  unfold State.part State.setPart
  rw [State.core_setCore_self]
  exact Tab.get_set_ne _ _ _ _ _ h
theorem State.part_setPart_core (s : State) (n m p q : Nat) (x : Part) (h : m ≠ n) : (s.setPart n p x).part m q = s.part m q := by
  unfold State.part State.setPart
  rw [State.core_setCore_ne _ _ _ _ h]
@[simp] theorem State.setPart_setPart (s : State) (n p : Nat) (x y : Part) : (s.setPart n p x).setPart n p y = s.setPart n p y := by
  unfold State.setPart State.setCore State.core
  simp
@[simp] theorem State.ctx_setCtx_self (s : State) (n p : Nat) (c : Ctx) : (s.setCtx n p c).ctx n p = some c := by
  unfold State.ctx State.setCtx
  rw [State.part_setPart_self]
@[simp] theorem State.setCtx_setCtx (s : State) (n p : Nat) (c d : Ctx) : (s.setCtx n p c).setCtx n p d = s.setCtx n p d := by
  simp [State.setCtx]
@[simp] theorem State.coreP_setCtx (s : State) (n p m : Nat) (c : Ctx) : (s.setCtx n p c).coreP m = s.coreP m := by
  by_cases h : m = n
  · subst h; simp [State.coreP, State.setCtx, State.setPart]
  · simp [State.coreP, State.setCtx, State.setPart, State.core_setCore_ne _ _ _ _ h]
/-- A context that no change of shares awaits and that has not stopped is put back as it is. -/
theorem State.putCtx_eq (s : State) (n p : Nat) (c : Ctx) (q : c.qsh = none) (f : c.fault = none) : s.putCtx n p c = s.setCtx n p c := by
  unfold State.putCtx Ctx.applyShares Part.settle
  simp [q, f]

namespace Ctx

@[simp] theorem stream_setStream_self (c : Ctx) (i : Nat) (x : Strm) : (c.setStream i x).stream i = x := Tab.get_set_self _ _ _ _
theorem stream_setStream_ne (c : Ctx) (i j : Nat) (x : Strm) (h : j ≠ i) : (c.setStream i x).stream j = c.stream j := Tab.get_set_ne _ _ _ _ _ h
@[simp] theorem setStream_setStream (c : Ctx) (i : Nat) (x y : Strm) : (c.setStream i x).setStream i y = c.setStream i y := by
  unfold setStream
  simp
@[simp] theorem count_setCount_self (c : Ctx) (i : Nat) (v : BitVec 16) : (c.setCount i v).count i = v := Tab.get_set_self _ _ _ _
@[simp] theorem vreg_setVreg_self (c : Ctx) (i : Nat) (x : VReg) : (c.setVreg i x).vreg i = x := Tab.get_set_self _ _ _ _
theorem vreg_setVreg_ne (c : Ctx) (i j : Nat) (x : VReg) (h : j ≠ i) : (c.setVreg i x).vreg j = c.vreg j := Tab.get_set_ne _ _ _ _ _ h
theorem reg_setReg_self (c : Ctx) (i : Nat) (v : Word64) (h : i ≠ 0) : (c.setReg i v).reg i = v := by
  simp only [setReg, if_neg h, reg]
  exact Tab.get_set_self _ _ _ _
theorem reg_setReg_ne (c : Ctx) (i j : Nat) (v : Word64) (h : j ≠ i) : (c.setReg i v).reg j = c.reg j := by
  by_cases hi : i = 0
  · simp [setReg, hi]
  · simp only [setReg, if_neg hi, reg]
    split
    · rfl
    · exact Tab.get_set_ne _ _ _ _ _ h
@[simp] theorem setReg_qsh (c : Ctx) (i : Nat) (v : Word64) : (c.setReg i v).qsh = c.qsh := by unfold setReg; split <;> rfl
@[simp] theorem setReg_fault (c : Ctx) (i : Nat) (v : Word64) : (c.setReg i v).fault = c.fault := by unfold setReg; split <;> rfl
@[simp] theorem setReg_queues (c : Ctx) (i : Nat) (v : Word64) : (c.setReg i v).queues = c.queues := by unfold setReg; split <;> rfl
@[simp] theorem setReg_strm (c : Ctx) (i : Nat) (v : Word64) : (c.setReg i v).strm = c.strm := by unfold setReg; split <;> rfl
@[simp] theorem signalOf_qsh (c : Ctx) (w : IWord) : (c.signalOf w).qsh = c.qsh := by unfold signalOf; split <;> rfl
@[simp] theorem signalOf_fault (c : Ctx) (w : IWord) : (c.signalOf w).fault = c.fault := by unfold signalOf; split <;> rfl
@[simp] theorem issued_reg (c : Ctx) (i j : Nat) : (c.issued i).reg j = c.reg j := rfl
@[simp] theorem issued_qsh (c : Ctx) (i : Nat) : (c.issued i).qsh = c.qsh := rfl
@[simp] theorem issued_fault (c : Ctx) (i : Nat) : (c.issued i).fault = c.fault := rfl
/-- An issued stream runs and stands past the instruction. -/
@[simp] theorem issued_stream_self (c : Ctx) (i : Nat) : (c.issued i).stream i = { c.stream i with st := 1, pc := (c.stream i).pc + 16#48 } := by
  simp [issued, setPc, issues, running, stream, setStream]
theorem issued_stream_ne (c : Ctx) (i j : Nat) (h : j ≠ i) : (c.issued i).stream j = c.stream j := by
  show Ctx.stream (setPc (c.issues i) i _) j = _
  unfold setPc
  rw [stream_setStream_ne _ _ _ _ h]
  exact stream_setStream_ne c i j { c.stream i with st := 1 } h

end Ctx

/-- A stream that issues belongs to a context that has not stopped and changes no shares. -/
theorem mayIssue_qsh {c : Ctx} {n : Nat} (h : mayIssue c n = true) : c.qsh = none := by
  simp [mayIssue] at h
  exact h.1.2
theorem mayIssue_fault {c : Ctx} {n : Nat} (h : mayIssue c n = true) : c.fault = none := by
  simp [mayIssue] at h
  exact h.1.1

/-- R168, R182: a control instruction that may be taken now runs on the issued context; a wait leaves the stream waiting,
any other halt stops the context. -/
theorem cpExec_ready {s : State} {l : Loc} {w : IWord} {op : Nat} {c : Ctx} (sem : CpSem) (h : CpReady s l w op c) :
    cpExec op sem l w s = match sem l w s (c.issued l.stream) with
      | .error .wait => s.setCtx l.core l.part (c.running l.stream 2)
      | .error x => s.haltCtx l.core l.part 4 l.stream { word := w, pc := (c.stream l.stream).pc } x
      | .ok (s1, c2) => s1.putCtx l.core l.part (c2.signalOf w) := by
  have e1 := h.issues
  unfold cpExec
  rw [h.ctx]
  have e2 : cpWaits s l.core c w = false := by
    unfold cpWaits
    by_cases hw : Iw.waitEn w = true
    · simp [h.wait hw]
    · simp [hw]
  simp only [e1, h.engine, h.opcode, h.turn, beq_self_eq_true, Bool.and_self, if_true]
  unfold cpRun
  simp only [e2, h.fields, Bool.not_true, Bool.false_eq_true, if_false]
  rfl

/-- R181: a control instruction that changes its context alone. -/
theorem cpExec_ctx {s : State} {l : Loc} {w : IWord} {op : Nat} {c : Ctx} (f : IWord → Ctx → Ctx) (h : CpReady s l w op c)
    (hq : (f w (c.issued l.stream)).qsh = none) (hf : (f w (c.issued l.stream)).fault = none) :
    (.next (cpExec op (cpCtx f) l w s) : Result) = cpLeaves s l w c (f w) := by
  rw [cpExec_ready _ h]
  unfold cpCtx cpLeaves
  simp only
  rw [State.putCtx_eq]
  · rw [Ctx.signalOf_qsh, hq]
  · rw [Ctx.signalOf_fault, hf]

/-- R168: the head of a share starts. -/
theorem startHead_ready {s : State} {l : Loc} {eng op : Nat} {c : Ctx} {q : QEnt} (h : HeadReady s l eng op c q)
    (k : Ctx → QEnt → State) : s.startHead l.core l.part l.stream eng op k = k (c.take l.stream eng) q := by
  unfold State.startHead
  rw [h.ctx]
  by_cases he : eng = 1
  · subst he
    simp only [decide_true, Bool.true_and, h.runs rfl, h.head, Bool.false_eq_true, if_false]
  · simp only [he, decide_false, Bool.false_and, h.head, Bool.false_eq_true, if_false]

/-! ### The fields that each update leaves -/

/-! #### setReg -/

@[simp] theorem State.setReg_pending (s : State) (o : Nat) (v : Word32) : (s.setReg o v).pending = s.pending := rfl
@[simp] theorem State.setReg_free (s : State) (o : Nat) (v : Word32) : (s.setReg o v).free = s.free := rfl
@[simp] theorem State.setReg_now (s : State) (o : Nat) (v : Word32) : (s.setReg o v).now = s.now := rfl
@[simp] theorem State.setReg_clk (s : State) (o : Nat) (v : Word32) : (s.setReg o v).clk = s.clk := rfl
@[simp] theorem State.setReg_mem (s : State) (o : Nat) (v : Word32) : (s.setReg o v).mem = s.mem := rfl
@[simp] theorem State.setReg_poison (s : State) (o : Nat) (v : Word32) : (s.setReg o v).poison = s.poison := rfl
@[simp] theorem State.setReg_grans (s : State) (o : Nat) (v : Word32) : (s.setReg o v).grans = s.grans := rfl
@[simp] theorem State.setReg_cores (s : State) (o : Nat) (v : Word32) : (s.setReg o v).cores = s.cores := rfl
@[simp] theorem State.setReg_nmv (s : State) (o : Nat) (v : Word32) : (s.setReg o v).nmv = s.nmv := rfl
@[simp] theorem State.setReg_evc (s : State) (o : Nat) (v : Word32) : (s.setReg o v).evc = s.evc := rfl
@[simp] theorem State.setReg_ist (s : State) (o : Nat) (v : Word32) : (s.setReg o v).ist = s.ist := rfl
@[simp] theorem State.setReg_host (s : State) (o : Nat) (v : Word32) : (s.setReg o v).host = s.host := rfl
@[simp] theorem State.setReg_serve (s : State) (o : Nat) (v : Word32) : (s.setReg o v).serve = s.serve := rfl
@[simp] theorem State.setReg_loft (s : State) (o : Nat) (v : Word32) : (s.setReg o v).loft = s.loft := rfl
@[simp] theorem State.setReg_curtain (s : State) (o : Nat) (v : Word32) : (s.setReg o v).curtain = s.curtain := rfl
@[simp] theorem State.setReg_time (s : State) (o : Nat) (v : Word32) : (s.setReg o v).time = s.time := rfl
@[simp] theorem State.setReg_pow (s : State) (o : Nat) (v : Word32) : (s.setReg o v).pow = s.pow := rfl
@[simp] theorem State.setReg_fab (s : State) (o : Nat) (v : Word32) : (s.setReg o v).fab = s.fab := rfl
@[simp] theorem State.setReg_coll (s : State) (o : Nat) (v : Word32) : (s.setReg o v).coll = s.coll := rfl
@[simp] theorem State.setReg_pair (s : State) (o : Nat) (v : Word32) : (s.setReg o v).pair = s.pair := rfl
@[simp] theorem State.setReg_train (s : State) (o : Nat) (v : Word32) : (s.setReg o v).train = s.train := rfl
@[simp] theorem State.setReg_boot (s : State) (o : Nat) (v : Word32) : (s.setReg o v).boot = s.boot := rfl
@[simp] theorem State.setReg_out (s : State) (o : Nat) (v : Word32) : (s.setReg o v).out = s.out := rfl

/-! #### setRegN -/

@[simp] theorem State.setRegN_pending (s : State) (o v : Nat) : (s.setRegN o v).pending = s.pending := rfl
@[simp] theorem State.setRegN_free (s : State) (o v : Nat) : (s.setRegN o v).free = s.free := rfl
@[simp] theorem State.setRegN_now (s : State) (o v : Nat) : (s.setRegN o v).now = s.now := rfl
@[simp] theorem State.setRegN_clk (s : State) (o v : Nat) : (s.setRegN o v).clk = s.clk := rfl
@[simp] theorem State.setRegN_mem (s : State) (o v : Nat) : (s.setRegN o v).mem = s.mem := rfl
@[simp] theorem State.setRegN_poison (s : State) (o v : Nat) : (s.setRegN o v).poison = s.poison := rfl
@[simp] theorem State.setRegN_grans (s : State) (o v : Nat) : (s.setRegN o v).grans = s.grans := rfl
@[simp] theorem State.setRegN_cores (s : State) (o v : Nat) : (s.setRegN o v).cores = s.cores := rfl
@[simp] theorem State.setRegN_nmv (s : State) (o v : Nat) : (s.setRegN o v).nmv = s.nmv := rfl
@[simp] theorem State.setRegN_evc (s : State) (o v : Nat) : (s.setRegN o v).evc = s.evc := rfl
@[simp] theorem State.setRegN_ist (s : State) (o v : Nat) : (s.setRegN o v).ist = s.ist := rfl
@[simp] theorem State.setRegN_host (s : State) (o v : Nat) : (s.setRegN o v).host = s.host := rfl
@[simp] theorem State.setRegN_serve (s : State) (o v : Nat) : (s.setRegN o v).serve = s.serve := rfl
@[simp] theorem State.setRegN_loft (s : State) (o v : Nat) : (s.setRegN o v).loft = s.loft := rfl
@[simp] theorem State.setRegN_curtain (s : State) (o v : Nat) : (s.setRegN o v).curtain = s.curtain := rfl
@[simp] theorem State.setRegN_time (s : State) (o v : Nat) : (s.setRegN o v).time = s.time := rfl
@[simp] theorem State.setRegN_pow (s : State) (o v : Nat) : (s.setRegN o v).pow = s.pow := rfl
@[simp] theorem State.setRegN_fab (s : State) (o v : Nat) : (s.setRegN o v).fab = s.fab := rfl
@[simp] theorem State.setRegN_coll (s : State) (o v : Nat) : (s.setRegN o v).coll = s.coll := rfl
@[simp] theorem State.setRegN_pair (s : State) (o v : Nat) : (s.setRegN o v).pair = s.pair := rfl
@[simp] theorem State.setRegN_train (s : State) (o v : Nat) : (s.setRegN o v).train = s.train := rfl
@[simp] theorem State.setRegN_boot (s : State) (o v : Nat) : (s.setRegN o v).boot = s.boot := rfl
@[simp] theorem State.setRegN_out (s : State) (o v : Nat) : (s.setRegN o v).out = s.out := rfl

/-! #### setField -/

@[simp] theorem State.setField_pending (s : State) (o lo n v : Nat) : (s.setField o lo n v).pending = s.pending := rfl
@[simp] theorem State.setField_free (s : State) (o lo n v : Nat) : (s.setField o lo n v).free = s.free := rfl
@[simp] theorem State.setField_now (s : State) (o lo n v : Nat) : (s.setField o lo n v).now = s.now := rfl
@[simp] theorem State.setField_clk (s : State) (o lo n v : Nat) : (s.setField o lo n v).clk = s.clk := rfl
@[simp] theorem State.setField_mem (s : State) (o lo n v : Nat) : (s.setField o lo n v).mem = s.mem := rfl
@[simp] theorem State.setField_poison (s : State) (o lo n v : Nat) : (s.setField o lo n v).poison = s.poison := rfl
@[simp] theorem State.setField_grans (s : State) (o lo n v : Nat) : (s.setField o lo n v).grans = s.grans := rfl
@[simp] theorem State.setField_cores (s : State) (o lo n v : Nat) : (s.setField o lo n v).cores = s.cores := rfl
@[simp] theorem State.setField_nmv (s : State) (o lo n v : Nat) : (s.setField o lo n v).nmv = s.nmv := rfl
@[simp] theorem State.setField_evc (s : State) (o lo n v : Nat) : (s.setField o lo n v).evc = s.evc := rfl
@[simp] theorem State.setField_ist (s : State) (o lo n v : Nat) : (s.setField o lo n v).ist = s.ist := rfl
@[simp] theorem State.setField_host (s : State) (o lo n v : Nat) : (s.setField o lo n v).host = s.host := rfl
@[simp] theorem State.setField_serve (s : State) (o lo n v : Nat) : (s.setField o lo n v).serve = s.serve := rfl
@[simp] theorem State.setField_loft (s : State) (o lo n v : Nat) : (s.setField o lo n v).loft = s.loft := rfl
@[simp] theorem State.setField_curtain (s : State) (o lo n v : Nat) : (s.setField o lo n v).curtain = s.curtain := rfl
@[simp] theorem State.setField_time (s : State) (o lo n v : Nat) : (s.setField o lo n v).time = s.time := rfl
@[simp] theorem State.setField_pow (s : State) (o lo n v : Nat) : (s.setField o lo n v).pow = s.pow := rfl
@[simp] theorem State.setField_fab (s : State) (o lo n v : Nat) : (s.setField o lo n v).fab = s.fab := rfl
@[simp] theorem State.setField_coll (s : State) (o lo n v : Nat) : (s.setField o lo n v).coll = s.coll := rfl
@[simp] theorem State.setField_pair (s : State) (o lo n v : Nat) : (s.setField o lo n v).pair = s.pair := rfl
@[simp] theorem State.setField_train (s : State) (o lo n v : Nat) : (s.setField o lo n v).train = s.train := rfl
@[simp] theorem State.setField_boot (s : State) (o lo n v : Nat) : (s.setField o lo n v).boot = s.boot := rfl
@[simp] theorem State.setField_out (s : State) (o lo n v : Nat) : (s.setField o lo n v).out = s.out := rfl

/-! #### bump -/

@[simp] theorem State.bump_pending (s : State) (o k : Nat) : (s.bump o k).pending = s.pending := rfl
@[simp] theorem State.bump_free (s : State) (o k : Nat) : (s.bump o k).free = s.free := rfl
@[simp] theorem State.bump_now (s : State) (o k : Nat) : (s.bump o k).now = s.now := rfl
@[simp] theorem State.bump_clk (s : State) (o k : Nat) : (s.bump o k).clk = s.clk := rfl
@[simp] theorem State.bump_mem (s : State) (o k : Nat) : (s.bump o k).mem = s.mem := rfl
@[simp] theorem State.bump_poison (s : State) (o k : Nat) : (s.bump o k).poison = s.poison := rfl
@[simp] theorem State.bump_grans (s : State) (o k : Nat) : (s.bump o k).grans = s.grans := rfl
@[simp] theorem State.bump_cores (s : State) (o k : Nat) : (s.bump o k).cores = s.cores := rfl
@[simp] theorem State.bump_nmv (s : State) (o k : Nat) : (s.bump o k).nmv = s.nmv := rfl
@[simp] theorem State.bump_evc (s : State) (o k : Nat) : (s.bump o k).evc = s.evc := rfl
@[simp] theorem State.bump_ist (s : State) (o k : Nat) : (s.bump o k).ist = s.ist := rfl
@[simp] theorem State.bump_host (s : State) (o k : Nat) : (s.bump o k).host = s.host := rfl
@[simp] theorem State.bump_serve (s : State) (o k : Nat) : (s.bump o k).serve = s.serve := rfl
@[simp] theorem State.bump_loft (s : State) (o k : Nat) : (s.bump o k).loft = s.loft := rfl
@[simp] theorem State.bump_curtain (s : State) (o k : Nat) : (s.bump o k).curtain = s.curtain := rfl
@[simp] theorem State.bump_time (s : State) (o k : Nat) : (s.bump o k).time = s.time := rfl
@[simp] theorem State.bump_pow (s : State) (o k : Nat) : (s.bump o k).pow = s.pow := rfl
@[simp] theorem State.bump_fab (s : State) (o k : Nat) : (s.bump o k).fab = s.fab := rfl
@[simp] theorem State.bump_coll (s : State) (o k : Nat) : (s.bump o k).coll = s.coll := rfl
@[simp] theorem State.bump_pair (s : State) (o k : Nat) : (s.bump o k).pair = s.pair := rfl
@[simp] theorem State.bump_train (s : State) (o k : Nat) : (s.bump o k).train = s.train := rfl
@[simp] theorem State.bump_boot (s : State) (o k : Nat) : (s.bump o k).boot = s.boot := rfl
@[simp] theorem State.bump_out (s : State) (o k : Nat) : (s.bump o k).out = s.out := rfl

/-! #### setReg64 -/

@[simp] theorem State.setReg64_pending (s : State) (lo hi v : Nat) : (s.setReg64 lo hi v).pending = s.pending := rfl
@[simp] theorem State.setReg64_free (s : State) (lo hi v : Nat) : (s.setReg64 lo hi v).free = s.free := rfl
@[simp] theorem State.setReg64_now (s : State) (lo hi v : Nat) : (s.setReg64 lo hi v).now = s.now := rfl
@[simp] theorem State.setReg64_clk (s : State) (lo hi v : Nat) : (s.setReg64 lo hi v).clk = s.clk := rfl
@[simp] theorem State.setReg64_mem (s : State) (lo hi v : Nat) : (s.setReg64 lo hi v).mem = s.mem := rfl
@[simp] theorem State.setReg64_poison (s : State) (lo hi v : Nat) : (s.setReg64 lo hi v).poison = s.poison := rfl
@[simp] theorem State.setReg64_grans (s : State) (lo hi v : Nat) : (s.setReg64 lo hi v).grans = s.grans := rfl
@[simp] theorem State.setReg64_cores (s : State) (lo hi v : Nat) : (s.setReg64 lo hi v).cores = s.cores := rfl
@[simp] theorem State.setReg64_nmv (s : State) (lo hi v : Nat) : (s.setReg64 lo hi v).nmv = s.nmv := rfl
@[simp] theorem State.setReg64_evc (s : State) (lo hi v : Nat) : (s.setReg64 lo hi v).evc = s.evc := rfl
@[simp] theorem State.setReg64_ist (s : State) (lo hi v : Nat) : (s.setReg64 lo hi v).ist = s.ist := rfl
@[simp] theorem State.setReg64_host (s : State) (lo hi v : Nat) : (s.setReg64 lo hi v).host = s.host := rfl
@[simp] theorem State.setReg64_serve (s : State) (lo hi v : Nat) : (s.setReg64 lo hi v).serve = s.serve := rfl
@[simp] theorem State.setReg64_loft (s : State) (lo hi v : Nat) : (s.setReg64 lo hi v).loft = s.loft := rfl
@[simp] theorem State.setReg64_curtain (s : State) (lo hi v : Nat) : (s.setReg64 lo hi v).curtain = s.curtain := rfl
@[simp] theorem State.setReg64_time (s : State) (lo hi v : Nat) : (s.setReg64 lo hi v).time = s.time := rfl
@[simp] theorem State.setReg64_pow (s : State) (lo hi v : Nat) : (s.setReg64 lo hi v).pow = s.pow := rfl
@[simp] theorem State.setReg64_fab (s : State) (lo hi v : Nat) : (s.setReg64 lo hi v).fab = s.fab := rfl
@[simp] theorem State.setReg64_coll (s : State) (lo hi v : Nat) : (s.setReg64 lo hi v).coll = s.coll := rfl
@[simp] theorem State.setReg64_pair (s : State) (lo hi v : Nat) : (s.setReg64 lo hi v).pair = s.pair := rfl
@[simp] theorem State.setReg64_train (s : State) (lo hi v : Nat) : (s.setReg64 lo hi v).train = s.train := rfl
@[simp] theorem State.setReg64_boot (s : State) (lo hi v : Nat) : (s.setReg64 lo hi v).boot = s.boot := rfl
@[simp] theorem State.setReg64_out (s : State) (lo hi v : Nat) : (s.setReg64 lo hi v).out = s.out := rfl

/-! #### clearPoison -/

@[simp] theorem State.clearPoison_pending (s : State) (a n : Nat) : (s.clearPoison a n).pending = s.pending := rfl
@[simp] theorem State.clearPoison_free (s : State) (a n : Nat) : (s.clearPoison a n).free = s.free := rfl
@[simp] theorem State.clearPoison_now (s : State) (a n : Nat) : (s.clearPoison a n).now = s.now := rfl
@[simp] theorem State.clearPoison_clk (s : State) (a n : Nat) : (s.clearPoison a n).clk = s.clk := rfl
@[simp] theorem State.clearPoison_regs (s : State) (a n : Nat) : (s.clearPoison a n).regs = s.regs := rfl
@[simp] theorem State.clearPoison_mem (s : State) (a n : Nat) : (s.clearPoison a n).mem = s.mem := rfl
@[simp] theorem State.clearPoison_grans (s : State) (a n : Nat) : (s.clearPoison a n).grans = s.grans := rfl
@[simp] theorem State.clearPoison_cores (s : State) (a n : Nat) : (s.clearPoison a n).cores = s.cores := rfl
@[simp] theorem State.clearPoison_nmv (s : State) (a n : Nat) : (s.clearPoison a n).nmv = s.nmv := rfl
@[simp] theorem State.clearPoison_evc (s : State) (a n : Nat) : (s.clearPoison a n).evc = s.evc := rfl
@[simp] theorem State.clearPoison_ist (s : State) (a n : Nat) : (s.clearPoison a n).ist = s.ist := rfl
@[simp] theorem State.clearPoison_host (s : State) (a n : Nat) : (s.clearPoison a n).host = s.host := rfl
@[simp] theorem State.clearPoison_serve (s : State) (a n : Nat) : (s.clearPoison a n).serve = s.serve := rfl
@[simp] theorem State.clearPoison_loft (s : State) (a n : Nat) : (s.clearPoison a n).loft = s.loft := rfl
@[simp] theorem State.clearPoison_curtain (s : State) (a n : Nat) : (s.clearPoison a n).curtain = s.curtain := rfl
@[simp] theorem State.clearPoison_time (s : State) (a n : Nat) : (s.clearPoison a n).time = s.time := rfl
@[simp] theorem State.clearPoison_pow (s : State) (a n : Nat) : (s.clearPoison a n).pow = s.pow := rfl
@[simp] theorem State.clearPoison_fab (s : State) (a n : Nat) : (s.clearPoison a n).fab = s.fab := rfl
@[simp] theorem State.clearPoison_coll (s : State) (a n : Nat) : (s.clearPoison a n).coll = s.coll := rfl
@[simp] theorem State.clearPoison_pair (s : State) (a n : Nat) : (s.clearPoison a n).pair = s.pair := rfl
@[simp] theorem State.clearPoison_train (s : State) (a n : Nat) : (s.clearPoison a n).train = s.train := rfl
@[simp] theorem State.clearPoison_boot (s : State) (a n : Nat) : (s.clearPoison a n).boot = s.boot := rfl
@[simp] theorem State.clearPoison_out (s : State) (a n : Nat) : (s.clearPoison a n).out = s.out := rfl

/-! #### writeBytes -/

@[simp] theorem State.writeBytes_pending (s : State) (a : Nat) (bs : List Byte) : (s.writeBytes a bs).pending = s.pending := rfl
@[simp] theorem State.writeBytes_free (s : State) (a : Nat) (bs : List Byte) : (s.writeBytes a bs).free = s.free := rfl
@[simp] theorem State.writeBytes_now (s : State) (a : Nat) (bs : List Byte) : (s.writeBytes a bs).now = s.now := rfl
@[simp] theorem State.writeBytes_clk (s : State) (a : Nat) (bs : List Byte) : (s.writeBytes a bs).clk = s.clk := rfl
@[simp] theorem State.writeBytes_regs (s : State) (a : Nat) (bs : List Byte) : (s.writeBytes a bs).regs = s.regs := rfl
@[simp] theorem State.writeBytes_grans (s : State) (a : Nat) (bs : List Byte) : (s.writeBytes a bs).grans = s.grans := rfl
@[simp] theorem State.writeBytes_cores (s : State) (a : Nat) (bs : List Byte) : (s.writeBytes a bs).cores = s.cores := rfl
@[simp] theorem State.writeBytes_nmv (s : State) (a : Nat) (bs : List Byte) : (s.writeBytes a bs).nmv = s.nmv := rfl
@[simp] theorem State.writeBytes_evc (s : State) (a : Nat) (bs : List Byte) : (s.writeBytes a bs).evc = s.evc := rfl
@[simp] theorem State.writeBytes_ist (s : State) (a : Nat) (bs : List Byte) : (s.writeBytes a bs).ist = s.ist := rfl
@[simp] theorem State.writeBytes_host (s : State) (a : Nat) (bs : List Byte) : (s.writeBytes a bs).host = s.host := rfl
@[simp] theorem State.writeBytes_serve (s : State) (a : Nat) (bs : List Byte) : (s.writeBytes a bs).serve = s.serve := rfl
@[simp] theorem State.writeBytes_loft (s : State) (a : Nat) (bs : List Byte) : (s.writeBytes a bs).loft = s.loft := rfl
@[simp] theorem State.writeBytes_curtain (s : State) (a : Nat) (bs : List Byte) : (s.writeBytes a bs).curtain = s.curtain := rfl
@[simp] theorem State.writeBytes_time (s : State) (a : Nat) (bs : List Byte) : (s.writeBytes a bs).time = s.time := rfl
@[simp] theorem State.writeBytes_pow (s : State) (a : Nat) (bs : List Byte) : (s.writeBytes a bs).pow = s.pow := rfl
@[simp] theorem State.writeBytes_fab (s : State) (a : Nat) (bs : List Byte) : (s.writeBytes a bs).fab = s.fab := rfl
@[simp] theorem State.writeBytes_coll (s : State) (a : Nat) (bs : List Byte) : (s.writeBytes a bs).coll = s.coll := rfl
@[simp] theorem State.writeBytes_pair (s : State) (a : Nat) (bs : List Byte) : (s.writeBytes a bs).pair = s.pair := rfl
@[simp] theorem State.writeBytes_train (s : State) (a : Nat) (bs : List Byte) : (s.writeBytes a bs).train = s.train := rfl
@[simp] theorem State.writeBytes_boot (s : State) (a : Nat) (bs : List Byte) : (s.writeBytes a bs).boot = s.boot := rfl
@[simp] theorem State.writeBytes_out (s : State) (a : Nat) (bs : List Byte) : (s.writeBytes a bs).out = s.out := rfl

/-! #### setGran -/

@[simp] theorem State.setGran_pending (s : State) (i : Nat) (w : Word64) : (s.setGran i w).pending = s.pending := rfl
@[simp] theorem State.setGran_free (s : State) (i : Nat) (w : Word64) : (s.setGran i w).free = s.free := rfl
@[simp] theorem State.setGran_now (s : State) (i : Nat) (w : Word64) : (s.setGran i w).now = s.now := rfl
@[simp] theorem State.setGran_clk (s : State) (i : Nat) (w : Word64) : (s.setGran i w).clk = s.clk := rfl
@[simp] theorem State.setGran_regs (s : State) (i : Nat) (w : Word64) : (s.setGran i w).regs = s.regs := rfl
@[simp] theorem State.setGran_mem (s : State) (i : Nat) (w : Word64) : (s.setGran i w).mem = s.mem := rfl
@[simp] theorem State.setGran_poison (s : State) (i : Nat) (w : Word64) : (s.setGran i w).poison = s.poison := rfl
@[simp] theorem State.setGran_cores (s : State) (i : Nat) (w : Word64) : (s.setGran i w).cores = s.cores := rfl
@[simp] theorem State.setGran_nmv (s : State) (i : Nat) (w : Word64) : (s.setGran i w).nmv = s.nmv := rfl
@[simp] theorem State.setGran_evc (s : State) (i : Nat) (w : Word64) : (s.setGran i w).evc = s.evc := rfl
@[simp] theorem State.setGran_ist (s : State) (i : Nat) (w : Word64) : (s.setGran i w).ist = s.ist := rfl
@[simp] theorem State.setGran_host (s : State) (i : Nat) (w : Word64) : (s.setGran i w).host = s.host := rfl
@[simp] theorem State.setGran_serve (s : State) (i : Nat) (w : Word64) : (s.setGran i w).serve = s.serve := rfl
@[simp] theorem State.setGran_loft (s : State) (i : Nat) (w : Word64) : (s.setGran i w).loft = s.loft := rfl
@[simp] theorem State.setGran_curtain (s : State) (i : Nat) (w : Word64) : (s.setGran i w).curtain = s.curtain := rfl
@[simp] theorem State.setGran_time (s : State) (i : Nat) (w : Word64) : (s.setGran i w).time = s.time := rfl
@[simp] theorem State.setGran_pow (s : State) (i : Nat) (w : Word64) : (s.setGran i w).pow = s.pow := rfl
@[simp] theorem State.setGran_fab (s : State) (i : Nat) (w : Word64) : (s.setGran i w).fab = s.fab := rfl
@[simp] theorem State.setGran_coll (s : State) (i : Nat) (w : Word64) : (s.setGran i w).coll = s.coll := rfl
@[simp] theorem State.setGran_pair (s : State) (i : Nat) (w : Word64) : (s.setGran i w).pair = s.pair := rfl
@[simp] theorem State.setGran_train (s : State) (i : Nat) (w : Word64) : (s.setGran i w).train = s.train := rfl
@[simp] theorem State.setGran_boot (s : State) (i : Nat) (w : Word64) : (s.setGran i w).boot = s.boot := rfl
@[simp] theorem State.setGran_out (s : State) (i : Nat) (w : Word64) : (s.setGran i w).out = s.out := rfl

/-! #### setCore -/

@[simp] theorem State.setCore_pending (s : State) (n : Nat) (c : CoreSt) : (s.setCore n c).pending = s.pending := rfl
@[simp] theorem State.setCore_free (s : State) (n : Nat) (c : CoreSt) : (s.setCore n c).free = s.free := rfl
@[simp] theorem State.setCore_now (s : State) (n : Nat) (c : CoreSt) : (s.setCore n c).now = s.now := rfl
@[simp] theorem State.setCore_clk (s : State) (n : Nat) (c : CoreSt) : (s.setCore n c).clk = s.clk := rfl
@[simp] theorem State.setCore_regs (s : State) (n : Nat) (c : CoreSt) : (s.setCore n c).regs = s.regs := rfl
@[simp] theorem State.setCore_mem (s : State) (n : Nat) (c : CoreSt) : (s.setCore n c).mem = s.mem := rfl
@[simp] theorem State.setCore_poison (s : State) (n : Nat) (c : CoreSt) : (s.setCore n c).poison = s.poison := rfl
@[simp] theorem State.setCore_grans (s : State) (n : Nat) (c : CoreSt) : (s.setCore n c).grans = s.grans := rfl
@[simp] theorem State.setCore_nmv (s : State) (n : Nat) (c : CoreSt) : (s.setCore n c).nmv = s.nmv := rfl
@[simp] theorem State.setCore_evc (s : State) (n : Nat) (c : CoreSt) : (s.setCore n c).evc = s.evc := rfl
@[simp] theorem State.setCore_ist (s : State) (n : Nat) (c : CoreSt) : (s.setCore n c).ist = s.ist := rfl
@[simp] theorem State.setCore_host (s : State) (n : Nat) (c : CoreSt) : (s.setCore n c).host = s.host := rfl
@[simp] theorem State.setCore_serve (s : State) (n : Nat) (c : CoreSt) : (s.setCore n c).serve = s.serve := rfl
@[simp] theorem State.setCore_loft (s : State) (n : Nat) (c : CoreSt) : (s.setCore n c).loft = s.loft := rfl
@[simp] theorem State.setCore_curtain (s : State) (n : Nat) (c : CoreSt) : (s.setCore n c).curtain = s.curtain := rfl
@[simp] theorem State.setCore_time (s : State) (n : Nat) (c : CoreSt) : (s.setCore n c).time = s.time := rfl
@[simp] theorem State.setCore_pow (s : State) (n : Nat) (c : CoreSt) : (s.setCore n c).pow = s.pow := rfl
@[simp] theorem State.setCore_fab (s : State) (n : Nat) (c : CoreSt) : (s.setCore n c).fab = s.fab := rfl
@[simp] theorem State.setCore_coll (s : State) (n : Nat) (c : CoreSt) : (s.setCore n c).coll = s.coll := rfl
@[simp] theorem State.setCore_pair (s : State) (n : Nat) (c : CoreSt) : (s.setCore n c).pair = s.pair := rfl
@[simp] theorem State.setCore_train (s : State) (n : Nat) (c : CoreSt) : (s.setCore n c).train = s.train := rfl
@[simp] theorem State.setCore_boot (s : State) (n : Nat) (c : CoreSt) : (s.setCore n c).boot = s.boot := rfl
@[simp] theorem State.setCore_out (s : State) (n : Nat) (c : CoreSt) : (s.setCore n c).out = s.out := rfl

/-! #### setPart -/

@[simp] theorem State.setPart_pending (s : State) (n p : Nat) (x : Part) : (s.setPart n p x).pending = s.pending := rfl
@[simp] theorem State.setPart_free (s : State) (n p : Nat) (x : Part) : (s.setPart n p x).free = s.free := rfl
@[simp] theorem State.setPart_now (s : State) (n p : Nat) (x : Part) : (s.setPart n p x).now = s.now := rfl
@[simp] theorem State.setPart_clk (s : State) (n p : Nat) (x : Part) : (s.setPart n p x).clk = s.clk := rfl
@[simp] theorem State.setPart_regs (s : State) (n p : Nat) (x : Part) : (s.setPart n p x).regs = s.regs := rfl
@[simp] theorem State.setPart_mem (s : State) (n p : Nat) (x : Part) : (s.setPart n p x).mem = s.mem := rfl
@[simp] theorem State.setPart_poison (s : State) (n p : Nat) (x : Part) : (s.setPart n p x).poison = s.poison := rfl
@[simp] theorem State.setPart_grans (s : State) (n p : Nat) (x : Part) : (s.setPart n p x).grans = s.grans := rfl
@[simp] theorem State.setPart_nmv (s : State) (n p : Nat) (x : Part) : (s.setPart n p x).nmv = s.nmv := rfl
@[simp] theorem State.setPart_evc (s : State) (n p : Nat) (x : Part) : (s.setPart n p x).evc = s.evc := rfl
@[simp] theorem State.setPart_ist (s : State) (n p : Nat) (x : Part) : (s.setPart n p x).ist = s.ist := rfl
@[simp] theorem State.setPart_host (s : State) (n p : Nat) (x : Part) : (s.setPart n p x).host = s.host := rfl
@[simp] theorem State.setPart_serve (s : State) (n p : Nat) (x : Part) : (s.setPart n p x).serve = s.serve := rfl
@[simp] theorem State.setPart_loft (s : State) (n p : Nat) (x : Part) : (s.setPart n p x).loft = s.loft := rfl
@[simp] theorem State.setPart_curtain (s : State) (n p : Nat) (x : Part) : (s.setPart n p x).curtain = s.curtain := rfl
@[simp] theorem State.setPart_time (s : State) (n p : Nat) (x : Part) : (s.setPart n p x).time = s.time := rfl
@[simp] theorem State.setPart_pow (s : State) (n p : Nat) (x : Part) : (s.setPart n p x).pow = s.pow := rfl
@[simp] theorem State.setPart_fab (s : State) (n p : Nat) (x : Part) : (s.setPart n p x).fab = s.fab := rfl
@[simp] theorem State.setPart_coll (s : State) (n p : Nat) (x : Part) : (s.setPart n p x).coll = s.coll := rfl
@[simp] theorem State.setPart_pair (s : State) (n p : Nat) (x : Part) : (s.setPart n p x).pair = s.pair := rfl
@[simp] theorem State.setPart_train (s : State) (n p : Nat) (x : Part) : (s.setPart n p x).train = s.train := rfl
@[simp] theorem State.setPart_boot (s : State) (n p : Nat) (x : Part) : (s.setPart n p x).boot = s.boot := rfl
@[simp] theorem State.setPart_out (s : State) (n p : Nat) (x : Part) : (s.setPart n p x).out = s.out := rfl

/-! #### setCtx -/

@[simp] theorem State.setCtx_pending (s : State) (n p : Nat) (c : Ctx) : (s.setCtx n p c).pending = s.pending := rfl
@[simp] theorem State.setCtx_free (s : State) (n p : Nat) (c : Ctx) : (s.setCtx n p c).free = s.free := rfl
@[simp] theorem State.setCtx_now (s : State) (n p : Nat) (c : Ctx) : (s.setCtx n p c).now = s.now := rfl
@[simp] theorem State.setCtx_clk (s : State) (n p : Nat) (c : Ctx) : (s.setCtx n p c).clk = s.clk := rfl
@[simp] theorem State.setCtx_regs (s : State) (n p : Nat) (c : Ctx) : (s.setCtx n p c).regs = s.regs := rfl
@[simp] theorem State.setCtx_mem (s : State) (n p : Nat) (c : Ctx) : (s.setCtx n p c).mem = s.mem := rfl
@[simp] theorem State.setCtx_poison (s : State) (n p : Nat) (c : Ctx) : (s.setCtx n p c).poison = s.poison := rfl
@[simp] theorem State.setCtx_grans (s : State) (n p : Nat) (c : Ctx) : (s.setCtx n p c).grans = s.grans := rfl
@[simp] theorem State.setCtx_nmv (s : State) (n p : Nat) (c : Ctx) : (s.setCtx n p c).nmv = s.nmv := rfl
@[simp] theorem State.setCtx_evc (s : State) (n p : Nat) (c : Ctx) : (s.setCtx n p c).evc = s.evc := rfl
@[simp] theorem State.setCtx_ist (s : State) (n p : Nat) (c : Ctx) : (s.setCtx n p c).ist = s.ist := rfl
@[simp] theorem State.setCtx_host (s : State) (n p : Nat) (c : Ctx) : (s.setCtx n p c).host = s.host := rfl
@[simp] theorem State.setCtx_serve (s : State) (n p : Nat) (c : Ctx) : (s.setCtx n p c).serve = s.serve := rfl
@[simp] theorem State.setCtx_loft (s : State) (n p : Nat) (c : Ctx) : (s.setCtx n p c).loft = s.loft := rfl
@[simp] theorem State.setCtx_curtain (s : State) (n p : Nat) (c : Ctx) : (s.setCtx n p c).curtain = s.curtain := rfl
@[simp] theorem State.setCtx_time (s : State) (n p : Nat) (c : Ctx) : (s.setCtx n p c).time = s.time := rfl
@[simp] theorem State.setCtx_pow (s : State) (n p : Nat) (c : Ctx) : (s.setCtx n p c).pow = s.pow := rfl
@[simp] theorem State.setCtx_fab (s : State) (n p : Nat) (c : Ctx) : (s.setCtx n p c).fab = s.fab := rfl
@[simp] theorem State.setCtx_coll (s : State) (n p : Nat) (c : Ctx) : (s.setCtx n p c).coll = s.coll := rfl
@[simp] theorem State.setCtx_pair (s : State) (n p : Nat) (c : Ctx) : (s.setCtx n p c).pair = s.pair := rfl
@[simp] theorem State.setCtx_train (s : State) (n p : Nat) (c : Ctx) : (s.setCtx n p c).train = s.train := rfl
@[simp] theorem State.setCtx_boot (s : State) (n p : Nat) (c : Ctx) : (s.setCtx n p c).boot = s.boot := rfl
@[simp] theorem State.setCtx_out (s : State) (n p : Nat) (c : Ctx) : (s.setCtx n p c).out = s.out := rfl

/-! #### putCtx -/

@[simp] theorem State.putCtx_pending (s : State) (n p : Nat) (c : Ctx) : (s.putCtx n p c).pending = s.pending := rfl
@[simp] theorem State.putCtx_free (s : State) (n p : Nat) (c : Ctx) : (s.putCtx n p c).free = s.free := rfl
@[simp] theorem State.putCtx_now (s : State) (n p : Nat) (c : Ctx) : (s.putCtx n p c).now = s.now := rfl
@[simp] theorem State.putCtx_clk (s : State) (n p : Nat) (c : Ctx) : (s.putCtx n p c).clk = s.clk := rfl
@[simp] theorem State.putCtx_regs (s : State) (n p : Nat) (c : Ctx) : (s.putCtx n p c).regs = s.regs := rfl
@[simp] theorem State.putCtx_mem (s : State) (n p : Nat) (c : Ctx) : (s.putCtx n p c).mem = s.mem := rfl
@[simp] theorem State.putCtx_poison (s : State) (n p : Nat) (c : Ctx) : (s.putCtx n p c).poison = s.poison := rfl
@[simp] theorem State.putCtx_grans (s : State) (n p : Nat) (c : Ctx) : (s.putCtx n p c).grans = s.grans := rfl
@[simp] theorem State.putCtx_nmv (s : State) (n p : Nat) (c : Ctx) : (s.putCtx n p c).nmv = s.nmv := rfl
@[simp] theorem State.putCtx_evc (s : State) (n p : Nat) (c : Ctx) : (s.putCtx n p c).evc = s.evc := rfl
@[simp] theorem State.putCtx_ist (s : State) (n p : Nat) (c : Ctx) : (s.putCtx n p c).ist = s.ist := rfl
@[simp] theorem State.putCtx_host (s : State) (n p : Nat) (c : Ctx) : (s.putCtx n p c).host = s.host := rfl
@[simp] theorem State.putCtx_serve (s : State) (n p : Nat) (c : Ctx) : (s.putCtx n p c).serve = s.serve := rfl
@[simp] theorem State.putCtx_loft (s : State) (n p : Nat) (c : Ctx) : (s.putCtx n p c).loft = s.loft := rfl
@[simp] theorem State.putCtx_curtain (s : State) (n p : Nat) (c : Ctx) : (s.putCtx n p c).curtain = s.curtain := rfl
@[simp] theorem State.putCtx_time (s : State) (n p : Nat) (c : Ctx) : (s.putCtx n p c).time = s.time := rfl
@[simp] theorem State.putCtx_pow (s : State) (n p : Nat) (c : Ctx) : (s.putCtx n p c).pow = s.pow := rfl
@[simp] theorem State.putCtx_fab (s : State) (n p : Nat) (c : Ctx) : (s.putCtx n p c).fab = s.fab := rfl
@[simp] theorem State.putCtx_coll (s : State) (n p : Nat) (c : Ctx) : (s.putCtx n p c).coll = s.coll := rfl
@[simp] theorem State.putCtx_pair (s : State) (n p : Nat) (c : Ctx) : (s.putCtx n p c).pair = s.pair := rfl
@[simp] theorem State.putCtx_train (s : State) (n p : Nat) (c : Ctx) : (s.putCtx n p c).train = s.train := rfl
@[simp] theorem State.putCtx_boot (s : State) (n p : Nat) (c : Ctx) : (s.putCtx n p c).boot = s.boot := rfl
@[simp] theorem State.putCtx_out (s : State) (n p : Nat) (c : Ctx) : (s.putCtx n p c).out = s.out := rfl

/-! #### setBoot -/

@[simp] theorem State.setBoot_pending (s : State) (x : BootSt) : (s.setBoot x).pending = s.pending := rfl
@[simp] theorem State.setBoot_free (s : State) (x : BootSt) : (s.setBoot x).free = s.free := rfl
@[simp] theorem State.setBoot_now (s : State) (x : BootSt) : (s.setBoot x).now = s.now := rfl
@[simp] theorem State.setBoot_clk (s : State) (x : BootSt) : (s.setBoot x).clk = s.clk := rfl
@[simp] theorem State.setBoot_regs (s : State) (x : BootSt) : (s.setBoot x).regs = s.regs := rfl
@[simp] theorem State.setBoot_mem (s : State) (x : BootSt) : (s.setBoot x).mem = s.mem := rfl
@[simp] theorem State.setBoot_poison (s : State) (x : BootSt) : (s.setBoot x).poison = s.poison := rfl
@[simp] theorem State.setBoot_grans (s : State) (x : BootSt) : (s.setBoot x).grans = s.grans := rfl
@[simp] theorem State.setBoot_cores (s : State) (x : BootSt) : (s.setBoot x).cores = s.cores := rfl
@[simp] theorem State.setBoot_nmv (s : State) (x : BootSt) : (s.setBoot x).nmv = s.nmv := rfl
@[simp] theorem State.setBoot_evc (s : State) (x : BootSt) : (s.setBoot x).evc = s.evc := rfl
@[simp] theorem State.setBoot_ist (s : State) (x : BootSt) : (s.setBoot x).ist = s.ist := rfl
@[simp] theorem State.setBoot_host (s : State) (x : BootSt) : (s.setBoot x).host = s.host := rfl
@[simp] theorem State.setBoot_serve (s : State) (x : BootSt) : (s.setBoot x).serve = s.serve := rfl
@[simp] theorem State.setBoot_loft (s : State) (x : BootSt) : (s.setBoot x).loft = s.loft := rfl
@[simp] theorem State.setBoot_curtain (s : State) (x : BootSt) : (s.setBoot x).curtain = s.curtain := rfl
@[simp] theorem State.setBoot_time (s : State) (x : BootSt) : (s.setBoot x).time = s.time := rfl
@[simp] theorem State.setBoot_pow (s : State) (x : BootSt) : (s.setBoot x).pow = s.pow := rfl
@[simp] theorem State.setBoot_fab (s : State) (x : BootSt) : (s.setBoot x).fab = s.fab := rfl
@[simp] theorem State.setBoot_coll (s : State) (x : BootSt) : (s.setBoot x).coll = s.coll := rfl
@[simp] theorem State.setBoot_pair (s : State) (x : BootSt) : (s.setBoot x).pair = s.pair := rfl
@[simp] theorem State.setBoot_train (s : State) (x : BootSt) : (s.setBoot x).train = s.train := rfl
@[simp] theorem State.setBoot_boot (s : State) (x : BootSt) : (s.setBoot x).boot = x := rfl
@[simp] theorem State.setBoot_out (s : State) (x : BootSt) : (s.setBoot x).out = s.out := rfl

/-! #### setColl -/

@[simp] theorem State.setColl_pending (s : State) (x : CollSt) : (s.setColl x).pending = s.pending := rfl
@[simp] theorem State.setColl_free (s : State) (x : CollSt) : (s.setColl x).free = s.free := rfl
@[simp] theorem State.setColl_now (s : State) (x : CollSt) : (s.setColl x).now = s.now := rfl
@[simp] theorem State.setColl_clk (s : State) (x : CollSt) : (s.setColl x).clk = s.clk := rfl
@[simp] theorem State.setColl_regs (s : State) (x : CollSt) : (s.setColl x).regs = s.regs := rfl
@[simp] theorem State.setColl_mem (s : State) (x : CollSt) : (s.setColl x).mem = s.mem := rfl
@[simp] theorem State.setColl_poison (s : State) (x : CollSt) : (s.setColl x).poison = s.poison := rfl
@[simp] theorem State.setColl_grans (s : State) (x : CollSt) : (s.setColl x).grans = s.grans := rfl
@[simp] theorem State.setColl_cores (s : State) (x : CollSt) : (s.setColl x).cores = s.cores := rfl
@[simp] theorem State.setColl_nmv (s : State) (x : CollSt) : (s.setColl x).nmv = s.nmv := rfl
@[simp] theorem State.setColl_evc (s : State) (x : CollSt) : (s.setColl x).evc = s.evc := rfl
@[simp] theorem State.setColl_ist (s : State) (x : CollSt) : (s.setColl x).ist = s.ist := rfl
@[simp] theorem State.setColl_host (s : State) (x : CollSt) : (s.setColl x).host = s.host := rfl
@[simp] theorem State.setColl_serve (s : State) (x : CollSt) : (s.setColl x).serve = s.serve := rfl
@[simp] theorem State.setColl_loft (s : State) (x : CollSt) : (s.setColl x).loft = s.loft := rfl
@[simp] theorem State.setColl_curtain (s : State) (x : CollSt) : (s.setColl x).curtain = s.curtain := rfl
@[simp] theorem State.setColl_time (s : State) (x : CollSt) : (s.setColl x).time = s.time := rfl
@[simp] theorem State.setColl_pow (s : State) (x : CollSt) : (s.setColl x).pow = s.pow := rfl
@[simp] theorem State.setColl_fab (s : State) (x : CollSt) : (s.setColl x).fab = s.fab := rfl
@[simp] theorem State.setColl_coll (s : State) (x : CollSt) : (s.setColl x).coll = x := rfl
@[simp] theorem State.setColl_pair (s : State) (x : CollSt) : (s.setColl x).pair = s.pair := rfl
@[simp] theorem State.setColl_train (s : State) (x : CollSt) : (s.setColl x).train = s.train := rfl
@[simp] theorem State.setColl_boot (s : State) (x : CollSt) : (s.setColl x).boot = s.boot := rfl
@[simp] theorem State.setColl_out (s : State) (x : CollSt) : (s.setColl x).out = s.out := rfl

/-! #### setCurtain -/

@[simp] theorem State.setCurtain_pending (s : State) (x : CurtainSt) : (s.setCurtain x).pending = s.pending := rfl
@[simp] theorem State.setCurtain_free (s : State) (x : CurtainSt) : (s.setCurtain x).free = s.free := rfl
@[simp] theorem State.setCurtain_now (s : State) (x : CurtainSt) : (s.setCurtain x).now = s.now := rfl
@[simp] theorem State.setCurtain_clk (s : State) (x : CurtainSt) : (s.setCurtain x).clk = s.clk := rfl
@[simp] theorem State.setCurtain_regs (s : State) (x : CurtainSt) : (s.setCurtain x).regs = s.regs := rfl
@[simp] theorem State.setCurtain_mem (s : State) (x : CurtainSt) : (s.setCurtain x).mem = s.mem := rfl
@[simp] theorem State.setCurtain_poison (s : State) (x : CurtainSt) : (s.setCurtain x).poison = s.poison := rfl
@[simp] theorem State.setCurtain_grans (s : State) (x : CurtainSt) : (s.setCurtain x).grans = s.grans := rfl
@[simp] theorem State.setCurtain_cores (s : State) (x : CurtainSt) : (s.setCurtain x).cores = s.cores := rfl
@[simp] theorem State.setCurtain_nmv (s : State) (x : CurtainSt) : (s.setCurtain x).nmv = s.nmv := rfl
@[simp] theorem State.setCurtain_evc (s : State) (x : CurtainSt) : (s.setCurtain x).evc = s.evc := rfl
@[simp] theorem State.setCurtain_ist (s : State) (x : CurtainSt) : (s.setCurtain x).ist = s.ist := rfl
@[simp] theorem State.setCurtain_host (s : State) (x : CurtainSt) : (s.setCurtain x).host = s.host := rfl
@[simp] theorem State.setCurtain_serve (s : State) (x : CurtainSt) : (s.setCurtain x).serve = s.serve := rfl
@[simp] theorem State.setCurtain_loft (s : State) (x : CurtainSt) : (s.setCurtain x).loft = s.loft := rfl
@[simp] theorem State.setCurtain_curtain (s : State) (x : CurtainSt) : (s.setCurtain x).curtain = x := rfl
@[simp] theorem State.setCurtain_time (s : State) (x : CurtainSt) : (s.setCurtain x).time = s.time := rfl
@[simp] theorem State.setCurtain_pow (s : State) (x : CurtainSt) : (s.setCurtain x).pow = s.pow := rfl
@[simp] theorem State.setCurtain_fab (s : State) (x : CurtainSt) : (s.setCurtain x).fab = s.fab := rfl
@[simp] theorem State.setCurtain_coll (s : State) (x : CurtainSt) : (s.setCurtain x).coll = s.coll := rfl
@[simp] theorem State.setCurtain_pair (s : State) (x : CurtainSt) : (s.setCurtain x).pair = s.pair := rfl
@[simp] theorem State.setCurtain_train (s : State) (x : CurtainSt) : (s.setCurtain x).train = s.train := rfl
@[simp] theorem State.setCurtain_boot (s : State) (x : CurtainSt) : (s.setCurtain x).boot = s.boot := rfl
@[simp] theorem State.setCurtain_out (s : State) (x : CurtainSt) : (s.setCurtain x).out = s.out := rfl

/-! #### setEvc -/

@[simp] theorem State.setEvc_pending (s : State) (x : EvcSt) : (s.setEvc x).pending = s.pending := rfl
@[simp] theorem State.setEvc_free (s : State) (x : EvcSt) : (s.setEvc x).free = s.free := rfl
@[simp] theorem State.setEvc_now (s : State) (x : EvcSt) : (s.setEvc x).now = s.now := rfl
@[simp] theorem State.setEvc_clk (s : State) (x : EvcSt) : (s.setEvc x).clk = s.clk := rfl
@[simp] theorem State.setEvc_regs (s : State) (x : EvcSt) : (s.setEvc x).regs = s.regs := rfl
@[simp] theorem State.setEvc_mem (s : State) (x : EvcSt) : (s.setEvc x).mem = s.mem := rfl
@[simp] theorem State.setEvc_poison (s : State) (x : EvcSt) : (s.setEvc x).poison = s.poison := rfl
@[simp] theorem State.setEvc_grans (s : State) (x : EvcSt) : (s.setEvc x).grans = s.grans := rfl
@[simp] theorem State.setEvc_cores (s : State) (x : EvcSt) : (s.setEvc x).cores = s.cores := rfl
@[simp] theorem State.setEvc_nmv (s : State) (x : EvcSt) : (s.setEvc x).nmv = s.nmv := rfl
@[simp] theorem State.setEvc_evc (s : State) (x : EvcSt) : (s.setEvc x).evc = x := rfl
@[simp] theorem State.setEvc_ist (s : State) (x : EvcSt) : (s.setEvc x).ist = s.ist := rfl
@[simp] theorem State.setEvc_host (s : State) (x : EvcSt) : (s.setEvc x).host = s.host := rfl
@[simp] theorem State.setEvc_serve (s : State) (x : EvcSt) : (s.setEvc x).serve = s.serve := rfl
@[simp] theorem State.setEvc_loft (s : State) (x : EvcSt) : (s.setEvc x).loft = s.loft := rfl
@[simp] theorem State.setEvc_curtain (s : State) (x : EvcSt) : (s.setEvc x).curtain = s.curtain := rfl
@[simp] theorem State.setEvc_time (s : State) (x : EvcSt) : (s.setEvc x).time = s.time := rfl
@[simp] theorem State.setEvc_pow (s : State) (x : EvcSt) : (s.setEvc x).pow = s.pow := rfl
@[simp] theorem State.setEvc_fab (s : State) (x : EvcSt) : (s.setEvc x).fab = s.fab := rfl
@[simp] theorem State.setEvc_coll (s : State) (x : EvcSt) : (s.setEvc x).coll = s.coll := rfl
@[simp] theorem State.setEvc_pair (s : State) (x : EvcSt) : (s.setEvc x).pair = s.pair := rfl
@[simp] theorem State.setEvc_train (s : State) (x : EvcSt) : (s.setEvc x).train = s.train := rfl
@[simp] theorem State.setEvc_boot (s : State) (x : EvcSt) : (s.setEvc x).boot = s.boot := rfl
@[simp] theorem State.setEvc_out (s : State) (x : EvcSt) : (s.setEvc x).out = s.out := rfl

/-! #### setFab -/

@[simp] theorem State.setFab_pending (s : State) (x : FabSt) : (s.setFab x).pending = s.pending := rfl
@[simp] theorem State.setFab_free (s : State) (x : FabSt) : (s.setFab x).free = s.free := rfl
@[simp] theorem State.setFab_now (s : State) (x : FabSt) : (s.setFab x).now = s.now := rfl
@[simp] theorem State.setFab_clk (s : State) (x : FabSt) : (s.setFab x).clk = s.clk := rfl
@[simp] theorem State.setFab_regs (s : State) (x : FabSt) : (s.setFab x).regs = s.regs := rfl
@[simp] theorem State.setFab_mem (s : State) (x : FabSt) : (s.setFab x).mem = s.mem := rfl
@[simp] theorem State.setFab_poison (s : State) (x : FabSt) : (s.setFab x).poison = s.poison := rfl
@[simp] theorem State.setFab_grans (s : State) (x : FabSt) : (s.setFab x).grans = s.grans := rfl
@[simp] theorem State.setFab_cores (s : State) (x : FabSt) : (s.setFab x).cores = s.cores := rfl
@[simp] theorem State.setFab_nmv (s : State) (x : FabSt) : (s.setFab x).nmv = s.nmv := rfl
@[simp] theorem State.setFab_evc (s : State) (x : FabSt) : (s.setFab x).evc = s.evc := rfl
@[simp] theorem State.setFab_ist (s : State) (x : FabSt) : (s.setFab x).ist = s.ist := rfl
@[simp] theorem State.setFab_host (s : State) (x : FabSt) : (s.setFab x).host = s.host := rfl
@[simp] theorem State.setFab_serve (s : State) (x : FabSt) : (s.setFab x).serve = s.serve := rfl
@[simp] theorem State.setFab_loft (s : State) (x : FabSt) : (s.setFab x).loft = s.loft := rfl
@[simp] theorem State.setFab_curtain (s : State) (x : FabSt) : (s.setFab x).curtain = s.curtain := rfl
@[simp] theorem State.setFab_time (s : State) (x : FabSt) : (s.setFab x).time = s.time := rfl
@[simp] theorem State.setFab_pow (s : State) (x : FabSt) : (s.setFab x).pow = s.pow := rfl
@[simp] theorem State.setFab_fab (s : State) (x : FabSt) : (s.setFab x).fab = x := rfl
@[simp] theorem State.setFab_coll (s : State) (x : FabSt) : (s.setFab x).coll = s.coll := rfl
@[simp] theorem State.setFab_pair (s : State) (x : FabSt) : (s.setFab x).pair = s.pair := rfl
@[simp] theorem State.setFab_train (s : State) (x : FabSt) : (s.setFab x).train = s.train := rfl
@[simp] theorem State.setFab_boot (s : State) (x : FabSt) : (s.setFab x).boot = s.boot := rfl
@[simp] theorem State.setFab_out (s : State) (x : FabSt) : (s.setFab x).out = s.out := rfl

/-! #### setHost -/

@[simp] theorem State.setHost_pending (s : State) (x : HostSt) : (s.setHost x).pending = s.pending := rfl
@[simp] theorem State.setHost_free (s : State) (x : HostSt) : (s.setHost x).free = s.free := rfl
@[simp] theorem State.setHost_now (s : State) (x : HostSt) : (s.setHost x).now = s.now := rfl
@[simp] theorem State.setHost_clk (s : State) (x : HostSt) : (s.setHost x).clk = s.clk := rfl
@[simp] theorem State.setHost_regs (s : State) (x : HostSt) : (s.setHost x).regs = s.regs := rfl
@[simp] theorem State.setHost_mem (s : State) (x : HostSt) : (s.setHost x).mem = s.mem := rfl
@[simp] theorem State.setHost_poison (s : State) (x : HostSt) : (s.setHost x).poison = s.poison := rfl
@[simp] theorem State.setHost_grans (s : State) (x : HostSt) : (s.setHost x).grans = s.grans := rfl
@[simp] theorem State.setHost_cores (s : State) (x : HostSt) : (s.setHost x).cores = s.cores := rfl
@[simp] theorem State.setHost_nmv (s : State) (x : HostSt) : (s.setHost x).nmv = s.nmv := rfl
@[simp] theorem State.setHost_evc (s : State) (x : HostSt) : (s.setHost x).evc = s.evc := rfl
@[simp] theorem State.setHost_ist (s : State) (x : HostSt) : (s.setHost x).ist = s.ist := rfl
@[simp] theorem State.setHost_host (s : State) (x : HostSt) : (s.setHost x).host = x := rfl
@[simp] theorem State.setHost_serve (s : State) (x : HostSt) : (s.setHost x).serve = s.serve := rfl
@[simp] theorem State.setHost_loft (s : State) (x : HostSt) : (s.setHost x).loft = s.loft := rfl
@[simp] theorem State.setHost_curtain (s : State) (x : HostSt) : (s.setHost x).curtain = s.curtain := rfl
@[simp] theorem State.setHost_time (s : State) (x : HostSt) : (s.setHost x).time = s.time := rfl
@[simp] theorem State.setHost_pow (s : State) (x : HostSt) : (s.setHost x).pow = s.pow := rfl
@[simp] theorem State.setHost_fab (s : State) (x : HostSt) : (s.setHost x).fab = s.fab := rfl
@[simp] theorem State.setHost_coll (s : State) (x : HostSt) : (s.setHost x).coll = s.coll := rfl
@[simp] theorem State.setHost_pair (s : State) (x : HostSt) : (s.setHost x).pair = s.pair := rfl
@[simp] theorem State.setHost_train (s : State) (x : HostSt) : (s.setHost x).train = s.train := rfl
@[simp] theorem State.setHost_boot (s : State) (x : HostSt) : (s.setHost x).boot = s.boot := rfl
@[simp] theorem State.setHost_out (s : State) (x : HostSt) : (s.setHost x).out = s.out := rfl

/-! #### setIst -/

@[simp] theorem State.setIst_pending (s : State) (x : IstSt) : (s.setIst x).pending = s.pending := rfl
@[simp] theorem State.setIst_free (s : State) (x : IstSt) : (s.setIst x).free = s.free := rfl
@[simp] theorem State.setIst_now (s : State) (x : IstSt) : (s.setIst x).now = s.now := rfl
@[simp] theorem State.setIst_clk (s : State) (x : IstSt) : (s.setIst x).clk = s.clk := rfl
@[simp] theorem State.setIst_regs (s : State) (x : IstSt) : (s.setIst x).regs = s.regs := rfl
@[simp] theorem State.setIst_mem (s : State) (x : IstSt) : (s.setIst x).mem = s.mem := rfl
@[simp] theorem State.setIst_poison (s : State) (x : IstSt) : (s.setIst x).poison = s.poison := rfl
@[simp] theorem State.setIst_grans (s : State) (x : IstSt) : (s.setIst x).grans = s.grans := rfl
@[simp] theorem State.setIst_cores (s : State) (x : IstSt) : (s.setIst x).cores = s.cores := rfl
@[simp] theorem State.setIst_nmv (s : State) (x : IstSt) : (s.setIst x).nmv = s.nmv := rfl
@[simp] theorem State.setIst_evc (s : State) (x : IstSt) : (s.setIst x).evc = s.evc := rfl
@[simp] theorem State.setIst_ist (s : State) (x : IstSt) : (s.setIst x).ist = x := rfl
@[simp] theorem State.setIst_host (s : State) (x : IstSt) : (s.setIst x).host = s.host := rfl
@[simp] theorem State.setIst_serve (s : State) (x : IstSt) : (s.setIst x).serve = s.serve := rfl
@[simp] theorem State.setIst_loft (s : State) (x : IstSt) : (s.setIst x).loft = s.loft := rfl
@[simp] theorem State.setIst_curtain (s : State) (x : IstSt) : (s.setIst x).curtain = s.curtain := rfl
@[simp] theorem State.setIst_time (s : State) (x : IstSt) : (s.setIst x).time = s.time := rfl
@[simp] theorem State.setIst_pow (s : State) (x : IstSt) : (s.setIst x).pow = s.pow := rfl
@[simp] theorem State.setIst_fab (s : State) (x : IstSt) : (s.setIst x).fab = s.fab := rfl
@[simp] theorem State.setIst_coll (s : State) (x : IstSt) : (s.setIst x).coll = s.coll := rfl
@[simp] theorem State.setIst_pair (s : State) (x : IstSt) : (s.setIst x).pair = s.pair := rfl
@[simp] theorem State.setIst_train (s : State) (x : IstSt) : (s.setIst x).train = s.train := rfl
@[simp] theorem State.setIst_boot (s : State) (x : IstSt) : (s.setIst x).boot = s.boot := rfl
@[simp] theorem State.setIst_out (s : State) (x : IstSt) : (s.setIst x).out = s.out := rfl

/-! #### setPair -/

@[simp] theorem State.setPair_pending (s : State) (x : PairSt) : (s.setPair x).pending = s.pending := rfl
@[simp] theorem State.setPair_free (s : State) (x : PairSt) : (s.setPair x).free = s.free := rfl
@[simp] theorem State.setPair_now (s : State) (x : PairSt) : (s.setPair x).now = s.now := rfl
@[simp] theorem State.setPair_clk (s : State) (x : PairSt) : (s.setPair x).clk = s.clk := rfl
@[simp] theorem State.setPair_regs (s : State) (x : PairSt) : (s.setPair x).regs = s.regs := rfl
@[simp] theorem State.setPair_mem (s : State) (x : PairSt) : (s.setPair x).mem = s.mem := rfl
@[simp] theorem State.setPair_poison (s : State) (x : PairSt) : (s.setPair x).poison = s.poison := rfl
@[simp] theorem State.setPair_grans (s : State) (x : PairSt) : (s.setPair x).grans = s.grans := rfl
@[simp] theorem State.setPair_cores (s : State) (x : PairSt) : (s.setPair x).cores = s.cores := rfl
@[simp] theorem State.setPair_nmv (s : State) (x : PairSt) : (s.setPair x).nmv = s.nmv := rfl
@[simp] theorem State.setPair_evc (s : State) (x : PairSt) : (s.setPair x).evc = s.evc := rfl
@[simp] theorem State.setPair_ist (s : State) (x : PairSt) : (s.setPair x).ist = s.ist := rfl
@[simp] theorem State.setPair_host (s : State) (x : PairSt) : (s.setPair x).host = s.host := rfl
@[simp] theorem State.setPair_serve (s : State) (x : PairSt) : (s.setPair x).serve = s.serve := rfl
@[simp] theorem State.setPair_loft (s : State) (x : PairSt) : (s.setPair x).loft = s.loft := rfl
@[simp] theorem State.setPair_curtain (s : State) (x : PairSt) : (s.setPair x).curtain = s.curtain := rfl
@[simp] theorem State.setPair_time (s : State) (x : PairSt) : (s.setPair x).time = s.time := rfl
@[simp] theorem State.setPair_pow (s : State) (x : PairSt) : (s.setPair x).pow = s.pow := rfl
@[simp] theorem State.setPair_fab (s : State) (x : PairSt) : (s.setPair x).fab = s.fab := rfl
@[simp] theorem State.setPair_coll (s : State) (x : PairSt) : (s.setPair x).coll = s.coll := rfl
@[simp] theorem State.setPair_pair (s : State) (x : PairSt) : (s.setPair x).pair = x := rfl
@[simp] theorem State.setPair_train (s : State) (x : PairSt) : (s.setPair x).train = s.train := rfl
@[simp] theorem State.setPair_boot (s : State) (x : PairSt) : (s.setPair x).boot = s.boot := rfl
@[simp] theorem State.setPair_out (s : State) (x : PairSt) : (s.setPair x).out = s.out := rfl

/-! #### setPow -/

@[simp] theorem State.setPow_pending (s : State) (x : PowSt) : (s.setPow x).pending = s.pending := rfl
@[simp] theorem State.setPow_free (s : State) (x : PowSt) : (s.setPow x).free = s.free := rfl
@[simp] theorem State.setPow_now (s : State) (x : PowSt) : (s.setPow x).now = s.now := rfl
@[simp] theorem State.setPow_clk (s : State) (x : PowSt) : (s.setPow x).clk = s.clk := rfl
@[simp] theorem State.setPow_regs (s : State) (x : PowSt) : (s.setPow x).regs = s.regs := rfl
@[simp] theorem State.setPow_mem (s : State) (x : PowSt) : (s.setPow x).mem = s.mem := rfl
@[simp] theorem State.setPow_poison (s : State) (x : PowSt) : (s.setPow x).poison = s.poison := rfl
@[simp] theorem State.setPow_grans (s : State) (x : PowSt) : (s.setPow x).grans = s.grans := rfl
@[simp] theorem State.setPow_cores (s : State) (x : PowSt) : (s.setPow x).cores = s.cores := rfl
@[simp] theorem State.setPow_nmv (s : State) (x : PowSt) : (s.setPow x).nmv = s.nmv := rfl
@[simp] theorem State.setPow_evc (s : State) (x : PowSt) : (s.setPow x).evc = s.evc := rfl
@[simp] theorem State.setPow_ist (s : State) (x : PowSt) : (s.setPow x).ist = s.ist := rfl
@[simp] theorem State.setPow_host (s : State) (x : PowSt) : (s.setPow x).host = s.host := rfl
@[simp] theorem State.setPow_serve (s : State) (x : PowSt) : (s.setPow x).serve = s.serve := rfl
@[simp] theorem State.setPow_loft (s : State) (x : PowSt) : (s.setPow x).loft = s.loft := rfl
@[simp] theorem State.setPow_curtain (s : State) (x : PowSt) : (s.setPow x).curtain = s.curtain := rfl
@[simp] theorem State.setPow_time (s : State) (x : PowSt) : (s.setPow x).time = s.time := rfl
@[simp] theorem State.setPow_pow (s : State) (x : PowSt) : (s.setPow x).pow = x := rfl
@[simp] theorem State.setPow_fab (s : State) (x : PowSt) : (s.setPow x).fab = s.fab := rfl
@[simp] theorem State.setPow_coll (s : State) (x : PowSt) : (s.setPow x).coll = s.coll := rfl
@[simp] theorem State.setPow_pair (s : State) (x : PowSt) : (s.setPow x).pair = s.pair := rfl
@[simp] theorem State.setPow_train (s : State) (x : PowSt) : (s.setPow x).train = s.train := rfl
@[simp] theorem State.setPow_boot (s : State) (x : PowSt) : (s.setPow x).boot = s.boot := rfl
@[simp] theorem State.setPow_out (s : State) (x : PowSt) : (s.setPow x).out = s.out := rfl

/-! #### setServe -/

@[simp] theorem State.setServe_pending (s : State) (x : ServeSt) : (s.setServe x).pending = s.pending := rfl
@[simp] theorem State.setServe_free (s : State) (x : ServeSt) : (s.setServe x).free = s.free := rfl
@[simp] theorem State.setServe_now (s : State) (x : ServeSt) : (s.setServe x).now = s.now := rfl
@[simp] theorem State.setServe_clk (s : State) (x : ServeSt) : (s.setServe x).clk = s.clk := rfl
@[simp] theorem State.setServe_regs (s : State) (x : ServeSt) : (s.setServe x).regs = s.regs := rfl
@[simp] theorem State.setServe_mem (s : State) (x : ServeSt) : (s.setServe x).mem = s.mem := rfl
@[simp] theorem State.setServe_poison (s : State) (x : ServeSt) : (s.setServe x).poison = s.poison := rfl
@[simp] theorem State.setServe_grans (s : State) (x : ServeSt) : (s.setServe x).grans = s.grans := rfl
@[simp] theorem State.setServe_cores (s : State) (x : ServeSt) : (s.setServe x).cores = s.cores := rfl
@[simp] theorem State.setServe_nmv (s : State) (x : ServeSt) : (s.setServe x).nmv = s.nmv := rfl
@[simp] theorem State.setServe_evc (s : State) (x : ServeSt) : (s.setServe x).evc = s.evc := rfl
@[simp] theorem State.setServe_ist (s : State) (x : ServeSt) : (s.setServe x).ist = s.ist := rfl
@[simp] theorem State.setServe_host (s : State) (x : ServeSt) : (s.setServe x).host = s.host := rfl
@[simp] theorem State.setServe_serve (s : State) (x : ServeSt) : (s.setServe x).serve = x := rfl
@[simp] theorem State.setServe_loft (s : State) (x : ServeSt) : (s.setServe x).loft = s.loft := rfl
@[simp] theorem State.setServe_curtain (s : State) (x : ServeSt) : (s.setServe x).curtain = s.curtain := rfl
@[simp] theorem State.setServe_time (s : State) (x : ServeSt) : (s.setServe x).time = s.time := rfl
@[simp] theorem State.setServe_pow (s : State) (x : ServeSt) : (s.setServe x).pow = s.pow := rfl
@[simp] theorem State.setServe_fab (s : State) (x : ServeSt) : (s.setServe x).fab = s.fab := rfl
@[simp] theorem State.setServe_coll (s : State) (x : ServeSt) : (s.setServe x).coll = s.coll := rfl
@[simp] theorem State.setServe_pair (s : State) (x : ServeSt) : (s.setServe x).pair = s.pair := rfl
@[simp] theorem State.setServe_train (s : State) (x : ServeSt) : (s.setServe x).train = s.train := rfl
@[simp] theorem State.setServe_boot (s : State) (x : ServeSt) : (s.setServe x).boot = s.boot := rfl
@[simp] theorem State.setServe_out (s : State) (x : ServeSt) : (s.setServe x).out = s.out := rfl

/-! #### setTime -/

@[simp] theorem State.setTime_pending (s : State) (x : TimeSt) : (s.setTime x).pending = s.pending := rfl
@[simp] theorem State.setTime_free (s : State) (x : TimeSt) : (s.setTime x).free = s.free := rfl
@[simp] theorem State.setTime_now (s : State) (x : TimeSt) : (s.setTime x).now = s.now := rfl
@[simp] theorem State.setTime_clk (s : State) (x : TimeSt) : (s.setTime x).clk = s.clk := rfl
@[simp] theorem State.setTime_regs (s : State) (x : TimeSt) : (s.setTime x).regs = s.regs := rfl
@[simp] theorem State.setTime_mem (s : State) (x : TimeSt) : (s.setTime x).mem = s.mem := rfl
@[simp] theorem State.setTime_poison (s : State) (x : TimeSt) : (s.setTime x).poison = s.poison := rfl
@[simp] theorem State.setTime_grans (s : State) (x : TimeSt) : (s.setTime x).grans = s.grans := rfl
@[simp] theorem State.setTime_cores (s : State) (x : TimeSt) : (s.setTime x).cores = s.cores := rfl
@[simp] theorem State.setTime_nmv (s : State) (x : TimeSt) : (s.setTime x).nmv = s.nmv := rfl
@[simp] theorem State.setTime_evc (s : State) (x : TimeSt) : (s.setTime x).evc = s.evc := rfl
@[simp] theorem State.setTime_ist (s : State) (x : TimeSt) : (s.setTime x).ist = s.ist := rfl
@[simp] theorem State.setTime_host (s : State) (x : TimeSt) : (s.setTime x).host = s.host := rfl
@[simp] theorem State.setTime_serve (s : State) (x : TimeSt) : (s.setTime x).serve = s.serve := rfl
@[simp] theorem State.setTime_loft (s : State) (x : TimeSt) : (s.setTime x).loft = s.loft := rfl
@[simp] theorem State.setTime_curtain (s : State) (x : TimeSt) : (s.setTime x).curtain = s.curtain := rfl
@[simp] theorem State.setTime_time (s : State) (x : TimeSt) : (s.setTime x).time = x := rfl
@[simp] theorem State.setTime_pow (s : State) (x : TimeSt) : (s.setTime x).pow = s.pow := rfl
@[simp] theorem State.setTime_fab (s : State) (x : TimeSt) : (s.setTime x).fab = s.fab := rfl
@[simp] theorem State.setTime_coll (s : State) (x : TimeSt) : (s.setTime x).coll = s.coll := rfl
@[simp] theorem State.setTime_pair (s : State) (x : TimeSt) : (s.setTime x).pair = s.pair := rfl
@[simp] theorem State.setTime_train (s : State) (x : TimeSt) : (s.setTime x).train = s.train := rfl
@[simp] theorem State.setTime_boot (s : State) (x : TimeSt) : (s.setTime x).boot = s.boot := rfl
@[simp] theorem State.setTime_out (s : State) (x : TimeSt) : (s.setTime x).out = s.out := rfl

/-! #### setTrain -/

@[simp] theorem State.setTrain_pending (s : State) (x : TrainSt) : (s.setTrain x).pending = s.pending := rfl
@[simp] theorem State.setTrain_free (s : State) (x : TrainSt) : (s.setTrain x).free = s.free := rfl
@[simp] theorem State.setTrain_now (s : State) (x : TrainSt) : (s.setTrain x).now = s.now := rfl
@[simp] theorem State.setTrain_clk (s : State) (x : TrainSt) : (s.setTrain x).clk = s.clk := rfl
@[simp] theorem State.setTrain_regs (s : State) (x : TrainSt) : (s.setTrain x).regs = s.regs := rfl
@[simp] theorem State.setTrain_mem (s : State) (x : TrainSt) : (s.setTrain x).mem = s.mem := rfl
@[simp] theorem State.setTrain_poison (s : State) (x : TrainSt) : (s.setTrain x).poison = s.poison := rfl
@[simp] theorem State.setTrain_grans (s : State) (x : TrainSt) : (s.setTrain x).grans = s.grans := rfl
@[simp] theorem State.setTrain_cores (s : State) (x : TrainSt) : (s.setTrain x).cores = s.cores := rfl
@[simp] theorem State.setTrain_nmv (s : State) (x : TrainSt) : (s.setTrain x).nmv = s.nmv := rfl
@[simp] theorem State.setTrain_evc (s : State) (x : TrainSt) : (s.setTrain x).evc = s.evc := rfl
@[simp] theorem State.setTrain_ist (s : State) (x : TrainSt) : (s.setTrain x).ist = s.ist := rfl
@[simp] theorem State.setTrain_host (s : State) (x : TrainSt) : (s.setTrain x).host = s.host := rfl
@[simp] theorem State.setTrain_serve (s : State) (x : TrainSt) : (s.setTrain x).serve = s.serve := rfl
@[simp] theorem State.setTrain_loft (s : State) (x : TrainSt) : (s.setTrain x).loft = s.loft := rfl
@[simp] theorem State.setTrain_curtain (s : State) (x : TrainSt) : (s.setTrain x).curtain = s.curtain := rfl
@[simp] theorem State.setTrain_time (s : State) (x : TrainSt) : (s.setTrain x).time = s.time := rfl
@[simp] theorem State.setTrain_pow (s : State) (x : TrainSt) : (s.setTrain x).pow = s.pow := rfl
@[simp] theorem State.setTrain_fab (s : State) (x : TrainSt) : (s.setTrain x).fab = s.fab := rfl
@[simp] theorem State.setTrain_coll (s : State) (x : TrainSt) : (s.setTrain x).coll = s.coll := rfl
@[simp] theorem State.setTrain_pair (s : State) (x : TrainSt) : (s.setTrain x).pair = s.pair := rfl
@[simp] theorem State.setTrain_train (s : State) (x : TrainSt) : (s.setTrain x).train = x := rfl
@[simp] theorem State.setTrain_boot (s : State) (x : TrainSt) : (s.setTrain x).boot = s.boot := rfl
@[simp] theorem State.setTrain_out (s : State) (x : TrainSt) : (s.setTrain x).out = s.out := rfl

/-! #### emit -/

@[simp] theorem State.emit_pending (s : State) (o : Out) : (s.emit o).pending = s.pending := by unfold State.emit State.sendOut; split; rfl; split; rfl; split <;> rfl
@[simp] theorem State.emit_free (s : State) (o : Out) : (s.emit o).free = s.free := by unfold State.emit State.sendOut; split; rfl; split; rfl; split <;> rfl
@[simp] theorem State.emit_now (s : State) (o : Out) : (s.emit o).now = s.now := by unfold State.emit State.sendOut; split; rfl; split; rfl; split <;> rfl
@[simp] theorem State.emit_clk (s : State) (o : Out) : (s.emit o).clk = s.clk := by unfold State.emit State.sendOut; split; rfl; split; rfl; split <;> rfl
@[simp] theorem State.emit_regs (s : State) (o : Out) : (s.emit o).regs = s.regs := by unfold State.emit State.sendOut; split; rfl; split; rfl; split <;> rfl
@[simp] theorem State.emit_mem (s : State) (o : Out) : (s.emit o).mem = s.mem := by unfold State.emit State.sendOut; split; rfl; split; rfl; split <;> rfl
@[simp] theorem State.emit_poison (s : State) (o : Out) : (s.emit o).poison = s.poison := by unfold State.emit State.sendOut; split; rfl; split; rfl; split <;> rfl
@[simp] theorem State.emit_grans (s : State) (o : Out) : (s.emit o).grans = s.grans := by unfold State.emit State.sendOut; split; rfl; split; rfl; split <;> rfl
@[simp] theorem State.emit_cores (s : State) (o : Out) : (s.emit o).cores = s.cores := by unfold State.emit State.sendOut; split; rfl; split; rfl; split <;> rfl
@[simp] theorem State.emit_nmv (s : State) (o : Out) : (s.emit o).nmv = s.nmv := by unfold State.emit State.sendOut; split; rfl; split; rfl; split <;> rfl
@[simp] theorem State.emit_evc (s : State) (o : Out) : (s.emit o).evc = s.evc := by unfold State.emit State.sendOut; split; rfl; split; rfl; split <;> rfl
@[simp] theorem State.emit_ist (s : State) (o : Out) : (s.emit o).ist = s.ist := by unfold State.emit State.sendOut; split; rfl; split; rfl; split <;> rfl
@[simp] theorem State.emit_serve (s : State) (o : Out) : (s.emit o).serve = s.serve := by unfold State.emit State.sendOut; split; rfl; split; rfl; split <;> rfl
@[simp] theorem State.emit_loft (s : State) (o : Out) : (s.emit o).loft = s.loft := by unfold State.emit State.sendOut; split; rfl; split; rfl; split <;> rfl
@[simp] theorem State.emit_curtain (s : State) (o : Out) : (s.emit o).curtain = s.curtain := by unfold State.emit State.sendOut; split; rfl; split; rfl; split <;> rfl
@[simp] theorem State.emit_time (s : State) (o : Out) : (s.emit o).time = s.time := by unfold State.emit State.sendOut; split; rfl; split; rfl; split <;> rfl
@[simp] theorem State.emit_pow (s : State) (o : Out) : (s.emit o).pow = s.pow := by unfold State.emit State.sendOut; split; rfl; split; rfl; split <;> rfl
@[simp] theorem State.emit_fab (s : State) (o : Out) : (s.emit o).fab = s.fab := by unfold State.emit State.sendOut; split; rfl; split; rfl; split <;> rfl
@[simp] theorem State.emit_coll (s : State) (o : Out) : (s.emit o).coll = s.coll := by unfold State.emit State.sendOut; split; rfl; split; rfl; split <;> rfl
@[simp] theorem State.emit_train (s : State) (o : Out) : (s.emit o).train = s.train := by unfold State.emit State.sendOut; split; rfl; split; rfl; split <;> rfl
@[simp] theorem State.emit_boot (s : State) (o : Out) : (s.emit o).boot = s.boot := by unfold State.emit State.sendOut; split; rfl; split; rfl; split <;> rfl

/-! #### raise -/

@[simp] theorem State.raise_pending (s : State) (src d : Nat) : (s.raise src d).pending = s.pending := by unfold State.raise; split; rfl; dsimp only; split <;> rfl
@[simp] theorem State.raise_free (s : State) (src d : Nat) : (s.raise src d).free = s.free := by unfold State.raise; split; rfl; dsimp only; split <;> rfl
@[simp] theorem State.raise_now (s : State) (src d : Nat) : (s.raise src d).now = s.now := by unfold State.raise; split; rfl; dsimp only; split <;> rfl
@[simp] theorem State.raise_clk (s : State) (src d : Nat) : (s.raise src d).clk = s.clk := by unfold State.raise; split; rfl; dsimp only; split <;> rfl
@[simp] theorem State.raise_mem (s : State) (src d : Nat) : (s.raise src d).mem = s.mem := by unfold State.raise; split; rfl; dsimp only; split <;> rfl
@[simp] theorem State.raise_poison (s : State) (src d : Nat) : (s.raise src d).poison = s.poison := by unfold State.raise; split; rfl; dsimp only; split <;> rfl
@[simp] theorem State.raise_grans (s : State) (src d : Nat) : (s.raise src d).grans = s.grans := by unfold State.raise; split; rfl; dsimp only; split <;> rfl
@[simp] theorem State.raise_cores (s : State) (src d : Nat) : (s.raise src d).cores = s.cores := by unfold State.raise; split; rfl; dsimp only; split <;> rfl
@[simp] theorem State.raise_nmv (s : State) (src d : Nat) : (s.raise src d).nmv = s.nmv := by unfold State.raise; split; rfl; dsimp only; split <;> rfl
@[simp] theorem State.raise_evc (s : State) (src d : Nat) : (s.raise src d).evc = s.evc := by unfold State.raise; split; rfl; dsimp only; split <;> rfl
@[simp] theorem State.raise_ist (s : State) (src d : Nat) : (s.raise src d).ist = s.ist := by unfold State.raise; split; rfl; dsimp only; split <;> rfl
@[simp] theorem State.raise_host (s : State) (src d : Nat) : (s.raise src d).host = s.host := by unfold State.raise; split; rfl; dsimp only; split <;> rfl
@[simp] theorem State.raise_serve (s : State) (src d : Nat) : (s.raise src d).serve = s.serve := by unfold State.raise; split; rfl; dsimp only; split <;> rfl
@[simp] theorem State.raise_loft (s : State) (src d : Nat) : (s.raise src d).loft = s.loft := by unfold State.raise; split; rfl; dsimp only; split <;> rfl
@[simp] theorem State.raise_curtain (s : State) (src d : Nat) : (s.raise src d).curtain = s.curtain := by unfold State.raise; split; rfl; dsimp only; split <;> rfl
@[simp] theorem State.raise_time (s : State) (src d : Nat) : (s.raise src d).time = s.time := by unfold State.raise; split; rfl; dsimp only; split <;> rfl
@[simp] theorem State.raise_pow (s : State) (src d : Nat) : (s.raise src d).pow = s.pow := by unfold State.raise; split; rfl; dsimp only; split <;> rfl
@[simp] theorem State.raise_fab (s : State) (src d : Nat) : (s.raise src d).fab = s.fab := by unfold State.raise; split; rfl; dsimp only; split <;> rfl
@[simp] theorem State.raise_coll (s : State) (src d : Nat) : (s.raise src d).coll = s.coll := by unfold State.raise; split; rfl; dsimp only; split <;> rfl
@[simp] theorem State.raise_pair (s : State) (src d : Nat) : (s.raise src d).pair = s.pair := by unfold State.raise; split; rfl; dsimp only; split <;> rfl
@[simp] theorem State.raise_train (s : State) (src d : Nat) : (s.raise src d).train = s.train := by unfold State.raise; split; rfl; dsimp only; split <;> rfl
@[simp] theorem State.raise_boot (s : State) (src d : Nat) : (s.raise src d).boot = s.boot := by unfold State.raise; split; rfl; dsimp only; split <;> rfl
@[simp] theorem State.raise_out (s : State) (src d : Nat) : (s.raise src d).out = s.out := by unfold State.raise; split; rfl; dsimp only; split <;> rfl

/-! #### markPoison -/

@[simp] theorem State.markPoison_pending (s : State) (a n : Nat) : (s.markPoison a n).pending = s.pending := by unfold State.markPoison; split <;> rfl
@[simp] theorem State.markPoison_free (s : State) (a n : Nat) : (s.markPoison a n).free = s.free := by unfold State.markPoison; split <;> rfl
@[simp] theorem State.markPoison_now (s : State) (a n : Nat) : (s.markPoison a n).now = s.now := by unfold State.markPoison; split <;> rfl
@[simp] theorem State.markPoison_clk (s : State) (a n : Nat) : (s.markPoison a n).clk = s.clk := by unfold State.markPoison; split <;> rfl
@[simp] theorem State.markPoison_regs (s : State) (a n : Nat) : (s.markPoison a n).regs = s.regs := by unfold State.markPoison; split <;> rfl
@[simp] theorem State.markPoison_mem (s : State) (a n : Nat) : (s.markPoison a n).mem = s.mem := by unfold State.markPoison; split <;> rfl
@[simp] theorem State.markPoison_grans (s : State) (a n : Nat) : (s.markPoison a n).grans = s.grans := by unfold State.markPoison; split <;> rfl
@[simp] theorem State.markPoison_cores (s : State) (a n : Nat) : (s.markPoison a n).cores = s.cores := by unfold State.markPoison; split <;> rfl
@[simp] theorem State.markPoison_nmv (s : State) (a n : Nat) : (s.markPoison a n).nmv = s.nmv := by unfold State.markPoison; split <;> rfl
@[simp] theorem State.markPoison_evc (s : State) (a n : Nat) : (s.markPoison a n).evc = s.evc := by unfold State.markPoison; split <;> rfl
@[simp] theorem State.markPoison_ist (s : State) (a n : Nat) : (s.markPoison a n).ist = s.ist := by unfold State.markPoison; split <;> rfl
@[simp] theorem State.markPoison_host (s : State) (a n : Nat) : (s.markPoison a n).host = s.host := by unfold State.markPoison; split <;> rfl
@[simp] theorem State.markPoison_serve (s : State) (a n : Nat) : (s.markPoison a n).serve = s.serve := by unfold State.markPoison; split <;> rfl
@[simp] theorem State.markPoison_loft (s : State) (a n : Nat) : (s.markPoison a n).loft = s.loft := by unfold State.markPoison; split <;> rfl
@[simp] theorem State.markPoison_curtain (s : State) (a n : Nat) : (s.markPoison a n).curtain = s.curtain := by unfold State.markPoison; split <;> rfl
@[simp] theorem State.markPoison_time (s : State) (a n : Nat) : (s.markPoison a n).time = s.time := by unfold State.markPoison; split <;> rfl
@[simp] theorem State.markPoison_pow (s : State) (a n : Nat) : (s.markPoison a n).pow = s.pow := by unfold State.markPoison; split <;> rfl
@[simp] theorem State.markPoison_fab (s : State) (a n : Nat) : (s.markPoison a n).fab = s.fab := by unfold State.markPoison; split <;> rfl
@[simp] theorem State.markPoison_coll (s : State) (a n : Nat) : (s.markPoison a n).coll = s.coll := by unfold State.markPoison; split <;> rfl
@[simp] theorem State.markPoison_pair (s : State) (a n : Nat) : (s.markPoison a n).pair = s.pair := by unfold State.markPoison; split <;> rfl
@[simp] theorem State.markPoison_train (s : State) (a n : Nat) : (s.markPoison a n).train = s.train := by unfold State.markPoison; split <;> rfl
@[simp] theorem State.markPoison_boot (s : State) (a n : Nat) : (s.markPoison a n).boot = s.boot := by unfold State.markPoison; split <;> rfl
@[simp] theorem State.markPoison_out (s : State) (a n : Nat) : (s.markPoison a n).out = s.out := by unfold State.markPoison; split <;> rfl

end Machine

end Sys2Proof
end

