-- ==== Sys2Proof/WellFormed.lean ====
section
/-! DEFINITION. Which commands the outside can form: cores, partitions, streams, tenants, queues, ports, module numbers,
granules and addresses in the ranges that the manual gives them. Tenants and request slots of the partner's role, where this
module serves it, follow from 256 and 2^40 (log entry 88). -/

namespace Sys2Proof

open Machine

/-- R161, R162, R164: a core, a partition, a stream. -/
def Loc.wf (l : Loc) : Bool := decide (l.core < 128) && decide (l.part < 4) && decide (l.stream < 3)

/-- A frame arrives on one of 32 fabric ports. -/
def Machine.Arrival.wf (a : Arrival) : Bool := decide (a.port < 32)

/-- A packet arrives on one of 4 host ports. -/
def Machine.HostPkt.wf (k : HostPkt) : Bool := decide (k.port < 4)

/-- R513: six MiB of stage memory, four partitions. -/
def Machine.MarchArea.wf : MarchArea → Bool
  | .stage mib => decide (mib < 6)
  | .acc p => decide (p < 4)
  | .vregs p => decide (p < 4)

/-- Is a command well formed. -/
def Instr.wf : Instr → Bool
  | .instructionIssue l _ => l.wf
  | .instructionRetire core part eng => decide (core < 128) && decide (part < 4) && decide (eng < 5)
  | .ldT l => l.wf
  | .stT l => l.wf
  | .stAt l => l.wf
  | .moveComplete core part _ => decide (core < 128) && decide (part < 4)
  | .mxLds l => l.wf
  | .mxSwap l => l.wf
  | .mxMac l => l.wf
  | .sliceAccumulate core part => decide (core < 128) && decide (part < 4)
  | .mxDrain l => l.wf
  | .drainEntryRead core part => decide (core < 128) && decide (part < 4)
  | .tileQueuePush core part => decide (core < 128) && decide (part < 4)
  | .mxGhost l => l.wf
  | .ghostLightStart core part _ => decide (core < 128) && decide (part < 4)
  | .ghostLightEnd core part => decide (core < 128) && decide (part < 4)
  | .vxLdv l => l.wf
  | .vxStv l => l.wf
  | .vxAdd l => l.wf
  | .vxSub l => l.wf
  | .vxMul l => l.wf
  | .vxFma l => l.wf
  | .vxMax l => l.wf
  | .vxMin l => l.wf
  | .vxAbs l => l.wf
  | .vxNeg l => l.wf
  | .vxDiv l => l.wf
  | .vxSqrt l => l.wf
  | .vxRsqrt l => l.wf
  | .vxExp l => l.wf
  | .vxLog l => l.wf
  | .vxCmp l => l.wf
  | .vxSel l => l.wf
  | .vxCvt l => l.wf
  | .vxRsum l => l.wf
  | .vxRmax l => l.wf
  | .vxRmin l => l.wf
  | .vxRarg l => l.wf
  | .vxRcnt l => l.wf
  | .vxRdot l => l.wf
  | .vxEadd l => l.wf
  | .vxAdam l => l.wf
  | .vxTopk l => l.wf
  | .vxTopp l => l.wf
  | .vxGmax l => l.wf
  | .vxRnd l => l.wf
  | .tileQueuePop core part => decide (core < 128) && decide (part < 4)
  | .cpLi l _ => l.wf
  | .cpLih l _ => l.wf
  | .cpAdd l _ => l.wf
  | .cpSub l _ => l.wf
  | .cpMul l _ => l.wf
  | .cpAnd l _ => l.wf
  | .cpOr l _ => l.wf
  | .cpXor l _ => l.wf
  | .cpShl l _ => l.wf
  | .cpShr l _ => l.wf
  | .cpSra l _ => l.wf
  | .cpCmp l _ => l.wf
  | .cpLd l _ => l.wf
  | .cpSt l _ => l.wf
  | .cpBr l _ => l.wf
  | .cpJ l _ => l.wf
  | .cpRss l _ => l.wf
  | .cpScr l _ => l.wf
  | .cpScw l _ => l.wf
  | .cpGset l _ => l.wf
  | .cpFork l _ => l.wf
  | .cpEnd l _ => l.wf
  | .cpPark l _ => l.wf
  | .cpQsh l _ => l.wf
  | .cpEvt l _ => l.wf
  | .cpNop l _ => l.wf
  | .contextStop l eng cause _ _ va => l.wf && decide (eng < 5) && decide (cause < 256) && decide (va < 2 ^ 48)
  | .partitionFault l cause _ _ => l.wf && decide (cause < 256)
  | .parityError l _ _ => l.wf
  | .poisonConsumption l eng _ _ => l.wf && decide (eng < 5)
  | .contextComplete core part => decide (core < 128) && decide (part < 4)
  | .dispatchEntry core sched _ => decide (core < 128) && decide (sched < 4)
  | .shapeChange core sched code => decide (core < 128) && decide (sched < 4) && decide (code < 4)
  | .saveRequest core sched part _ addr => decide (core < 128) && decide (sched < 4) && decide (part < 4) && decide (addr < 2 ^ 44)
  | .contextSave core part => decide (core < 128) && decide (part < 4)
  | .saveTimeout core part => decide (core < 128) && decide (part < 4)
  | .restore core sched addr tenant _ _ _ => decide (core < 128) && decide (sched < 4) && decide (addr < 2 ^ 44) && decide (tenant < 512)
  | .contextRelease core sched part => decide (core < 128) && decide (sched < 4) && decide (part < 4)
  | .partitionZeroed core part => decide (core < 128) && decide (part < 4)
  | .nmvWorkItem unit _ _ => decide (unit < 16)
  | .nmvComplete unit => decide (unit < 16)
  | .translationChange tenant va _ _ => decide (tenant < 512) && decide (va < 2 ^ 48)
  | .translationQuiesce tenant va => decide (tenant < 512) && decide (va < 2 ^ 48)
  | .granuleZeroing gran => decide (gran < 1442304)
  | .mirrorRepair addr _ => decide (addr < 2 ^ 44)
  | .patrolScrub gran _ _ => decide (gran < 1442304)
  | .granuleRetirement gran => decide (gran < 1442304)
  | .kvSpill rs _ _ _ => (rs < 32768 || (2 ^ 40 ≤ rs && rs < 2 ^ 40 + 32768))
  | .kvSpillRetry rs => (rs < 32768 || (2 ^ 40 ≤ rs && rs < 2 ^ 40 + 32768))
  | .kvFetch rs _ _ => (rs < 32768 || (2 ^ 40 ≤ rs && rs < 2 ^ 40 + 32768))
  | .kvHoldExpiry rs => (rs < 32768 || (2 ^ 40 ≤ rs && rs < 2 ^ 40 + 32768))
  | .ttlExpiry rs => (rs < 32768 || (2 ^ 40 ≤ rs && rs < 2 ^ 40 + 32768))
  | .lftStart => true
  | .lftAbort => true
  | .loftInstallComplete _ => true
  | .loftVerification => true
  | .loftScrub _ _ _ => true
  | .send k _ => k.wf
  | .connectionRequest k role _ => k.wf && decide (role < 8192)
  | .cnp k => k.wf
  | .bind k _ => k.wf
  | .generate t q => decide (t < 512) && decide (q < 16)
  | .resume t q => decide (t < 512) && decide (q < 16)
  | .pause t q => decide (t < 512) && decide (q < 16)
  | .cancel t q => decide (t < 512) && decide (q < 16)
  | .trainStep t q _ => decide (t < 512) && decide (q < 16)
  | .modelLoad t q _ => decide (t < 512) && decide (q < 16)
  | .curtain t q _ => decide (t < 512) && decide (q < 16)
  | .unload t q _ => decide (t < 512) && decide (q < 16)
  | .adapterLoad t q _ => decide (t < 512) && decide (q < 16)
  | .adapterRevoke t q _ => decide (t < 512) && decide (q < 16)
  | .regionSet t q => decide (t < 512) && decide (q < 16)
  | .ringSet t q => decide (t < 512) && decide (q < 16)
  | .faultlogSet t q => decide (t < 512) && decide (q < 16)
  | .resetDesc t q => decide (t < 512) && decide (q < 16)
  | .regRead t q => decide (t < 512) && decide (q < 16)
  | .regWrite t q _ => decide (t < 512) && decide (q < 16)
  | .configurationImage t q => decide (t < 512) && decide (q < 16)
  | .delta t q => decide (t < 512) && decide (q < 16)
  | .firmwareImage t q => decide (t < 512) && decide (q < 16)
  | .firmwareWritten _ => true
  | .registerWrite off _ _ => decide (off < 0x600000)
  | .hostWriteAck k _ _ => k.wf
  | .completionWrite t q => decide (t < 512) && decide (q < 16)
  | .completionNotice t q => decide (t < 512) && decide (q < 16)
  | .tntCtrlReset t => decide (t < 512)
  | .tenantResetComplete t => decide (t < 512)
  | .hstCakLoad port => decide (port < 4)
  | .hstCakClear port => decide (port < 4)
  | .bucketRefill => true
  | .placementPass => true
  | .overloadWindow _ _ => true
  | .stepFormation _ _ _ => true
  | .stepBoundary _ _ _ _ => true
  | .deadlineExpiry rs => (rs < 32768 || (2 ^ 40 ≤ rs && rs < 2 ^ 40 + 32768))
  | .variantSwapIn _ => true
  | .variantEvict _ => true
  | .epochFree module _ _ => decide (module < 8192)
  | .curtainDequeue => true
  | .curtainManifest _ _ _ tenant _ _ => decide (tenant < 512)
  | .announce _ => true
  | .seal _ => true
  | .chunkTimeout _ _ _ => true
  | .pieceVerify _ _ _ => true
  | .verify _ => true
  | .commit _ _ => true
  | .release _ => true
  | .curtainAbort _ _ => true
  | .revoke _ _ _ _ => true
  | .maskResend _ member _ => decide (member < 8192)
  | .stageManagerRecovery _ _ _ => true
  | .pipeline _ tenant _ _ addr _ _ _ _ => decide (tenant < 512) && decide (addr < 2 ^ 44)
  | .gather _ => true
  | .fwd _ _ => true
  | .bwd _ => true
  | .rscat _ _ _ => true
  | .updateEntry _ => true
  | .norm _ _ _ _ => true
  | .doneEntry _ _ _ _ => true
  | .writeFrame a => a.wf
  | .readFrame a => a.wf
  | .readResp a => a.wf
  | .readTimeout _ => true
  | .atomic a => a.wf
  | .atomicResp a => a.wf
  | .reject a => a.wf
  | .ack a => a.wf
  | .ackTimer src dst cls => decide (src < 8192) && decide (dst < 8192) && decide (cls < 8)
  | .retransmit src dst cls psn => decide (src < 8192) && decide (dst < 8192) && decide (cls < 8) && decide (psn < 2 ^ 32)
  | .pathHoldExpiry m p => decide (m < 8192) && decide (p < 32)
  | .rateIncrease m => decide (m < 8192)
  | .chunkReq a _ => a.wf
  | .chunk a => a.wf
  | .probe a => a.wf
  | .probeReply a => a.wf
  | .lossTimeout m => decide (m < 8192)
  | .lossReport a => a.wf
  | .unreachableTimeout m => decide (m < 8192)
  | .takeover a => a.wf
  | .takeoverAck a => a.wf
  | .takeoverRepeat member => decide (member < 8192)
  | .resync a => a.wf
  | .resyncAck a => a.wf
  | .neighbourSolicitation port _ => decide (port < 32)
  | .fabCakLoad => true
  | .fabCakClear => true
  | .signalDetected port => decide (port < 32)
  | .lockAchieved port => decide (port < 32)
  | .trainingTimeout port => decide (port < 32)
  | .mkaPeerLive port => decide (port < 32)
  | .securingTimeout port => decide (port < 32)
  | .linkLoss port _ => decide (port < 32)
  | .sakInstall port => decide (port < 32)
  | .slot role _ _ _ => decide (role < 8192)
  | .collData a => a.wf
  | .aggUp a => a.wf
  | .collReport a => a.wf
  | .collMask a => a.wf
  | .bypassReq a => a.wf
  | .collCopy a => a.wf
  | .withdraw a => a.wf
  | .collRepairReq a => a.wf
  | .query a => a.wf
  | .collStepDeadline role _ _ => decide (role < 8192)
  | .collReportClose role _ => decide (role < 8192)
  | .collDataDeadline role _ => decide (role < 8192)
  | .hello a _ => a.wf
  | .helloTick => true
  | .beatTick => true
  | .heartbeatSilence => true
  | .failureDeclared _ _ _ _ => true
  | .mirrorData a => a.wf
  | .mirrorState a => a.wf
  | .mirrorRepairReq a => a.wf
  | .repairData a => a.wf
  | .fence a => a.wf
  | .mirrorCopy a => a.wf
  | .copyDone _ => true
  | .formtoExpiry => true
  | .severtoExpiry _ _ => true
  | .split _ _ => true
  | .holdClear => true
  | .pwrEnRise => true
  | .pwrEnFall => true
  | .inputVoltageStop _ => true
  | .inputValid _ => true
  | .resetN => true
  | .clockLoss cause _ => decide (cause < 256)
  | .pllFixedCount _ => true
  | .pllComparison _ _ => true
  | .fmStart => true
  | .fmDone _ => true
  | .hdoff _ => true
  | .loftoff _ => true
  | .domainSwitched domain => decide (domain < 24)
  | .reefTighten cause => decide (cause < 256)
  | .reefRelax _ _ => true
  | .dividerStep half => decide (half < 16)
  | .idleRamp half => decide (half < 16)
  | .temperatureRead _ _ _ _ _ => true
  | .sync src _ _ => decide (src < 3)
  | .ppsPulse => true
  | .sourceQualified src _ => decide (src < 3)
  | .sourceLost src _ => decide (src < 3)
  | .holdoverExpiry => true
  | .timTod _ => true
  | .timCcueArm => true
  | .timCcueCancel => true
  | .configCue _ => true
  | .handover _ => true
  | .identity _ => true
  | .configVerify _ _ => true
  | .firmwareVerify _ _ _ => true
  | .hbmTrained => true
  | .admissionOpen => true
  | .maintenanceReset => true
  | .attStart => true
  | .updArm _ => true
  | .updDiscard => true
  | .updFallback => true
  | .updateConfirmed => true
  | .updateWindowExpiry => true
  | .logExport _ => true
  | .auditFlush => true
  | .eventArrival src data => decide (src < 1024) && decide (data < 2 ^ 16)
  | .evcSetpend src data => decide (src < 1024) && decide (data < 2 ^ 16)
  | .eventDelivery target => decide (target < 256)
  | .eventAck target => decide (target < 256)
  | .evcMaskEffect src => decide (src < 1024)
  | .pend src _ => decide (src < 1024)
  | .akat core part _ => decide (core < 128) && decide (part < 4)
  | .vkat core part _ => decide (core < 128) && decide (part < 4)
  | .smarch core area _ => decide (core < 128) && area.wf
  | .bmarch gran _ => decide (gran < 1442304)
  | .hpat gran _ => decide (gran < 1442304)
  | .eye port _ => decide (port < 36)
  | .coverageOverdue core => decide (core < 128)
  | .istRetire core => decide (core < 128)
  | .coreRetirement core _ => decide (core < 128)
  | .beat a => a.wf
  | .pathProbeTimeout m p => decide (m < 8192) && decide (p < 32)
  | .neighbourAdvertisement port _ _ => decide (port < 32)
  | .ref100Return => true
  | .timeBaseRetry _ => true
  | .hostRdmaRequest k => k.wf
  | .rdmaReadResponse k _ _ => k.wf
  | .hostLinkChange port _ _ => decide (port < 4)
  | .firmwareFault => true
  | .attestationDone => true
  | .notReadyReport _ member _ _ => decide (member < 8192)
  | .nonBexicaFrame port => decide (port < 32)

end Sys2Proof
end

