-- ==== Sys2Proof/Tests/Slice0.lean ====
section
/-! SUPPORT. Tests: small checks with results from the spec, and for every statement with hypotheses a state and operands that meet
them. -/

namespace Sys2Proof.Tests

open Sys2Proof Sys2Proof.Machine

set_option Elab.async false

/-! ### Helpers -/

/-- Core 0, partition 0, stream 0. -/
def l0 : Loc := { core := 0, part := 0, stream := 0 }

/-- A running context of tenant 1 with 4 KiB of stage memory and some registers. -/
def c0 : Ctx := { newCtx 1 1 7 none 0x1000#48 0 0x1000 with g := [(1, 5#64), (2, 3#64), (4, 1#64), (5, 2#64), (6, 0x3F800000#64), (8, 0x40000000#64)] }

/-- The state after reset with that context. -/
def s0 : State := State.reset.setCtx 0 0 c0

/-- An instruction word from (lowest bit, value) fields. -/
def word (fs : List (Nat × Nat)) : IWord := BitVec.ofNat 128 (fs.foldl (fun w f => w + f.2 * 2 ^ f.1) 0)

/-- A control instruction with d = 3, a = 1, b = 2. -/
def cpw (op : Nat) (fs : List (Nat × Nat)) : IWord := word ([(0, op), (8, 4)] ++ fs)

/-- What `CpReady` asks, as a check. -/
def ctlOk (s : State) (l : Loc) (w : IWord) (op : Nat) (c : Ctx) : Bool :=
  decide (s.ctx l.core l.part = some c) && mayIssue c l.stream && itsTurn s l c && decide (Iw.engine w = 4) && decide (Iw.opcode w = op) &&
  issueOk (s.coreP l.core) l.stream w && (!Iw.waitEn w || c.waitOk (Iw.waitCtr w) (Iw.wval w))

theorem cpReady_of {s : State} {l : Loc} {w : IWord} {op : Nat} {c : Ctx} (h : ctlOk s l w op c = true) : CpReady s l w op c := by
  simp only [ctlOk, Bool.and_eq_true, decide_eq_true_eq, Bool.or_eq_true, Bool.not_eq_true'] at h
  obtain ⟨⟨⟨⟨⟨⟨h1, h2⟩, h3⟩, h4⟩, h5⟩, h6⟩, h7⟩ := h
  exact ⟨h1, h2, h3, h4, h5, h6, fun e => h7.resolve_left (by simp [e])⟩

/-- The state that an outcome goes on in. -/
def after : Result → State
  | .next t => t
  | _ => State.reset

/-- Does an outcome go on in a state that passes a check. -/
def nextIs (r : Result) (f : State → Bool) : Bool := match r with | .next t => f t | _ => false

/-- `s0` with a translation table of tenant 1 that maps its first GiB to HBM at 1 GiB. -/
def sT : State :=
  (((s0.setRegN (Reg.TNT_ROOTL 1) 0x200000).writeBytes 0x200000 (leBytes 8 0x201001)).writeBytes 0x201000 (leBytes 8 0x40000003))

/-- `sT` with a word at the context's program counter. -/
def sW (w : IWord) : State := sT.writeBytes 0x40001000 (leBytes 16 w.toNat)

/-- A context with a word at the head of the share of stream 0 on an engine. -/
def cQ (eng : Nat) (w : IWord) : Ctx := c0.setQueue 0 eng [{ word := w, pc := 0x1000#48 }]

/-- `sT` with that context. -/
def sQ (eng : Nat) (w : IWord) : State := sT.setCtx 0 0 (cQ eng w)

/-- What `HeadReady` asks, as a check. -/
def headOk (s : State) (l : Loc) (eng op : Nat) (c : Ctx) (q : QEnt) : Bool :=
  decide (s.ctx l.core l.part = some c) && (eng != 1 || !(s.part l.core l.part).stopped) && decide (c.ready l.stream eng op = some q)

theorem headReady_of {s : State} {l : Loc} {eng op : Nat} {c : Ctx} {q : QEnt} (h : headOk s l eng op c q = true) :
    HeadReady s l eng op c q := by
  simp only [headOk, Bool.and_eq_true, decide_eq_true_eq, Bool.or_eq_true, Bool.not_eq_true', bne_iff_ne, ne_eq] at h
  exact ⟨h.1.1, fun e => h.1.2.resolve_left (fun n => n e), h.2⟩

/-- Did a computation end with a value. -/
def okIs {ε α : Type} [DecidableEq α] (r : Except ε α) (v : α) : Bool := match r with | .ok x => decide (x = v) | .error _ => false

theorem eq_of_okIs {ε α : Type} [DecidableEq α] {r : Except ε α} {v : α} (h : okIs r v = true) : r = .ok v := by
  cases r with
  | error e => simp [okIs] at h
  | ok x => simp only [okIs, decide_eq_true_eq] at h; rw [h]

/-- Did a computation end with some value. -/
def isOk {ε α : Type} (r : Except ε α) : Bool := match r with | .ok _ => true | .error _ => false

theorem ok_of_isOk {ε α : Type} {r : Except ε α} (h : isOk r = true) : ∃ v, r = .ok v := by
  cases r with
  | error e => simp [isOk] at h
  | ok x => exact ⟨x, rfl⟩

/-! ### Step, invariant, control instructions -/

theorem witness_StepRunsTheFrontCommand :
    ({ State.reset with pending := [.helloTick, .auditFlush] } : State).pending = .helloTick :: [.auditFlush] ∧ State.reset.pending = [] := by
  decide +kernel

theorem witness_EveryStepKeepsCanonicalForms :
    State.Inv { State.reset with pending := [.updDiscard] } ∧ ∃ t, step { State.reset with pending := [.updDiscard] } = .next t :=
  ⟨⟨by decide +kernel, by decide +kernel, by decide +kernel, by decide +kernel, by decide +kernel, by decide +kernel⟩, _, rfl⟩

theorem witness_OnlyOverVoltageStops : exec (.inputVoltageStop 6001) s0 = .fault .damaged ∧ 6000 < 6001 := ⟨rfl, by decide⟩

theorem witness_ControlArithmetic : ∀ op ∈ [1, 2, 3, 4, 5, 6, 7, 8, 9, 10, 11, 12],
    ctlOk s0 l0 (cpw op (if op ≤ 2 then [(48, 3), (80, 9)] else [(48, 3), (54, 1), (60, 2)])) op c0 = true := by decide +kernel

/-- A context whose stream 1 is parked behind a pending save. -/
def cSave : Ctx := { c0 with save := some { deadline := 9, addr := 0x400000 } }

theorem witness_ControlTransferAndRegisters :
    ctlOk s0 l0 (cpw 0x20 [(54, 1), (60, 2), (66, 5), (80, 2 ^ 48 - 1)]) 0x20 c0 = true ∧
    ctlOk s0 l0 (cpw 0x21 [(48, 3), (80, 4)]) 0x21 c0 = true ∧ ctlOk s0 l0 (cpw 0x21 [(48, 3), (54, 9), (66, 1)]) 0x21 c0 = true ∧
    ((c0.reg 9).setWidth 48 + disp (cpw 0x21 [(48, 3), (54, 9), (66, 1)])).toNat % 16 = 0 ∧
    ctlOk s0 l0 (cpw 0x40 [(66, 2), (80, 1)]) 0x40 c0 = true ∧ (c0.stream 2).st = 0 ∧
    ctlOk s0 l0 (cpw 0x41 []) 0x41 c0 = true ∧ ctlOk s0 l0 (cpw 0x42 []) 0x42 c0 = true ∧ c0.save = none ∧
    ctlOk (s0.setCtx 0 0 cSave) l0 (cpw 0x42 []) 0x42 cSave = true ∧ cSave.save ≠ none ∧
    streamDrained ((s0.setCtx 0 0 cSave).part 0 0) cSave 0 = true ∧
    ctlOk s0 l0 (cpw 0x44 [(80, 0x8001)]) 0x44 c0 = true ∧ ctlOk s0 l0 (cpw 0x45 []) 0x45 c0 = true ∧
    ctlOk s0 l0 (cpw 0x30 [(48, 3), (80, 0x7E)]) 0x30 c0 = true ∧ ctlOk s0 l0 (cpw 0x31 [(48, 3), (80, 63)]) 0x31 c0 = true ∧
    ctlOk s0 l0 (cpw 0x32 [(54, 1), (80, 63)]) 0x32 c0 = true ∧ ctlOk s0 l0 (cpw 0x33 [(54, 1), (60, 2), (80, 3)]) 0x33 c0 = true := by
  decide +kernel

/-- Three shares of 2, 3 and 91 entries in register 1. -/
def cShare : Ctx := { c0 with g := [(1, BitVec.ofNat 64 (2 + 3 * 256 + 91 * 65536))] }

theorem witness_ControlTransfer_shares : ctlOk (s0.setCtx 0 0 cShare) l0 (cpw 0x43 [(54, 1)]) 0x43 cShare = true ∧
    field (cShare.reg 1).toNat 0 8 = 2 ∧ field (cShare.reg 1).toNat 8 8 = 3 ∧ field (cShare.reg 1).toNat 16 8 = 91 ∧
    2 + 3 + 91 = 96 / (s0.setCtx 0 0 cShare).coreP 0 := by decide +kernel

theorem witness_ControlLoadStore : (c0.reg 1 + Iw.imm (cpw 0x10 [(48, 3), (54, 1), (80, 4083)])).toNat = 4088 ∧ 4088 + 8 ≤ c0.len ∧
    ctlOk s0 l0 (cpw 0x10 [(48, 3), (54, 1), (80, 4083)]) 0x10 c0 = true ∧ s0.poisonedIn (c0.stageAt 0 4088) 8 = false ∧
    (c0.reg 1 + Iw.imm (cpw 0x11 [(54, 1), (60, 2), (80, 4083)])).toNat = 4088 ∧
    ctlOk s0 l0 (cpw 0x11 [(54, 1), (60, 2), (80, 4083)]) 0x11 c0 = true := by decide +kernel

/-- A matrix swap, and a context whose share for it is full. -/
def wSwap : IWord := word [(0, 2), (8, 1)]
def cFull : Ctx := (c0.setStream 0 { c0.stream 0 with share := 1 }).setQueue 0 1 [{ word := wSwap, pc := 0#48 }]

theorem witness_IssueAndRetirement_issue :
    (sW wSwap).ctx 0 0 = some c0 ∧ mayIssue c0 0 = true ∧ itsTurn (sW wSwap) l0 c0 = true ∧
    okIs (fetch (sW wSwap) c0 0 (some .fail)) wSwap = true ∧ Iw.engine wSwap < 4 ∧
    issueOk ((sW wSwap).coreP 0) 0 wSwap = true ∧ fmtsAllowed ((sW wSwap).fmtMask 1) wSwap = true ∧
    (c0.queue 0 (Iw.engine wSwap)).length < (c0.stream 0).share ∧
    ((sW wSwap).setCtx 0 0 cFull).ctx 0 0 = some cFull ∧ mayIssue cFull 0 = true ∧ itsTurn ((sW wSwap).setCtx 0 0 cFull) l0 cFull = true ∧
    okIs (fetch ((sW wSwap).setCtx 0 0 cFull) cFull 0 (some .fail)) wSwap = true ∧
    (cFull.stream 0).share ≤ (cFull.queue 0 (Iw.engine wSwap)).length ∧
    (∀ op ∈ [0x01, 0x02, 0x03, 0x04, 0x05, 0x06, 0x07, 0x08, 0x09, 0x0A, 0x0B, 0x0C, 0x10, 0x11, 0x20, 0x21, 0x30, 0x31, 0x32, 0x33,
        0x40, 0x41, 0x42, 0x43, 0x44, 0x45],
      itsTurn (sW (cpw op [])) l0 c0 = true ∧ okIs (fetch (sW (cpw op [])) c0 0 (some .fail)) (cpw op []) = true ∧
      Iw.engine (cpw op []) = 4 ∧ Iw.opcode (cpw op []) = op ∧ wordIssues (sW (cpw op [])) l0 c0 (cpw op []) = true) := by
  decide +kernel

/-- A finished matrix run; a drain that has delivered everything; a vector instruction in execution; a move that waits for nothing. -/
def rDone : MxRun := { word := wSwap, pc := 0#48, stream := 0, rows := 0, done := true }
def pDone : Part := { (s0.part 0 0) with runs := [rDone] }
def dDone : Drain := { word := word [(0, 4), (8, 1)], pc := 0#48, stream := 0, next := Iw.drCount (word [(0, 4), (8, 1)]), status := 0, erf := [], erfFl := 0, erfOut := 0, anchor := 0, tile := [], tileSt := 0 }
def pDrained : Part := { (s0.part 0 0) with drain := some dDone }
def fDone : VecFly := { word := word [(0, 0x10), (8, 2)], pc := 0#48, stream := 0, done := 0, out := {} }
def cFly : Ctx := { c0 with fly := some fDone }
def mDone : Move := { eng := 0, word := word [(0, 1)], pc := 0#48, stream := 0, segs := [], awaits := [], isAtom := false }

theorem witness_IssueAndRetirement_retire :
    c0.fault = none ∧ c0.qsh = none ∧ (s0.setPart 0 0 pDone).ctx 0 0 = some c0 ∧ ((s0.setPart 0 0 pDone).part 0 0).runs = rDone :: [] ∧
    rDone.done = true ∧
    (s0.setPart 0 0 pDrained).ctx 0 0 = some c0 ∧ ((s0.setPart 0 0 pDrained).part 0 0).runs = [] ∧
    ((s0.setPart 0 0 pDrained).part 0 0).drain = some dDone ∧ dDone.next = Iw.drCount dDone.word ∧ dDone.tile = [] ∧ dDone.erf = [] ∧
    Iw.sigEn dDone.word = false ∧
    (s0.setCtx 0 0 cFly).ctx 0 0 = some cFly ∧ cFly.fault = none ∧ cFly.qsh = none ∧ cFly.fly = some fDone ∧
    (fDone.out.pop = true → fDone.popped = true) ∧ Iw.sumEn fDone.word = false ∧ fDone.out.tsw = 0 ∧ Iw.sigEn fDone.word = false ∧
    (s0.setCtx 0 0 { c0 with moves := [mDone] }).ctx 0 0 = some { c0 with moves := [mDone] } ∧
    ({ c0 with moves := [mDone] } : Ctx).moves[0]? = some mDone ∧ mDone.awaits = [] := by decide +kernel

/-! ### Matrix and vector instructions, moves -/

/-- BF16 words: a load of one row and column, a stream of one row, a drain of one entry to stage memory, a gap. -/
def wLds : IWord := word [(0, 1), (8, 1), (95, 1)]
def wMac : IWord := word [(0, 3), (8, 1), (94, 1), (122, 1)]
def wDrain : IWord := word [(0, 4), (8, 1)]
def wGhost : IWord := word [(0, 5), (8, 1), (48, 9)]
/-- A drain of 64 entries to the queue; one of an exact entry in ERF. -/
def wDrainQ : IWord := word [(0, 4), (8, 1), (59, 63), (70, 1)]
def wErf : IWord := word [(0, 4), (8, 1), (90, 0xC), (95, 1)]

def qe (w : IWord) : QEnt := { word := w, pc := 0x1000#48 }

def pQ (w : IWord) : Part := (sQ 1 w).part 0 0

theorem witness_MatrixStartsAndProgress_starts :
    headOk (sQ 1 wLds) l0 1 1 (cQ 1 wLds) (qe wLds) = true ∧ (pQ wLds).runs.any MxRun.loading = false ∧
    okIs (ldsRoom ((cQ 1 wLds).take 0 1) wLds) () = true ∧
    headOk (sQ 1 wSwap) l0 1 2 (cQ 1 wSwap) (qe wSwap) = true ∧ (∀ r ∈ (pQ wSwap).runs, Iw.opcode r.word ≠ 1 ∧ r.issuing = false) ∧
    headOk (sQ 1 wMac) l0 1 3 (cQ 1 wMac) (qe wMac) = true ∧ (pQ wMac).streaming = false ∧ okIs (macPlan (pQ wMac) wMac) { g := 1, held := none } = true ∧
    (∀ i ∈ rangeWords (Iw.macExact wMac) (Iw.macE0 wMac) (Iw.macM wMac), tileTakes wMac ((pQ wMac).tracked i) = true) ∧
    okIs (macRoom ((cQ 1 wMac).take 0 1) wMac 1) () = true := by decide +kernel

theorem witness_MatrixStartsAndProgress_drains :
    headOk (sQ 1 wDrain) l0 1 4 (cQ 1 wDrain) (qe wDrain) = true ∧ (pQ wDrain).drain = none ∧
    (∀ i ∈ rangeWords (Iw.drExact wDrain) (Iw.drBase wDrain) (Iw.drCount wDrain), drainTakes wDrain ((pQ wDrain).word i) = true) ∧
    Iw.drFmt wDrain ≠ 0xC ∧ ((cQ 1 wDrain).take 0 1).inStage (Iw.drAddr wDrain) (drainLen wDrain ((sQ 1 wDrain).coreW 0)) = true ∧
    headOk (sQ 1 wErf) l0 1 4 (cQ 1 wErf) (qe wErf) = true ∧ Iw.drFmt wErf = 0xC ∧
    drainAnchor ((rangeWords (Iw.drExact wErf) (Iw.drBase wErf) (Iw.drCount wErf)).map (pQ wErf).word) ≠ none ∧
    ((cQ 1 wErf).take 0 1).inStage (Iw.drAddr wErf) (drainLen wErf ((sQ 1 wErf).coreW 0)) = true ∧
    headOk (sQ 1 wDrainQ) l0 1 4 (cQ 1 wDrainQ) (qe wDrainQ) = true ∧ Iw.drQueue wDrainQ = true ∧
    headOk (sQ 1 wGhost) l0 1 5 (cQ 1 wGhost) (qe wGhost) = true := by decide +kernel

/-- A stream with a row to issue; a row in flight; a drain; a tile at the head of the queue. -/
def rMac : MxRun := { word := wMac, pc := 0#48, stream := 0, rows := 1, done := false }
def sIss : State := (sQ 1 wMac).setPart 0 0 { pQ wMac with runs := [rMac] }
def rowOne : Row := { entry := 1, accum := false, mode := 1, sums := [] }
def pRow : Part := { s0.part 0 0 with rows := [rowOne] }
def dRun (w : IWord) : Drain := { dDone with word := w, next := 0 }
def pDr (w : IWord) : Part := { s0.part 0 0 with drain := some (dRun w) }
def dFull : Drain := { dRun wDrainQ with tile := List.replicate 4096 0#32 }
def fPop : VecFly := { fDone with out := { pop := true } }
def pPop : Part := { s0.part 0 0 with ctx := some { c0 with fly := some fPop }, tq := [{ status := 0#32, words := [] }] }
def pGap (g : Ghost) : Part := { s0.part 0 0 with ghost := g }

theorem witness_MatrixStartsAndProgress_rows :
    (sIss.part 0 0).ctx = some (cQ 1 wMac) ∧ (sIss.part 0 0).runs.find? MxRun.issuing = some rMac ∧
    isOk (issueRun sIss 0 (sIss.part 0 0) (cQ 1 wMac) rMac) = true := by decide +kernel

theorem witness_MatrixStartsAndProgress_accumulates : ((State.fillRows 0 0 16 (s0.setPart 0 0 pRow)).part 0 0).rows = rowOne :: [] ∧
    ((State.fillRows 0 0 16 (s0.setPart 0 0 pRow)).part 0 0).rowWaits rowOne = false := by decide +kernel

/-- May the drain of `w` read its next entry. -/
def drainOk (w : IWord) : Bool :=
  decide ((s0.setPart 0 0 (pDr w)).part 0 0 = pDr w) && decide ((pDr w).ctx = some c0) && decide ((dRun w).next < Iw.drCount w) &&
  !(pDr w).owes (slotRange (Iw.drExact w) (Iw.drBase w + (dRun w).next) 1).1 (slotRange (Iw.drExact w) (Iw.drBase w + (dRun w).next) 1).2

theorem witness_MatrixStartsAndProgress_entries : drainOk wDrain = true ∧ drainOk wErf = true ∧ drainOk wDrainQ = true ∧
    Iw.drQueue wDrain = false ∧ Iw.drFmt wDrain ≠ 0xC ∧ Iw.drQueue wErf = false ∧ Iw.drFmt wErf = 0xC ∧
    Iw.drQueue wDrainQ = true ∧ (dRun wDrainQ).tile.length ≠ 64 * s0.coreW 0 ∧ (s0.part 0 0).tq.length < 8 ∧
    pPop.ctx = some { c0 with fly := some fPop } ∧ fPop.out.pop = true ∧ fPop.popped = false ∧ pPop.tq = { status := 0#32, words := [] } :: [] :=
  by decide +kernel

theorem witness_MatrixStartsAndProgress_full : Iw.drQueue dFull.word = true ∧ dFull.tile.length = 64 * s0.coreW 0 := by decide +kernel

theorem witness_MatrixStartsAndProgress_ghost : (pGap { gap := some (0, 5000) }).ghost.gap = some (0, 5000) ∧ s0.reefLevel ≤ 5 ∧
    (pGap { gap := some (0, 5000) }).ghost.pred = none ∧ (pGap { gap := some (0, 5000) }).streaming = false ∧ s0.clk < 0 + 5000 ∧
    ({ gap := some (0, 0), running := true } : Ghost).running = true ∧ 0 + 0 ≤ s0.clk := by decide +kernel

/-- Vector words of 2 elements, with registers 1 and 2 as sources and 3 as destination where the instruction has them. -/
def vw (op : Nat) (fs : List (Nat × Nat)) : IWord := word ([(0, op), (8, 2), (48, 1)] ++ fs)
def fab : List (Nat × Nat) := [(62, 1), (70, 2), (86, 3)]
def cSusp (w : IWord) : Ctx := { c0 with susp := some { word := w, stream := 0, done := 0 } }

/-- Is it the turn of stream 0 of core 0's partition 0 on an idle vector engine. -/
def vecTurnOk (s : State) : Bool := !s.vecBusy 0 && s.vecNext 0 == some 0

theorem vecTurn_of {s : State} (h : vecTurnOk s = true) : VecTurn s l0 := by
  simp only [vecTurnOk, Bool.and_eq_true, Bool.not_eq_true', beq_iff_eq] at h
  exact ⟨h.1, h.2, by decide⟩

/-- Does a vector command compute a result for the head of a share whose turn it is, and for a suspended instruction. -/
def vxOkAt (op : Nat) (sem : VecEnv → Run VecOut) (fs : List (Nat × Nat)) : Bool :=
  let w := vw op fs
  let t := sT.setCtx 0 0 (cSusp w)
  vecTurnOk (sQ 2 w) && headOk (sQ 2 w) l0 2 op (cQ 2 w) (qe w) && issueOk 1 0 w && isOk (sem (vecEnv (sQ 2 w) l0 ((cQ 2 w).take 0 2) w 0)) &&
  vecTurnOk t && decide (t.ctx 0 0 = some (cSusp w)) && decide (Iw.opcode w = op) && isOk (sem (vecEnv t l0 { cSusp w with susp := none } w 0))

theorem witness_VectorStarts_elementwise :
    vxOkAt 0x01 semLdv [(86, 3), (90, 7), (96, 7)] = true ∧ vxOkAt 0x02 semStv [(62, 1), (90, 7), (96, 7)] = true ∧ vxOkAt 0x10 (elem2 fadd) fab = true ∧
    vxOkAt 0x11 (elem2 fsub) fab = true ∧ vxOkAt 0x12 (elem2 fmul) fab = true ∧ vxOkAt 0x13 (elem3 ffma) ((78, 3) :: fab) = true ∧
    vxOkAt 0x14 (elem2 fmax) fab = true ∧ vxOkAt 0x15 (elem2 fmin) fab = true ∧ vxOkAt 0x16 (elem1 absOf) [(62, 1), (86, 3)] = true ∧
    vxOkAt 0x17 (elem1 negOf) [(62, 1), (86, 3)] = true ∧ vxOkAt 0x18 (elem2 fdiv) fab = true ∧ vxOkAt 0x19 (elem1 fsqrt) [(62, 1), (86, 3)] = true ∧
    vxOkAt 0x1A (elem1 frsqrt) [(62, 1), (86, 3)] = true ∧ vxOkAt 0x1B (elem1 fexp) [(62, 1), (86, 3)] = true ∧
    vxOkAt 0x1C (elem1 flog) [(62, 1), (86, 3)] = true ∧ vxOkAt 0x1D semCmp ((118, 5) :: fab) = true ∧ vxOkAt 0x1E (elem3 selOf) ((78, 3) :: fab) = true := by
  decide +kernel

theorem witness_VectorStarts_others :
    vxOkAt 0x20 semCvt [(62, 1), (86, 3), (122, 1)] = true ∧ vxOkAt 0x30 semRsum [(62, 1), (86, 3), (90, 4)] = true ∧
    vxOkAt 0x31 semRmax [(62, 1), (86, 3), (90, 4)] = true ∧ vxOkAt 0x32 semRmin [(62, 1), (86, 3), (90, 5)] = true ∧
    vxOkAt 0x33 semRarg [(62, 1), (86, 3), (90, 5)] = true ∧ vxOkAt 0x34 semRcnt [(62, 1), (86, 3), (90, 5), (96, 4)] = true ∧
    vxOkAt 0x35 semRdot [(62, 1), (70, 2), (86, 3), (90, 5)] = true ∧ vxOkAt 0x36 semEadd fab = true ∧
    vxOkAt 0x40 semAdam [(62, 1), (70, 2), (78, 4), (86, 3)] = true ∧ vxOkAt 0x50 semTopk [(62, 1), (86, 3), (90, 5), (96, 4)] = true ∧
    vxOkAt 0x51 semTopp [(62, 1), (86, 3), (90, 5), (96, 6)] = true ∧ vxOkAt 0x52 semGmax [(62, 1), (86, 3), (90, 5), (96, 6)] = true ∧
    vxOkAt 0x60 semRnd [(86, 3), (118, 1)] = true := by decide +kernel

theorem witness_VectorAddOverRegisters : vxOkAt 0x10 (elem2 fadd) fab = true ∧ (cQ 2 (vw 0x10 fab)).susp = none ∧
    (cQ 2 (vw 0x10 fab)).fault = none ∧ (cQ 2 (vw 0x10 fab)).qsh = none ∧
    srcOf (Iw.a (vw 0x10 fab)) = .reg 1 ∧ srcOf (Iw.bb (vw 0x10 fab)) = .reg 2 ∧ ((cQ 2 (vw 0x10 fab)).vreg 1).tag = 32 ∧
    ((cQ 2 (vw 0x10 fab)).vreg 2).tag = 32 ∧ Iw.sigEn (vw 0x10 fab) = false ∧ Iw.sumEn (vw 0x10 fab) = false := by decide +kernel

theorem witness_PredicatesFollowIeee : isNan32 0x7F800001#32 = true ∧ isNonfin32 0x7F7FFFFF#32 = false ∧ isNonfin32 0x80000000#32 = false := by
  decide +kernel

/-- 1 and minus 1 over one unit. -/
def psZero : List Sys2Proof.Num := [.fin false 1 0, .fin true 1 0]

theorem witness_ZeroSliceSumSign : Iw.macExact wMac = false ∧ fmtIntKind (Iw.macFmt wMac) = false ∧
    (∀ ps ∈ [psZero, [.fin true 0 0]], ps ≠ [] ∧
      (ps.map fun x => match x with | .fin n m e => (if n then -1 else 1) * (m * 2 ^ (e - 0).toNat : Int) | _ => 0).sum = 0) ∧
    (sliceSum wMac psZero).v = 0 ∧ (sliceSum wMac [.fin true 0 0]).v = 0x80000000 ∧ 63 < 64 := by decide +kernel

theorem witness_ZeroSliceSumSign_forms : (∀ x ∈ psZero, ∃ n m e, x = Sys2Proof.Num.fin n m e ∧ (0 : Int) ≤ e) ∧
    (∃ x ∈ psZero, ∀ e, x ≠ Sys2Proof.Num.fin true 0 e) ∧
    (∀ x ∈ [Sys2Proof.Num.fin true 0 0], ∃ e, x = Sys2Proof.Num.fin true 0 e) := by
  refine ⟨?_, ⟨_, List.mem_cons_self, fun e h => by cases h⟩, ?_⟩
  · intro x h
    simp only [psZero, List.mem_cons, List.not_mem_nil, or_false] at h
    rcases h with rfl | rfl
    · exact ⟨false, 1, 0, rfl, by decide⟩
    · exact ⟨true, 1, 0, rfl, by decide⟩
  · simp

/-- A move of 16 bytes at the virtual address in register 7, with its descriptor at 0x100; the same toward module 1. -/
def wMove (eng : Nat) : IWord := word [(0, 1), (8, eng), (48, 7), (73, 0x10)]
def descBytes : List Byte := leBytes 4 16 ++ leBytes 4 1 ++ leBytes 4 1 ++ leBytes 4 1 ++ zeros 48
def sM (eng : Nat) : State := (sQ eng (wMove eng)).writeBytes (State.stageOf 0 + 0x100) descBytes

/-- What `MoveReady` asks. -/
def moveOkAt (eng : Nat) : Bool :=
  headOk (sM eng) l0 eng 1 (cQ eng (wMove eng)) (qe (wMove eng)) && (sM eng).moveRoom 0 ((cQ eng (wMove eng)).take 0 eng) eng &&
  okIs ((sM eng).stageRead 0 ((cQ eng (wMove eng)).take 0 eng) (Iw.mvDesc (wMove eng)) 64) descBytes && moveDescOk descBytes &&
  ((cQ eng (wMove eng)).take 0 eng).inStage (Iw.mvAddr (wMove eng)) (MoveDesc.parse descBytes).span

theorem witness_MovesAndAtomicsStart_moves : moveOkAt 0 = true ∧ moveOkAt 3 = true ∧
    moveOf (sM 0) 0 (cQ 0 (wMove 0)) (qe (wMove 0)) descBytes = [(0, .inl { stage := 0, kind := 0, addr := 0x40000000, len := 16 })] ∧
    moveOf (sM 3) 3 (cQ 3 (wMove 3)) (qe (wMove 3)) descBytes = [(0, .inl { stage := 0, kind := 0, addr := 0x40000000, len := 16 })] ∧
    (sM 3).repairHolds 0x40000000 16 = false ∧ (sM 3).poisonedIn (c0.stageAt 0 0) 16 = false := by decide +kernel

theorem witness_LocalLoadCopies : moveOkAt 0 = true ∧
    moveOf (sM 0) 0 (cQ 0 (wMove 0)) (qe (wMove 0)) descBytes = [(0, .inl { stage := 0, kind := 0, addr := 0x40000000, len := 16 })] ∧
    (cQ 0 (wMove 0)).qsh = none ∧ (cQ 0 (wMove 0)).fault = none := by decide +kernel

/-- An atomic add of 8 bytes, on a local address and on one of module 1. -/
def wAt (g : Nat) : IWord := word [(0, 2), (8, 3), (48, g), (54, 1), (66, 4), (89, 1)]
def sR : State := ((sQ 3 (wAt 8)).writeBytes 0x201008 (leBytes 8 (2 ^ 44 + 0x40000003))).setPeerState 1 1

theorem witness_MovesAndAtomicsStart_atomics :
    headOk (sQ 3 (wAt 7)) l0 3 2 (cQ 3 (wAt 7)) (qe (wAt 7)) = true ∧ (sQ 3 (wAt 7)).moveRoom 0 ((cQ 3 (wAt 7)).take 0 3) 3 = true ∧
    Iw.atWide (wAt 7) = true ∧ ((cQ 3 (wAt 7)).reg 7).toNat % 2 ^ 48 % 8 = 0 ∧ ((cQ 3 (wAt 7)).take 0 3).inStage (Iw.atAddr (wAt 7)) 8 = true ∧
    (sQ 3 (wAt 7)).translate 1 0 true = some (.here 0x40000000) ∧ (sQ 3 (wAt 7)).repairHolds 0x40000000 8 = false ∧
    (sQ 3 (wAt 7)).poisonedIn 0x40000000 8 = false ∧
    headOk sR l0 3 2 (cQ 3 (wAt 8)) (qe (wAt 8)) = true ∧ sR.moveRoom 0 ((cQ 3 (wAt 8)).take 0 3) 3 = true ∧
    sR.translate 1 0x40000000 true = some (.remote (2 ^ 44 + 0x40000000)) ∧ sR.peerFails 1 = false ∧ sR.fab.atoms = [] := by decide +kernel

/-! ### Contexts, near-memory items, translation and granules -/

/-- A stopped context, a finished one, one that can be saved. -/
def rec0 : FaultRec := { status := 0x0F, cause := 2, eng := 4, stream := 0, part := 0, shape := 0, word := 0#32, pc := 0#48, vaddr := 0#48, time := 0 }
def cStop : Ctx := { c0 with fault := some rec0 }
def cEnd : Ctx := c0.setStream 0 { c0.stream 0 with st := 4 }
def cPark : Ctx := { c0.setStream 0 { c0.stream 0 with st := 3 } with save := some { deadline := 9, addr := 0x400000 } }

theorem witness_ContextStops : (s0.part 0 0).ctx = some c0 ∧ c0.fault = none ∧ (1 ≤ 5 ∧ 5 ≤ 6) ∧ 5 ≤ 5 ∧
    (s0.setCtx 0 0 cStop).ctx 0 0 = some cStop ∧ cStop.fault = some rec0 := by decide +kernel

/-- `s0` with compute half-die 0 on. -/
def sOn : State := s0.setRegN Reg.PWR_DOMST 1
def sEntry : State := sOn.setCore 1 { sOn.core 1 with reshape := some 2 }

theorem witness_DispatchSaveAndRestore_dispatch :
    (sOn.core 1).waiting = [] ∧ (sOn.core 1).testing = none ∧ sOn.canPlace 1 0 = true ∧ sOn.stageFree 1 (State.stageLen - 64) 64 = true ∧
    (0x1000#48).toNat % 16 = 0 ∧ (sOn.core 1).reshape = none ∧ (∀ x ∈ (sOn.core 1).parts, x.2.empty = true) ∧
    (sOn.core 0).waiting = [] ∧ (sOn.core 0).testing = none ∧ sOn.ctx 0 0 = some c0 ∧ c0.save = none ∧ c0.fault = none := by decide +kernel

theorem witness_DispatchSaveAndRestore_more :
    (s0.setCtx 0 0 cStop).ctx 0 0 = some cStop ∧ cStop.fault ≠ none ∧ ({ cEnd with told := true } : Ctx).fault = none ∧
    ({ cEnd with told := true } : Ctx).told = true ∧
    (sEntry.core 1).reshape = some 2 ∧ (sEntry.core 1).waiting = [] ∧ (sEntry.core 1).testing = none ∧
    ((sOn.setPart 1 0 zeroedPart).part 1 0).zeroing = true ∧ ((sOn.setPart 1 0 zeroedPart).core 1).reshape = none ∧
    sOn.dispatch 0 (.start 0 1 8 none 0x1000#48 0x2000 64) = none ∧
    (∀ h, sOn.entryHome 0 (.start 0 1 8 none 0x1000#48 0x2000 64) = some h → h = homeOf none 1) ∧ homeOf none 1 < 4 :=
  ⟨by decide +kernel, by decide +kernel, by decide +kernel, by decide +kernel, by decide +kernel, by decide +kernel, by decide +kernel,
   by decide +kernel, by decide +kernel, by decide +kernel, by rintro h ⟨rfl⟩; rfl, by decide⟩

/-- A saved context of width 16 without content, at 0x600000, for a core of that width. -/
def imageOffs : List Nat := [128, 768, 896, 960, 1216, 1344, 9600, 140672, 140736, 141760, 141824]
def sI : State :=
  let s1 := (sOn.writeBytes 0x600000 (leBytes 4 0x58435643 ++ leBytes 2 3 ++ leBytes 1 16 ++ zeros 1 ++ leBytes 1 1 ++ zeros 7 ++ leBytes 8 141888 ++
    imageOffs.flatMap (leBytes 8) ++ zeros 16)).writeBytes (0x600000 + 128 + 539) [8#8, 8#8, 8#8]
  ((List.range 16).foldl (fun s k => s.writeBytes (0x600000 + 140736 + 64 * k + 4) (leBytes 4 32)) s1).setCore 1 { s1.core 1 with shape := 2 }

theorem readImage_of {s : State} {a t : Nat} {f : Image → Bool}
    (h : (let i : Image := { mem := s.mem, addr := a, len := s.readLe (a + 0x10) 8, ver := s.readLe (a + 4) 2, wd := s.readLe (a + 6) 1
                             offs := (List.range 11).map fun k => s.readLe (a + (0x18 + 8 * k)) 8 }
      imageHeaderOk i t && imageValuesOk i && f i) = true) : ∃ i, readImage s a t = some i ∧ f i = true := by
  simp only [Bool.and_eq_true] at h
  refine ⟨_, ?_, h.2⟩
  unfold readImage
  simp [h.1.1, h.1.2]

theorem witness_DispatchSaveAndRestore_save :
    (s0.setCtx 0 0 cEnd).ctx 0 0 = some cEnd ∧ (∀ i, i < 3 → (cEnd.stream i).st = 0 ∨ (cEnd.stream i).st = 4) ∧
    ((s0.setCtx 0 0 cEnd).part 0 0).retired cEnd = true ∧ cEnd.told = false ∧ cEnd.fault = none ∧
    (s0.setCtx 0 0 cPark).ctx 0 0 = some cPark ∧ cPark.save = some { deadline := 9, addr := 0x400000 } ∧
    ((s0.setCtx 0 0 cPark).part 0 0).quiescent cPark = true ∧ cPark.fly = none ∧ cPark.fault = none ∧
    (s0.setCtx 0 0 cSave).ctx 0 0 = some cSave ∧ cSave.save = some { deadline := 9, addr := 0x400000 } ∧
    ((s0.setCtx 0 0 cSave).part 0 0).quiescent cSave = false ∧ cSave.fault = none ∧ s0.clk < 9 ∧ 9 ≤ ({ s0 with clk := 9 } : State).clk := by decide +kernel

theorem witness_DispatchSaveAndRestore_restore : (sI.core 0).waiting = [] ∧ (sI.core 0).testing = none ∧ (sI.core 1).waiting = [] ∧
    (sI.core 1).testing = none ∧ readImage s0 0x600000 1 = none ∧
    ∃ i, readImage sI 0x600000 1 = some i ∧ (decide (i.wd = sI.coreW 1) && sI.stageFree 1 0 (i.at 10 0 8) && (sI.freePart 1).isSome &&
      decide (i.rd 7 1 = 0)) = true :=
  ⟨by decide +kernel, by decide +kernel, by decide +kernel, by decide +kernel, by unfold readImage; decide +kernel, readImage_of (by decide +kernel)⟩

/-- A finished item of unit 15. -/
def nmv0 : NmvItem := { item := State.sramBase, yaddr := State.sramBase + 64, y := [1#8], status := 0, sflags := 0, signal := none, tenant := 1, slot := none }

theorem witness_NmvItems : State.sramBase + 15 / 4 * 0x10000000 ≤ State.sramBase + 0x30000000 ∧
    State.sramBase + 0x3FFFFFC0 + 64 ≤ State.sramBase + 15 / 4 * 0x10000000 + 0x10000000 ∧
    Tab.get [] (Tab.set [] s0.nmv 15 [nmv0]) 15 = nmv0 :: [] ∧ nmvMayWrite s0 nmv0 = true ∧ nmv0.status ≠ 0x0F ∧ nmv0.status ≠ 0x09 := by decide +kernel

/-- `sT` where granule 512 belongs to tenant 1, where it belongs to tenant 2, and with a change of its leaf noted. -/
def sG (t : Nat) : State := sT.setGran 512 (State.mkGran t 1 false false false false 0)
def sC : State := { sG 1 with loft := { (sG 1).loft with changes := [(1, 0x80000000, 0x40000003, 21)] } }
def sUse : State := { sC with nmv := [(0, [{ nmv0 with item := 0x40000000 }])] }

/-- `sG` with a table of 2 MiB pages for the GiB at 2 GiB. -/
def sPage (t : Nat) : State := (sG t).writeBytes 0x201010 (leBytes 8 0x202001)

theorem witness_TranslationChanges_change : 0x80000000 % 2 ^ 21 = 0 ∧ 0x80000000 < 2 ^ 48 ∧ tbit 0x40000003 0 = true ∧ tbit 0x40000003 1 = true ∧
    State.teOk 0x40000003 21 = true ∧ ((sPage 1).putLeaf 1 0x80000000 21 0).isSome = true ∧
    (((sPage 1).claimFrame 1 0x40000003 21).bind fun u => u.putLeaf 1 0x80000000 21 0x40000003).isSome = true ∧
    (sPage 2).claimFrame 1 0x40000003 21 = none ∧ tbit 0 0 = false ∧
    (sT.putLeaf 1 0x40000000 30 0).isSome = true ∧ (sT.putLeaf 1 0x1000 12 0).isSome = false := by decide +kernel

theorem witness_TranslationChanges_quiesce :
    (sC.loft.changes.find? fun c => c.1 == 1 && c.2.1 == 0x80000000) = some (1, 0x80000000, 0x40000003, 21) ∧
    sC.inUse 1 (State.teFrame 0x40000003) (2 ^ 21) = false ∧ sUse.inUse 1 (State.teFrame 0x40000003) (2 ^ 21) = true ∧
    sC.leafRange 0x40000003 21 = some (0x40000000, 2 ^ 21) ∧ State.granuleOf 0x40000000 = some 512 ∧ State.gState (sC.gran 512) = 1 ∧
    State.gOwner (sC.gran 512) = 1 ∧ State.gKv (sC.gran 512) = false ∧
    ({ sC with regs := State.reset.regs } : State).leavesOf 1 512 = [] := by decide +kernel

/-- Granule 7 freed; granule 9 allocated, or free, with an unrepaired error; no granule free. -/
def sZ : State := { s0 with loft := { s0.loft with dirty := [(7, 0)] } }
def sP (w : Word64) : State := { State.reset.setGran 9 w with loft := { State.reset.loft with unfixed := [9] } }
def w9 : Word64 := State.mkGran 1 1 false false false false 0
def sHeld : State := { sP w9 with loft := { State.reset.loft with unfixed := [9], changes := [(1, 0, 3, 60)] } }

theorem witness_GranuleZeroingAndRetirement :
    (sZ.loft.dirty.find? fun d => d.1 == 7) = some (7, 0) ∧ (sZ.loft.dirty.find? fun d => d.1 == 8) = none ∧
    State.gState ((sP 0#64).gran 9) ≠ 3 ∧ State.gState ((sP 0#64).gran 9) = 0 ∧ (sP 0#64).retireDue 9 = true ∧
    State.gState ((sP w9).gran 9) ≠ 3 ∧ State.gState ((sP w9).gran 9) = 1 ∧ (sP w9).retireDue 9 = true ∧ (sP w9).servedIndex 9 = none ∧
    (sP w9).leavesOf (State.gOwner ((sP w9).gran 9)) 9 = [] ∧ ((sP w9).allocGran ((sP w9).gran 9) (fun i => i != 9)).isSome = true ∧
    ((sP w9).replaceGran 9).isSome = true := by
  decide +kernel

theorem witness_GranuleZeroingAndRetirement_inv : (sP w9).Inv ∧ (sP 0#64).Inv ∧ sHeld.Inv :=
  ⟨⟨by decide +kernel, by decide +kernel, by decide +kernel, by decide +kernel, by decide +kernel, by decide +kernel⟩,
   ⟨by decide +kernel, by decide +kernel, by decide +kernel, by decide +kernel, by decide +kernel, by decide +kernel⟩,
   ⟨by decide +kernel, by decide +kernel, by decide +kernel, by decide +kernel, by decide +kernel, by decide +kernel⟩⟩

theorem sHeld_notFree (i : Nat) (h : i < 393216) : sHeld.granFree i = false := by
  have : sHeld.heldBack i = true := by
    show ([(1, 0, 3, 60)] : List (Nat × Nat × Nat × Nat)).any _ = true
    have e : sHeld.leafRange 3 60 = some (0, 2 ^ 60) := by decide +kernel
    simp only [List.any_cons, List.any_nil, Bool.or_false, e, State.overlaps, decide_eq_true_eq]
    unfold State.granuleAddr; rw [if_pos h]; omega
  simp [State.granFree, this]

theorem sHeld_findGran (p : Nat → Bool) : ∀ fuel i, i + fuel ≤ 393216 → sHeld.findGran p fuel i = none := by
  intro fuel
  induction fuel with
  | zero => intro i _; rfl
  | succ n ih => intro i h; simp [State.findGran, sHeld_notFree i (by omega), ih (i + 1) (by omega)]

theorem witness_GranuleRetirement_noReplacement : State.gState (sHeld.gran 9) ≠ 0 ∧ sHeld.retireDue 9 = true ∧
    sHeld.allocGran (sHeld.gran 9) (fun i => i != 9) = none :=
  ⟨by decide +kernel, by decide +kernel, by simp [State.allocGran, sHeld_findGran _ 393215 1 (by omega)]⟩

/-- `sG` where the granule has a mirror and the pair is PAIRED. -/
def sMir : State := (sT.setGran 512 (State.mkGran 1 1 false false true false 9)).setField Reg.PAI_STATUS 28 4 1

theorem witness_ErrorsAndPatrol : State.isHbm 0 = true ∧ State.isHbm 0x40000000 = true ∧ State.isSram State.sramBase = true ∧
    State.isHbm State.sramBase = false ∧ State.isStage (State.stageOf 0) = true ∧ State.isHbm (State.stageOf 0) = false ∧
    State.gMir (sMir.granAt 0x40000000) = true ∧ sMir.canRepair = true ∧
    State.gMir ((sG 1).granAt 0x40000000) = false ∧ State.gState ((sG 1).granAt 0x40000000) ≠ 2 ∧ State.gState ((sG 1).granAt (State.stageOf 0)) ≠ 2 ∧
    (sG 1).scrubSet.elem 512 = true ∧ 512 < 393216 ∧ 2 ^ 21 - 1 < 2 ^ 21 ∧ State.gState ((sG 1).gran 512) = 1 ∧ State.gMir ((sG 1).gran 512) = false :=
  by decide +kernel

/-! ### The loft, KV blocks and variants -/

/-- The header and table of a loft image of one model of `len` bytes, for the type code `type`. -/
def loftHead (type len : Nat) (digest : List Byte) : List Byte :=
  leBytes 4 0x54464C43 ++ leBytes 2 1 ++ leBytes 2 1 ++ leBytes 4 type ++ zeros 20 ++ leBytes 8 (8448 + roundUp len 4096 + 2420) ++
  leBytes 8 (8448 + roundUp len 4096) ++ zeros 16 ++ zeros 192 ++
  (leBytes 4 9 ++ [1#8, 1#8] ++ zeros 2 ++ leBytes 8 (2 ^ 21) ++ leBytes 8 len ++ (2#8 :: zeros 31) ++ digest ++ zeros 40)

theorem sliceBytes_pad (bs : List Byte) (k o n : Nat) : sliceBytes (bs ++ List.replicate k 0#8) o n = sliceBytes bs o n := by
  unfold sliceBytes
  apply List.ext_getElem?
  intro i
  simp only [List.getElem?_append, List.getElem?_take, List.getElem?_drop, List.getElem?_replicate, List.length_take, List.length_drop, List.length_append, List.length_replicate]
  grind

/-- Zeros behind a head change nothing. -/
theorem head_pad (bs : List Byte) (k : Nat) : loftFormatOk (bs ++ List.replicate k 0#8) = loftFormatOk bs ∧
    ∀ s : State, s.loftBound (bs ++ List.replicate k 0#8) = s.loftBound bs := by
  refine ⟨?_, fun s => ?_⟩
  · simp only [loftFormatOk, loftEntries, fieldAt, sliceBytes_pad]; rfl
  · simp only [State.loftBound, fieldAt, sliceBytes_pad]

/-- A model with one byte of data. -/
def lm (digest : List Byte) : LoftModel := { id := 9, kind := 1, fmt := 1, loff := 2 ^ 21, len := 1, mask := 2#8 :: zeros 31, digest := digest, name := zeros 16 }
def dg : List Byte := sha3 [0x5A#8]
def sL (x : LoftSt) (st : Nat) : State := { s0.setField Reg.LFT_STATUS 0 4 st with loft := x }

/-- Host region `r` of tenant `t` with `len` bytes on port 1, in a state whose host port 1 is up. -/
def withRegion (s : State) (t r len : Nat) : State :=
  let s1 := (((s.setRegN (Reg.TNT_HRLENL t r) len).setField (Reg.TNT_HRCFG t r) 31 1 1).setField (Reg.TNT_HRCFG t r) 24 2 1).setField (Reg.HST_PST 1) 31 1 1
  s1.setHost { s1.host with links := [1] }

/-- The installation that reads its head, its signature, its data, that reads back; the first and the last page of a model. -/
def inst0 (head : List Byte) (back : Bool) : LoftInst := { region := 2, head := head, back := back }
def sInst (x : LoftInst) (st : Nat) : State :=
  let s1 := withRegion (sL { models := [lm dg], inst := some x } st) 0 2 (2 ^ 20)
  s1.setHost { s1.host with posts := [(5, .loft)] }
def pk : HostPkt := { port := 1, qpn := 77, macsec := false, ce := false }

theorem witness_LoftInstallationAndScrub : s0.loft.inst = none ∧ s0.loftMapped = false ∧ s0.logRefuses = false ∧
    ((withRegion s0 0 0 8448).hostRange 0 ((withRegion s0 0 0 8448).regField Reg.LFT_SRCREG 0 6) 0 8448).isSome = true ∧
    (withRegion s0 0 0 8448).portUp 1 = true ∧ (withRegion s0 0 0 8448).loft.inst = none ∧ (withRegion s0 0 0 8448).loftMapped = false ∧
    s0.hostRange 0 (s0.regField Reg.LFT_SRCREG 0 6) 0 8448 = none ∧
    (sInst (inst0 [] false) 0).loft.inst = some (inst0 [] false) ∧ (inst0 [] false).back = false ∧
    (sInst (inst0 [] true) 1).loft.inst = some (inst0 [] true) ∧ (inst0 [] true).back = true ∧
    (sL { models := [lm []] } 3).regField Reg.LFT_STATUS 0 4 = 3 ∧ (sL { models := [lm []] } 5).regField Reg.LFT_STATUS 0 4 = 5 ∧
    ((sL { models := [lm []] } 3).loft.models.findIdx? fun m => decide (m.loff ≤ (2 ^ 21 + 4095) / 4096 * 4096 ∧ (2 ^ 21 + 4095) / 4096 * 4096 < m.loff + m.len)) = some 0 := by
  decide +kernel

/-- A state with one loft-signing key, that the header names; the signature check itself is an open function. -/
def lkey : List Byte := 1#8 :: zeros 1311
def sKey : State := { s0 with boot := { s0.boot with conf := [(6, Memory.writeN [] 0 (leBytes 4 1 ++ zeros 4 ++ lkey))] } }

theorem witness_LoftInstallationAndScrub_signed (sig head : List Byte) (hk : sliceBytes head 0x30 16 = keyId lkey)
    (h : Config.mldsaVerify lkey (sha3 (head.take 8448)) sig = true) : sKey.loftSigned head sig = true := by
  have e : sKey.loftKeys = [lkey] := by decide +kernel
  have z : allZero lkey = false := by decide +kernel
  simp [State.loftSigned, e, hk, z, h]

theorem pktTaken_of {s : State} {k : HostPkt} (h : (decide (k.port < 4) && s.host.links.elem k.port && s.portUp k.port &&
    (!s.regBit (Reg.HST_PST k.port) 30 || k.macsec) && !k.ce) = true) : PktTaken s k := by
  simp only [Bool.and_eq_true, decide_eq_true_eq, Bool.or_eq_true, Bool.not_eq_true'] at h
  exact ⟨h.1.1.1.1, h.1.1.1.2, h.1.1.2, fun e => h.1.2.resolve_left (by simp [e]), h.2⟩

theorem witness_LoftInstallAndVerify_packet : PktTaken (sInst (inst0 [] false) 0) pk ∧ PktTaken (sInst (inst0 (zeros 8448) false) 1) pk :=
  ⟨pktTaken_of (by decide +kernel), pktTaken_of (by decide +kernel)⟩

theorem witness_LoftInstallAndVerify_head : loftFormatOk (sliceBytes (loftHead 0 1 (zeros 32)) 0 8448) = true ∧
    (sInst (inst0 [] false) 0).loftBound (sliceBytes (loftHead 0 1 (zeros 32)) 0 8448) = false := by
  have h : (loftHead 0 1 (zeros 32)).length = 384 := by decide +kernel
  have e : sliceBytes (loftHead 0 1 (zeros 32)) 0 8448 = loftHead 0 1 (zeros 32) ++ List.replicate 8064 0#8 := by
    unfold sliceBytes; rw [List.drop_zero, List.take_of_length_le (by rw [h]; decide), h]
  rw [e, (head_pad _ _).1, (head_pad _ _).2]
  exact ⟨by decide +kernel, by decide +kernel⟩

theorem witness_LoftInstallAndVerify : Tab.find? (sInst (inst0 [] false) 0).host.posts 5 = some .loft ∧
    (sInst (inst0 [] false) 0).loft.inst = some (inst0 [] false) ∧ (inst0 [] false).stop = false ∧ (inst0 [] false).head = [] ∧
    loftFormatOk (sliceBytes [] 0 8448) = false ∧ loftFormatOk (loftHead (s0.regN Reg.MGT_TYPE) 1 (zeros 32)) = true ∧ s0.loftBound (loftHead (s0.regN Reg.MGT_TYPE) 1 (zeros 32)) = true ∧
    (inst0 (zeros 8448) false).head ≠ [] ∧ (sInst (inst0 (zeros 8448) false) 0).regField Reg.LFT_STATUS 0 4 ≠ 1 ∧
    (sInst (inst0 (zeros 8448) false) 0).loftSigned (inst0 (zeros 8448) false).head [] = false ∧
    (sInst (inst0 (zeros 8448) false) 1).regField Reg.LFT_STATUS 0 4 = 1 ∧
    (sInst (inst0 (zeros 8448) false) 1).loft.models[(inst0 (zeros 8448) false).model]? = some (lm dg) ∧
    (zeros 4096).length = State.loftPiece (lm dg) (inst0 (zeros 8448) false).off ∧ (inst0 [] true).back = true := by
  decide +kernel

theorem witness_LoftInstallAndVerify_powerUp : let s := sL { dir := loftHead 0 1 (zeros 32), complete := true } 0
    (s.setField Reg.PWR_DOMST 20 1 1).regBit Reg.PWR_DOMST 20 = true ∧ s.loft.verified = false ∧ s.loft.dir ≠ [] ∧ s.loft.complete = true := by
  decide +kernel

/-- A request of tenant 1 and model 9 in a state, with a KV block. -/
def samp0 : Sampling := { beta := 0#32, topk := 0, topp := 0#32, draft := 0, depth := 0, gflags := 0, stops := [] }
def r0 (st : Nat) : Req := { tenant := 1, q0 := 0, seq0 := 1, model := 9, adapter := 0, aver := 0, epoch := 1, seed := 0, samp := samp0, st := st, context := [], seg := none, alpha := 0#32, nextD := 0 }
def kb (st : Nat) : KvBlock := { slot := 3, pos := 0, group := 0, valid := 1, fmt := 1, epoch := 1, state := st, tier := if st = 3 then 1 else 0, vaddr := 2 ^ 46, copy := if st = 3 then 2 ^ 44 + 4096 else 0, crc := 0, ttl := 0, length := 4096, frames := if st = 3 then [] else [0x50000000], entry := 0x300000 }
def sV (r : Req) (b : KvBlock) : State := { sT with loft := { sT.loft with tabs := some (2, 0) }, serve := { sT.serve with reqs := [(3, r)], kv := [b] } }
/-- `sV` with a pool granule at the understudy, module 1, and with host region 2 for spilled blocks. -/
def paired (s : State) : State := ((s.setPeerState 1 1).setField Reg.PAI_STATUS 0 13 1).setField Reg.PAI_STATUS 28 4 1
def sVpool : State :=
  let s1 := paired ((sV (r0 4) (kb 1)).setRegN (Reg.SRV_POOL 1) 1)
  s1.setServe { s1.serve with pool := [(512, (1, 0))] }
def sVhost : State := withRegion (((sV (r0 4) (kb 1)).setField (Reg.SRV_TTL 1) 12 2 1).setField (Reg.SRV_TTL 1) 16 6 2) 1 2 65536
def sVback : State := paired ((sV (r0 4) (kb 3)).setGran 600 (State.mkGran 1 1 false false false true 0))
def kbHost : KvBlock := { kb 3 with tier := 2, copy := 2 * 2 ^ 58 }
def sVbackHost : State := withRegion ((sV (r0 4) kbHost).setGran 600 (State.mkGran 1 1 false false false true 0)) 1 2 65536
/-- A request on HOLD until the module clock 0, and one with a time to live. -/
def sVhold : State := sV { r0 4 with holdAt := some 0 } (kb 0)
def sVttl : State := sV { r0 4 with ttlAt := some 0 } (kb 0)

theorem witness_KvAndVariants_spill : sVpool.req? 3 = some (r0 4) ∧ sVpool.kvBlock 3 0 0 = some (kb 1) ∧ (kb 1).state = 1 ∧ State.Req.paused (r0 4) = true ∧
    (kb 1).psns = [] ∧ (sVpool.host.posts.any fun p => p.2 == .kv 3 0 0) = false ∧
    (∀ a ∈ (kb 1).frames, sVpool.poisonedIn a 4096 = false) ∧ sVpool.regField (Reg.SRV_TTL (1 % 256)) 12 2 ≠ 1 ∧
    sVpool.peerFails sVpool.partner = false ∧ sVpool.mirrored = true ∧ (2 ^ 44 + 2 ^ 30) / 2 ^ 44 = sVpool.partner ∧
    (2 ^ 44 + 2 ^ 30) % 2 ^ 44 + (kb 1).length ≤ State.hbmEnd ∧
    (∀ k ∈ sVpool.serve.kv, k.entry = (kb 1).entry ∨ k.tier = 2 ∨ k.copy = 0 ∨ State.overlaps k.copy k.length (2 ^ 44 + 2 ^ 30) (kb 1).length = false) ∧
    sVhost.req? 3 = some (r0 4) ∧ sVhost.kvBlock 3 0 0 = some (kb 1) ∧
    sVhost.regField (Reg.SRV_TTL 1) 12 2 = 1 ∧ (sVhost.hostRange 1 (sVhost.regField (Reg.SRV_TTL 1) 16 6) 0 4096).isSome = true ∧
    ({ sVpool with poison := [0x50000000 / 64] } : State).poisonedIn 0x50000000 4096 = true := by decide +kernel

theorem witness_KvAndVariants_pool : ((sVpool.poolTake 1 (2 ^ 44 + 2 ^ 30) (kb 1).length).any fun u =>
    (u.putBlock { kb 1 with copy := 2 ^ 44 + 2 ^ 30, crc := 0 }).poolReady { kb 1 with copy := 2 ^ 44 + 2 ^ 30, crc := 0 }) = true := by decide +kernel

/-- What the two fetches ask. -/
def fetchOk (s : State) (b : KvBlock) : Bool :=
  decide (s.req? 3 = some (r0 4)) && decide (s.kvBlock 3 0 0 = some b) && decide (b.state = 3) && decide (b.frames = []) &&
  (s.kvFrames 1 (b.length / 4096)).any fun x => decide (x.2.kvBlock 3 0 0 = some b) &&
    let v := x.2.putBlock { b with frames := x.1, asked := 0 }
    if b.tier = 2 then (v.hostRange 1 (b.copy / 2 ^ 58) (b.copy % 2 ^ 58) b.length).isSome
    else !(b.tier == 1 && b.copy / 2 ^ 44 == s.self) && decide (v.self = s.self) && !v.peerFails (b.copy / 2 ^ 44)

theorem witness_KvAndVariants_fetch : fetchOk sVback (kb 3) = true ∧ fetchOk sVbackHost kbHost = true ∧
    (sV (r0 4) (kb 3)).req? 3 = some (r0 4) ∧ (sV (r0 4) (kb 3)).kvBlock 3 0 0 = some (kb 3) ∧ (sV (r0 4) (kb 3)).kvFrames 1 1 = none := by
  decide +kernel

theorem witness_KvAndVariants_timers : sVhold.req? 3 = some { r0 4 with holdAt := some 0 } ∧ sVhold.holdOver { r0 4 with holdAt := some 0 } = true ∧
    (∃ k ∈ sVhold.serve.kv, k.slot = 3 ∧ k.state = 0) ∧ sVttl.req? 3 = some { r0 4 with ttlAt := some 0 } ∧ 0 ≤ sVttl.now ∧
    sVttl.host.queues = [] := by
  decide +kernel

/-- Model 9 of tenant 1, of kind 3, whose loft model is the first of the table, with a request that waits for it. -/
def md : Model := { tenant := 1, kind := 3, pinscope := 0, gmir := false, kvfmt := 1, lgroup := 1, loft := 0, kvheads := 1, dh := 128, drain := 0, params := 0, tensors := [], shards := [], desc := [] }
def lv : LoftModel := { lm [] with kind := 4, len := 0 }
def sVar : State := { ((((sT.setField Reg.SRV_VARGRAN 0 19 64).setField (Reg.TNT_GRANLIM 1) 0 19 64).setField Reg.MEM_FREE 0 19 64)) with
  serve := { sT.serve with reqs := [(3, r0 1)] }, curtain := { sT.curtain with models := [(9, md)] }, loft := { sT.loft with tabs := some (2, 0), models := [lv] } }
def vr : Variant := { model := 9, tenant := 1, grans := [], idleAt := 0 }
def sVres (r : Req) : State := { sVar with serve := { sVar.serve with variants := [(9, vr)], reqs := [(3, r)] }, clk := 60000000000 }

theorem witness_KvAndVariants_variants : sVar.variantOf 9 = some lv ∧ sVar.model? 9 = some md ∧ sVar.resident 9 = false ∧
    (∃ r ∈ sVar.serve.reqs, r.2.model = 9 ∧ r.2.st = 1) ∧ sVar.serve.variants.length < 64 ∧ sVar.regField Reg.SRV_VARST 8 19 + 0 ≤ sVar.regField Reg.SRV_VARGRAN 0 19 ∧
    sVar.regField (Reg.TNT_GRANUSE 1) 0 19 + 0 ≤ sVar.regField (Reg.TNT_GRANLIM 1) 0 19 ∧ 0 ≤ sVar.regField Reg.MEM_FREE 0 19 ∧
    ceilDiv lv.len (2 ^ 21) = 0 ∧
    ((sVar.allocsFor 1 (State.mkGran 1 1 false true false false 0) (fun _ => true) 0).bind fun p =>
      let c := State.copyLoft lv p.1 0 p.2
      State.mapPages 1 21 (fun a => c.leafTo a true false false false false) (p.1.map State.granuleAddr) (State.loftVa lv) c).isSome = true ∧
    Tab.find? (sVres { r0 1 with model := 8 }).serve.variants 9 = some vr ∧ (sVres { r0 1 with model := 8 }).variantPinned 9 = false ∧
    vr.idleAt + (sVres { r0 1 with model := 8 }).regField Reg.SRV_VARCFG 16 16 * 1000000000 ≤ (sVres { r0 1 with model := 8 }).clk ∧
    (sVres (r0 1)).variantPinned 9 = true := by decide +kernel

/-! ### Host ports and descriptors -/

/-- A descriptor: kind, sequence number, model, flags, body, what follows it. -/
def dsc (kind seq model flags : Nat) (body rest : List Byte) : List Byte :=
  leBytes 2 0x4457 ++ [1#8, BitVec.ofNat 8 kind] ++ leBytes 2 flags ++ leBytes 2 (64 + body.length + rest.length) ++ leBytes 8 seq ++ zeros 16 ++
  leBytes 4 model ++ zeros 22 ++ leBytes 2 body.length ++ zeros 4 ++ body ++ rest

/-- A ring of 64 entries in host region 2. -/
def ring0 : Ring := { entries := 64, region := 2, off := 0, cregion := 2, coff := 4096, evqp := 0, modCount := 0, modTime := 0 }

/-- Tenants 0 and 1 with 16 queues and 1 MiB of host region 2; a ring on queue 0 of both. -/
def sHost : State :=
  let s1 := ((s0.setField (Reg.TNT_STATE 1) 0 2 1).setField (Reg.TNT_POLICY 1) 8 8 16).setField (Reg.TNT_POLICY 0) 8 8 16
  let s2 := ((s1.setRegN (Reg.TNT_HRLENL 1 2) (2 ^ 20)).setField (Reg.TNT_HRCFG 1 2) 31 1 1)
  let s3 := ((s2.setRegN (Reg.TNT_HRLENL 0 2) (2 ^ 20)).setField (Reg.TNT_HRCFG 0 2) 31 1 1)
  (s3.setHq 1 0 { ring := some ring0 }).setHq 0 0 { ring := some ring0 }

/-- `s` with one message on queue 0 of tenant `t`, and the item of a row that then starts. -/
def withMsg (s : State) (t : Nat) (m : List Byte) : State := s.setHq t 0 { s.hq t 0 with unparsed := [(0, m)] }
def noItem : Item := { seq := 0, tag := 0, kind := 0, flags := 0, at_ := 0, atDom := 0, desc := [] }
def itm (s : State) (t row : Nat) : Item := (startableItem s t 0 row).getD noItem

theorem some_itm {s : State} {t row : Nat} (h : (startableItem s t 0 row).isSome = true) : startableItem s t 0 row = some (itm s t row) := by
  unfold itm; cases e : startableItem s t 0 row with
  | none => rw [e] at h; cases h
  | some i => rfl

/-- Does a message of a kind with a body of zeros (and a first byte) start an item of its row. -/
def starts (t kind row n b0 : Nat) : Bool := (startableItem (withMsg sHost t (dsc kind 1 9 0 (leBytes n b0) [])) t 0 row).isSome

theorem witness_DescriptorCommandsRun : starts 1 0x30 0x30 32 0 = true ∧ starts 1 0x31 0x31 32 0 = true ∧ starts 1 0x32 0x32 16 0 = true ∧
    starts 1 1 1 128 0 = true ∧ starts 1 2 2 40 0 = true ∧ starts 1 3 3 16 0 = true ∧ starts 1 4 4 16 0 = true ∧ starts 1 0x20 0x120 24 0 = true ∧
    starts 1 0x20 0x220 24 1 = true ∧ starts 1 0x20 0x320 24 2 = true ∧ starts 1 0x21 0x21 48 0 = true ∧ starts 1 0x22 0x22 8 0 = true ∧
    starts 0 0x40 0x40 8 0 = true ∧ starts 0 0x41 0x41 8 0 = true ∧ startableItem sHost 1 0 1 = none := by decide +kernel

/-- Port 0 with link, up, with MACsec on; pair 5 of it connected for queue 0 of tenant 1, bound or not. -/
def pk5 : HostPkt := { port := 0, qpn := 5, macsec := true, ce := false }
def qp0 (bound : Bool) : Qp := { tenant := 1, queue := 0, nonce := zeros 32, bound := bound }
def linked (s : State) : State := s.setHost { s.host with links := [0] }
def sPort (bound : Bool) : State := (linked ((sHost.setField (Reg.HST_PST 0) 31 1 1).setField (Reg.HST_PST 0) 30 1 1)).setQp (State.qpKey 0 5) (qp0 bound)
def m0 : List Byte := dsc 1 1 9 0 (zeros 128) []
def sFull : State := (sPort true).setHq 1 0 { (sPort true).hq 1 0 with unparsed := List.replicate 32 (0, m0) }
/-- The ring is full and its consumer word is being read. -/
def sAsk : State :=
  let s1 := (sPort true).setHq 1 0 { ring := some { ring0 with written := 64 } }
  s1.setHost { s1.host with posts := [(4, .consumer 1 0)] }
/-- Module 0 serves the role of module 1, whose tenant 0 is there. -/
def sServe : State := ((((sPort true).setField Reg.PAI_STATUS 0 13 1).setField Reg.PAI_STATUS 27 1 1).setField (Reg.TNT_POLICY 256) 8 8 16)

theorem witness_HostArrivals_taken : PktTaken (sPort true) pk5 ∧ PktTaken sFull pk5 ∧ PktTaken sAsk pk5 ∧ PktTaken sServe pk5 ∧ PktTaken (sPort false) pk5 :=
  ⟨pktTaken_of (by decide +kernel), pktTaken_of (by decide +kernel), pktTaken_of (by decide +kernel), pktTaken_of (by decide +kernel),
   pktTaken_of (by decide +kernel)⟩

theorem witness_HostArrivals : (sPort true).qp? (State.qpKey 0 5) = some (qp0 true) ∧ (qp0 true).doomed = false ∧
    (qp0 true).bound = true ∧ ((sPort true).hq 1 0).unparsed.length < 32 ∧ (sPort true).ringRoom 1 0 = true ∧ ((sPort true).hq 1 0).asking = [] ∧
    (((sPort true).hq 1 0).unparsed ++ [(State.qpKey 0 5, m0)]).head? = some (State.qpKey 0 5, m0) ∧ rowOf m0 ≠ 0 ∧
    sFull.qp? (State.qpKey 0 5) = some (qp0 true) ∧ 32 ≤ (sFull.hq 1 0).unparsed.length ∧
    sAsk.qp? (State.qpKey 0 5) = some (qp0 true) ∧ sAsk.ringRoom 1 0 = false ∧ (sAsk.hq 1 0).ring ≠ none ∧ (sAsk.hq 1 0).unparsed.length < 32 ∧
    (sAsk.host.posts.any fun p => p.2 == .consumer 1 0) = true ∧ (sPort true).qp? (State.qpKey 0 6) = none := by decide +kernel

theorem witness_HostArrivals_connects :
    (sPort true).present (1 + 0) = true ∧ 15 < (sPort true).tntQueues (1 + 0) ∧ (sPort true).regField Reg.MGT_BOOT 28 4 ≠ 6 ∧
    (sPort true).regField (Reg.HST_PST 0) 0 11 < 1024 ∧ (sPort true).host.qps.length < 4096 ∧ 0 < 6 ∧ 2 ^ 24 - 1 < 2 ^ 24 ∧
    1 ≠ sServe.self ∧ 1 = sServe.partner ∧ sServe.servesPartner = true ∧ sServe.present (0 + 256) = true ∧ 15 < sServe.tntQueues (0 + 256) ∧
    sServe.regField Reg.MGT_BOOT 28 4 ≠ 6 ∧ sServe.qp? (State.qpKey 0 6) = none ∧ sServe.regField (Reg.HST_PST 0) 0 11 < 1024 ∧ sServe.host.qps.length < 4096 ∧
    field 0 16 48 ≠ 0x4356 ∧ (sPort true).present (field (0x4356 * 2 ^ 16 + 2 * 256) 8 8) = false ∧
    (linked sHost).host.links.elem 0 = true ∧ (linked sHost).portUp 0 = false ∧ sHost.host.links.elem 3 = false := by decide +kernel

/-- A bind message of queue 0 with a signature. -/
def bindMsg (sig : List Byte) : List Byte := dsc 0x33 0 0 0 (zeros 40 ++ sig) []

theorem witness_BindAndPortKeys : (sPort false).qp? (State.qpKey 0 5) = some (qp0 false) ∧ (qp0 false).doomed = false ∧ (qp0 false).bound = false ∧ (qp0 false).await = false ∧
    ((sPort false).hq 1 0).mark = (sPort false).repochOf 1 ∧
    (Desc.magic (bindMsg (zeros 2420)) = 0x4457 ∧ Desc.version (bindMsg (zeros 2420)) = 1 ∧ Desc.kind (bindMsg (zeros 2420)) = 0x33 ∧
      (bindMsg (zeros 2420)).length = 2524 ∧ Desc.length (bindMsg (zeros 2420)) = 2524 ∧ Desc.bodyLen (bindMsg (zeros 2420)) = 2460 ∧
      fieldAt (((bindMsg (zeros 2420)).drop 64).take 2460) 0 1 = (qp0 false).queue ∧ fieldAt (((bindMsg (zeros 2420)).drop 64).take 2460) 1 7 = 0) ∧
    Desc.magic (zeros 2524) ≠ 0x4457 ∧ (sPort false).logRefuses = false ∧ (sPort false).regBit (Reg.HST_PST 0) 30 = true := by decide +kernel

/-- Where the open signature check says yes, the binding verifies. -/
theorem witness_BindAndPortKeys_verifies (m sig : List Byte) (h : Config.mldsaVerify ((sPort false).bindKey 1) m sig = true) :
    (sPort false).bindVerifies 1 m sig = true := by
  have e : ((sPort false).regField Reg.MGT_BOOT 28 4 == 6) = false := by decide +kernel
  simp [State.bindVerifies, e, h]

/-- REGION_SET of region 5, RING_SET of queue 0 at region 2, FAULTLOG_SET at region 2. -/
def bRegion : List Byte := leBytes 4 5 ++ leBytes 4 0x1234 ++ leBytes 4 0xBEEF ++ zeros 4 ++ leBytes 8 0x7000 ++ leBytes 8 65536
def bRing : List Byte := zeros 4 ++ leBytes 4 64 ++ leBytes 8 (2 * 2 ^ 58) ++ leBytes 8 (2 * 2 ^ 58 + 8192) ++ leBytes 4 0 ++ leBytes 4 0
def bLog : List Byte := leBytes 8 (2 * 2 ^ 58) ++ leBytes 4 64 ++ zeros 4
def sMsg (kind : Nat) (b : List Byte) : State := withMsg sHost 1 (dsc kind 1 0 0 b [])
def uMsg (kind : Nat) (b : List Byte) : State := itemStarts (sMsg kind b) 1 0 kind (itm (sMsg kind b) 1 kind)
def bOf (kind : Nat) (b : List Byte) : Nat → Nat → Nat := fieldAt (Desc.body (itm (sMsg kind b) 1 kind).desc)

theorem witness_RingsAndRecords_set :
    (startableItem (sMsg 0x30 bRegion) 1 0 0x30).isSome = true ∧ bOf 0x30 bRegion 0 1 < 64 ∧ bOf 0x30 bRegion 1 1 < 4 ∧ bOf 0x30 bRegion 2 2 = 0 ∧
    bOf 0x30 bRegion 12 4 = 0 ∧ bOf 0x30 bRegion 4 4 < 2 ^ 24 ∧ bOf 0x30 bRegion 24 8 ≠ 0 ∧ (uMsg 0x30 bRegion).regionMapped 1 (bOf 0x30 bRegion 0 1) = false ∧
    (startableItem (sMsg 0x31 bRing) 1 0 0x31).isSome = true ∧ bOf 0x31 bRing 0 1 < (uMsg 0x31 bRing).tntQueues 1 ∧ bOf 0x31 bRing 0 1 < 16 ∧
    bOf 0x31 bRing 1 3 = 0 ∧ powIn 64 65536 (bOf 0x31 bRing 4 4) = true ∧
    ((uMsg 0x31 bRing).hostRange 1 (refRegion (bOf 0x31 bRing 8 8)) (refOff (bOf 0x31 bRing 8 8)) (32 * bOf 0x31 bRing 4 4)).any (fun p => p.2.2.2 % 32 == 0) = true ∧
    ((uMsg 0x31 bRing).hostRange 1 (refRegion (bOf 0x31 bRing 16 8)) (refOff (bOf 0x31 bRing 16 8)) 8).isSome = true ∧
    (∀ j ∈ ((uMsg 0x31 bRing).hq 1 (bOf 0x31 bRing 0 1)).items, bOf 0x31 bRing 0 1 = 0 ∧ j.seq = (itm (sMsg 0x31 bRing) 1 0x31).seq ∧ j.refused = false) ∧
    (startableItem (sMsg 0x32 bLog) 1 0 0x32).isSome = true ∧ powIn 64 4096 (bOf 0x32 bLog 8 4) = true ∧ bOf 0x32 bLog 12 4 = 0 ∧
    ((uMsg 0x32 bLog).hostRange 1 (refRegion (bOf 0x32 bLog 0 8)) (refOff (bOf 0x32 bLog 0 8)) (32 * bOf 0x32 bLog 8 4)).isSome = true := by decide +kernel

/-- An item that is done; a ring with records not notified. -/
def iDone : Item := { noItem with seq := 7, done := some { status := stOk } }
def sRec : State := sHost.setHq 1 0 { ring := some ring0, items := [iDone] }
def ring1 : Ring := { ring0 with since := 3, modCount := 2 }
def ring2 : Ring := { ring0 with since := 3, modTime := 1 }

theorem witness_RingsAndRecords_write : (sRec.hq 1 0).ring = some ring0 ∧ (sRec.hq 1 0).closed = false ∧ (sRec.hq 1 0).mark = sRec.repochOf 1 ∧ sRec.writable 1 0 [] (sRec.hq 1 0).items = some (iDone, []) ∧
    sRec.host.cakWait = [] ∧ (sRec.hostRange 1 2 (0 + 32 * (0 % 64)) 32).any (fun p => (sPort true).portUp p.1) = true ∧ sRec.mirrored = false ∧
    ((sRec.setHq 1 0 { ring := some ring0, mark := 7 }).hq 1 0).mark ≠ (sRec.setHq 1 0 { ring := some ring0, mark := 7 }).repochOf 1 ∧ sHost.writable 1 0 [] (sHost.hq 1 0).items = none ∧
    ((sHost.setHq 1 0 { ring := some ring1 }).hq 1 0).ring = some ring1 ∧ ring1.since ≠ 0 ∧ ring1.modCount ≤ ring1.since ∧
    ring2.modTime ≠ 0 ∧ ring2.firstAt + 1000 * ring2.modTime ≤ 1000 := by decide +kernel

/-- A state with one open request to a host, for request slot 3 with a block on its way back too. -/
def sPost (p : Post) : State :=
  { sPort true with host := { (sPort true).host with posts := [(4, p)], nextId := 5 }, serve := { (sPort true).serve with kv := [kbHost] } }
def sMove (p : Post) : State := (sPost p).setCtx 0 0 { c0 with moves := [{ eng := 0, word := 0#128, pc := 0#48, stream := 0, segs := [], awaits := [.host 4 0x2000], isAtom := false }] }

theorem witness_HostAnswers : ∀ p ∈ [Post.results 1 0 7, .record 1 0 2 0 [], .plain, .moveOut 0 0 0x2000, .kv 3 0 0, .event (State.qpKey 0 5),
    .consumer 1 0, .payload 1 0 7, .moveIn 0 0 0x2000 0], (decide (pk5.port < 4) && (sPost p).host.links.elem pk5.port && (sPost p).portUp pk5.port &&
      (!(sPost p).regBit (Reg.HST_PST pk5.port) 30 || pk5.macsec) && !pk5.ce) = true ∧ Tab.find? (sPost p).host.posts 4 = some p ∧
    Tab.find? (sPost p).host.posts 3 = none := by decide +kernel

theorem witness_HostAnswers_more : (sPost (.kv 3 0 0)).kvBlock 3 0 0 = some kbHost ∧ kbHost.state = 3 ∧
    (sPost (.event (State.qpKey 0 5))).qp? (State.qpKey 0 5) = some (qp0 true) ∧ (qp0 true).doomed = false ∧
    ((sPost (.consumer 1 0)).hq 1 0).ring = some ring0 ∧ Tab.find? (sMove (.moveIn 0 0 0x2000 0)).host.posts 4 = some (.moveIn 0 0 0x2000 0) ∧
    (sMove (.moveIn 0 0 0x2000 0)).awaiting (fun a => a == Await.host 4 0x2000) ≠ [] := by decide +kernel

/-! ### Serving -/

/-- A model of kind 3 that needs no KV blocks, live at epoch 1. -/
def mk : Model := { md with kvheads := 0, live := [{ number := 1, grans := [] }], current := 1 }

/-- A GENERATE of one prompt token and one new token, in a state that admits it. -/
def bGen : List Byte := leBytes 4 1 ++ leBytes 4 1 ++ leBytes 4 0x3F800000 ++ zeros 4 ++ leBytes 4 0x3F800000 ++ zeros 12 ++ leBytes 8 (2 * 2 ^ 58) ++ leBytes 4 72 ++ zeros 84
def sAdm : State := { (((((sHost.setField Reg.ADM_STATUS 31 1 1).setRegN (Reg.ADM_RQRATE 1) 0xFFFFFFFF).setRegN (Reg.ADM_TKRATE 1) 0xFFFFFFFF).setField
  (Reg.TNT_SLOTS 1) 16 16 8).setField Reg.ADM_QDEPTH 0 16 100) with curtain := { sHost.curtain with models := [(9, mk)] } }
def sGen : State := withMsg sAdm 1 (dsc 1 1 9 0 bGen (leBytes 4 77))
def uGen : State := itemStarts sGen 1 0 1 (itm sGen 1 1)

/-- The vocabulary of a model is an open value; with one below 2^30 the keys fit. -/
theorem witness_ServingRequests_generate (hv : Config.vocabulary [] < 2 ^ 30) : (startableItem sGen 1 0 1).isSome = true ∧
    uGen.generateOk 1 (itm sGen 1 1) = true ∧ uGen.model? (Desc.model (itm sGen 1 1).desc) = some mk ∧ uGen.regBit Reg.ADM_STATUS 31 = true ∧
    Desc.deadline (itm sGen 1 1).desc = 0 ∧ uGen.regN (Reg.ADM_RQRATE 1) = 0xFFFFFFFF ∧ uGen.regN (Reg.ADM_TKRATE 1) = 0xFFFFFFFF ∧
    uGen.regField (Reg.TNT_SLOTS 1) 0 16 + (uGen.serve.queue.filter fun x => x.tenant == 1).length < uGen.regField (Reg.TNT_SLOTS 1) 16 16 ∧
    (uGen.serve.queue.filter fun x => uGen.roleOf x.tenant == uGen.self).length < 32768 - (uGen.serve.reqs.filter fun r => uGen.roleOf r.2.tenant == uGen.self).length ∧
    (∀ a b, uGen.granulesFor 1 (uGen.resvPages mk none a b) = 0) ∧ uGen.regField (Reg.TNT_GRANUSE 1) 0 19 + 0 ≤ uGen.regField (Reg.TNT_GRANLIM 1) 0 19 ∧
    uGen.serve.queue.length < uGen.regField Reg.ADM_QDEPTH 0 16 := by
  have em : uGen.model? (Desc.model (itm sGen 1 1).desc) = some mk := by decide +kernel
  have ek : uGen.model? (State.keyOf 1 (Desc.model (itm sGen 1 1).desc)) = some mk := by decide +kernel
  have hk : ∀ n, n = 2 → keysFit mk n = true := by
    intro n hn; subst hn
    have e : mk.desc = [] := rfl
    simp only [keysFit, e, decide_eq_true_eq]; omega
  refine ⟨by decide +kernel, ?_, em, by decide +kernel, by decide +kernel, by decide +kernel, by decide +kernel, by decide +kernel, by decide +kernel,
    fun a b => ?_, by decide +kernel, by decide +kernel⟩
  · unfold State.generateOk
    simp only [ek, Bool.and_eq_true]
    refine ⟨⟨?_, hk _ (by decide +kernel)⟩, by decide +kernel⟩
    repeat' apply And.intro
    all_goals decide +kernel
  · have z : mk.blockLen / 4096 = 0 := by decide +kernel
    simp [State.resvPages, z, State.granulesFor, ceilDiv]

/-- A RESUME with one new token, of the request that the tenant started at sequence number 1 of queue 0. -/
def bRes (b1 : Byte) : List Byte := [0#8, b1] ++ zeros 6 ++ leBytes 8 1 ++ leBytes 4 1 ++ leBytes 4 1 ++ leBytes 8 (2 * 2 ^ 58) ++ leBytes 4 72 ++ zeros 4
def sRes (b1 : Byte) (rs : Tab Req) : State := withMsg { sAdm with serve := { sAdm.serve with reqs := rs } } 1 (dsc 2 1 0 0 (bRes b1) (leBytes 4 77))
def uRes (b1 : Byte) (rs : Tab Req) : State := itemStarts (sRes b1 rs) 1 0 2 (itm (sRes b1 rs) 1 2)

theorem witness_ServingRequests_resume (hv : Config.vocabulary [] < 2 ^ 30) : (startableItem (sRes 0 [(3, r0 4)]) 1 0 2).isSome = true ∧
    (uRes 0 [(3, r0 4)]).resumeForm 1 (itm (sRes 0 [(3, r0 4)]) 1 2) = true ∧ (startableItem (sRes 1 []) 1 0 2).isSome = true ∧
    (uRes 1 []).resumeForm 1 (itm (sRes 1 []) 1 2) = false ∧ (startableItem (sRes 0 []) 1 0 2).isSome = true ∧
    (uRes 0 []).resumeForm 1 (itm (sRes 0 []) 1 2) = true ∧ (uRes 0 []).namedReq 1 (Desc.body (itm (sRes 0 []) 1 2).desc) = none ∧
    (uRes 0 [(3, r0 4)]).namedReq 1 (Desc.body (itm (sRes 0 [(3, r0 4)]) 1 2).desc) = some (3, r0 4) ∧ (r0 4).st = 4 ∧
    (uRes 0 [(3, r0 4)]).resumeOk 1 (itm (sRes 0 [(3, r0 4)]) 1 2) (r0 4) = true ∧ (uRes 0 [(3, r0 4)]).regBit Reg.ADM_STATUS 31 = true := by
  have em : (uRes 0 [(3, r0 4)]).model? (r0 4).model = some mk := by decide +kernel
  have hk : ∀ n, n = 2 → keysFit mk n = true := by
    intro n hn; subst hn
    have e : mk.desc = [] := rfl
    simp only [keysFit, e, decide_eq_true_eq]; omega
  refine ⟨by decide +kernel, by decide +kernel, by decide +kernel, by decide +kernel, by decide +kernel, by decide +kernel, by decide +kernel,
    by decide +kernel, rfl, ?_, by decide +kernel⟩
  unfold State.resumeOk
  rw [em]
  simp only [Bool.and_eq_true, Option.all_some]
  exact ⟨⟨by decide +kernel, hk _ (by decide +kernel)⟩, by decide +kernel⟩

/-- PAUSE and CANCEL of that request. -/
def bPc : List Byte := zeros 8 ++ leBytes 8 1
def sPc (k st : Nat) : State := withMsg { sAdm with serve := { sAdm.serve with reqs := [(3, r0 st)] } } 1 (dsc k 1 0 0 bPc [])
def pcOk (k st : Nat) : Bool :=
  let i := itm (sPc k st) 1 k
  (startableItem (sPc k st) 1 0 k).isSome && fieldAt (Desc.body i.desc) 1 7 == 0 &&
    decide ((itemStarts (sPc k st) 1 0 k i).namedReq 1 (Desc.body i.desc) = some (3, r0 st))

theorem witness_ServingRequests_steer : (sAdm.regBit Reg.ADM_STATUS 31 = true ∧ (uRes 1 []).generateOk 1 (itm (sRes 1 []) 1 2) = false) ∧
    pcOk 3 1 = true ∧ pcOk 3 2 = true ∧ pcOk 3 3 = true ∧ pcOk 4 1 = true ∧ pcOk 4 2 = true ∧ pcOk 4 3 = true := by decide +kernel

theorem witness_BucketsAndWindows : (([(1, (5 : Int)), (2, 7)] : Tab Int).map Prod.fst).Nodup ∧ s0.serve.queue = [] := by decide +kernel

/-- A segment, and requests with it; a state that holds one and a step of its model. -/
def sg0 : Segm := { q := 0, seq := 1, maxnew := 4, region := 2, off := 0, outlen := 128, deadline := 0, prio := 0, gttft := 0, gtbt := 0, accept := 0 }
def rq (st : Nat) (inStep : Bool) : Req := { r0 st with seg := some sg0, context := [5], inStep := inStep }
def run0 : StepRun := { model := 9, epoch := 1, slots := [3], chunks := [], formed := 0, predP := 0, predD := 0 }
def sStep (m : Model) (r : Req) (runs : Tab StepRun) : State :=
  { sAdm with curtain := { sAdm.curtain with models := [(9, m)] }, serve := { sAdm.serve with reqs := [(3, r)], steps := runs } }

theorem witness_StepsAndDeadlines_form : let s := sStep mk (rq 1 false) []
    s.model? 9 = some mk ∧ mk.fenced = false ∧ mk.pausing = false ∧ s.rebuilding 9 = false ∧ s.splitNear 9 = false ∧ Tab.find? s.serve.steps 9 = none ∧ mk.kind ≠ 1 ∧ (∃ x ∈ mk.live, x.number = 1) ∧
    mk.pinscope ≠ 1 ∧ s.variantOf 9 = none ∧
    (let d := State.takeDecode 8 (s.candidates 9 1 mk fun r => r.st == 3) [] s
     let pre := (d.2.candidates 9 1 mk fun r => r.st == 1 || r.st == 2).filter fun x => d.2.blocksHere x.1
     let chunks := State.takePrefill (s.regField Reg.SRV_STEPCFG 0 16) (pre.foldl (fun l x => State.insPrefill x l) []) []
     d.1 ++ chunks.map Prod.fst ≠ []) ∧
    (sStep { mk with pausing := true } (rq 1 false) []).model? 9 = some { mk with pausing := true } := by decide +kernel

/-- One position of a vocabulary of two: the first entry has by far the higher score. -/
def pos0 : PosRow := { scores := [0x7149F2CA#32, 0xF149F2CA#32], probs := [0x3F800000#32, 0#32] }
def tok0 : Token := tokenOf pos0.probs (sampleTok 0 0 0 1 0#32 pos0.scores)

theorem witness_StepsAndDeadlines_boundary : let s := sStep mk (rq 3 true) [(9, run0)]
    Tab.find? s.serve.steps 9 = some run0 ∧ (∀ k ∈ run0.slots, s.rowReady run0 [{ slot := 3, pos := [pos0] }] k = true) ∧
    (∃ k ∈ run0.slots, s.rowReady run0 [] k = false) ∧ run0.slots = [3] ∧ run0.chunks = [] ∧ pos0.scores ≠ [] ∧ pos0.probs.length = pos0.scores.length ∧
    (rq 3 true).seed = 0 ∧ (rq 3 true).context.length = 1 ∧ (rq 3 true).samp.beta = 0#32 ∧ roundTokens 0 0#32 1 0 [pos0] = [tok0] ∧
    s.req? 3 = some (rq 3 true) ∧ (rq 3 true).inStep = true ∧ (rq 3 true).st = 3 ∧ (rq 3 true).ending = none ∧
    (rq 3 true).asked = [] ∧ (rq 3 true).seg = some sg0 ∧ sg0.deadline = 0 ∧ (rq 3 true).samp.draft = 0 ∧ tbit (rq 3 true).samp.gflags 1 = false ∧
    (rq 3 true).samp.stops.elem tok0.id.toNat = false ∧ sg0.tokens.length + 1 < sg0.maxnew ∧ (∀ m, s.model? 9 = some m → m.pausing = false) := by
  refine ⟨by decide +kernel, by decide +kernel, by decide +kernel, rfl, rfl, by decide, rfl, rfl, rfl, rfl, rfl, by decide +kernel, by decide +kernel, rfl, by decide +kernel, by decide +kernel,
    by decide +kernel, by decide +kernel, by decide +kernel, by decide +kernel, rfl, by decide +kernel, fun m h => ?_⟩
  have e : (sStep mk (rq 3 true) [(9, run0)]).model? 9 = some mk := rfl
  rw [e] at h; cases h; rfl

def rLate : Req := { r0 3 with seg := some { sg0 with deadline := 1 } }
theorem witness_StepsAndDeadlines_deadline : ({ sStep mk rLate [] with now := 5 } : State).req? 3 = some rLate ∧ rLate.inStep = false ∧
    ({ sStep mk rLate [] with now := 5 } : State).inTime rLate = false ∧ rLate.seg ≠ none := by decide +kernel

/-! ### Models, adapters, curtains -/

/-- A descriptor of model 9: one tensor of 32 x 32 with one training and one generation shard on module 0. -/
def dModel : List Byte :=
  leBytes 4 0x4C444D43 ++ leBytes 2 1 ++ [1#8, 0#8] ++ leBytes 4 9 ++ [0#8, 1#8] ++ leBytes 2 1 ++ leBytes 4 2 ++ [1#8, 0#8] ++ leBytes 2 1 ++ leBytes 2 32 ++
  leBytes 2 0 ++ zeros 4 ++ leBytes 8 1024 ++ zeros 24 ++
  (leBytes 4 1 ++ leBytes 4 32 ++ leBytes 4 32 ++ [1#8, 1#8, 0#8, 0#8, 0#8, 0#8] ++ zeros 2 ++ leBytes 4 0 ++ leBytes 4 1 ++ leBytes 4 1 ++ leBytes 4 1 ++ zeros 4 ++ zeros 24) ++
  (leBytes 2 0 ++ [0#8, 0#8] ++ leBytes 4 0 ++ leBytes 4 32 ++ leBytes 4 0 ++ leBytes 4 32 ++ zeros 4 ++ leBytes 8 (2 ^ 40)) ++
  (leBytes 2 0 ++ [1#8, 0#8] ++ leBytes 4 0 ++ leBytes 4 32 ++ leBytes 4 0 ++ leBytes 4 32 ++ zeros 4 ++ zeros 8)
def m9 : Model := modelOf 1 dModel
/-- Tenant 1 may use every format; the module is stage manager; the model is there or not. -/
def sMgr (ms : Tab Model) : State := { ((sHost.setField Reg.CUR_MGR 31 1 1).setRegN (Reg.TNT_POLICY 1) (2 ^ 32 - 1)) with curtain := { sHost.curtain with models := ms } }
def sCm (ms : Tab Model) (kind : Nat) (b rest : List Byte) : State := withMsg (sMgr ms) 1 (dsc kind 1 0 0 b rest)
def uCm (ms : Tab Model) (kind row : Nat) (b rest : List Byte) : State := itemStarts (sCm ms kind b rest) 1 0 row (itm (sCm ms kind b rest) 1 row)
def bOp (op : Nat) : List Byte := leBytes 4 op ++ leBytes 4 9 ++ zeros 16

/-- The body of an item, and the key of the model that it names. -/
def bodyAt (ms : Tab Model) (kind row : Nat) (b rest : List Byte) : List Byte := Desc.body (itm (sCm ms kind b rest) 1 row).desc
/-- The same model for the loft: kind 3, without shards; a loft with an empty first model that its tenant may use. -/
def dLoft : List Byte :=
  leBytes 4 0x4C444D43 ++ leBytes 2 1 ++ [3#8, 0#8] ++ leBytes 4 9 ++ [0#8, 1#8] ++ leBytes 2 1 ++ leBytes 4 1 ++ [1#8, 0#8] ++ leBytes 2 1 ++ leBytes 2 32 ++
  leBytes 2 0 ++ zeros 4 ++ leBytes 8 1024 ++ zeros 24
def uLoft : State := let u := uCm [] 0x20 0x120 (bOp 0) dModel; { u with loft := { u.loft with models := [{ lm [] with len := 0 }] } }
def mLoft : Model := { m9 with kind := 3, loft := 0 }

theorem witness_ModelsAndAdapters_models :
    (startableItem (sCm [] 0x20 (bOp 0) dModel) 1 0 0x120).isSome = true ∧ (itm (sCm [] 0x20 (bOp 0) dModel) 1 0x120).payload = some dModel ∧
    fieldAt (bodyAt [] 0x20 0x120 (bOp 0) dModel) 1 3 = 0 ∧ fieldAt (bodyAt [] 0x20 0x120 (bOp 0) dModel) 8 8 = 0 ∧
    fieldAt (bodyAt [] 0x20 0x120 (bOp 0) dModel) 4 4 = fieldAt dModel 8 4 ∧ descriptorOk (uCm [] 0x20 0x120 (bOp 0) dModel) 1 dModel = true ∧
    m9.fmts.all (fmtAllowed ((uCm [] 0x20 0x120 (bOp 0) dModel).fmtMask 1)) = true ∧ (uCm [] 0x20 0x120 (bOp 0) dModel).model? (State.keyOf 1 9) = none ∧ m9.kind ≠ 3 ∧
    (((uLoft.putModel 9 mLoft).forward mLoft (itm (sCm [] 0x20 (bOp 0) dModel) 1 0x120)).loftEntry 9).any (fun l =>
      (((uLoft.putModel 9 mLoft).forward mLoft (itm (sCm [] 0x20 (bOp 0) dModel) 1 0x120)).mapLoft 1 l).isSome) = true := by decide +kernel

theorem witness_ModelsAndAdapters_curtains :
    (startableItem (sCm [(9, m9)] 0x20 (bOp 1) []) 1 0 0x220).isSome = true ∧ (uCm [(9, m9)] 0x20 0x220 (bOp 1) []).model? (State.keyOf 1 9) = some m9 ∧
    curtainBodyOk m9 1 (bodyAt [(9, m9)] 0x20 0x220 (bOp 1) []) [] = true ∧
    (uCm [(9, m9)] 0x20 0x220 (bOp 1) []).isManager = true ∧ (uCm [(9, m9)] 0x20 0x220 (bOp 1) []).curtain.queue.length < 16 ∧
    (startableItem (sCm [(9, m9)] 0x20 (bOp 2) []) 1 0 0x320).isSome = true ∧ (uCm [(9, m9)] 0x20 0x320 (bOp 2) []).model? (State.keyOf 1 9) = some m9 ∧
    m9.tenant = 1 ∧ fieldAt (bodyAt [(9, m9)] 0x20 0x320 (bOp 2) []) 1 3 = 0 ∧ fieldAt (bodyAt [(9, m9)] 0x20 0x320 (bOp 2) []) 8 8 = 0 ∧
    (uCm [(9, m9)] 0x20 0x320 (bOp 2) []).curtainOpen (State.keyOf 1 9) = false ∧ m9.unloading = false ∧
    m9.live = [] ∧ (uCm [(9, m9)] 0x20 0x320 (bOp 2) []).serve.reqs = [] ∧ mk.live ≠ [] := by decide +kernel

/-- A blob with one record of rank 1, and the bodies that name it. -/
def blob : List Byte := leBytes 4 1 ++ leBytes 4 1 ++ zeros 8 ++ zeros 128
def bLoad : List Byte := leBytes 2 5 ++ leBytes 2 1 ++ leBytes 4 9 ++ leBytes 8 144 ++ sha3 blob
def bRev : List Byte := leBytes 2 5 ++ leBytes 2 1 ++ leBytes 4 9

theorem witness_ModelsAndAdapters_adapters :
    (startableItem (sCm [(9, m9)] 0x21 bLoad blob) 1 0 0x21).isSome = true ∧ (itm (sCm [(9, m9)] 0x21 bLoad blob) 1 0x21).payload = some blob ∧
    (uCm [(9, m9)] 0x21 0x21 bLoad blob).model? 9 = some m9 ∧ Desc.body (itm (sCm [(9, m9)] 0x21 bLoad blob) 1 0x21).desc = bLoad ∧ fieldAt bLoad 8 8 = blob.length ∧ blob.length ≤ 2 ^ 28 ∧ m9.tenant = 1 ∧ fmtAllowed ((uCm [(9, m9)] 0x21 0x21 bLoad blob).fmtMask 1) 1 = true ∧
    sha3 blob = sliceBytes bLoad 16 32 ∧ fieldAt bLoad 0 2 ≠ 0 ∧ adapterRecords m9 (blob.length + 1) blob ≠ none ∧
    (uCm [(9, m9)] 0x21 0x21 bLoad blob).curtain.adapters = [] ∧ (uCm [(9, m9)] 0x21 0x21 bLoad blob).logRefuses = false ∧
    (startableItem (sCm [(9, m9)] 0x22 bRev []) 1 0 0x22).isSome = true ∧ (uCm [(9, m9)] 0x22 0x22 bRev []).model? 9 = some m9 ∧
    (uCm [(9, m9)] 0x22 0x22 bRev []).logRefuses = false := by decide +kernel

/-- A request at the stage manager; a curtain in a phase with one piece of one byte to this module; a cue sheet. -/
def cq : CurtainReq := { origin := 0, submit := none, dir := 0, model := 9, adapter := 0, aver := 0, earliest := 0, records := [] }
def pc : Piece := { piece := 1, tensor := 0, src := 2, srcu := 3, dst := 0, tfmt := 1, gfmt := 1, row0 := 0, nrows := 1, col0 := 0, ncols := 1, saddr := 0, length := 1, chunks := 1, order := 0, daddr := 0, digest := [] }
def cur (ph : Nat) : Curtain := { num := 6, dir := 0, model := 9, epoch := 1, aver := 0, cues := [1, 2, 3, 4, 5], entries := [pc], members := [0, 2], phase := ph, wings := [700] }
def sCur (ph : Nat) (k : Option Cue) : State :=
  { ((sMgr [(9, m9)]).setField Reg.TIM_STATUS 29 1 0) with curtain := { (sMgr [(9, m9)]).curtain with runs := [(6, cur ph)], queue := [cq] }, time := { s0.time with cues := k.toList } }
def kc (action sub arg : Nat) : Option Cue := some { time := 0, action := action, owner := 2, sub := sub, late := false, role := 0, arg := arg }

theorem witness_CurtainManagement : let s := { sCur 1 none with curtain := { (sCur 1 none).curtain with runs := [] } }
    s.isManager = true ∧ s.curtain.queue.find? s.mayDequeue = some cq ∧ s.model? cq.model = some m9 ∧ 64 ≤ (zeros 64).length ∧ 1 < 256 ∧
    (∀ c ∈ s.curtain.runs, c.1 = fieldAt (zeros 64) 8 4 → c.2.phase = 0) ∧
    ¬(fieldAt (zeros 64) 6 1 = 0 ∧ fieldAt (zeros 64) 24 8 = 0 ∧ fieldAt (zeros 64) 48 8 = 0 ∧ 5 = 0) ∧
    (sCur 1 none).run? 6 = some (cur 1) ∧ (sCur 1 none).isManager = true ∧
    (sCur 1 none).now ≤ (cur 1).cues.getD 2 0 + 1000000 ∧ 0 < (sCur 1 none).now + 1000000 ∧ (sCur 1 none).roleAt 6 = 0 ∧ 2 ≠ (sCur 1 none).roleAt 6 ∧
    (sCur 1 none).roleAt 6 ∉ [2, 3] ∧ (sCur 1 none).roleAt 6 ∈ [0, 2] ∧
    ({ sCur 1 none with curtain := { (sCur 1 none).curtain with runs := [(6, { cur 6 with fenced := true })] } } : State).run? 6 = some { cur 6 with fenced := true } := by
  decide +kernel

/-- The cue of curtain 6 taken in a state. -/
def taken6 (s : State) (action sub : Nat) : Option State := s.takeCue action sub (6 % 2 ^ 32) (some (s.roleAt 6))
/-- An adapter curtain beyond its tenant's granules, while a granule is being zeroed. -/
def cDry : Curtain := { cur 1 with dir := 2 }
def sDry : State :=
  let s1 := sCur 1 (kc cueCurtain 1 6)
  { s1 with loft := { s1.loft with dirty := [(700, 0)] }, curtain := { s1.curtain with runs := [(6, cDry)] } }

theorem witness_CurtainPhases_waits : sDry.run? 6 = some cDry ∧ ((taken6 sDry cueCurtain 1).any fun u => decide (u.model? 9 = some m9) &&
    ((u.putModel 9 m9).allocWings cDry m9).isNone && (u.putModel 9 m9).zeroing) = true := by decide +kernel

theorem witness_CurtainPhases : (sCur 1 none).run? 6 = some (cur 1) ∧ (cur 1).num = 6 ∧
    ((taken6 (sCur 1 (kc cueCurtain 1 6)) cueCurtain 1).any fun u => decide (u.model? 9 = some m9) &&
      ((u.putModel 9 { m9 with holdTrain := true }).allocWings (cur 1) m9).isSome) = true ∧
    (taken6 (sCur 2 (kc cueCurtain 2 6)) cueCurtain 2).isSome = true ∧ (taken6 (sCur 4 (kc cueCurtain 3 6)) cueCurtain 3).isSome = true ∧
    ((taken6 (sCur 5 (kc cueCommit 0 6)) cueCommit 0).any fun u => decide (u.model? 9 = some m9)) = true ∧ (∀ x ∈ (cur 5).members, x ∈ [0, 2]) ∧
    (∃ x ∈ (cur 5).members, x ∉ [0]) ∧ (cur 5).mask = none ∧ (taken6 (sCur 6 (kc cueCurtain 4 6)) cueCurtain 4).isSome = true ∧ (cur 6).fenced = false ∧
    (taken6 (((sCur 4 (kc cueCurtain 5 6))).cueArrives none cueCurtain 5 (6 % 2 ^ 32) 0) cueCurtain 5).isSome = true ∧
    (taken6 (((sCur 5 (kc cueCurtain 5 6))).cueArrives none cueCurtain 5 (6 % 2 ^ 32) 0) cueCurtain 5).isSome = true ∧
    (taken6 ((sCur 4 none).cueArrives (some 0) cueCurtain 5 (6 % 2 ^ 32) 0) cueCurtain 5).isSome = true ∧ (sCur 1 none).dueCue = none := by decide +kernel

/-- The curtain with the chunk asked for, with it written, with its digest known; revocation; an epoch that is not current. -/
def cAsk : Curtain := { cur 4 with pieces := [(1, { chunks := [(0, { asked := some 2 })] })] }
def cDone : Curtain := { cur 4 with pieces := [(1, { chunks := [(0, { done := true })] })] }
def sChunk (c : Curtain) : State := { sCur 4 none with curtain := { (sCur 4 none).curtain with runs := [(6, c)] }, clk := 10 ^ 12 }
def pcSum : Piece := { pc with digest := sha3 (pieceRead (sChunk cDone) cDone pc) }
def cSum : Curtain := { cDone with entries := [pcSum] }
def mLive : Model := { m9 with live := [{ number := 3, grans := [800] }], current := 4 }
def rStep : StepRun := { run0 with epoch := 3 }
def sEp (runs : Tab StepRun) : State := { sMgr [(9, mLive)] with serve := { s0.serve with steps := runs } }
def argRev : Nat := 5 + 1 * 2 ^ 16 + 9 % 2 ^ 32 * 2 ^ 32

theorem witness_RiggingAndEpochs_chunks : (sChunk cAsk).run? 6 = some cAsk ∧
    cAsk.entries.find? (fun p => p.piece == 1 && p.dst == (sChunk cAsk).roleAt 6) = some pc ∧
    (let ck := Tab.get {} (Tab.get {} cAsk.pieces 1).chunks 0
     ck.done = false ∧ ck.asked ≠ none ∧ ck.acks = [] ∧ ck.parked = none ∧ 0 < pc.chunks ∧ ck.at_ + 1000 * cAsk.chunkTo ≤ (sChunk cAsk).clk) ∧
    5 ≤ ({ cAsk with phase := 5 } : Curtain).phase ∧ cAsk.num = 6 ∧ pc.src ≠ (sChunk cAsk).roleAt 6 := by decide +kernel

theorem witness_RiggingAndEpochs_pieces : (sChunk cDone).run? 6 = some cDone ∧ cDone.num = 6 ∧
    cDone.entries.find? (fun p => p.piece == 1 && p.dst == (sChunk cDone).roleAt 6) = some pc ∧ (Tab.get {} cDone.pieces 1).verified = false ∧
    cDone.phase = 4 ∧ cDone.rebuild = false ∧ pc.digest ≠ zeros 32 ∧ (∀ k, k < pc.chunks → (Tab.get {} (Tab.get {} cDone.pieces 1).chunks k).done = true) ∧
    sha3 (pieceRead (sChunk cDone) cDone pc) ≠ pc.digest ∧ (sChunk cSum).run? 6 = some cSum ∧
    cSum.entries.find? (fun p => p.piece == 1 && p.dst == (sChunk cSum).roleAt 6) = some pcSum ∧ pcSum.digest ≠ zeros 32 ∧
    sha3 (pieceRead (sChunk cSum) cSum pcSum) = pcSum.digest := by decide +kernel

theorem witness_RiggingAndEpochs_epochs :
    (((sCur 0 (kc cueRevoke 0 argRev)).cueArrives none cueRevoke 0 argRev 0).takeCue cueRevoke 0 argRev (some ((sCur 0 none).roleAt 9))).isSome = true ∧
    (((sCur 0 none).cueArrives (some 0) cueRevoke 0 argRev 0).takeCue cueRevoke 0 argRev (some ((sCur 0 none).roleAt 9))).isSome = true ∧
    (sEp []).model? 9 = some mLive ∧ mLive.live.find? (fun e => e.number == 3) = some { number := 3, grans := [800] } ∧ mLive.current ≠ 3 ∧
    mLive.unloading = false ∧ mLive.tenant < 256 ∧
    (sEp []).epochPins 9 3 = 0 ∧ (sEp [(9, rStep)]).epochPins 9 3 ≠ 0 ∧ 1 ≠ (sEp []).roleAt 9 := by decide +kernel

/-! ### Training and collectives -/

/-- A step of job 5: step 1, one sequence of 32 tokens, micro-batches of 1,024 tokens. `fl` are its flags. -/
def bTrain (fl : Nat) : List Byte := leBytes 4 5 ++ leBytes 2 fl ++ zeros 2 ++ leBytes 8 1 ++ leBytes 4 1 ++ leBytes 4 1024 ++ zeros 40 ++ leBytes 4 1 ++ zeros 20 ++
  leBytes 2 1 ++ [1#8, 1#8] ++ zeros 4
def seqTbl : List Byte := zeros 8 ++ leBytes 4 32 ++ zeros 4
def sTr (m : Model) (fl : Nat) : State := withMsg (sMgr [(9, m)]) 1 (dsc 0x10 1 9 0 (bTrain fl) seqTbl)
def iTr (m : Model) (fl : Nat) : Item := itm (sTr m fl) 1 0x10
def uTr (m : Model) (fl : Nat) : State := itemStarts (sTr m fl) 1 0 0x10 (iTr m fl)

/-- The layer count of a model is an open value; here it is at least 1. -/
theorem witness_TrainingStepAndPipeline_accept (h : 1 ≤ Config.layerCount dModel) : (startableItem (sTr m9 1) 1 0 0x10).isSome = true ∧
    (uTr m9 1).model? (State.keyOf 1 (Desc.model (iTr m9 1).desc)) = some m9 ∧ m9.holdTrain = false ∧ m9.tenant = 1 ∧ m9.kind = 1 ∧ (uTr m9 1).roleOf 1 ∈ m9.members ∧
    Desc.adapter (iTr m9 1).desc = 0 ∧ Desc.epoch (iTr m9 1).desc = 0 ∧ Desc.fmt (iTr m9 1).desc = 0 ∧ Desc.fmtSet (iTr m9 1).desc = false ∧
    Desc.body (iTr m9 1).desc = bTrain 1 ∧ stepBodyOk m9 (bTrain 1) = true ∧ seqTableOk seqTbl 1 1024 = true ∧ (iTr m9 1).payload = some seqTbl ∧
    (stepOf none 0 (bTrain 1) seqTbl).micros.length ≤ 4096 ∧ m9.gen = false ∧ (uTr m9 1).job? (State.keyOf 1 5) = none ∧ startBit (bTrain 1) = true ∧ startBit (bTrain 0) = false ∧
    stepBodyOk m9 (bTrain 0) = true ∧ (startableItem (sTr m9 0) 1 0 0x10).isSome = true ∧
    ((sTr { m9 with holdTrain := true } 1).takeRow 1 0 0x10).model? (State.keyOf 1 (Desc.model (iTr { m9 with holdTrain := true } 1).desc)) = some { m9 with holdTrain := true } := by
  have b : ∀ fl, fl < 2 → stepBodyOk m9 (bTrain fl) = true := by
    intro fl hf
    have e : m9.desc = dModel := rfl
    have l : fl = 0 ∨ fl = 1 := by omega
    unfold stepBodyOk
    simp only [Bool.and_eq_true, e]
    refine ⟨?_, decide_eq_true ?_⟩
    · rcases l with l | l <;> subst l <;> (repeat' apply And.intro) <;> decide +kernel
    · have p : fieldAt (bTrain fl) 90 1 * fieldAt (bTrain fl) 88 2 = 1 := by rcases l with l | l <;> subst l <;> decide +kernel
      rw [p]; exact h
  refine ⟨by decide +kernel, by decide +kernel, by decide +kernel, by decide +kernel, by decide +kernel, by decide +kernel, by decide +kernel, by decide +kernel,
    by decide +kernel, by decide +kernel, by decide +kernel, b 1 (by decide), by decide +kernel, by decide +kernel, by decide +kernel, by decide +kernel,
    by decide +kernel, by decide +kernel, by decide +kernel, b 0 (by decide), by decide +kernel, by decide +kernel⟩

/-- A running step with a table of one entry for each action, where those with a number below `k` have begun. -/
def pe (a : Nat) : PipeEnt := { offset := 0, action := a, vstage := 0, chunk := 0, mb := 0, lchunk := 0, slot := 0 }
def xRun (k : Nat) : StepItem := { p := 1, body := bTrain 1, micros := [], total := 32, t0 := some 0, table := (List.range 7).map pe, begun := (List.range k).map pe, norm := some (0#32, 0#32, 0), maxima := some [] }
def jRun (x : StepItem) : Job := { tenant := 1, model := 9, fixed := [], last := 0, anchors := [], run := some x }
def sJob (x : StepItem) : State := (sMgr [(9, m9)]).setJob 5 (jRun x)
def due (k a : Nat) (ok : PipeEnt → Bool := fun _ => true) : Bool :=
  let s := sJob (xRun k)
  decide (s.stepRun 5 = some (jRun (xRun k), xRun k)) && decide (s.closing 5 = some (jRun (xRun k), xRun k)) && decide (dueEntry s (xRun k) a ok = some (pe a))
/-- The step that runs, its norm reduced; the one before it, updating. -/
def jNext : Job := { tenant := 1, model := 9, fixed := [], last := 0, anchors := [], run := some (xRun 6) }

theorem witness_TrainingStepAndPipeline_pipeline : let s := sCur 0 (kc cuePipeline 0 State.sramBase)
    let t := s.setJob 5 jNext
    (∃ c ∈ s.time.cues, c.action = cuePipeline ∧ c.arg = State.sramBase ∧ c.role = s.roleAt 5) ∧
    ((s.takeCue cuePipeline 0 State.sramBase (some (s.roleAt 5))).any fun u => decide (u.model? 9 = some m9) && decide (u.job? 5 = none)) = true ∧
    m9.holdTrain = false ∧ ((t.takeCue cuePipeline 0 State.sramBase (some (t.roleAt 5))).any fun u => decide (u.job? 5 = some jNext)) = true ∧
    jNext.tail = none ∧ jNext.run = some (xRun 6) ∧ (xRun 6).normed = true ∧ startBit (Desc.body []) = false := by
  decide +kernel

theorem witness_TrainingStepAndPipeline_entries :
    due 0 0 (fun e => (jRun (xRun 0)).updated e.lchunk) = true ∧
    due 1 1 (fun e => ([[]].all fun (q : List (Word32 × List Word32)) => decide (q.length ≤ (e.chunk + 1) * fieldAt (xRun 1).body 20 4)) && (xRun 1).forward e) = true ∧
    due 2 2 (fun e => ((xRun 2).begun.any fun g => g.action == 1 && g.lchunk == e.lchunk && g.mb == e.mb && g.chunk == e.chunk) &&
      !((xRun 2).table.any fun g => g.action == 2 && g.lchunk == e.lchunk && g.mb == e.mb && decide (e.chunk < g.chunk) && !(xRun 2).begun.elem g)) = true ∧
    due 3 3 = true ∧ due 5 5 = true ∧ due 6 6 = true ∧ due 4 4 = true ∧
    (∀ g ∈ (xRun 4).table, g.action = 4 → g.lchunk < (pe 4).lchunk → g ∈ (xRun 4).begun) ∧ tbit (fieldAt (xRun 4).body 4 2) 3 = false ∧
    (xRun 4).norm ≠ none ∧ (xRun 4).maxima ≠ none ∧ (xRun 4).skipped = false ∧ (sJob (xRun 4)).curtain.runs = [] ∧
    dueEntry (sJob { xRun 4 with skipped := true }) { xRun 4 with skipped := true } 4 = some (pe 4) := by decide +kernel

/-- An EARLY step whose mask of layer chunk 0 is there. -/
def xEarly : StepItem := { xRun 4 with body := bTrain 8, masks := [(0, [true])] }
theorem witness_TrainingStepAndPipeline_early : (sJob xEarly).closing 5 = some (jRun xEarly, xEarly) ∧ dueEntry (sJob xEarly) xEarly 4 = some (pe 4) ∧
    tbit (fieldAt xEarly.body 4 2) 3 = true ∧ Tab.find? xEarly.masks (pe 4).lchunk ≠ none := by decide +kernel

/-- A plan for modules 0 and 2: a direct exchange with a tolerance. -/
def pl (op algo : Nat) : CollPlan := { cid := 12, op := op, all := false, anchor := 0, int := false, group := [0, 2], conductor := 0, count := 64, owners := [], src := 0, dst := 0, algo := algo, gather := 2, slots := [(1, 2)], tol := some 3, report := 9, root := 0, cap := 0, recSize := 0, routing := 0, area := 0, reps := [], signals := [], use := .plain }
def cRun (op algo : Nat) (m : Option (List Bool)) : CollRun := { plan := pl op algo, role := 0, mask := m }
def sColl (c : CollRun) (now : Nat) : State := { (sMgr []) with coll := { runs := [(State.collKey 0 12, c)] }, now := now }

theorem witness_CollectiveSlots : s0.collRun? (State.collKey 0 12) = none ∧ (s0.planned (pl 2 2)).cid = 12 ∧ (s0.planned (pl 2 2)).rankOf 0 ≠ none ∧
    (s0.planned (pl 2 2)).ok = true ∧
    (((s0.planned (pl 2 2)).slots.foldl (fun (r : Option State) (x : Nat × Nat) => r.bind fun s => s.addCue x.1 cueSlot 2 0 0 12) (some s0)).any fun u => decide (u.dueCue = none)) = true ∧
    ((sCur 0 (kc cueSlot 0 12)).takeCue cueSlot 0 12 (some 0)).isSome = true ∧ (sColl (cRun 2 2 none) 6).collRun? (State.collKey 0 12) = some (cRun 2 2 none) ∧
    (cRun 2 2 none).plan.deadline 1 = some 6 ∧ (cRun 2 2 none).done = false ∧ 6 ≤ (sColl (cRun 2 2 none) 6).now ∧ (sColl (cRun 2 2 none) 5).now < 6 ∧
    (sColl (cRun 2 2 none) 5).coll.loop = [] ∧ (cRun 2 2 none).plan.op = 2 ∧ (cRun 2 2 none).plan.algo = 2 ∧
    (cRun 2 2 none).role = (cRun 2 2 none).plan.conductor ∧ (cRun 2 2 none).mask = none ∧ (cRun 2 2 none).plan.tol ≠ none ∧
    (cRun 2 2 none).plan.report ≤ (sColl (cRun 2 2 none) 9).now ∧ (sColl (cRun 2 2 none) 8).now < (cRun 2 2 none).plan.report := by decide +kernel

theorem witness_CollectiveSlots_switch :
    (sColl (cRun 1 5 (some [true, true])) 6).collRun? (State.collKey 0 12) = some (cRun 1 5 (some [true, true])) ∧
    (cRun 1 5 (some [true, true])).mask ≠ none ∧ (cRun 1 5 (some [true, true])).done = false ∧ (sColl (cRun 1 5 (some [true, true])) 6).coll.loop = [] ∧
    (cRun 1 5 (some [true, true])).aggDeadline ≤ (sColl (cRun 1 5 (some [true, true])) 6).now ∧
    (sColl (cRun 1 5 (some [true, true])) 5).now < (cRun 1 5 (some [true, true])).aggDeadline ∧
    (let c := cRun 1 5 (some [true, false])
     (c.aggUnits ((sColl c 6).collLimit c.plan) c.rank).filter fun u =>
       !c.repair.elem u.1 && decide (((Tab.find? c.agg u.1).map (·.nmem)).getD 0 ≠ c.others.length)) = [] := by decide +kernel

/-! ### The fabric -/

/-- Module 2 is a reachable member, port 3 is up toward it and is an up path; tenant 1 owns the fabric-visible granule 512. -/
def sFab : State :=
  let s1 := ((((sHost.setField (Reg.FAB_PST 3) 0 4 4).setField (Reg.FAB_MEMB 0) 2 1 1).setPeerState 2 1).setField (Reg.FAB_PEER 2) 16 13 2).pathBit 2 3 true
  s1.setGran 512 (State.mkGran 1 1 true false false false 0)

/-- A frame of module 2 to this one as it arrives on port 3. -/
def arr (f : Frame) : Arrival :=
  { port := 3, macsec := true, udp := sFab.regField Reg.FAB_CFG 16 16, ipsrc := sFab.fabAddr 2 3, ce := false, bytes := Frame.bytes (sFab.regN Reg.FAB_DOMAIN) { f with plane := 3 } }
def fr (type cls psn : Nat) (area payload : List Byte) : Frame :=
  { type := type, cls := cls, src := 2, dst := 0, tenant := if cls ≤ 2 then 1 else 0, plane := 3, psn := psn, area := area, payload := payload }

/-- What `GoodFrame` asks, as a check. -/
def goodOk (s : State) (a : Arrival) : Bool :=
  let f := Frame.parse a.bytes
  decide (a.port < 32) && decide (s.linkState a.port = 4) && a.macsec && !(arrived s a).stranger a f &&
  !malformed (arrived s a).payLimit a.bytes

theorem good_of {s : State} {a : Arrival} (h : goodOk s a = true) : GoodFrame s a (Frame.parse a.bytes) := by
  simp only [goodOk, Bool.and_eq_true, decide_eq_true_eq, Bool.not_eq_true'] at h
  exact ⟨h.1.1.1.1, rfl, h.1.1.1.2, h.1.1.2, h.1.2, h.2⟩

/-- Is a frame valid, of its type and with its subtype. -/
def rowIs (f : Frame) (type : Nat) (sub : Option (Nat × Nat)) : Bool :=
  goodOk sFab (arr f) && decide ((Frame.parse (arr f).bytes).type = type) && sub.all fun x => fieldAt (Frame.parse (arr f).bytes).area x.1 1 == x.2

def aWrite : List Byte := leBytes 8 0x40000000 ++ leBytes 4 7 ++ leBytes 4 0 ++ zeros 8
def aRead : List Byte := leBytes 8 0x40000000 ++ leBytes 4 64 ++ leBytes 4 7 ++ zeros 8
def aAtom : List Byte := leBytes 8 0x40000000 ++ [0#8, 1#8] ++ zeros 14
def aColl (sub op : Nat) : List Byte := leBytes 8 12 ++ leBytes 1 sub ++ leBytes 1 op ++ leBytes 2 1 ++ zeros 4 ++ zeros 4 ++ leBytes 2 1 ++ zeros 2
def aMir (sub : Nat) : List Byte := leBytes 1 sub ++ zeros 23
def aCtrl (sub a b c : Nat) : List Byte := State.ctrlArea sub a b c
def fWrite : Frame := fr 1 0 1 aWrite (zeros 15 ++ [9#8])

theorem witness_SequencedAndDroppedFrames_rows : rowIs fWrite 1 none = true ∧ rowIs (fr 2 0 1 aRead []) 2 none = true ∧ rowIs (fr 4 0 1 aAtom (zeros 16)) 4 none = true ∧
    (∀ sub ∈ [1, 3, 4, 5, 6, 7, 8, 9], rowIs (fr 10 3 1 (aColl sub 2) (zeros 8)) 10 (some (8, sub)) = true) ∧
    (∀ sub ∈ [3, 4, 5, 7, 8, 9, 6], rowIs (fr 11 6 1 (aMir sub) []) 11 (some (0, sub)) = true) ∧ rowIs (fr 8 4 1 (zeros 24) []) 8 none = true := by decide +kernel

theorem witness_UnsequencedRows_rows : rowIs (fr 3 0 0 (zeros 24) []) 3 none = true ∧ rowIs (fr 5 0 0 (zeros 24) []) 5 none = true ∧
    rowIs (fr 6 0 0 (leBytes 4 5 ++ [1#8] ++ zeros 19) []) 6 none = true ∧ rowIs (fr 7 7 0 (zeros 24) []) 7 none = true ∧
    rowIs (fr 9 4 0 (zeros 12 ++ leBytes 2 0 ++ leBytes 2 1 ++ zeros 8) []) 9 none = true ∧
    (∀ sub ∈ [1, 2, 3, 4, 5, 6, 7], rowIs (fr 12 7 0 (aCtrl sub 2 1 1) []) 12 (some (0, sub)) = true) ∧
    rowIs (fr 10 3 0 (aColl 2 2) (zeros 8)) 10 (some (8, 2)) = true ∧ rowIs (fr 11 6 0 (aMir 1) []) 11 (some (0, 1)) = true ∧
    rowIs (fr 11 6 0 (aMir 2) []) 11 (some (0, 2)) = true := by decide +kernel

/-- A flow of this module to module 2 that awaits its RESYNC_ACK. -/
def sSync : State := sFab.setFlow (flowKey 0 2 2) { fepoch := 1, syncing := true }
theorem witness_UnsequencedRows_resync : let a := arr (fr 12 7 0 (aCtrl 7 2 1 1) [])
    goodOk sSync a = true ∧ ((heard sSync a (Frame.parse a.bytes)).flow (flowKey 0 2 2)).syncing = true ∧
    fieldAt (Frame.parse a.bytes).area 16 8 = ((heard sSync a (Frame.parse a.bytes)).flow (flowKey 0 2 2)).fepoch := by decide +kernel

/-- An ACK with a reserved byte that is not 0. -/
def aBad : Arrival := arr (fr 7 7 0 (zeros 6 ++ [1#8] ++ zeros 17) [])
theorem witness_SequencedAndDroppedFrames_dropped : s0.linkState 3 ≠ 4 ∧ sFab.linkState 3 = 4 ∧
    (∀ f ∈ [fWrite, fr 7 7 0 (zeros 24) []], (Frame.parse (arr f).bytes).type = f.type ∧ ({ arr f with macsec := false } : Arrival).macsec = false ∧
      let a := { arr f with udp := 1 }; a.macsec = true ∧ (arrived sFab a).stranger a (Frame.parse a.bytes) = true) ∧
    (Frame.parse aBad.bytes).type = 7 ∧ aBad.macsec = true ∧ (arrived sFab aBad).stranger aBad (Frame.parse aBad.bytes) = false ∧
    malformed (arrived sFab aBad).payLimit aBad.bytes = true := by decide +kernel

/-- What `InOrder` asks, as a check. -/
def orderOk (s : State) (a : Arrival) : Bool :=
  let f := Frame.parse a.bytes
  let i := (heard s a f).inFlow (flowKey f.src f.dst f.cls)
  goodOk s a && decide (f.fepoch = i.fepoch) && decide (f.psn = i.expect) && i.held.isEmpty && i.mir.isNone && decide ((heard s a f).pairState ≠ 7)

theorem order_of {s : State} {a : Arrival} (h : orderOk s a = true) : InOrder s a (Frame.parse a.bytes) := by
  simp only [orderOk, Bool.and_eq_true, decide_eq_true_eq, List.isEmpty_iff, Option.isNone_iff_eq_none] at h
  exact ⟨good_of h.1.1.1.1.1, h.1.1.1.1.2, h.1.1.1.2, h.1.1.2, h.1.2, h.2⟩

def hd (f : Frame) : State := heard sFab (arr f) (Frame.parse (arr f).bytes)

theorem witness_WriteFrameStores : orderOk sFab (arr fWrite) = true ∧ (Frame.parse (arr fWrite).bytes).payload ≠ [] ∧
    okIs ((hd fWrite).access (Frame.parse (arr fWrite).bytes) 0x40000000 16 true) 0x40000000 = true ∧ (hd fWrite).repairHolds 0x40000000 16 = false ∧
    State.gMir ((hd fWrite).granAt 0x40000000) = false ∧
    isOk ((hd fWrite).access (Frame.parse (arr (fr 1 0 1 (leBytes 8 0x50000000 ++ zeros 16) (zeros 16))).bytes) 0x50000000 16 true) = false ∧
    orderOk sFab (arr (fr 1 0 1 (leBytes 8 0x50000000 ++ zeros 16) (zeros 16))) = true := by decide +kernel

def fAtom : Frame := fr 4 0 1 aAtom (leBytes 8 3 ++ zeros 8)
def aRec : AtomRec := { cls := 0, psn := 1, old := 4, poison := false }
def sARec : State := sFab.putAtomRec (Frame.parse (arr fAtom).bytes) aRec
theorem witness_ReadAndAtomicFrames : orderOk sFab (arr (fr 2 0 1 aRead [])) = true ∧ orderOk sFab (arr fAtom) = true ∧ fieldAt (Frame.parse (arr fAtom).bytes).area 9 1 = 1 ∧
    (hd fAtom).atomRec? (Frame.parse (arr fAtom).bytes) = none ∧ okIs ((hd fAtom).access (Frame.parse (arr fAtom).bytes) 0x40000000 8 true) 0x40000000 = true ∧
    (hd fAtom).repairHolds 0x40000000 8 = false ∧ (hd fAtom).poisonedIn 0x40000000 8 = false ∧ orderOk sARec (arr fAtom) = true ∧
    (heard sARec (arr fAtom) (Frame.parse (arr fAtom).bytes)).atomRec? (Frame.parse (arr fAtom).bytes) = some aRec := by decide +kernel

/-- Operations in flight: a read with a gap, a flow to be acknowledged, a frame not acknowledged, a path on hold, a rate. -/
def rr : ReadRun := { cls := 0, dst := 2, tenant := 1, addr := 0x1000, len := 64, base := 0x1000, got := [(0, 16)], at_ := 0, timed := true, psn := 1, core := 0, part := 0, stage := 0, va := 0 }
def sf : SentFrame := { frame := { fWrite with src := 0, dst := 2 }, plane := some 3, issued := 0, at_ := 0 }
def sOp (clk losses : Nat) : State :=
  let s1 := ((sFab.setIn (flowKey 2 0 0) { firstAt := some 0 }).setFlow (flowKey 0 2 0) { unacked := [sf] }).setPath 2 3 { losses := losses, hold := some 0, probe := some 0 }
  { s1 with clk := clk, fab := { s1.fab with reads := [(1, rr)], rates := [(2, { rate := 0x43000000#32, alpha := 0#32, cutAt := none, incAt := 0 })] } }

theorem witness_FabricTimersAndLoss_ops : Tab.find? (sOp 0 0).fab.reads 1 = some rr ∧ firstGap rr.len rr.got = some (16, 48) ∧ rr.timed = true ∧
    (sOp 0 0).clk < rr.at_ + (sOp 0 0).ackTo ∧ rr.at_ + (sOp 1000000 0).ackTo ≤ (sOp 1000000 0).clk ∧
    ((sOp 0 0).inFlow (flowKey 2 0 0)).firstAt = some 0 ∧ ((sOp 0 0).flow (flowKey 0 2 0)).unacked.find? (fun x => x.frame.psn == 1) = some sf ∧
    sf.plane = some 3 ∧ sf.seen = false ∧ (sOp 0 0).flowOpen (flowKey 0 2 0) = true ∧ sf.at_ + (sOp 1000000 0).ackTo ≤ (sOp 1000000 0).clk ∧
    ((sOp 1000000 0).path 2 3).losses < 7 ∧ ((sOp 1000000 7).path 2 3).losses = 7 ∧ (sOp 1000000 7).isPairPort 3 = false ∧ (sOp 0 0).clk < sf.at_ + (sOp 0 0).ackTo ∧
    ((sOp 0 0).path 2 3).hold = some 0 ∧ (sOp 0 0).linkState 3 = 4 ∧ ((sOp 0 0).path 2 3).probe = some 0 ∧ (Tab.find? (sOp 0 0).fab.rates 2).isSome = true := by
  decide +kernel

/-- Module 2 with an open issue, lost, or with a takeover not acknowledged. -/
def sLost (st clk : Nat) : State :=
  let s1 := ((sOp clk 0).setPeerState 2 st).setField (Reg.FAB_PEER 2) 0 13 5
  { s1 with fab := { s1.fab with repeats := [{ member := 2, failed := 4, epoch := 2, since := 0, last := 0 }] } }
theorem witness_FabricTimersAndLoss_loss : (sLost 1 0).peerState 2 = 1 ∧ openTo (sLost 1 0) 2 = [sf] ∧ (sLost 1 0).understudyOf 2 ≠ (sLost 1 0).self ∧
    max ((sLost 1 100000000).peer 2).heard sf.issued + (sLost 1 100000000).lossTo ≤ (sLost 1 100000000).clk ∧ (sLost 1 0).coll.runs = [] ∧
    (sLost 1 0).clk < max ((sLost 1 0).peer 2).heard sf.issued + (sLost 1 0).lossTo ∧ (sLost 2 0).peerState 2 = 2 ∧
    ((sLost 2 100000000).peer 2).lostAt + 5 * (sLost 2 100000000).lossTo ≤ (sLost 2 100000000).clk ∧
    (sLost 2 0).clk < ((sLost 2 0).peer 2).lostAt + 5 * (sLost 2 0).lossTo ∧
    (sLost 2 0).fab.repeats.find? (fun r => r.member == 2) = some { member := 2, failed := 4, epoch := 2, since := 0, last := 0 } := by decide +kernel

/-- A port in a link state, entered at 0. -/
def sLk (st clk : Nat) : State := { (sFab.setField (Reg.FAB_PST 3) 0 4 st).setField Reg.FAB_STATUS 29 1 1 with clk := clk, fab := { sFab.fab with cak := some (zeros 32) } }
theorem witness_LinkStates : (sLk 1 0).linkState 3 = 1 ∧ (sLk 1 0).regBit Reg.CLK_PORTBAD 3 = false ∧ (sLk 2 0).linkState 3 = 2 ∧
    (sLk 2 0).clk ≤ (sLk 2 0).linkSince 3 + 500000000 ∧ (sLk 2 500000000).linkSince 3 + 500000000 ≤ (sLk 2 500000000).clk ∧ (sLk 3 0).linkState 3 = 3 ∧
    (sLk 3 0).fab.cak ≠ none ∧ (sLk 3 0).regBit Reg.FAB_STATUS 29 = true ∧ (sLk 3 6000000000).linkSince 3 + 6000000000 ≤ (sLk 3 6000000000).clk ∧
    2 ≤ (sLk 4 0).linkState 3 ∧ (sLk 4 0).linkState 3 = 4 ∧ (sLk 4 0).logRefuses = false := by decide +kernel

/-! ### The pair, power and time -/

/-- A pair state, entered at clock 0, with a clock; partner 2; a probe sent or not. -/
def sPa (st clk : Nat) (probe : Option Nat) : State :=
  { ((sFab.setField Reg.PAI_STATUS 28 4 st).setField Reg.PAI_STATUS 0 13 2).setField Reg.PAI_CFG 0 16 5 with clk := clk, pair := { s0.pair with probeAt := probe } }
/-- The same in SPLITTING on the copying member (`lead`) or the other one, with a cue and a time of the split, or without. -/
def sPs (lead : Bool) (k : Option Cue) (split : Option Nat) : State :=
  let s := (sPa 6 0 none).setField Reg.TIM_STATUS 29 1 0
  { s with time := { s0.time with cues := k.toList }, pair := { s.pair with lead := lead, split := split } }

theorem witness_PairTimers : (sPa 0 0 none).pairState = 0 ∧ (sPa 4 0 none).pairState = 4 ∧ (sPa 1 0 none).pairState ≠ 0 ∧ (sPa 1 0 none).mirrored = true ∧
    (sPa 0 0 none).mirrored = false ∧ (sPa 1 0 none).pairState = 1 ∧ (sPa 1 0 none).pair.probeAt = none ∧ (sPa 1 16000 none).pair.beatAt + 16000 ≤ (sPa 1 16000 none).clk ∧
    (sPa 1 0 none).clk < (sPa 1 0 none).pair.beatAt + 16000 ∧
    (sPa 0 5000000000 none).pair.since + 1000000000 * (sPa 0 5000000000 none).regField Reg.PAI_CFG 0 16 ≤ (sPa 0 5000000000 none).clk ∧
    (sPa 0 0 none).clk < (sPa 0 0 none).pair.since + 1000000000 * (sPa 0 0 none).regField Reg.PAI_CFG 0 16 ∧ (sPa 2 0 none).pairState = 2 ∧
    (sPa 2 0 none).self ≤ (sPa 2 0 none).partner := by decide +kernel

theorem witness_PairTimers_higher : let s := { sPa 2 100000000000 none with regs := Tab.set 0 (sPa 2 0 none).regs Reg.FAB_SELF 7 }
    s.pairState = 2 ∧ s.pair.since + 1000000 * s.regField Reg.PAI_CFG 16 16 + 1000000 ≤ s.clk := by decide +kernel

theorem witness_TakeoverAndSplit : (∀ st ∈ [1, 5, 6], (sPa st 100000 (some 0)).pair.fencing = none ∧ (sPa st 100000 (some 0)).pair.probeAt = some 0 ∧
      0 + (sPa st 100000 (some 0)).ackTo ≤ (sPa st 100000 (some 0)).clk ∧ (sPa st 100000 (some 0)).pairState = st) ∧ (sPa 1 0 none).pair.probeAt = none ∧
    (let s := (sPa 5 0 none).setPair { (sPa 5 0 none).pair with lead := true }
     s.pairState = 5 ∧ s.pair.lead = true ∧ (s.flow (flowKey s.self s.partner 6)).unacked = []) ∧
    (sPs true none none).pairState = 6 ∧ (sPs true none none).pair.lead = true ∧ (sPs true none none).pair.split = none ∧
    (sPs true none none).cueRoom 2 (sPs true none none).partner = true ∧ (sPs true none none).now + 100000000 < 2 ^ 64 ∧
    (∀ lead, (sPs lead (kc cueSplit 0 0) (some 0)).pairState = 6 ∧ ((sPs lead (kc cueSplit 0 0) (some 0)).takeCue cueSplit 0 0).isSome = true) ∧
    (((sPs false none none).addCue 5 cueSplit 2 0 (sPs false none none).self 0).bind State.dueCue).isNone = true ∧
    ((sPs false none none).addCue 5 cueSplit 2 0 (sPs false none none).self 0).isSome = true ∧
    (sPs true none none).takeCue cueSplit 0 0 = none := by decide +kernel

/-- Power conditions of a state; a module that runs. -/
def sPw (x : PowSt) (clk : Nat) : State := { s0 with pow := x, clk := clk }
def pOn : PowSt := { en := true, vin := true, on := true, stable := [3] }

theorem witness_InputAndReset : (sPw { vin := true } 0).pow.en = false ∧ (sPw { vin := true } 0).pow.thermal = false ∧ (sPw { en := true } 0).pow.on = false ∧
    (sPw pOn 0).pow.on = true ∧ (sPw pOn 0).pow.en = true ∧ 3 ∈ (sPw pOn 0).pow.stable ∧
    (sPw { en := true, vin := true, held := true } 0).pow.held = true ∧ (sPw { en := true, vin := true, held := true } 0).pow.tbHeld = none ∧
    (sPw { en := true, vin := true, tbHeld := some 0 } 1000000000).pow.tbHeld = some 0 ∧ State.countOk 112 125000 = true ∧ State.countOk 112 125004 = false := by
  decide +kernel

/-- A running module with domain 2 on, on the bypass, at level 3 for a long time. -/
def sRun (regs : State → State) : State := { regs ((sPw { pOn with chosen := 3, stable := [], fm := some 0 } 1000000000000).setField Reg.PWR_STATUS 29 3 3) with mem := [] }
theorem witness_ClocksAndTemperature : (sRun id).pow.on = true ∧ State.fixedPll 113 = true ∧ 113 ∉ (sRun id).pow.stable ∧ Tab.get 0 (sRun id).pow.enabled 113 + 655360 ≤ (sRun id).clk ∧
    (sRun id).bootState = 0 ∧ (sRun fun s => s.setField Reg.CLK_STATUS 31 1 1).regBit Reg.CLK_STATUS 31 = true ∧ 70 ∈ State.plls ∧ State.fixedPll 70 = false ∧
    Tab.get 0 (sRun id).pow.enabled 70 + 1000000 ≤ (sRun id).clk ∧ Tab.get 0 (sRun id).pow.fails 70 < 4 ∧ State.countOk 70 103760 = true ∧ State.countOk 70 0 = false ∧
    Tab.get 0 ({ (sRun id).pow with fails := [(70, 4)] } : PowSt).fails 70 = 4 ∧ State.fmClock 70 = true ∧
    State.fmClock ((sRun fun s => s.setField Reg.CLK_FMSEL 0 8 70).regField Reg.CLK_FMSEL 0 8) = true ∧ (sRun id).pow.fm = some 0 ∧ 0 + (sRun id).fmWindow ≤ (sRun id).clk := by
  decide +kernel

def sDom : State := sRun fun s => (((s.setField Reg.PWR_DOMST 2 1 1).setField Reg.PWR_DOMREQ 2 1 1).setField (Reg.CLK_RATIO 2) 16 1 1)
theorem witness_ClocksAndTemperature_domain : sDom.pow.on = true ∧ sDom.regBit Reg.PWR_DOMST 2 = true ∧ sDom.halfOff 2 = true ∧ sDom.halfEmpty 2 = true ∧
    sDom.regBit (Reg.CLK_RATIO 2) 16 = true ∧ (∀ i, i < 26 → (([400#16][i]?).getD 0#16).toInt < State.criticalAt i) ∧
    (∃ i, i < 26 ∧ State.criticalAt i ≤ (([2000#16][i]?).getD 0#16).toInt) :=
  ⟨by decide +kernel, by decide +kernel, by decide +kernel, by decide +kernel, by decide +kernel, by decide +kernel, ⟨0, by decide +kernel⟩⟩

def sReef : State := sRun fun s => (((s.setField Reg.MEM_HBMST 31 1 1).setRegN Reg.PWR_VIN 4800).setField Reg.PWR_LIMIT 0 16 2000)
def sDiv : State := sRun fun s => (((s.setField Reg.PWR_DOMST 2 1 1).setField (Reg.CLK_RATIO 2) 0 5 4).setField (Reg.CLK_RATIO 2) 16 1 0)
/-- A half-die whose core 16 has a partition in a gap longer than its horizon. -/
def sIdle : State := (sRun id).setPart 16 0 { (s0.part 16 0) with ghost := { (s0.part 16 0).ghost with gap := some (0, 1000) } }
theorem witness_ReefAndDividers_idle : (sIdle.core 16).parts.length = 1 ∧ sIdle.rowsWait 2 = false ∧ sIdle.halfIdle 2 = true ∧ 2 ∉ sIdle.pow.idle := by
  decide +kernel

/-- A running module that is hot, over its power limit and has its power measured. -/
def sHot : State :=
  let s := ((sReef.setField Reg.PWR_LIMIT 0 16 100).setField Reg.PWR_PAVG 0 16 400).setPow { sReef.pow with overs := 15 }
  s.setRegN (Reg.PWR_TEMP 0) 2000
theorem witness_ReefAndDividers_tighten : (∀ c, c < 6 → sHot.mayTighten c = true) ∧ sHot.pow.on = true ∧ sHot.pow.chosen < 7 ∧
    sHot.regN Reg.PWR_TIGHTEN < 2 ^ 32 - 1 := by decide +kernel

theorem witness_ReefAndDividers : (sRun id).pow.chosen < 7 ∧ (sRun id).regN Reg.PWR_TIGHTEN < 2 ^ 32 - 1 ∧ sReef.pow.on = true ∧ sReef.regBit Reg.MEM_HBMST 31 = true ∧
    sReef.pow.chosen = 2 + 1 ∧ sReef.regField Reg.PWR_REEFMIN 0 3 ≤ 2 ∧ sReef.pow.since + 100000000 ≤ sReef.clk ∧ sReef.hot 50 = false ∧
    4000 ≤ sReef.regField Reg.PWR_VIN 0 16 ∧
    100 * ((500 - 300) * State.powerFactor (2 + 1) + 300 * State.powerFactor 2) ≤ 97 * sReef.regField Reg.PWR_LIMIT 0 16 * State.powerFactor (2 + 1) ∧
    sReef.regN Reg.PWR_RELAX < 2 ^ 32 - 1 ∧ sDiv.regBit Reg.PWR_DOMST 2 = true ∧ Tab.get 0 sDiv.pow.stepped 2 + 1000 ≤ sDiv.clk ∧
    sDiv.regBit (Reg.CLK_RATIO 2) 16 = false ∧ sDiv.halfOff 2 = false ∧ 2 ∉ sDiv.pow.idle ∧ sDiv.rowsWait 2 = false := by decide +kernel

/-- A module whose place 0 of the source table is a kind of source, qualified or not, in a state of the servo. -/
def sTm (kind st clk : Nat) (qs : List Nat) (tod : Option Nat) : State :=
  { ((s0.setField Reg.TIM_SRCCFG 6 2 kind).setField Reg.TIM_STATUS 30 2 st).setField Reg.TIM_HOLD 0 16 9 with clk := clk, now := 50, time := { s0.time with qualified := qs, tod := tod } }

theorem witness_TimeServo_protection : let s := (sTm 1 0 0 [0] none).setField (Reg.HST_PST 0) 30 1 1
    s.srcKind 0 = 1 ∧ s.regField Reg.TIM_SRCCFG 0 6 = 0 ∧ s.regBit (Reg.HST_PST 0) 30 = true ∧ (sTm 2 0 0 [0] none).srcKind 0 = 2 := by decide +kernel

theorem witness_TimeServo : (sTm 1 0 0 [0] none).selected = 0 ∧ (sTm 1 0 0 [0] none).srcKind 0 = 1 ∧ (sTm 1 0 0 [0] none).timeState = 0 ∧
    ((50 : Int) - (2000000 : Nat)).natAbs > 1000000 ∧ (sTm 1 3 0 [0] none).timeState = 3 ∧ (50 : Int) - (2000 : Nat) < -1000 ∧ (sTm 1 1 0 [0] none).timeState = 1 ∧
    (sTm 1 0 0 [] none).selected ≠ 0 ∧ (sTm 3 0 0 [0] (some 0)).selected = 0 ∧ (sTm 3 0 0 [0] (some 0)).srcKind 0 = 3 ∧ (sTm 3 0 0 [0] (some 0)).time.tod = some 0 ∧
    (sTm 3 0 0 [0] none).time.tod = none ∧ (sTm 1 2 9000000 [0] none).timeState = 2 ∧
    (sTm 1 2 9000000 [0] none).time.holdAt + 1000000 * (sTm 1 2 9000000 [0] none).regField Reg.TIM_HOLD 0 16 ≤ (sTm 1 2 9000000 [0] none).clk ∧
    (sTm 1 2 9000000 [0] none).regN Reg.TIM_UNLOCKS < 2 ^ 32 - 1 ∧
    (sTm 1 2 0 [0] none).clk < (sTm 1 2 0 [0] none).time.holdAt + 1000000 * (sTm 1 2 0 [0] none).regField Reg.TIM_HOLD 0 16 := by decide +kernel

/-- A sheet full of management's entries, and one with room. -/
def cc (a : Nat) : Cue := { time := 9, action := cueConfig, owner := 0, sub := 0, late := false, role := 0, arg := a }
def sSheet (cs : List Cue) : State := { s0 with time := { s0.time with cues := cs } }
theorem witness_SourcesAndCues : (sTm 1 0 0 [] none).srcKind 0 ≠ 0 ∧ 0 ∉ (sTm 1 0 0 [] none).time.qualified ∧ (sTm 3 0 0 [] (some 4)).time.tod.isSome = true ∧
    (sTm 1 1 0 [0] none).selected = 0 ∧ (sTm 1 1 0 [0] none).timeState = 1 ∧ (∀ i ∈ (sTm 1 1 0 [0] none).time.qualified, i < 3 → i ≠ 0 → (sTm 1 1 0 [0] none).srcKind i = 0) ∧
    (sSheet []).cueRoom 0 (sSheet []).self = true ∧ (sSheet []).time.cues.length < 1023 ∧ (sSheet ((List.range 8).map cc)).cueRoom 0 0 = false := by decide +kernel

/-! ### Tenant reset, configuration, firmware -/

/-- A RESET on queue 0; a log at its reserve; a tenant in reset. -/
def sRst (t : Nat) : State := withMsg sHost t (dsc 0x34 1 0 0 [] [])
def sLogFull : State := sHost.setRegN Reg.MGT_LOGHEADL 262000
def rrun : ResetRun := { t0 := 0, absent := false, own := false }
def sIn : State := sHost.setHost { sHost.host with resets := [(1, rrun)] }

theorem witness_TenantReset : (startableItem (sRst 0) 0 0 0x34).isSome = true ∧ (startableItem (sRst 1) 1 0 0x34).isSome = true ∧ startableItem sHost 1 0 0x34 = none ∧
    sLogFull.logRefuses = true ∧ sHost.tntState 3 = 0 ∧ sHost.logRefuses = false ∧ sHost.tntState 1 ≠ 0 ∧ Tab.find? sIn.host.resets 1 = some rrun ∧
    Tab.find? sHost.host.resets 1 = none ∧ rrun.absent = false ∧ (∀ q, q < 16 → sIn.eventQp 1 q = none) ∧ sIn.regN (Reg.TNT_RESETS 1) < 2 ^ 32 - 1 ∧
    sIn.resetWritten 1 = true ∧ (sIn.setHq 1 0 { items := [{ noItem with done := some { status := stReset } }] }).resetWritten 1 = false ∧
    Tab.find? (sIn.setHq 1 0 { items := [{ noItem with done := some { status := stReset } }] }).host.resets 1 = some rrun := by
  decide +kernel

/-- A RESET on a queue of tenant 0, beside an open item; and on one without a ring. -/
def iOpen : Item := { noItem with seq := 7, kind := 0x40, payload := some [] }
def iRst : Item := { noItem with seq := 8, kind := 0x34, desc := dsc 0x34 8 0 0 [] [], payload := some [] }
def sZero (r : Option Ring) : State := sHost.setHq 0 0 { ring := r, items := [iOpen, iRst] }
theorem witness_TenantZeroReset : startableItem (sZero (some ring0)) 0 0 0x34 = some iRst ∧ ((itemStarts (sZero (some ring0)) 0 0 0x34 iRst).hq 0 0).ring ≠ none ∧
    iOpen ∈ ((itemStarts (sZero (some ring0)) 0 0 0x34 iRst).hq 0 0).items ∧ iOpen.refused = false ∧ iOpen.done = none ∧ iOpen.seq ≠ iRst.seq ∧
    startableItem (sZero none) 0 0 0x34 = some iRst ∧ ((itemStarts (sZero none) 0 0 0x34 iRst).hq 0 0).ring = none ∧
    ((itemStarts (sZero none) 0 0 0x34 iRst).hq 0 0).closed = false := by decide +kernel

/-- An IMAGE item of an operation on queue 0 of tenant 0, that carries `img` and says `n` bytes. -/
def imgHead (op : Nat) (b1 : Byte) : List Byte :=
  leBytes 2 0x4457 ++ [1#8, 0x42#8] ++ zeros 4 ++ leBytes 8 1 ++ zeros 16 ++ zeros 26 ++ leBytes 2 16 ++ zeros 4 ++ ([BitVec.ofNat 8 op, b1] ++ zeros 6)
def imgDesc (op n : Nat) (b1 : Byte) : List Byte := imgHead op b1 ++ leBytes 8 n
def imgItem (op n : Nat) (b1 : Byte) (img : List Byte) : Item := { noItem with seq := 1, kind := 0x42, desc := imgDesc op n b1, payload := some img }
def sImg (s : State) (op n : Nat) (b1 : Byte) (img : List Byte) : State := s.setHq 0 0 { ring := some ring0, items := [imgItem op n b1 img] }

theorem witness_ConfigurationAndUpdate_forms : (∀ op ∈ [1, 2, 3], startableItem (sImg sHost op 5 0 []) 0 0 (0x42 + 256 * (op + 1)) = some (imgItem op 5 0 [])) ∧
    (∀ op ∈ [1, 2, 3], startableItem (sImg sLogFull op 0 0 []) 0 0 (0x42 + 256 * (op + 1)) = some (imgItem op 0 0 [])) ∧
    fieldAt (Desc.body (imgItem 1 5 0 []).desc) 8 8 ≠ (([] : List Byte)).length ∧ allZero (sliceBytes (Desc.body (imgItem 1 0 1 []).desc) 1 7) = false ∧
    allZero (sliceBytes (Desc.body (imgItem 1 0 0 []).desc) 1 7) = true ∧ fieldAt (Desc.body (imgItem 1 0 0 []).desc) 8 8 = 0 ∧
    (itemStarts (sImg sLogFull 1 0 0 []) 0 0 0x242 (imgItem 1 0 0 [])).logRefuses = true := by decide +kernel

/-- A firmware image of the least length: one section, a key and a signature. -/
def fwBytes : List Byte := leBytes 4 0x49574643 ++ leBytes 2 1 ++ leBytes 2 1 ++ leBytes 4 (sHost.regN Reg.MGT_TYPE) ++ leBytes 4 0 ++ zeros 16 ++ leBytes 8 4244 ++
  leBytes 8 1824 ++ keyId lkey ++ zeros 4 ++ zeros 60 ++ ([1#8] ++ zeros 7 ++ leBytes 8 1824 ++ leBytes 8 0) ++ zeros 360 ++ lkey ++ zeros 2420
def uFw (up : Nat) : State := itemStarts (sImg (sHost.setUpd up) 3 4244 0 fwBytes) 0 0 0x442 (imgItem 3 4244 0 fwBytes)

theorem fwCause_zero {s : State} {b key sig : List Byte} {run : Option (List Byte)} (k0 : State.fwFormatOk b = true) (k1 : State.fwKey b = key) (k2 : sliceBytes b 0x30 16 = keyId key)
    (k3 : b.drop (fieldAt b 0x28 8) = sig) (k4 : s.confNow = none) (k5 : s.typeOk (fieldAt b 8 4) = true) (k6 : State.fwZero b 0x10 16 = true)
    (k7 : ∀ r, run = some r → inRange (field (fieldAt r 0x40 2) 0 8) (field (fieldAt r 0x40 2) 8 8) (fieldAt b 0x42 2) = true) (hr : Config.romKey 0 = keyId key)
    (hv : ∀ m, Config.mldsaVerify key m sig = true) : s.fwCause b run = 0 := by
  have k10 : (List.range 4).any (fun k => Config.romKey k == keyId key && !tbit 0 k) = true :=
    List.any_eq_true.mpr ⟨0, by decide, by rw [hr]; simp [tbit]⟩
  cases run with
  | none => simp [State.fwCause, k0, k1, k2, k3, k4, k5, k6, k10, hv]
  | some r => simp [State.fwCause, k0, k1, k2, k3, k4, k5, k6, k7 r rfl, k10, hv]

theorem leNat_leBytes8 (n : Nat) (h : n < 2 ^ 64) : leNat (leBytes 8 n) = n := by
  simp only [leBytes, leNat, BitVec.toNat_ofNat]; omega

theorem fieldAt_append {p r : List Byte} {o n : Nat} (h : o + n ≤ p.length) : fieldAt (p ++ r) o n = fieldAt p o n := by
  have l : n ≤ (p.drop o).length := by simp; omega
  simp only [fieldAt, sliceBytes, List.drop_append_of_le_length (show o ≤ p.length by omega), List.take_append_of_le_length l, List.length_append]
  rw [show n - ((p.drop o).length + r.length) = 0 by omega, show n - (p.drop o).length = 0 by omega]

/-- A configuration image or delta of any bytes on an idle queue; the checks of its contents are the hypotheses. -/
def uImg (s : State) (op row : Nat) (img : List Byte) : State := itemStarts (sImg s op img.length 0#8 img) 0 0 row (imgItem op img.length 0#8 img)

theorem hq_setHq_self (s : State) (t q : Nat) (x : HostQ) : (s.setHq t q x).hq t q = x := Tab.get_set_self _ _ _ _

theorem three {n : Nat} (h : n ∈ [1, 2, 3]) : n = 1 ∨ n = 2 ∨ n = 3 := by simpa using h

theorem img_bodyBytes (op n : Nat) (img : List Byte) (h : op ∈ [1, 2, 3]) :
    Desc.body (imgItem op n 0#8 img).desc = ([BitVec.ofNat 8 op, 0#8] ++ zeros 6) ++ leBytes 8 n := by
  have e : (imgHead op 0#8).length = 72 ∧ fieldAt (imgHead op 0#8) 58 2 = 16 ∧ (imgHead op 0#8).drop 64 = [BitVec.ofNat 8 op, 0#8] ++ zeros 6 := by
    rcases three h with e | e | e <;> subst e <;> decide +kernel
  have b : Desc.bodyLen (imgDesc op n 0#8) = 16 := by unfold Desc.bodyLen imgDesc; rw [fieldAt_append (by omega)]; exact e.2.1
  show ((imgDesc op n 0#8).drop 64).take (Desc.bodyLen (imgDesc op n 0#8)) = _
  rw [b]
  unfold imgDesc
  rw [List.drop_append_of_le_length (by omega), e.2.2]
  rfl

theorem img_body (op n : Nat) (img : List Byte) (hop : op ∈ [1, 2, 3]) (h : n < 2 ^ 64) : fieldAt (Desc.body (imgItem op n 0#8 img).desc) 8 8 = n := by
  rw [img_bodyBytes op n img hop]
  show leNat (leBytes 8 n ++ []) = n
  rw [List.append_nil]; exact leNat_leBytes8 _ h

theorem img_starts (s : State) (op n : Nat) (img : List Byte) (hop : op ∈ [1, 2, 3]) :
    startableItem (sImg s op n 0#8 img) 0 0 (0x42 + 256 * (op + 1)) = some (imgItem op n 0#8 img) ∧
    (sImg s op n 0#8 img).takeRow 0 0 (0x42 + 256 * (op + 1)) = sImg s op n 0#8 img := by
  have q : (sImg s op n 0#8 img).hq 0 0 = { ring := some ring0, items := [imgItem op n 0#8 img] } := hq_setHq_self s 0 0 _
  have r : (sImg s op n 0#8 img).takeRow 0 0 (0x42 + 256 * (op + 1)) = sImg s op n 0#8 img := by simp [State.takeRow, q]
  have l : (imgHead op 0#8).length = 72 ∧ fieldAt (imgHead op 0#8) 4 2 = 0 ∧ fieldAt (imgHead op 0#8) 3 1 = 0x42 ∧ fieldAt (imgHead op 0#8) 64 1 = op := by
    rcases three hop with e | e | e <;> subst e <;> decide +kernel
  have f : Desc.fence (imgDesc op n 0#8) = false := by
    unfold Desc.fence Desc.flags imgDesc; rw [fieldAt_append (by omega), l.2.1]; rfl
  have w : rowOf (imgDesc op n 0#8) = 0x42 + 256 * (op + 1) := by
    have k : Desc.kind (imgDesc op n 0#8) = 0x42 := by unfold Desc.kind imgDesc; rw [fieldAt_append (by omega)]; exact l.2.2.1
    have o : fieldAt (imgDesc op n 0#8) 64 1 = op := by unfold imgDesc; rw [fieldAt_append (by omega)]; exact l.2.2.2
    have g : (imgDesc op n 0#8).length = 80 := by unfold imgDesc; rw [List.length_append, l.1]; rfl
    unfold rowOf
    rw [k, o, g]
    rcases three hop with e | e | e <;> subst e <;> rfl
  refine ⟨?_, r⟩
  unfold startableItem
  rw [r, q]
  simp [State.startable, State.canStart, imgItem, noItem, f, w]

theorem uImg_regs (s : State) (op : Nat) (img : List Byte) (hop : op ∈ [1, 2, 3]) :
    (uImg s op (0x42 + 256 * (op + 1)) img).regs = s.regs ∧ (uImg s op (0x42 + 256 * (op + 1)) img).boot = s.boot := by
  unfold uImg itemStarts
  rw [(img_starts s op img.length img hop).2]
  exact ⟨rfl, rfl⟩

theorem witness_ConfigurationAndUpdate_image (img : List Byte) (hl : img.length < 2 ^ 24) (hc : (imageCause img (uImg sHost 1 0x242 img).typeCode (uImg sHost 1 0x242 img).unitId).1 = 0) :
    startableItem (sImg sHost 1 img.length 0#8 img) 0 0 0x242 = some (imgItem 1 img.length 0#8 img) ∧
    allZero (sliceBytes (Desc.body (imgItem 1 img.length 0#8 img).desc) 1 7) = true ∧ fieldAt (Desc.body (imgItem 1 img.length 0#8 img).desc) 8 8 = img.length ∧
    (uImg sHost 1 0x242 img).logRefuses = false ∧ (uImg sHost 1 0x242 img).bootState ≠ 6 ∧ (uImg sHost 1 0x242 img).boot.flash.pending = none ∧
    (imageCause img (uImg sHost 1 0x242 img).typeCode (uImg sHost 1 0x242 img).unitId).1 = 0 ∧ (uImg sHost 1 0x242 img).confNow = none := by
  have r := uImg_regs sHost 1 img (by decide)
  have l : ∀ s t : State, s.regs = t.regs → s.logRefuses = t.logRefuses ∧ s.bootState = t.bootState := fun s t h => by
    simp [State.logRefuses, State.logFree, State.reg64, State.regN, State.reg, State.bootState, State.regField, h]
  have x := l _ _ r.1
  refine ⟨(img_starts sHost 1 img.length img (by decide)).1, by rw [img_bodyBytes 1 _ img (by decide)]; rfl, img_body 1 _ img (by decide) (by omega), ?_, ?_, ?_, hc, ?_⟩
  · exact x.1.trans (by decide +kernel)
  · intro e; rw [show (uImg sHost 1 0x242 img).bootState = sHost.bootState from x.2] at e; exact absurd e (by decide +kernel)
  · rw [show (uImg sHost 1 0x242 img).boot = sHost.boot from r.2]; rfl
  · unfold State.confNow; rw [show (uImg sHost 1 0x242 img).boot = sHost.boot from r.2]; rfl

theorem witness_ConfigurationAndUpdate_delta (b d : List Byte) (hl : d.length ≤ 2 ^ 24) (h0 : (Conf.headOk b && Conf.tableOk b) = true) :
    let s := sHost.setFlash { sHost.boot.flash with slots := [(0, b)] }
    Delta.cause (Conf.parse b) d (uImg s 2 0x342 d).boot.flash.lastSeq (uImg s 2 0x342 d).typeCode (uImg s 2 0x342 d).unitId = 0 →
    startableItem (sImg s 2 d.length 0#8 d) 0 0 0x342 = some (imgItem 2 d.length 0#8 d) ∧ fieldAt (Desc.body (imgItem 2 d.length 0#8 d).desc) 8 8 = d.length ∧
    (uImg s 2 0x342 d).confNow = some (Conf.parse b) ∧ (uImg s 2 0x342 d).boot.flash.journal = [] ∧ (uImg sHost 2 0x342 d).confNow = none := by
  intro s _
  have r : ∀ s : State, (uImg s 2 0x342 d).boot = s.boot := fun s => (uImg_regs s 2 d (by decide)).2
  refine ⟨(img_starts s 2 d.length d (by decide)).1, img_body 2 _ d (by decide) (by omega), ?_, ?_, ?_⟩
  · unfold State.confNow; rw [r s]
    show (if (Conf.headOk b && Conf.tableOk b) = true then some (Conf.parse b) else none) = some (Conf.parse b)
    rw [if_pos h0]
  · rw [r s]; rfl
  · unfold State.confNow; rw [r sHost]; rfl

theorem fw_facts : State.fwFormatOk fwBytes = true ∧ State.fwKey fwBytes = lkey ∧ sliceBytes fwBytes 0x30 16 = keyId lkey ∧
    fwBytes.drop (fieldAt fwBytes 0x28 8) = zeros 2420 ∧ State.fwZero fwBytes 0x10 16 = true := by decide +kernel

/-- The same in MAINTENANCE. -/
def uFw6 : State := itemStarts (sImg (sHost.setBootState 6) 3 4244 0 fwBytes) 0 0 0x442 (imgItem 3 4244 0 fwBytes)

/-- Where the mask ROM holds the key and the open signature check says yes, the image is valid. -/
theorem witness_ConfigurationAndUpdate_firmware (hr : Config.romKey 0 = keyId lkey) (hv : ∀ m, Config.mldsaVerify lkey m (zeros 2420) = true) :
    startableItem (sImg (sHost.setUpd 0) 3 4244 0 fwBytes) 0 0 0x442 = some (imgItem 3 4244 0 fwBytes) ∧ fwBytes.length = 4244 ∧
    (uFw 0).logRefuses = false ∧ (uFw 0).bootState ≠ 6 ∧ (uFw 0).updState = 0 ∧ (uFw 1).updState ≠ 0 ∧ (uFw 0).fwCause fwBytes (some (uFw 0).boot.fwRun) = 0 ∧
    uFw6.bootState = 6 ∧ uFw6.fwCause fwBytes none = 0 := by
  have k8 : (uFw 0).boot.fwRun = [] := by decide +kernel
  have k := fun s run a b c => fwCause_zero (s := s) (run := run) fw_facts.1 fw_facts.2.1 fw_facts.2.2.1 fw_facts.2.2.2.1 a b fw_facts.2.2.2.2 c hr hv
  refine ⟨(img_starts _ 3 4244 fwBytes (by decide)).1, by decide +kernel, by decide +kernel, by decide +kernel, by decide +kernel, by decide +kernel, ?_,
    by decide +kernel, k _ none (by decide +kernel) (by decide +kernel) (fun r h => by cases h)⟩
  rw [k8]
  exact k _ (some []) (by decide +kernel) (by decide +kernel) (fun r h => by cases h; decide +kernel)

/-- MAINTENANCE, and a pending image, at a configuration image. -/
theorem witness_ConfigurationAndUpdate_maintenance : (uImg (sHost.setBootState 6) 1 0x242 []).bootState = 6 ∧
    (uImg (sHost.setFlash { sHost.boot.flash with pending := some 1 }) 1 0x242 []).boot.flash.pending.isSome = true ∧
    (uImg (sHost.setFlash { sHost.boot.flash with pending := some 1 }) 1 0x242 []).bootState ≠ 6 := by decide +kernel

/-- Update states, cues of configuration and handover. -/
def sUp (up : Nat) (k : Option Cue) (b : BootSt) : State :=
  { ((sHost.setField Reg.PAI_STATUS 28 4 3).setField Reg.TIM_STATUS 29 1 0).setReg64 Reg.MGT_UPDCUEL Reg.MGT_UPDCUEH 20000000 with
    time := { s0.time with cues := k.toList }, boot := { b with flash := { b.flash with upd := up } } }
def sU (up : Nat) (k : Option Cue) (b : BootSt) : State := (sUp up k b).setUpd up
def bTrial : BootSt := { trialAt := some 0, trialWin := 0, trialMin := 0, passed := true, cued := true }
def bPend : BootSt := { flash := { journal := [{ seq := 4, bytes := [] }] } }

theorem witness_ConfigurationAndUpdate_states : ((sU 0 (kc cueConfig 0 4) bPend).takeCue cueConfig 0 4).isSome = true ∧
    (((sU 0 (kc cueConfig 0 4) bPend).takeCue cueConfig 0 4).any fun u => u.pendings.any fun x => x.1 == 4) = true ∧
    (((sU 0 (kc cueConfig 0 5) bPend).takeCue cueConfig 0 5).any fun u => u.pendings.all fun x => x.1 != 5) = true ∧
    (sU 1 none {}).updState = 1 ∧ (sU 1 none {}).boot.fwItem = none ∧ (sU 2 none {}).armOk none = true ∧ (sU 2 none {}).servesPartner = false ∧
    (sU 2 none {}).cueRoom 1 (sU 2 none {}).self = true ∧ (sU 1 none {}).armOk none = false ∧ (sU 3 none {}).updState = 3 ∧ (sU 4 none bTrial).updState = 4 ∧
    (sU 4 none bTrial).boot.trialAt = some 0 ∧ 0 + 1000000000 * (sU 4 none bTrial).boot.trialWin ≤ (sU 4 none bTrial).clk ∧
    (((sU 3 (kc cueHandover 0 0) {}).takeCue cueHandover 0 0).any fun u => u.updState == 3) = true ∧
    (((sU 5 (kc cueHandover 0 0) {}).takeCue cueHandover 0 0).any fun u => u.updState == 5) = true := by decide +kernel

theorem witness_ConfigurationAndUpdate_confirm : let s := (sU 4 none bTrial).setField Reg.PAI_STATUS 28 4 1
    let t := s.setBoot { s.boot with partnerFw := s.regBytes Reg.MGT_FWDIG 8 }
    t.boot.trialAt = some 0 ∧ t.updState = 4 ∧ 0 + 1000000000 * t.boot.trialMin ≤ t.clk ∧ t.pairState = 1 ∧ t.boot.partnerFw = t.regBytes Reg.MGT_FWDIG 8 ∧
    t.boot.passed = true ∧ t.boot.cued = true := by decide +kernel

/-! ### Boot, registers, events, tests -/

/-- A boot state; with an empty active slot; with images. -/
def sB (st : Nat) : State := s0.setField Reg.MGT_BOOT 28 4 st
def sSlot (b : List Byte) : State := (sB 2).setFlash { s0.boot.flash with slots := [(0, b)] }
def sSlot1 (b : List Byte) : State := ((sSlot b).setFlash { (sSlot b).boot.flash with journal := (sSlot b).boot.flash.journal.filter (·.applied), pending := none, slots := Tab.drop (sSlot b).boot.flash.slots (1 - (sSlot b).boot.flash.active), lastSeq := (sSlot b).boot.flash.applied }).showPend

theorem witness_BootSequence : (sB 2).bootState ≠ 1 ∧ (sB 1).bootState = 1 ∧ (sSlot []).bootState = 2 ∧
    Tab.find? (sSlot []).boot.flash.slots (sSlot []).boot.flash.active = some [] ∧ (sSlot1 []).confCheck = (4, none) ∧ (sB 3).bootState = 3 ∧
    (sB 3).boot.flash.upd = 0 ∧ (sB 3).boot.flash.fwActive.getD [] = [] ∧ (sB 3).fwCause [] none ≠ 0 ∧ (sB 4).bootState = 4 ∧ (sB 4).regBit Reg.MEM_HBMST 31 = false ∧
    (sB 4).boot.retired = [] ∧ (sB 4).grans = [] ∧ (sB 4).regN Reg.MEM_RESV = 0 ∧ ((sB 4).setField Reg.MEM_HBMST 31 1 1).regBit Reg.MEM_HBMST 31 = true ∧
    ({ (sB 4) with loft := { s0.loft with verified := true } } : State).loft.verified = true ∧ (sB 6).bootState = 6 ∧
    ((sB 6).setBoot { s0.boot with leaveAt := some 0 }).boot.leaveAt.isSome = true := by decide +kernel

/-- Where an image of the active slot is valid, the check of the slot finds its configuration; with the open checks of firmware at yes an image is valid. -/
theorem witness_BootSequence_valid (b : List Byte) (h : (imageCause b (sSlot1 b).typeCode (sSlot1 b).unitId).1 = 0) : (sSlot1 b).confCheck = (0, some (Conf.parse b)) := by
  have e : Tab.find? (sSlot1 b).boot.flash.slots (sSlot1 b).boot.flash.active = some b := rfl
  have j : (sSlot1 b).boot.flash.journal = [] := rfl
  unfold State.confCheck
  simp only [e, h, ne_eq, not_true, if_false, j, List.filter_nil, List.foldl_nil]

/-- Where an image verifies up to a fault in its contents, the check of the slot gives its cause and what verified. -/
theorem witness_BootSequence_cause (b : List Byte) (n : Nat) (hn : n ≠ 0) (h : imageCause b (sSlot1 b).typeCode (sSlot1 b).unitId = (n, true)) :
    (sSlot1 b).confCheck = (n, some (Conf.parse b)) := by
  have e : Tab.find? (sSlot1 b).boot.flash.slots (sSlot1 b).boot.flash.active = some b := rfl
  unfold State.confCheck
  simp only [e, h, hn, ne_eq, not_false_eq_true, if_true]

theorem witness_BootSequence_firmware (hr : Config.romKey 0 = keyId lkey) (hv : ∀ m, Config.mldsaVerify lkey m (zeros 2420) = true) :
    ((sB 3).setFlash { s0.boot.flash with fwActive := some fwBytes, fwFallback := some [] }).fwCause fwBytes none = 0 ∧
    ((sB 3).setFlash { s0.boot.flash with fwActive := some [], fwFallback := some fwBytes }).fwCause fwBytes none = 0 ∧
    ((sB 3).setFlash { s0.boot.flash with fwActive := some [], fwFallback := some fwBytes }).fwCause [] none ≠ 0 := by
  have k := fun s a b => fwCause_zero (s := s) (run := none) fw_facts.1 fw_facts.2.1 fw_facts.2.2.1 fw_facts.2.2.2.1 a b fw_facts.2.2.2.2 (fun r h => by cases h) hr hv
  exact ⟨k _ (by decide +kernel) (by decide +kernel), k _ (by decide +kernel) (by decide +kernel), by decide +kernel⟩

/-- An update that was open when power went, with the digest of the replaced image. -/
def sOld (d : List Byte) : State := ((sB 3).setFlash { s0.boot.flash with upd := 1, updOld := d }).setField (Reg.FAB_PST 30) 0 9 260
theorem witness_BootSequence_update (d : List Byte) : (sOld d).bootState = 3 ∧ (sOld d).boot.flash.upd ≠ 0 ∧ (sOld d).boot.flash.updOld = d ∧
    (sOld d).boot.flash.fwFallback.getD [1#8] = [1#8] ∧ (sOld d).pairPorts ≠ [] :=
  ⟨(by decide +kernel : (sOld []).bootState = 3), by show 1 ≠ 0; decide, rfl, rfl, (by decide +kernel : (sOld []).pairPorts ≠ [])⟩
theorem witness_BootSequence_digests : sha3 [1#8] ≠ sha3 [] := by decide +kernel

theorem witness_RegistersAndAudit : regAt 2 = none ∧ (∃ r, regAt Reg.MGT_TYPE = some r ∧ State.regReadOnly r.1 Reg.MGT_TYPE = true) ∧ s0.bootState ≠ 6 ∧
    500 ≤ field 800 0 16 ∧ field 800 0 16 ≤ 2000 ∧ field 3 0 16 < 500 ∧ (s0.setBoot { s0.boot with signing := some (zeros 32) }).boot.signing = some (zeros 32) ∧
    s0.boot.signing = none ∧ s0.reg64 Reg.MGT_LOGEXPL Reg.MGT_LOGEXPH ≤ 0 ∧ s0.reg64 Reg.MGT_LOGHEADL Reg.MGT_LOGHEADH < 5 := by
  refine ⟨by decide +kernel, ?_, by decide +kernel, by decide +kernel, by decide +kernel, by decide +kernel, by decide +kernel, by decide +kernel, by decide +kernel, by decide +kernel⟩
  have h : (regAt Reg.MGT_TYPE).isSome = true := by decide +kernel
  obtain ⟨r, hr⟩ := Option.isSome_iff_exists.mp h
  have k : (regAt Reg.MGT_TYPE).all (fun r => State.regReadOnly r.1 Reg.MGT_TYPE) = true := by decide +kernel
  rw [hr] at k
  exact ⟨r, hr, k⟩

/-- A mask write that waits; a pending source with an internal target. -/
def sMask (clk : Nat) : State := { s0 with clk := clk, evc := { s0.evc with waits := [(3, true, 0)] } }
def sPend : State := ((s0.setField (Reg.EVC_STAT 3) 31 1 1).setField (Reg.EVC_STAT 3) 16 8 2)
theorem witness_Events : (sMask 32).evc.waits.find? (fun w => w.1 == 3) = some (3, true, 0) ∧ 0 + 32 ≤ (sMask 32).clk ∧ (sMask 31).clk < 0 + 32 ∧
    sPend.evPick 128 = some 3 ∧ (128 : Nat) ≠ 0x85 ∧ s0.evPick 128 = none := by decide +kernel

/-- Self-test enabled; a core under a slice, granules under a slice, a core whose retirement is under way. -/
def sIst : State :=
  let s1 := (((s0.setField Reg.MGT_BOOT 28 4 5).setField Reg.PWR_STATUS 29 3 2).setField Reg.IST_CFG 0 6 63).setField Reg.PWR_DOMST 1 1 1
  s1.setField Reg.MEM_FREE 0 19 2000
def sTst (kind p : Nat) : State := sIst.setCore 8 { sIst.core 8 with testing := some (kind, p) }
def sGr : State := { sIst with ist := { sIst.ist with grans := [(4, 9), (5, 10)] } }

theorem witness_TestSlices : sIst.istMayStart 1 = true ∧ sIst.istMayStart 2 = true ∧ sIst.istMayStart 3 = true ∧ sIst.istMayStart 5 = true ∧ sIst.istMayStart 6 = true ∧
    sIst.partTestable 8 0 = true ∧ sIst.coreTestable 8 = true ∧ sIst.stageMibFree 8 2 = true ∧ (∀ k ∈ [1, 2, 3], sIst.istTurn 8 k = true) ∧ (sIst.core 8).testing = none ∧ sIst.regN Reg.IST_SLICES < 2 ^ 32 - 1 ∧
    ((sTst 1 0).core 8).testing = some (1, 0) ∧ ((sTst 3 10).core 8).testing = some (3, 8 + 2) ∧ sIst.granFree 9 = true ∧
    (sIst.ist.grans.filter fun x => x.1 == 5 && State.testDie x.2 == State.granDie 9).length < 4 ∧ 1024 ≤ sIst.regField Reg.MEM_FREE 0 19 ∧
    (4, 9) ∈ sGr.ist.grans ∧ (5, 10) ∈ sGr.ist.grans ∧ [200#8] ≠ [] ∧ [200#8].length ≤ 4 := by decide +kernel

def sRet (ctx : Bool) : State :=
  let s1 := if ctx then s0 else State.reset
  { s1 with ist := { s1.ist with retiring := [(0, 5)] } }
theorem witness_CoreRetirement : (sIst.core 8).retired = false ∧ (({ sIst with clk := 10 ^ 20 } : State).clk ≥ Tab.get 0 sIst.ist.cover 8 + sIst.istPeriod + sIst.istGrace) ∧
    sIst.clk < Tab.get 0 sIst.ist.cover 8 + sIst.istPeriod + sIst.istGrace ∧ ((sIst.setCore 8 { sIst.core 8 with retired := true }).core 8).retired = true ∧
    Tab.find? sIst.ist.retiring 8 = none ∧ Tab.find? (sRet true).ist.retiring 0 = some 5 ∧ ((sRet true).core 0).parts.any (fun p => p.2.ctx.isSome) = true ∧
    ((sRet false).core 0).parts.any (fun p => p.2.ctx.isSome) = false ∧ (sRet false).boot.flash.cores.length < 128 ∧
    (∀ ctx, (sRet ctx).clk < 5 + 1000 ∧ 5 + 1000 ≤ ({ sRet ctx with clk := 2000 } : State).clk) := by decide +kernel

/-! ### Ill-formed commands are refused -/

/-- One ill-formed command for each kind of check. -/
theorem test_ill_formed_refused (a : Arrival) (ha : a.port = 32) :
    ([ .ldT { core := 128, part := 0, stream := 0 }, .ldT { core := 0, part := 4, stream := 0 }, .ldT { core := 0, part := 0, stream := 3 },
    .instructionRetire 0 0 5, .tileQueuePop 128 0, .contextStop l0 0 256 0#128 0#48 0, .contextStop l0 0 0 0#128 0#48 (2 ^ 48),
    .saveRequest 0 0 0 none (2 ^ 44), .restore 0 0 0 512 0 none 0, .shapeChange 0 0 4, .nmvComplete 16, .translationQuiesce 0 (2 ^ 48),
    .mirrorRepair (2 ^ 44) true, .granuleZeroing 1442304, .kvSpillRetry 32768, .cnp { port := 4, qpn := 0, macsec := true, ce := false }, .generate 512 0, .generate 0 16,
    .registerWrite 0x600000 0#32 {}, .tntCtrlReset 512, .hstCakLoad 4, .maskResend 0 8192 [], .readFrame a, .ackTimer 8192 0 0,
    .ackTimer 0 8192 0, .ackTimer 0 0 8, .retransmit 0 0 0 (2 ^ 32), .lockAchieved 32, .lossTimeout 8192, .slot 8192 0 none false,
    .clockLoss 256 0, .domainSwitched 24, .idleRamp 16, .sync 3 0 true, .eventArrival 1024 0, .eventArrival 0 (2 ^ 16), .eventAck 256,
    .smarch 0 (.stage 6) none, .smarch 0 (.acc 4) none, .smarch 0 (.vregs 4) none, .eye 36 [], .pathProbeTimeout 0 32 ] : List Instr).all (fun i => !i.wf) = true := by
  simp [Instr.wf, Loc.wf, Arrival.wf, HostPkt.wf, MarchArea.wf, ha, l0]

/-- Their neighbours at the last value that is allowed. -/
theorem test_well_formed_accepted :
    ([ .ldT { core := 127, part := 3, stream := 2 }, .instructionRetire 127 3 4, .contextStop l0 4 255 0#128 0#48 (2 ^ 48 - 1),
    .saveRequest 127 3 3 none (2 ^ 44 - 1), .restore 0 3 (2 ^ 44 - 1) 511 0 none 0, .shapeChange 0 3 3, .nmvComplete 15, .granuleZeroing 1442303,
    .kvSpillRetry 32767, .cnp { port := 3, qpn := 0, macsec := true, ce := false }, .generate 511 15, .registerWrite 0x5FFFFC 0#32 {}, .retransmit 8191 8191 7 (2 ^ 32 - 1),
    .lockAchieved 31, .domainSwitched 23, .idleRamp 15, .sync 2 0 false, .eventArrival 1023 (2 ^ 16 - 1), .smarch 127 (.stage 5) none, .eye 35 [] ] : List Instr).all Instr.wf = true := by decide

/-! ### The manual's worked examples -/

/-- A source element given as FP32 bits, rounded without a draw. -/
def src32 (w : Word32) : SrcElem := { val := f32Val w, qsrc := 0, draw := 0 }

/-- Chapter 02: 3.2, -0.7, 0.26, 5.5, -1.1, 0.0, 2.9, -7.9 and 24 zeros become an MXFP4 block: scale 7F, bytes 95 71 0A F5,
one saturation. -/
theorem test_mxfp4_block :
    (let r := cvtBlock 7 0 false (([0x404CCCCD#32, 0xBF333333#32, 0x3E851EB8#32, 0x40B00000#32, 0xBF8CCCCD#32, 0#32, 0x4039999A#32, 0xC0FCCCCD#32] ++
        List.replicate 24 0#32).map src32)
     (r.1, (packRow 4 (r.2.map CvtElem.code)).take 5, r.2.countP CvtElem.sat)) = (0x7F, [0x95#8, 0x71#8, 0x0A#8, 0xF5#8, 0#8], 1) := by
  decide +kernel

/-- Chapter 02: FP32 to BF16 under RNE, ties and the overflow with and without the saturate flag, and under RTZ. -/
theorem test_bf16_rne :
    (cvtFp bf16 .rne false false (f32Val 0x3F808000#32)).code = 0x3F80 ∧ (cvtFp bf16 .rne false false (f32Val 0x3F818000#32)).code = 0x3F82 ∧
    (cvtFp bf16 .rne false false (f32Val 0x7F7FFFFF#32)).code = 0x7F80 ∧ (cvtFp bf16 .rne true false (f32Val 0x7F7FFFFF#32)).code = 0x7F7F ∧
    (cvtFp bf16 .rtz false false (f32Val 0x7F7FFFFF#32)).code = 0x7F7F := by decide +kernel

/-- Chapter 02: 0x3F808000 and 2^-140 under SR, with draws on both sides of the fraction. -/
theorem test_bf16_sr :
    (cvtFp bf16 (.sr (-23) 0x12349ABC) false false (f32Val 0x3F808000#32)).code = 0x3F80 ∧
    (cvtFp bf16 (.sr (-23) 0x00007FFF) false false (f32Val 0x3F808000#32)).code = 0x3F81 ∧
    (cvtFp bf16 (.sr (-149) 511) false false (f32Val 0x00000200#32)).code = 1 ∧
    (cvtFp bf16 (.sr (-149) 512) false false (f32Val 0x00000200#32)).code = 0 := by decide +kernel

/-- Chapter 02: two blocks with anchor 3, 1.5 and -0.25, combine to 1.25 with count 2. -/
theorem test_erf_add :
    (let x := Erf.add { Erf.zero 3 with count := 1, vals := erfVals [0x0C00000000000000] } { Erf.zero 3 with count := 1, vals := erfVals [-0x200000000000000] }
     (x.anchor, x.count, x.vals.getD 0 0, f32 (x.val 0))) = (3, 2, 0x0A00000000000000, 0x3FA00000#32) := by decide +kernel

/-- Chapter 04: a sum of 1, 2^-24 and 2^-24 keeps 1.0 unsplit and gives 0x3F800001 split before the second term. -/
theorem test_split_sum :
    fadd (fadd 0x3F800000#32 0x33800000#32) 0x33800000#32 = 0x3F800000#32 ∧
    fadd 0x3F800000#32 (fadd 0x33800000#32 0x33800000#32) = 0x3F800001#32 := by decide +kernel

/-- Chapter 05: the tree of 1.0 and 63 values of 2^-24 gives 0x3F80001F; the exact sum with anchor 6 gives 0x3F800020. -/
theorem test_rsum :
    canonTree fadd (0x3F800000#32 :: List.replicate 63 0x33800000#32) = 0x3F80001F#32 ∧
    (fromGrid 6 (gridSum ((0x3F800000#32 :: List.replicate 63 0x33800000#32).map (gridTerm false 6))).1).bits = 0x3F800020#32 := by decide +kernel

/-- Chapter 05: the scores of the TOPK example. -/
def scores : List Word32 := [0x40000000#32, 0x40600000#32, 0x40600000#32, 0xBF800000#32, 0x40600000#32, 0x3F000000#32, 0xFF800000#32, 0x40000000#32]

/-- Chapter 05: which of them k = 2, 4 and 8 keep. -/
theorem test_topk :
    topkSeg 2 scores = maskSeg scores [1, 2] ∧ topkSeg 4 scores = maskSeg scores [0, 1, 2, 4] ∧ topkSeg 8 scores = scores := by decide +kernel

/-- Chapter 07: the draw 0x7F800000 gives -N[129]/2 and the draw 0x80800000 gives +N[129]/2; 0xFF000000 gives G[255]. -/
theorem test_normal_draws :
    normalOf 0x7F800000 = neg32 (fmul 0x3F000000#32 (normalKnots.getD 129 0#32)) ∧
    normalOf 0x80800000 = fmul 0x3F000000#32 (normalKnots.getD 129 0#32) ∧
    rndElem 4 0x3F000000#32 0x40000000#32 0x7F800000 = fsub 0x3F000000#32 (normalKnots.getD 129 0#32) ∧
    gumbelOf 0xFF000000 = gumbelKnots.getD 255 0#32 := by decide +kernel

/-- Chapter 08: the walk of 0x1801_40E1_2345 through three entries, with the tenant's root at 0x4000_0000. -/
def sWalk : State :=
  ((((State.reset.setRegN (Reg.TNT_ROOTL 12) 0x40000000).writeBytes (0x40000000 + 8 * 48) (leBytes 8 0x300004001)).writeBytes
    (0x300004000 + 8 * 5) (leBytes 8 0x300007001)).writeBytes (0x300007000 + 8 * 7) (leBytes 8 0x000250314020000B))

/-- Chapter 08: on module 37 the page is local, at 0x031_4021_2345. -/
theorem test_walk :
    (sWalk.setField Reg.FAB_SELF 0 13 37).translate 12 0x180140E12345 false = some (.here 0x03140212345) := by decide +kernel

/-- Chapter 12: five sequences under a budget of 16,384 tokens make three micro-batches of 101,000 tokens. -/
theorem test_micro_batches :
    (let l := formMicros 16384 [(0, 6000), (1, 9000), (2, 70000), (3, 4000), (4, 12000)] [] 0
     (l.map Micro.tokens, l.map Micro.seqs, (l.map Micro.tokens).sum)) = ([15000, 70000, 16000], [[0, 1], [2], [3, 4]], 101000) := by decide +kernel

/-- Chapter 13: the frame of the example. -/
def retxFrame : Frame := { type := 1, flags := 1, cls := 1, src := 12, dst := 400, tenant := 7, plane := 10, psn := 1001, fepoch := 1, payload := List.replicate 4096 0#8 }

/-- Chapter 13: the first 24 header bytes of the retransmitted frame. -/
theorem test_frame_header :
    (Frame.bytes 0x5A170003 retxFrame).take 24 =
    [1#8, 1#8, 1#8, 1#8, 3#8, 0#8, 0x17#8, 0x5A#8, 0x0C#8, 0#8, 0x90#8, 1#8, 7#8, 0x0A#8, 0#8, 0x10#8, 0xE9#8, 3#8, 0#8, 0#8, 1#8, 0#8, 0#8, 0#8] := by
  decide +kernel

/-- Chapter 13: the path of that frame, from fd00:b0:0:1::18a to fd00:b0:0:1::320a. -/
theorem test_fabric_address :
    (let s := (State.reset.setRegN Reg.FAB_PFX0 1).setRegN Reg.FAB_PFX1 0xFD0000B0
     (s.fabAddr 12 10 % 2 ^ 64, s.fabAddr 400 10 % 2 ^ 64)) = (0x18A, 0x320A) := by decide +kernel

/-- The queue is first in, first out, and the rest of the queue stays. -/
theorem test_step_takes_front :
    nextIs (step { State.reset with pending := [.mkaPeerLive 3, .tntCtrlReset 7] }) (fun t => decide (t.pending = [.tntCtrlReset 7])) = true := by
  decide +kernel

end Sys2Proof.Tests
end

/-! Registers and the audit log: writes of registers (R11 to R15), the attestation report (R484), the export mark and the
flushed mark of the log (R501, R502). -/

namespace Sys2Proof.Machine

/-! ### Arrivals and the log's status leave everything but their own registers -/

/-- Two changes of registers alone are one. -/
theorem eq_regs_trans {s t u : State} (h : t = { s with regs := t.regs }) (k : u = { t with regs := u.regs }) :
    u = { s with regs := u.regs } := by
  rw [h] at k
  exact k

theorem State.setRegN_eq_regs (s : State) (o v : Nat) : s.setRegN o v = { s with regs := (s.setRegN o v).regs } := rfl

theorem State.setReg64_eq_regs (s : State) (lo hi v : Nat) : s.setReg64 lo hi v = { s with regs := (s.setReg64 lo hi v).regs } := rfl

theorem State.raise_eq_regs (s : State) (src d : Nat) : s.raise src d = { s with regs := (s.raise src d).regs } := by
  unfold State.raise
  split
  · rfl
  · dsimp only
    split
    · exact State.setRegN_eq_regs _ _ _
    · exact eq_regs_trans (State.setRegN_eq_regs _ _ _) (State.setRegN_eq_regs _ _ _)

theorem State.reg_raise_ne (s : State) (src d o : Nat) (hs : o ≠ Reg.EVC_STAT src) (hc : o ≠ Reg.EVC_STATUS) :
    (s.raise src d).reg o = s.reg o := by
  unfold State.raise
  split
  · rfl
  · dsimp only
    split
    · exact State.reg_setRegN_ne _ _ _ _ hs
    · rw [State.reg_setRegN_ne _ _ _ _ hc, State.reg_setRegN_ne _ _ _ _ hs]

theorem capAt_le (hi x : Nat) : capAt hi x ≤ hi := by
  unfold capAt
  split <;> omega

/-- R506: EVC_STAT of the source after an arrival. -/
theorem State.regN_raise_self (s : State) {src : Nat} (d : Nat) (h : src ≤ 820) :
    (s.raise src d).regN (Reg.EVC_STAT src) =
      2 ^ 31 + capAt 255 (field (s.regN (Reg.EVC_STAT src)) 16 8 + 1) * 2 ^ 16 + d % 2 ^ 16 := by
  have hne : Reg.EVC_STAT src ≠ Reg.EVC_STATUS := by simp only [Reg.EVC_STAT, Reg.EVC_STATUS]; omega
  have hcnt := capAt_le 255 (field (s.regN (Reg.EVC_STAT src)) 16 8 + 1)
  unfold State.raise
  rw [if_neg (by omega)]
  dsimp only
  split
  · rw [State.regN, State.reg_setRegN_self, BitVec.toNat_ofNat]
    omega
  · rw [State.regN, State.reg_setRegN_ne _ _ _ _ hne, State.reg_setRegN_self, BitVec.toNat_ofNat]
    omega

theorem tbit_31_of_le {v : Nat} (hlo : 2 ^ 31 ≤ v) (hhi : v < 2 ^ 32) : tbit v 31 = true := by
  rw [tbit, beq_iff_eq]
  omega

theorem State.regN_lt (s : State) (o : Nat) : s.regN o < 2 ^ 32 := (s.reg o).isLt

theorem State.evPend_eq_tbit (s : State) (src : Nat) : s.evPend src = tbit (s.regN (Reg.EVC_STAT src)) 31 := rfl

theorem State.evPend_raise_self (s : State) {src : Nat} (d : Nat) (h : src ≤ 820) : (s.raise src d).evPend src = true := by
  have hval := State.regN_raise_self s d h
  rw [State.evPend_eq_tbit]
  exact tbit_31_of_le (by omega) (State.regN_lt _ _)

theorem State.logShow_eq_regs (s : State) : s.logShow = { s with regs := s.logShow.regs } := by
  unfold State.logShow
  dsimp only
  split
  · exact eq_regs_trans (State.setRegN_eq_regs _ _ _) (State.raise_eq_regs _ _ _)
  · exact State.setRegN_eq_regs _ _ _

theorem State.reg_logShow_ne (s : State) {o : Nat} (hl : o ≠ Reg.MGT_LOGSTAT) (hs : o ≠ Reg.EVC_STAT 814)
    (hc : o ≠ Reg.EVC_STATUS) : s.logShow.reg o = s.reg o := by
  unfold State.logShow
  dsimp only
  split
  · rw [State.reg_raise_ne _ _ _ _ hs hc, State.reg_setRegN_ne _ _ _ _ hl]
  · exact State.reg_setRegN_ne _ _ _ _ hl

/-! ### 64-bit values in two registers -/

theorem State.reg64_setReg64_self (s : State) {lo hi v : Nat} (hne : lo ≠ hi) (hv : v < 2 ^ 64) :
    (s.setReg64 lo hi v).reg64 lo hi = v := by
  simp only [State.reg64, State.setReg64, State.regN, State.reg_setRegN_self, State.reg_setRegN_ne _ _ _ _ hne,
    BitVec.toNat_ofNat]
  omega

theorem State.reg64_congr {s t : State} {lo hi : Nat} (hl : t.reg lo = s.reg lo) (hh : t.reg hi = s.reg hi) :
    t.reg64 lo hi = s.reg64 lo hi := by
  simp only [State.reg64, State.regN, hl, hh]

/-! ### Bytes of a fixed length -/

@[simp] theorem sliceBytes_length (bs : List Byte) (o n : Nat) : (sliceBytes bs o n).length = n := by
  simp only [sliceBytes, List.length_append, List.length_take, List.length_replicate]
  omega

@[simp] theorem zeros_length (n : Nat) : (zeros n).length = n := List.length_replicate

/-! ### Register writes -/

/-- R15: a refused write changes nothing. -/
theorem execRegisterWrite_of_fail {s : State} {off st : Nat} {v : Word32} {x : RegExt} (h : s.regWrite off v x none = .fail st) :
    execRegisterWrite off v x s = .next s := by
  simp only [execRegisterWrite, h]

theorem regWrite_of_unassigned {off : Nat} (s : State) (v : Word32) (x : RegExt) (item : Option (Nat × Nat × Nat))
    (h : regAt off = none) : s.regWrite off v x item = .fail stMalformed := by
  simp only [State.regWrite, h, ite_self]

/-- R481: in MAINTENANCE only the registers of the MGT block take writes. -/
theorem regWrite_of_maintenance {s : State} {off : Nat} (v : Word32) (x : RegExt) (item : Option (Nat × Nat × Nat))
    (hb : s.bootState = 6) (ho : 0x10000 ≤ off) : s.regWrite off v x item = .fail stMalformed := by
  simp only [State.regWrite, hb, ho, decide_true, Bool.and_self, if_true]

theorem regWrite_of_readOnly {off i j : Nat} {r : RegRow} (s : State) (v : Word32) (x : RegExt)
    (item : Option (Nat × Nat × Nat)) (h : regAt off = some (r, i, j)) (hr : State.regReadOnly r off = true) :
    s.regWrite off v x item = .fail stMalformed := by
  simp only [State.regWrite, h, hr, if_true, ite_self]

/-- R11: outside MAINTENANCE a writable register without an effect of its own takes the value field by field. -/
theorem execRegisterWrite_of_plain {s : State} {off i j : Nat} {r : RegRow} {v : Word32} {x : RegExt} (hb : s.bootState ≠ 6)
    (h : regAt off = some (r, i, j)) (hr : State.regReadOnly r off = false) (ha : s.regAct r i off v x none = none) :
    execRegisterWrite off v x s = .next (s.writeFields r off v) := by
  simp only [execRegisterWrite, State.regWrite, h, hr, ha, hb, decide_false, Bool.false_and, Bool.false_eq_true, if_false,
    Option.getD_none]

theorem writeFields_of_rangeOk {s : State} {r : RegRow} {off : Nat} {v : Word32} (h : rangeOk off v.toNat = true) :
    s.writeFields r off v = s.setReg off (State.regMerge r (s.reg off) v) := if_pos h

theorem writeFields_of_outOfRange {s : State} {r : RegRow} {off : Nat} {v : Word32} (h : rangeOk off v.toNat = false) :
    s.writeFields r off v = s := if_neg (by simp [h])

/-! ### TIM_CCUEARG and PWR_LIMIT -/

/-- TIM_CCUEARG in the register table: RW in all its bits. -/
def rowTimCcuearg : RegRow := ⟨0x3003C, 0x4, 1, 0x0, 1, 0xFFFFFFFF#32, 0x0#32, 0x0#32, .val 0x0#32⟩

/-- PWR_LIMIT in the register table: RW in bits [15:0]. -/
def rowPwrLimit : RegRow := ⟨0x20004, 0x4, 1, 0x0, 1, 0xFFFF#32, 0x0#32, 0x0#32, .val 0x7D0#32⟩

theorem regAt_TIM_CCUEARG : regAt Reg.TIM_CCUEARG = some (rowTimCcuearg, 0, 0) := by decide +kernel
theorem regAt_PWR_LIMIT : regAt Reg.PWR_LIMIT = some (rowPwrLimit, 0, 0) := by decide +kernel

theorem regAct_TIM_CCUEARG (s : State) (r : RegRow) (i : Nat) (v : Word32) (x : RegExt) (item : Option (Nat × Nat × Nat)) :
    s.regAct r i Reg.TIM_CCUEARG v x item = none := rfl
theorem regAct_PWR_LIMIT (s : State) (r : RegRow) (i : Nat) (v : Word32) (x : RegExt) (item : Option (Nat × Nat × Nat)) :
    s.regAct r i Reg.PWR_LIMIT v x item = none := rfl

theorem rangeOk_TIM_CCUEARG (v : Nat) : rangeOk Reg.TIM_CCUEARG v = true := rfl
theorem rangeOk_PWR_LIMIT (v : Nat) : rangeOk Reg.PWR_LIMIT v = decide (500 ≤ field v 0 16 ∧ field v 0 16 ≤ 2000) := rfl

theorem regMerge_rowTimCcuearg (old v : Word32) : State.regMerge rowTimCcuearg old v = v := by
  have h : ∀ m z : Word32, m = BitVec.allOnes 32 → z = 0#32 → ((old &&& ~~~(m ||| z)) ||| (v &&& (m ||| z))) &&& ~~~(v &&& z) = v := by
    rintro _ _ rfl rfl
    simp only [BitVec.or_zero, BitVec.not_allOnes, BitVec.and_zero, BitVec.and_allOnes, BitVec.zero_or, BitVec.not_zero]
  exact h _ _ rfl rfl

theorem field_0_16_eq_setWidth (v : Word32) : field v.toNat 0 16 = (v.setWidth 16).toNat := by
  simp [field]

/-- The limit field of PWR_LIMIT is RW, so it takes the value whatever stands above it. -/
theorem field_regMerge_rowPwrLimit (old v : Word32) :
    field (State.regMerge rowPwrLimit old v).toNat 0 16 = field v.toNat 0 16 := by
  have h : (State.regMerge rowPwrLimit old v).setWidth 16 = v.setWidth 16 := by
    have hkeep : BitVec.setWidth 16 (~~~(0xFFFF#32 ||| 0#32)) = 0#16 := rfl
    have htake : BitVec.setWidth 16 0xFFFF#32 ||| BitVec.setWidth 16 0#32 = BitVec.allOnes 16 := rfl
    simp only [State.regMerge, rowPwrLimit, BitVec.setWidth_and, BitVec.setWidth_or, hkeep, htake, BitVec.and_zero,
      BitVec.not_zero, BitVec.zero_or, BitVec.and_allOnes]
  rw [field_0_16_eq_setWidth, field_0_16_eq_setWidth, h]

theorem execRegisterWrite_TIM_CCUEARG {s : State} (v : Word32) (x : RegExt) (hb : s.bootState ≠ 6) :
    execRegisterWrite Reg.TIM_CCUEARG v x s = .next (s.setReg Reg.TIM_CCUEARG v) := by
  rw [execRegisterWrite_of_plain hb regAt_TIM_CCUEARG rfl (regAct_TIM_CCUEARG ..),
    writeFields_of_rangeOk (rangeOk_TIM_CCUEARG _), regMerge_rowTimCcuearg]

theorem execRegisterWrite_PWR_LIMIT {s : State} (v : Word32) (x : RegExt) (hb : s.bootState ≠ 6) :
    execRegisterWrite Reg.PWR_LIMIT v x s = .next (s.writeFields rowPwrLimit Reg.PWR_LIMIT v) :=
  execRegisterWrite_of_plain hb regAt_PWR_LIMIT rfl (regAct_PWR_LIMIT ..)

/-! ### The export mark -/

/-- R502: a mark between the one in force and the newest entry is taken, and only registers change. -/
theorem exportTo_within {s : State} {v : Nat} (hlo : s.reg64 Reg.MGT_LOGEXPL Reg.MGT_LOGEXPH ≤ v)
    (hhi : v ≤ s.reg64 Reg.MGT_LOGHEADL Reg.MGT_LOGHEADH) (hv : v < 2 ^ 64) :
    (s.exportTo v).reg64 Reg.MGT_LOGEXPL Reg.MGT_LOGEXPH = v ∧ s.exportTo v = { s with regs := (s.exportTo v).regs } := by
  have he : s.exportTo v = (s.setReg64 Reg.MGT_LOGEXPL Reg.MGT_LOGEXPH v).logShow := by
    rw [State.exportTo, if_neg (by simp only [Bool.or_eq_true, decide_eq_true_eq]; omega)]
  rw [he]
  constructor
  · rw [State.reg64_congr (State.reg_logShow_ne _ (by decide) (by decide) (by decide))
      (State.reg_logShow_ne _ (by decide) (by decide) (by decide)), State.reg64_setReg64_self s (by decide) hv]
  · exact eq_regs_trans (State.setReg64_eq_regs _ _ _ _) (State.logShow_eq_regs _)

theorem exportTo_outside {s : State} {v : Nat} (h : v < s.reg64 Reg.MGT_LOGEXPL Reg.MGT_LOGEXPH ∨
    s.reg64 Reg.MGT_LOGHEADL Reg.MGT_LOGHEADH < v) : s.exportTo v = s := by
  rw [State.exportTo, if_pos (by simpa using h)]

/-! ### The attestation report -/

theorem execAttestationDone_idle {s : State} (h : s.boot.signing = none) : execAttestationDone s = .next s := by
  simp only [execAttestationDone, h]

/-- R484: the signature over the digest of the body, and the zero bytes that fill the report. -/
def attestTail (s : State) (nonce : List Byte) : List Byte :=
  sliceBytes (Config.mldsaSign (s.boot.seed.getD []) s.fresh.1 (sha3 (s.attestBody nonce))) 0 2420 ++ zeros 108

theorem attestTail_length (s : State) (nonce : List Byte) : (attestTail s nonce).length = 2528 := by
  simp [attestTail]

/-- The report is in place and the control register shows DONE: ATTESTATION_DONE but for its event. -/
def withReport (s : State) (nonce : List Byte) : State :=
  (s.fresh.2.setBoot { s.fresh.2.boot with signing := none, report := s.attestBody nonce ++ attestTail s nonce }).setRegN
    Reg.MGT_ATTCTL (2 ^ 31)

theorem execAttestationDone_signing {s : State} {nonce : List Byte} (h : s.boot.signing = some nonce) :
    execAttestationDone s = .next ((withReport s nonce).raise 820 0) := by
  simp only [execAttestationDone, h, withReport, attestTail, List.append_assoc]

/-- MGT_ATTCTL after the report is there: DONE alone. -/
theorem regN_withReport_raise (s : State) (nonce : List Byte) :
    ((withReport s nonce).raise 820 0).regN Reg.MGT_ATTCTL = 2 ^ 31 := by
  rw [State.regN, State.reg_raise_ne _ _ _ _ (by decide) (by decide), withReport, State.reg_setRegN_self]
  rfl

end Sys2Proof.Machine

namespace Sys2Proof.Proofs

open Sys2Proof Sys2Proof.Machine

/-- R15, R267, R481: a refused REGISTER_WRITE changes nothing. -/
theorem exec_registerWrite_refused (s : State) (off : Nat) (v : Word32) (x : RegExt) :
    (regAt off = none → exec (.registerWrite off v x) s = .next s) ∧
    (s.bootState = 6 → 0x10000 ≤ off → exec (.registerWrite off v x) s = .next s) ∧
    (∀ r i j, regAt off = some (r, i, j) → State.regReadOnly r off = true → exec (.registerWrite off v x) s = .next s) :=
  ⟨fun h => execRegisterWrite_of_fail (regWrite_of_unassigned s v x none h),
    fun hb ho => execRegisterWrite_of_fail (regWrite_of_maintenance v x none hb ho),
    fun _ _ _ h hr => execRegisterWrite_of_fail (regWrite_of_readOnly s v x none h hr)⟩

/-- R458: outside MAINTENANCE a write of PWR_LIMIT within 500 to 2,000 gives the limit field its value. -/
theorem exec_write_PWR_LIMIT_within {s : State} {v : Word32} (x : RegExt) (hb : s.bootState ≠ 6)
    (hlo : 500 ≤ field v.toNat 0 16) (hhi : field v.toNat 0 16 ≤ 2000) :
    ∃ t, exec (.registerWrite Reg.PWR_LIMIT v x) s = .next t ∧ t = { s with regs := t.regs } ∧
      t.regField Reg.PWR_LIMIT 0 16 = field v.toNat 0 16 ∧ ∀ o, o ≠ Reg.PWR_LIMIT → t.reg o = s.reg o := by
  have hr : rangeOk Reg.PWR_LIMIT v.toNat = true := by rw [rangeOk_PWR_LIMIT]; exact decide_eq_true ⟨hlo, hhi⟩
  have he := execRegisterWrite_PWR_LIMIT v x hb
  rw [writeFields_of_rangeOk hr] at he
  refine ⟨_, he, rfl, ?_, fun o ho => State.reg_setReg_ne _ _ _ _ ho⟩
  rw [State.regField, State.regN, State.reg_setReg_self, field_regMerge_rowPwrLimit]

theorem exec_write_PWR_LIMIT_outside {s : State} {v : Word32} (x : RegExt) (hb : s.bootState ≠ 6)
    (h : field v.toNat 0 16 < 500 ∨ 2000 < field v.toNat 0 16) :
    exec (.registerWrite Reg.PWR_LIMIT v x) s = .next s := by
  have hr : rangeOk Reg.PWR_LIMIT v.toNat = false := by rw [rangeOk_PWR_LIMIT]; exact decide_eq_false (by omega)
  have he := execRegisterWrite_PWR_LIMIT v x hb
  rwa [writeFields_of_outOfRange hr] at he

theorem exec_write_TIM_CCUEARG {s : State} (v : Word32) (x : RegExt) (hb : s.bootState ≠ 6) :
    ∃ t, exec (.registerWrite Reg.TIM_CCUEARG v x) s = .next t ∧ t = { s with regs := t.regs } ∧ t.reg Reg.TIM_CCUEARG = v ∧
      ∀ o, o ≠ Reg.TIM_CCUEARG → t.reg o = s.reg o :=
  ⟨_, execRegisterWrite_TIM_CCUEARG v x hb, rfl, State.reg_setReg_self _ _ _, fun _ ho => State.reg_setReg_ne _ _ _ _ ho⟩

theorem exec_attStart (s : State) :
    ∃ t, exec .attStart s = .next t ∧ t.boot.signing = some (s.regBytes Reg.MGT_ATTNONCE 8) ∧ t.regN Reg.MGT_ATTCTL = 0 ∧
      t.boot.audit = s.boot.audit ∧ t.mem = s.mem := by
  refine ⟨s.attStart, rfl, rfl, ?_, rfl, rfl⟩
  rw [State.regN, State.attStart, State.reg_setRegN_self]
  rfl

theorem exec_attestationDone_signing {s : State} {nonce : List Byte} (h : s.boot.signing = some nonce) :
    ∃ t, exec .attestationDone s = .next t ∧ t.boot.signing = none ∧
      (∃ sig, t.boot.report = s.attestBody nonce ++ sig ∧ sig.length = 2528) ∧ t.regN Reg.MGT_ATTCTL = 2 ^ 31 ∧
      t.evPend 820 = true ∧ t.free = s.free + 1 ∧ t.mem = s.mem := by
  refine ⟨_, execAttestationDone_signing h, ?_, ⟨attestTail s nonce, ?_, attestTail_length s nonce⟩,
    regN_withReport_raise s nonce, State.evPend_raise_self _ _ (by decide), ?_, ?_⟩
  · rw [State.raise_boot]; rfl
  · rw [State.raise_boot]; rfl
  · rw [State.raise_free]; rfl
  · rw [State.raise_mem]; rfl

theorem exec_logExport_within {s : State} {m : BitVec 64} (hlo : s.reg64 Reg.MGT_LOGEXPL Reg.MGT_LOGEXPH ≤ m.toNat)
    (hhi : m.toNat ≤ s.reg64 Reg.MGT_LOGHEADL Reg.MGT_LOGHEADH) :
    ∃ t, exec (.logExport m) s = .next t ∧ t.reg64 Reg.MGT_LOGEXPL Reg.MGT_LOGEXPH = m.toNat ∧ t = { s with regs := t.regs } :=
  ⟨_, rfl, exportTo_within hlo hhi m.isLt⟩

theorem exec_logExport_outside {s : State} {m : BitVec 64} (h : m.toNat < s.reg64 Reg.MGT_LOGEXPL Reg.MGT_LOGEXPH ∨
    s.reg64 Reg.MGT_LOGHEADL Reg.MGT_LOGHEADH < m.toNat) : exec (.logExport m) s = .next s :=
  congrArg Host.Outcome.next (exportTo_outside h)

/-- Settles O56: each command from the lemma on its own operation. -/
theorem registersAndAudit : Obligations.RegistersAndAudit := by
  unfold Obligations.RegistersAndAudit
  refine ⟨exec_registerWrite_refused, fun s v x hb => ?write, exec_attStart, fun s nonce h => exec_attestationDone_signing h,
    fun s h => execAttestationDone_idle h, fun s m => ?mark, fun s => rfl⟩
  case write =>
    exact ⟨exec_write_TIM_CCUEARG v x hb, exec_write_PWR_LIMIT_within x hb, exec_write_PWR_LIMIT_outside x hb⟩
  case mark => exact ⟨exec_logExport_within, exec_logExport_outside⟩

end Sys2Proof.Proofs

/-! Dispatch entries and contexts: start, gap, shape change, save, restore, release (R29, R30, R84, R88, R89, R170, R186 to
R191). -/

namespace Sys2Proof.Machine

/-! ### What goes out at once -/

/-- R246, R428: what is neither for a host nor held back for the partner goes out at once. -/
theorem State.emit_out_inward (s : State) {o : Out} (ho : outward o = false) (hp : o.hostPort = none) :
    (s.emit o).out = s.out ++ [o] := by
  simp [State.emit, State.sendOut, ho, hp]

theorem State.emit_contextDone_out (s : State) (n p id : Nat) :
    (s.emit (.contextDone n p id)).out = s.out ++ [.contextDone n p id] := s.emit_out_inward rfl rfl

theorem State.emit_schedDone_out (s : State) (n p st : Nat) :
    (s.emit (.schedDone n p st)).out = s.out ++ [.schedDone n p st] := s.emit_out_inward rfl rfl

theorem State.part_congr {s t : State} (h : t.cores = s.cores) (n p : Nat) : t.part n p = s.part n p := by
  simp only [State.part, State.core, h]

theorem State.part_emit (s : State) (o : Out) (n p : Nat) : (s.emit o).part n p = s.part n p :=
  State.part_congr (State.emit_cores s o) n p

/-! ### The dispatch queue of a core (R29) -/

theorem homeOf_lt (slot : Option Nat) (tenant : Nat) : homeOf slot tenant < 4 := by
  cases slot with
  | none => exact Nat.mod_lt _ (by decide)
  | some k =>
    simp only [homeOf]
    split <;> omega

/-- R30: without a test slice nothing yields. -/
theorem State.yieldTest_of_idle {s : State} {n : Nat} (d : Dispatch) (h : (s.core n).testing = none) : s.yieldTest n d = s := by
  simp only [State.yieldTest, h]

/-- The queue is empty once its last entry has been acted on. -/
theorem State.core_dispatchAll_nil (t : State) (n : Nat) :
    (State.dispatchAll n [] t).core n = { t.core n with waiting := [] } := State.core_setCore_self _ _ _

theorem State.core_dispatchAll_nil_setCore (s : State) (n : Nat) (c : CoreSt) :
    (State.dispatchAll n [] (s.setCore n c)).core n = { c with waiting := [] } := by
  rw [State.core_dispatchAll_nil, State.core_setCore_self]

theorem State.core_dispatchAll_nil_ne (t : State) {n m : Nat} (h : m ≠ n) :
    (State.dispatchAll n [] t).core m = t.core m := State.core_setCore_ne _ _ _ _ h

theorem State.part_dispatchAll_nil (t : State) (n p : Nat) : (State.dispatchAll n [] t).part n p = t.part n p := by
  rw [State.part, State.core_dispatchAll_nil]
  rfl

theorem State.ctx_dispatchAll_nil (t : State) (n p : Nat) : (State.dispatchAll n [] t).ctx n p = t.ctx n p :=
  congrArg Part.ctx (State.part_dispatchAll_nil t n p)

theorem State.core_setPart_ne (s : State) {n m : Nat} (p : Nat) (x : Part) (h : m ≠ n) : (s.setPart n p x).core m = s.core m :=
  State.core_setCore_ne _ _ _ _ h

/-- R25: an entry that belongs to one home comes from there. -/
theorem State.comesFrom_home {s : State} {n k : Nat} {d : Dispatch} (hd : s.entryHome n d = some k) :
    ∀ h, s.entryHome n d = some h → h = k := fun _ h => Option.some.inj (h.symm.trans hd)

theorem State.comesFrom_any {s : State} {n : Nat} (sched : Nat) {d : Dispatch} (hd : s.entryHome n d = none) :
    ∀ h, s.entryHome n d = some h → h = sched := fun _ h => absurd (hd.symm.trans h) (Option.some_ne_none _).symm

section
variable {s t : State} {n sched : Nat} {d : Dispatch} (hw : (s.core n).waiting = []) (ht : (s.core n).testing = none)
include hw ht

theorem State.dispatchEntry_of_idle (hs : sched < 4) (hh : ∀ h, s.entryHome n d = some h → h = sched) :
    s.dispatchEntry n sched d = State.dispatchAll n [{ sched := sched, since := s.clk, entry := d }] s := by
  have hhome : (s.entryHome n d).any (· != sched) = false := by
    cases he : s.entryHome n d with
    | none => rfl
    | some h => simp [hh h he]
  have hsched : ¬ 4 ≤ sched := by omega
  simp only [State.dispatchEntry, hsched, hhome, State.yieldTest_of_idle d ht, hw, joinQueue, decide_false, Bool.or_false,
    Bool.false_eq_true, if_false]

/-- R29: an entry that the core can act on is acted on, and the queue is empty again. -/
theorem State.dispatchEntry_acts (hs : sched < 4) (hh : ∀ h, s.entryHome n d = some h → h = sched) (hd : s.dispatch n d = some t) :
    s.dispatchEntry n sched d = State.dispatchAll n [] t := by
  simp only [State.dispatchEntry_of_idle hw ht hs hh, State.dispatchAll, hd]

/-- R29: an entry that the core cannot act on waits. -/
theorem State.dispatchEntry_waits (hs : sched < 4) (hh : ∀ h, s.entryHome n d = some h → h = sched) (hd : s.dispatch n d = none) :
    s.dispatchEntry n sched d =
      s.setCore n { s.core n with waiting := [{ sched := sched, since := s.clk, entry := d }] } := by
  simp only [State.dispatchEntry_of_idle hw ht hs hh, State.dispatchAll, hd]

end

/-! ### What an entry does once it is acted on -/

theorem State.startCtx_of_free {s : State} {n p tn b len : Nat} {e : BitVec 48} (id : Nat) (slot : Option Nat)
    (hp : s.canPlace n p = true) (hf : s.stageFree n b len = true) (ht : tn ≠ 0) (he : e.toNat % 16 = 0) :
    s.startCtx n p tn id slot e b len = some (s.setCtx n p (newCtx (s.coreP n) tn id slot e b len)) := by
  simp [State.startCtx, hp, hf, ht, he]

theorem State.reshape_of_empty {s : State} {n code : Nat} (hc : code ≤ 2) (hr : (s.core n).reshape = none)
    (he : ∀ x ∈ (s.core n).parts, x.2.empty = true) :
    s.reshape n code = some (s.setCore n { s.core n with parts := [], reshape := some code }) := by
  simp only [State.reshape, hc, hr, List.all_eq_true.mpr he, decide_true, Option.isNone_none, Bool.and_self, if_true]

theorem State.requestSave_of_none {s : State} {n p : Nat} {c : Ctx} (dl : Option Nat) (a : Nat) (h : s.ctx n p = some c)
    (hs : c.save = none) (hf : c.fault = none) :
    s.requestSave n p dl a = s.setCtx n p { c with save := some { deadline := s.clk + dl.getD 1000000, addr := a } } := by
  simp only [State.requestSave, h, hs, hf, Option.isSome_none, Bool.or_self, Bool.false_eq_true, if_false]

theorem State.releaseCtx_of_fault {s : State} {n p : Nat} {c : Ctx} (h : s.ctx n p = some c) (hf : c.fault ≠ none) :
    s.releaseCtx n p = s.setPart n p zeroedPart := by
  simp only [State.releaseCtx, h, Option.isSome_iff_ne_none.mpr hf, if_true, State.zeroPart]

theorem State.releaseCtx_of_told {s : State} {n p : Nat} {c : Ctx} (h : s.ctx n p = some c) (hf : c.fault = none)
    (ht : c.told = true) : s.releaseCtx n p = s.setPart n p { s.part n p with ctx := none, tq := [] } := by
  simp only [State.releaseCtx, h, hf, ht, Option.isSome_none, Bool.false_eq_true, if_false, if_true]

/-- R25: an entry about a resident context comes from that context's home. -/
theorem State.entryHome_release {s : State} {n p : Nat} {c : Ctx} (h : s.ctx n p = some c) :
    s.entryHome n (.release p) = some (homeOf c.slot c.tenant) := by
  simp only [State.entryHome, h, Option.map_some]

theorem State.entryHome_save {s : State} {n p : Nat} {c : Ctx} (dl : Option Nat) (a : Nat) (h : s.ctx n p = some c) :
    s.entryHome n (.save p dl a) = some (homeOf c.slot c.tenant) := by
  simp only [State.entryHome, h, Option.map_some]

/-! ### Restore (R190, R191) -/

/-- What no write of bytes and no mark changes, restoring the stage bytes does not change. -/
theorem restoreStage_keeps {α : Type} (f : State → α) (hw : ∀ s a bs, f (s.writeBytes a bs) = f s)
    (hm : ∀ s a k, f (s.markPoison a k) = f s) (s : State) (n base : Nat) (i : Image) : f (restoreStage s n base i) = f s := by
  unfold restoreStage
  dsimp only
  split
  · exact hw _ _ _
  · refine foldl_of (p := fun t => f t = f s) (fun t k h => ?_) (hw _ _ _)
    split
    · exact h
    · exact (hm _ _ _).trans h

/-- R191: without a suspended instruction nothing resumes. -/
theorem resumeVec_of_none {s : State} {n p : Nat} {c : Ctx} (h : s.ctx n p = some c) (hs : c.susp = none) : resumeVec s n p = s := by
  simp only [resumeVec, h, Option.bind_some, hs]

theorem Image.ctx_susp_of_none {i : Image} (h : i.rd 7 1 = 0) (tn id : Nat) (slot : Option Nat) (b : Nat) :
    (i.ctx tn id slot b).susp = none := by
  simp only [Image.ctx, h, if_true]

/-- R190, R191: the state that a sound image leaves but for its report: the image's partition and context are in place. -/
def restoredState (s : State) (n p tn id : Nat) (slot : Option Nat) (b : Nat) (i : Image) : State :=
  (restoreStage s n b i).setPart n p { i.part with ctx := some (i.ctx tn id slot b) }

theorem part_restoredState (s : State) (n p tn id : Nat) (slot : Option Nat) (b : Nat) (i : Image) :
    (restoredState s n p tn id slot b i).part n p = { i.part with ctx := some (i.ctx tn id slot b) } :=
  State.part_setPart_self _ _ _ _

theorem regs_restoredState (s : State) (n p tn id : Nat) (slot : Option Nat) (b : Nat) (i : Image) :
    (restoredState s n p tn id slot b i).regs = s.regs :=
  restoreStage_keeps State.regs State.writeBytes_regs State.markPoison_regs s n b i

theorem out_restoredState (s : State) (n p tn id : Nat) (slot : Option Nat) (b : Nat) (i : Image) :
    (restoredState s n p tn id slot b i).out = s.out :=
  restoreStage_keeps State.out State.writeBytes_out State.markPoison_out s n b i

theorem State.restoreCtx_of_refused {s : State} {addr tn : Nat} (n id : Nat) (slot : Option Nat) (b : Nat)
    (h : readImage s addr tn = none) : s.restoreCtx n addr tn id slot b = some (s.emit (.schedDone n 0 0x0A)) := by
  simp only [State.restoreCtx, h]

theorem State.restoreCtx_of_sound {s : State} {n p addr tn b : Nat} {i : Image} (id : Nat) (slot : Option Nat)
    (h : readImage s addr tn = some i) (hwd : i.wd = s.coreW n) (hst : s.stageFree n b (i.at 10 0 8) = true)
    (hp : s.freePart n = some p) (hsus : i.rd 7 1 = 0) :
    s.restoreCtx n addr tn id slot b = some ((restoredState s n p tn id slot b i).emit (.schedDone n p 0)) := by
  have hres : resumeVec (restoredState s n p tn id slot b i) n p = restoredState s n p tn id slot b i :=
    resumeVec_of_none (congrArg Part.ctx (part_restoredState s n p tn id slot b i)) (Image.ctx_susp_of_none hsus tn id slot b)
  rw [restoredState] at hres
  simp only [State.restoreCtx, h, hwd, hst, hp, ne_eq, not_true_eq_false, decide_false, Bool.not_true, Bool.or_self,
    Bool.false_eq_true, if_false, hres, restoredState]

/-! ### Completion, save and its deadline (R170, R187, R188) -/

theorem State.suspend_of_idle (s : State) (n : Nat) {c : Ctx} (h : c.fly = none) : s.suspend n c = (s, c) := by
  simp only [State.suspend, h]

/-- R188: the state after a save of the bytes `img` at `a`: they are written, the partition is zeroed, and it is reported. -/
def savedState (s : State) (n p a : Nat) (img : List Byte) : State :=
  ((s.writeBytes a img).setPart n p zeroedPart).emit (.schedDone n p 0)

theorem mem_savedState (s : State) (n p a : Nat) (img : List Byte) : (savedState s n p a img).mem = (s.writeBytes a img).mem := by
  rw [savedState, State.emit_mem, State.setPart_mem]

theorem readN_savedState (s : State) (n p a : Nat) (img : List Byte) : (savedState s n p a img).readN a img.length = img := by
  rw [State.readN, mem_savedState]
  exact State.readN_writeBytes_self s a img

theorem read8_savedState_out {s : State} {n p a b : Nat} {img : List Byte} (h : b < a ∨ a + img.length ≤ b) :
    (savedState s n p a img).read8 b = s.read8 b := by
  rw [State.read8, mem_savedState]
  exact State.read8_writeBytes_out s a b img h

theorem part_savedState (s : State) (n p a : Nat) (img : List Byte) : (savedState s n p a img).part n p = zeroedPart := by
  rw [savedState, State.part_emit, State.part_setPart_self]

theorem out_savedState (s : State) (n p a : Nat) (img : List Byte) :
    (savedState s n p a img).out = s.out ++ [.schedDone n p 0] := by
  rw [savedState, State.emit_schedDone_out, State.setPart_out, State.writeBytes_out]

theorem regs_savedState (s : State) (n p a : Nat) (img : List Byte) : (savedState s n p a img).regs = s.regs := by
  rw [savedState, State.emit_regs, State.setPart_regs, State.writeBytes_regs]

theorem execContextSave_of_quiescent {s : State} {n p : Nat} {c : Ctx} {r : SaveReq} (h : s.ctx n p = some c) (hf : c.fault = none)
    (hr : c.save = some r) (hq : (s.part n p).quiescent c = true) (hv : c.fly = none) :
    execContextSave n p s = .next (savedState s n p r.addr (contextImage s n (s.part n p) c)) := by
  simp only [execContextSave, savedState, h, hr, hq, hf, s.suspend_of_idle n hv, State.zeroPart, Option.isNone_none, Bool.and_self, if_true]

theorem execContextComplete_of_retired {s : State} {n p : Nat} {c : Ctx} (h : s.ctx n p = some c) (hf : c.fault = none)
    (hst : ∀ i, i < 3 → (c.stream i).st = 0 ∨ (c.stream i).st = 4) (hr : (s.part n p).retired c = true) (ht : c.told = false) :
    execContextComplete n p s = .next ((s.setCtx n p { c with told := true }).emit (.contextDone n p c.ctxid)) := by
  have hall : [0, 1, 2].all (fun i => (c.stream i).st == 0 || (c.stream i).st == 4) = true := by
    simpa using ⟨hst 0 (by decide), hst 1 (by decide), hst 2 (by decide)⟩
  simp only [execContextComplete, h, hall, hr, ht, hf, Bool.not_false, Option.isNone_none, Bool.and_self, if_true]

/-- R187: what SAVE_TIMEOUT does to a context with a save pending that is not quiescent. -/
theorem execSaveTimeout_of_pending {s : State} {n p : Nat} {c : Ctx} {r : SaveReq} (h : s.ctx n p = some c) (hf : c.fault = none)
    (hr : c.save = some r) (hq : (s.part n p).quiescent c = false) :
    execSaveTimeout n p s = .next (if r.deadline ≤ s.clk then s.stopCtx n p 4 0 causeSave 0#128 0#48 0 else s) := by
  simp only [execSaveTimeout, h, hr, hq, hf, Bool.not_false, Option.isNone_none, Bool.and_true, decide_eq_true_eq]

end Sys2Proof.Machine

namespace Sys2Proof.Proofs

open Sys2Proof Sys2Proof.Machine

/-! ### Dispatch entries, on a core with no entry waiting and no test slice -/

section
variable {s : State} {n : Nat} (hw : (s.core n).waiting = []) (ht : (s.core n).testing = none)
include hw ht

theorem exec_dispatchEntry_start {p tn b len : Nat} {e : BitVec 48} (id : Nat) (slot : Option Nat) (hp : s.canPlace n p = true)
    (hf : s.stageFree n b len = true) (htn : tn ≠ 0) (he : e.toNat % 16 = 0) :
    ∃ t, exec (.dispatchEntry n (homeOf slot tn) (.start p tn id slot e b len)) s = .next t ∧
      t.ctx n p = some (newCtx (s.coreP n) tn id slot e b len) ∧ t = { s with cores := t.cores } ∧
      ∀ m, m ≠ n → t.core m = s.core m := by
  have hd := State.dispatchEntry_acts (d := .start p tn id slot e b len) hw ht (homeOf_lt slot tn) (State.comesFrom_home rfl)
    (State.startCtx_of_free id slot hp hf htn he)
  refine ⟨_, congrArg Host.Outcome.next hd, ?_, rfl, fun m hm => ?_⟩
  · rw [State.ctx_dispatchAll_nil, State.ctx_setCtx_self]
  · rw [State.core_dispatchAll_nil_ne _ hm]
    exact State.core_setPart_ne _ _ _ hm

theorem exec_dispatchEntry_gap (p ns : Nat) {sched : Nat} (hs : sched < 4) :
    ∃ t, exec (.dispatchEntry n sched (.gap p ns)) s = .next t ∧ (t.part n p).ghost.pred = some ns ∧
      t = { s with cores := t.cores } := by
  have hd := State.dispatchEntry_acts (d := .gap p ns) hw ht hs (State.comesFrom_any sched rfl) rfl
  refine ⟨_, congrArg Host.Outcome.next hd, ?_, rfl⟩
  rw [State.part_dispatchAll_nil, State.predictGap, State.part_setPart_self]

theorem exec_shapeChange_empty {code sched : Nat} (hs : sched < 4) (hc : code ≤ 2) (hr : (s.core n).reshape = none)
    (he : ∀ x ∈ (s.core n).parts, x.2.empty = true) :
    ∃ t, exec (.shapeChange n sched code) s = .next t ∧ (t.core n).reshape = some code ∧ (t.core n).parts = [] ∧
      (t.core n).shape = (s.core n).shape ∧ t = { s with cores := t.cores } ∧ ∀ m, m ≠ n → t.core m = s.core m := by
  have hd := State.dispatchEntry_acts (d := .shape code) hw ht hs (State.comesFrom_any sched rfl)
    (State.reshape_of_empty hc hr he)
  have hcore := State.core_dispatchAll_nil_setCore s n { s.core n with parts := [], reshape := some code }
  refine ⟨_, congrArg Host.Outcome.next hd, congrArg CoreSt.reshape hcore, congrArg CoreSt.parts hcore,
    (congrArg CoreSt.shape hcore :), rfl, fun m hm => ?_⟩
  rw [State.core_dispatchAll_nil_ne _ hm, State.core_setCore_ne _ _ _ _ hm]

theorem exec_saveRequest_running {p : Nat} {c : Ctx} (dl : Option Nat) (a : Nat) (hc : s.ctx n p = some c) (hsv : c.save = none)
    (hf : c.fault = none) :
    ∃ t, exec (.saveRequest n (homeOf c.slot c.tenant) p dl a) s = .next t ∧
      t.ctx n p = some { c with save := some { deadline := s.clk + dl.getD 1000000, addr := a } } ∧ t = { s with cores := t.cores } := by
  have hd := State.dispatchEntry_acts (d := .save p dl a) hw ht (homeOf_lt _ _)
    (State.comesFrom_home (State.entryHome_save dl a hc))
    (congrArg some (State.requestSave_of_none dl a hc hsv hf))
  refine ⟨_, congrArg Host.Outcome.next hd, ?_, rfl⟩
  rw [State.ctx_dispatchAll_nil, State.ctx_setCtx_self]

theorem exec_contextRelease_ended {p : Nat} {c : Ctx} (hc : s.ctx n p = some c) (hend : c.fault ≠ none ∨ c.told = true) :
    ∃ t, exec (.contextRelease n (homeOf c.slot c.tenant) p) s = .next t ∧ (c.fault ≠ none → t.part n p = zeroedPart) ∧
      (c.fault = none → t.part n p = { s.part n p with ctx := none, tq := [] }) ∧ t = { s with cores := t.cores } := by
  have hhome := State.comesFrom_home (State.entryHome_release hc)
  by_cases hf : c.fault = none
  case neg =>
    have hd := State.dispatchEntry_acts (d := .release p) hw ht (homeOf_lt _ _) hhome
      (congrArg some (State.releaseCtx_of_fault hc hf))
    refine ⟨_, congrArg Host.Outcome.next hd, fun _ => ?_, fun h => absurd h hf, rfl⟩
    rw [State.part_dispatchAll_nil, State.part_setPart_self]
  case pos =>
    have htold : c.told = true := hend.resolve_left (fun h => h hf)
    have hd := State.dispatchEntry_acts (d := .release p) hw ht (homeOf_lt _ _) hhome
      (congrArg some (State.releaseCtx_of_told hc hf htold))
    refine ⟨_, congrArg Host.Outcome.next hd, fun h => absurd hf h, fun _ => ?_, rfl⟩
    rw [State.part_dispatchAll_nil, State.part_setPart_self]

theorem exec_dispatchEntry_waits {d : Dispatch} {sched : Nat} (hs : sched < 4) (hh : ∀ h, s.entryHome n d = some h → h = sched)
    (hd : s.dispatch n d = none) :
    exec (.dispatchEntry n sched d) s =
      .next (s.setCore n { s.core n with waiting := [{ sched := sched, since := s.clk, entry := d }] }) :=
  congrArg Host.Outcome.next (State.dispatchEntry_waits hw ht hs hh hd)

theorem exec_restore_refused {addr tn : Nat} (id b : Nat) (slot : Option Nat) (hi : readImage s addr tn = none) :
    ∃ t, exec (.restore n (homeOf slot tn) addr tn id slot b) s = .next t ∧ t.out = s.out ++ [.schedDone n 0 0x0A] ∧
      t.mem = s.mem ∧ t.regs = s.regs ∧ ∀ p, t.part n p = s.part n p := by
  have hd := State.dispatchEntry_acts (d := .restore addr tn id slot b) hw ht (homeOf_lt slot tn) (State.comesFrom_home rfl)
    (State.restoreCtx_of_refused n id slot b hi)
  refine ⟨_, congrArg Host.Outcome.next hd, State.emit_schedDone_out s n 0 0x0A, State.emit_mem _ _, State.emit_regs _ _,
    fun p => ?_⟩
  rw [State.part_dispatchAll_nil, State.part_emit]

theorem exec_restore_sound {addr tn id b p : Nat} {slot : Option Nat} {i : Image} (hi : readImage s addr tn = some i)
    (hwd : i.wd = s.coreW n) (hst : s.stageFree n b (i.at 10 0 8) = true) (hp : s.freePart n = some p) (hsus : i.rd 7 1 = 0) :
    ∃ t, exec (.restore n (homeOf slot tn) addr tn id slot b) s = .next t ∧
      t.part n p = { i.part with ctx := some (i.ctx tn id slot b) } ∧ t.regs = s.regs ∧ t.out = s.out ++ [.schedDone n p 0] := by
  have hd := State.dispatchEntry_acts (d := .restore addr tn id slot b) hw ht (homeOf_lt slot tn) (State.comesFrom_home rfl)
    (State.restoreCtx_of_sound id slot hi hwd hst hp hsus)
  refine ⟨_, congrArg Host.Outcome.next hd, ?_, (State.emit_regs _ _).trans (regs_restoredState ..),
    (State.emit_schedDone_out _ n p 0).trans (congrArg (· ++ _) (out_restoredState ..))⟩
  rw [State.part_dispatchAll_nil, State.part_emit, part_restoredState]

end

/-! ### PARTITION_ZEROED (R84, R88) -/

theorem exec_partitionZeroed_reshape {s : State} {n code : Nat} (p : Nat) (hw : (s.core n).waiting = [])
    (hr : (s.core n).reshape = some code) :
    ∃ t, exec (.partitionZeroed n p) s = .next t ∧ (t.core n).shape = code ∧ (t.core n).reshape = none ∧
      t = { s with cores := t.cores } := by
  have he : exec (.partitionZeroed n p) s =
      .next (State.dispatchAll n [] (s.setCore n { s.core n with shape := code, reshape := none, parts := [] })) := by
    change execPartitionZeroed n p s = _
    simp only [execPartitionZeroed, hr, State.core_setCore_self, hw]
  have hcore := State.core_dispatchAll_nil_setCore s n { s.core n with shape := code, reshape := none, parts := [] }
  exact ⟨_, he, congrArg CoreSt.shape hcore, congrArg CoreSt.reshape hcore, rfl⟩

theorem exec_partitionZeroed_zeroing {s : State} {n p : Nat} (hw : (s.core n).waiting = []) (hr : (s.core n).reshape = none)
    (hz : (s.part n p).zeroing = true) :
    ∃ t, exec (.partitionZeroed n p) s = .next t ∧ t.part n p = {} ∧ t = { s with cores := t.cores } := by
  have hq : ((s.setPart n p {}).core n).waiting = [] := by rw [State.setPart, State.core_setCore_self, hw]
  have he : exec (.partitionZeroed n p) s = .next (State.dispatchAll n [] (s.setPart n p {})) := by
    change execPartitionZeroed n p s = _
    simp only [execPartitionZeroed, hr, hz, if_true, hq]
  refine ⟨_, he, ?_, rfl⟩
  rw [State.part_dispatchAll_nil, State.part_setPart_self]

/-! ### Completion, save and its deadline of a context that has not stopped (R170, R187, R188) -/

section
variable {s : State} {n p : Nat} {c : Ctx} (hc : s.ctx n p = some c) (hf : c.fault = none)
include hc hf

theorem exec_contextComplete_retired
    (hst : ∀ i, i < 3 → (c.stream i).st = 0 ∨ (c.stream i).st = 4) (hr : (s.part n p).retired c = true) (ht : c.told = false) :
    ∃ t, exec (.contextComplete n p) s = .next t ∧ t.ctx n p = some { c with told := true } ∧
      t.out = s.out ++ [.contextDone n p c.ctxid] ∧ t.mem = s.mem ∧ t.regs = s.regs := by
  refine ⟨_, execContextComplete_of_retired hc hf hst hr ht, ?_, State.emit_contextDone_out _ _ _ _, State.emit_mem _ _,
    State.emit_regs _ _⟩
  rw [State.ctx, State.part_emit]
  exact State.ctx_setCtx_self _ _ _ _

/-- R188: the image stands at the save's address, no other byte changes, and the partition is zeroed. -/
theorem exec_contextSave_quiescent {r : SaveReq} (hr : c.save = some r) (hq : (s.part n p).quiescent c = true)
    (hv : c.fly = none) :
    let i := contextImage s n (s.part n p) c
    ∃ t, exec (.contextSave n p) s = .next t ∧ t.readN r.addr i.length = i ∧
      (∀ a, a < r.addr ∨ r.addr + i.length ≤ a → t.read8 a = s.read8 a) ∧ t.part n p = zeroedPart ∧
      t.out = s.out ++ [.schedDone n p 0] ∧ t.regs = s.regs :=
  ⟨_, execContextSave_of_quiescent hc hf hr hq hv, readN_savedState .., fun _ ha => read8_savedState_out ha,
    part_savedState .., out_savedState .., regs_savedState ..⟩

theorem exec_saveTimeout_due {r : SaveReq} (hr : c.save = some r) (hq : (s.part n p).quiescent c = false)
    (hd : r.deadline ≤ s.clk) :
    exec (.saveTimeout n p) s = .next (s.stopCtx n p 4 0 causeSave 0#128 0#48 0) := by
  change execSaveTimeout n p s = _
  rw [execSaveTimeout_of_pending hc hf hr hq, if_pos hd]

theorem exec_saveTimeout_early {r : SaveReq} (hr : c.save = some r) (hq : (s.part n p).quiescent c = false)
    (hd : s.clk < r.deadline) :
    exec (.saveTimeout n p) s = .next s := by
  change execSaveTimeout n p s = _
  rw [execSaveTimeout_of_pending hc hf hr hq, if_neg (Nat.not_le.mpr hd)]

end

/-- Settles O17: each command from the lemma on its own case. -/
theorem dispatchSaveAndRestore : Obligations.DispatchSaveAndRestore := by
  unfold Obligations.DispatchSaveAndRestore
  refine ⟨fun s n hw ht => ?dispatch, fun s n p c hc hf => ?resident, fun s n addr tn id b slot hw ht => ?restore⟩
  case dispatch =>
    exact ⟨fun _ _ id slot _ _ _ hp hst htn he => exec_dispatchEntry_start hw ht id slot hp hst htn he,
      fun p ns _ hs => exec_dispatchEntry_gap hw ht p ns hs,
      fun _ _ hs hc hr he => exec_shapeChange_empty hw ht hs hc hr he,
      fun _ dl a _ hc hsv hf => exec_saveRequest_running hw ht dl a hc hsv hf,
      fun _ _ hc hend => exec_contextRelease_ended hw ht hc hend,
      fun p _ hr => exec_partitionZeroed_reshape p hw hr,
      fun _ hr hz => exec_partitionZeroed_zeroing hw hr hz,
      fun _ _ hs hh hd => exec_dispatchEntry_waits hw ht hs hh hd⟩
  case resident =>
    exact ⟨exec_contextComplete_retired hc hf, fun _ hr hq hv => exec_contextSave_quiescent hc hf hr hq hv,
      fun _ hr hq => ⟨exec_saveTimeout_due hc hf hr hq, exec_saveTimeout_early hc hf hr hq⟩⟩
  case restore =>
    exact ⟨exec_restore_refused hw ht id b slot, fun _ _ hi hwd hst hp hsus => exec_restore_sound hw ht hi hwd hst hp hsus⟩

end Sys2Proof.Proofs

/-! The matrix engine: starts of its instructions (R72 to R79, R89), rows and accumulation (R75, R118), drains and the tile
queue (R79, R119, R137), ghost-light operations (R89 to R92). -/

namespace Sys2Proof.Machine

/-! ### Starts of matrix instructions -/

section
variable {s : State} {l : Loc} {c : Ctx} {q : QEnt}

/-- R168: a matrix instruction at the head of its share that its checks let through. -/
theorem startMx_ready {op : Nat} (h : HeadReady s l 1 op c q) {k : Part → Ctx → QEnt → Run Part} {x : Part}
    (hk : k (s.part l.core l.part) (c.take l.stream 1) q = .ok x) :
    (.next (startMx op l.core l.part l.stream s k) : Result) = mxLeaves s l c x := by
  simp only [startMx, startHead_ready h, hk, mxLeaves]

theorem execMxLds_ready (h : HeadReady s l 1 1 c q) (hl : (s.part l.core l.part).runs.any MxRun.loading = false)
    (hr : ldsRoom (c.take l.stream 1) q.word = .ok ()) :
    execMxLds l s = mxLeaves s l c { s.part l.core l.part with
      shadow := { (s.part l.core l.part).shadow with
        held := some { fmt := Iw.ldsFmt q.word, signed := Iw.ldsSigned q.word, g := Iw.ldsG q.word, rows := Iw.ldsRows q.word } }
      runs := (s.part l.core l.part).runs ++ [{ word := q.word, pc := q.pc, stream := l.stream, rows := 64, done := false }] } := by
  refine startMx_ready h ?_
  simp only [hl, hr, Bool.false_eq_true, if_false]
  rfl

theorem execMxSwap_ready (h : HeadReady s l 1 2 c q)
    (hr : ∀ r ∈ (s.part l.core l.part).runs, Iw.opcode r.word ≠ 1 ∧ r.issuing = false) :
    execMxSwap l s = mxLeaves s l c { s.part l.core l.part with
      active := (s.part l.core l.part).shadow, shadow := (s.part l.core l.part).active
      runs := (s.part l.core l.part).runs ++ [doneRun q l.stream] } := by
  refine startMx_ready h (if_neg ?_)
  simpa using hr

/-- R75, R104: the partition of a stream that starts, its first row not yet issued. -/
def macStarted (p : Part) (q : QEnt) (stream : Nat) : Part :=
  { (rangeWords (Iw.macExact q.word) (Iw.macE0 q.word) (Iw.macM q.word)).foldl
      (fun p i => p.track i (openTile q.word (p.tracked i))) p with
    runs := p.runs ++ [{ word := q.word, pc := q.pc, stream := stream, rows := Iw.macM q.word, done := false, late := p.drain.isSome }]
    ghost := { p.ghost with running := false, spent := false, gap := none, pred := none, fmt := Iw.macFmt q.word } }

/-- R75, R92: the stream starts, and its first row is issued at once. -/
theorem execMxMac_ready {pl : MacPlan} (h : HeadReady s l 1 3 c q) (hs : (s.part l.core l.part).streaming = false)
    (hp : macPlan (s.part l.core l.part) q.word = .ok pl)
    (ht : ∀ i ∈ rangeWords (Iw.macExact q.word) (Iw.macE0 q.word) (Iw.macM q.word),
      tileTakes q.word ((s.part l.core l.part).tracked i) = true)
    (hr : macRoom (c.take l.stream 1) q.word pl.g = .ok ()) :
    ∃ u, mxLeaves s l c (macStarted (s.part l.core l.part) q l.stream) = .next u ∧
      execMxMac l s = .next (u.issueRow l.core l.part) := by
  have htiles : (rangeWords (Iw.macExact q.word) (Iw.macE0 q.word) (Iw.macM q.word)).any
      (fun i => !tileTakes q.word ((s.part l.core l.part).tracked i)) = false := by
    simpa using ht
  refine ⟨_, rfl, congrArg Host.Outcome.next ?_⟩
  rw [if_neg (by simp [hs])]
  refine congrArg (State.issueRow · l.core l.part) (Host.Outcome.next.inj (startMx_ready h ?_))
  simp only [hs, hp, htiles, Bool.false_eq_true, if_false, bind, Except.bind, hr]
  rfl

/-- R78: the drain that starts. -/
def drainStarted (p : Part) (q : QEnt) (stream : Nat) : Drain :=
  { word := q.word, pc := q.pc, stream := stream, next := 0, status := 0, erf := [], erfFl := 0, erfOut := 0
    anchor := (drainAnchor ((rangeWords (Iw.drExact q.word) (Iw.drBase q.word) (Iw.drCount q.word)).map p.word)).getD 0
    tile := [], tileSt := 0 }

theorem execMxDrain_ready (h : HeadReady s l 1 4 c q) (hd : (s.part l.core l.part).drain = none)
    (ht : ∀ i ∈ rangeWords (Iw.drExact q.word) (Iw.drBase q.word) (Iw.drCount q.word),
      drainTakes q.word ((s.part l.core l.part).word i) = true)
    (ha : Iw.drFmt q.word = 0xC → drainAnchor ((rangeWords (Iw.drExact q.word) (Iw.drBase q.word) (Iw.drCount q.word)).map
      (s.part l.core l.part).word) ≠ none)
    (hr : Iw.drQueue q.word = true ∨ (c.take l.stream 1).inStage (Iw.drAddr q.word) (drainLen q.word (s.coreW l.core)) = true) :
    execMxDrain l s = mxLeaves s l c { (s.part l.core l.part).early with
      drain := some (drainStarted (s.part l.core l.part) q l.stream) } := by
  have hbusy : (s.part l.core l.part).early.drain.isSome = false := congrArg Option.isSome hd
  have htiles : ((rangeWords (Iw.drExact q.word) (Iw.drBase q.word) (Iw.drCount q.word)).map (s.part l.core l.part).word).any
      (fun t => !drainTakes q.word t) = false := by
    simpa using ht
  have hanchor : (Iw.drFmt q.word == 0xC && (drainAnchor ((rangeWords (Iw.drExact q.word) (Iw.drBase q.word)
      (Iw.drCount q.word)).map (s.part l.core l.part).word)).isNone) = false := by
    simpa [← Option.isSome_iff_ne_none] using ha
  have hword : (s.part l.core l.part).early.word = (s.part l.core l.part).word := rfl
  refine startMx_ready h ?_
  simp only [hbusy, hword, htiles, hanchor, Bool.false_eq_true, Bool.or_self, if_false]
  rcases hr with hq | hroom
  · simp only [hq]
    rfl
  · simp only [Ctx.stageRoom, hroom]
    split <;> rfl

theorem execMxGhost_ready (h : HeadReady s l 1 5 c q) :
    execMxGhost l s = mxLeaves s l c { s.part l.core l.part with
      ghost := { (s.part l.core l.part).ghost with pred := some (Iw.ghGap q.word) }
      runs := (s.part l.core l.part).runs ++ [doneRun q l.stream] } :=
  startMx_ready h rfl

end

/-! ### Rows -/

/-- R75: a row that can be read goes behind those in flight, and its stream stands one row further. -/
theorem part_issueRow {s : State} {n k : Nat} {c : Ctx} {r r1 : MxRun} {row : Row} (hc : (s.part n k).ctx = some c)
    (hf : (s.part n k).runs.find? MxRun.issuing = some r) (hi : issueRun s n (s.part n k) c r = .ok (row, r1)) :
    ((s.issueRow n k).part n k).rows = (s.part n k).rows ++ [row] ∧
      ((s.issueRow n k).part n k).runs = updFirst MxRun.issuing (fun _ => r1) (s.part n k).runs := by
  simp only [State.issueRow, hc, hf, hi, State.part_setPart_self]
  split <;> exact ⟨rfl, rfl⟩

/-- R118: the oldest row in flight reaches its entry unless it waits for the drain. -/
theorem execSliceAccumulate_oldest {s : State} {n k : Nat} {r : Row} {rs : List Row}
    (h : ((State.fillRows n k 16 s).part n k).rows = r :: rs) (hw : ((State.fillRows n k 16 s).part n k).rowWaits r = false) :
    execSliceAccumulate n k s = .next ((State.fillRows n k 16 s).setPart n k
      { accumRow ((State.fillRows n k 16 s).part n k) r with
        rows := rs, runs := countRow (accumRow ((State.fillRows n k 16 s).part n k) r).runs }) := by
  simp only [execSliceAccumulate, h, hw, Bool.false_eq_true, if_false]

/-! ### Drains and the tile queue -/

/-- What no write of bytes changes, writing whole ERF blocks does not change. -/
theorem flushErf_keeps {α : Type} (f : State → α) (hw : ∀ s a bs, f (s.writeBytes a bs) = f s) (base : Nat) (a : Int) (last : Bool) :
    ∀ (k : Nat) (s : State) (d : Drain), f (flushErf s base a last k d).1 = f s
  | 0, _, _ => rfl
  | k + 1, s, d => by
    rw [flushErf]
    split
    · exact (flushErf_keeps f hw base a last k _ _).trans (hw _ _ _)
    · rfl

/-- What no write of bytes and no change of a partition changes, a drain's step does not change. -/
theorem drainStep_keeps {α : Type} (f : State → α) (hw : ∀ s a bs, f (s.writeBytes a bs) = f s)
    (hp : ∀ s n k x, f (s.setPart n k x) = f s) (s : State) (n k : Nat) (p : Part) (c : Ctx) (d : Drain) :
    f (drainStep s n k p c d) = f s := by
  unfold drainStep
  dsimp only
  split
  · rfl
  · split
    · exact hp _ _ _ _
    · split
      · exact (hp _ _ _ _).trans (flushErf_keeps f hw _ _ _ _ _ _)
      · exact (hp _ _ _ _).trans (hw _ _ _)

/-- R79, R104: the partition after drain `d` has read its next entry, before the drain moves on. -/
def drainedPart (p : Part) (d : Drain) (wd : Nat) : Part :=
  let e := Iw.drBase d.word + d.next
  let p1 := if Iw.drClear d.word then zeroEntry p (Iw.drExact d.word) e wd else p
  if Iw.drClear d.word && lastOfTile d.word e then zeroWords p1 d (Iw.drExact d.word) e else p1

/-- R78, R123: the outputs of the entry that drain `d` reads next, and whether each conversion saturated. -/
def drainOuts (p : Part) (d : Drain) (wd : Nat) : List (Word32 × Bool) :=
  (List.range wd).map (drainWord p d.word (Iw.drBase d.word + d.next))

/-- R119: drain `d` once it has read its next entry: the flags join its status. -/
def drainMoved (p : Part) (d : Drain) (wd : Nat) : Drain :=
  { d with
    next := d.next + 1
    status := d.status ||| tsFlags (entryWord p (Iw.drExact d.word) (Iw.drBase d.word + d.next)) |||
      bit (Iw.drFmt d.word != 0xC && (drainOuts p d wd).any (·.2)) }

theorem map_fst_drainOuts (p : Part) (d : Drain) (wd : Nat) :
    (drainOuts p d wd).map (·.1) = (List.range wd).map fun i => (drainWord p d.word (Iw.drBase d.word + d.next) i).1 :=
  List.map_map

section
variable {s : State} {n k : Nat} {p : Part} {c : Ctx} {d : Drain} (hn : d.next < Iw.drCount d.word)
  (ho : p.owes (slotRange (Iw.drExact d.word) (Iw.drBase d.word + d.next) 1).1
    (slotRange (Iw.drExact d.word) (Iw.drBase d.word + d.next) 1).2 = false)
include hn ho

/-- R78: a drain to stage memory in FP32 or INT32 writes the entry's words at their place. -/
theorem drainStep_stage (hq : Iw.drQueue d.word = false) (hf : Iw.drFmt d.word ≠ 0xC) :
    drainStep s n k p c d =
      (s.writeBytes (c.stageAt n (Iw.drAddr d.word) + 4 * s.coreW n * d.next)
        (wordBytes ((drainOuts p d (s.coreW n)).map (·.1)))).setPart n k
      { drainedPart p d (s.coreW n) with drain := some (drainMoved p d (s.coreW n)) } := by
  have hmore : ¬ Iw.drCount d.word ≤ d.next := Nat.not_le.mpr hn
  simp only [drainStep, hmore, ho, hq, hf, decide_false, Bool.false_and, Bool.or_self, Bool.false_eq_true, if_false]
  rfl

/-- R137: a drain to the tile queue adds the entry's words to its tile. -/
theorem drainStep_queue (hq : Iw.drQueue d.word = true) (ht : d.tile.length ≠ 64 * s.coreW n) :
    drainStep s n k p c d = s.setPart n k { drainedPart p d (s.coreW n) with
      drain := some { drainMoved p d (s.coreW n) with
        tile := d.tile ++ (drainOuts p d (s.coreW n)).map (·.1)
        tileSt := d.tileSt ||| (entryWord p (Iw.drExact d.word) (Iw.drBase d.word + d.next)).toNat |||
          bit ((drainOuts p d (s.coreW n)).any (·.2)) } } := by
  have hmore : ¬ Iw.drCount d.word ≤ d.next := Nat.not_le.mpr hn
  simp only [drainStep, hmore, ho, hq, ht, decide_false, Bool.and_false, Bool.or_self, Bool.false_eq_true, if_false, if_true]
  rfl

end

theorem execDrainEntryRead_drain {s : State} {n k : Nat} {c : Ctx} {d : Drain} (hd : (s.part n k).drain = some d)
    (hc : (s.part n k).ctx = some c) : execDrainEntryRead n k s = .next (drainStep s n k (s.part n k) c d) := by
  simp only [execDrainEntryRead, hd, hc]

/-- R137: a full tile enters a queue with room. -/
theorem execTileQueuePush_full {s : State} {n k : Nat} {d : Drain} (hd : (s.part n k).drain = some d)
    (hq : Iw.drQueue d.word = true) (ht : d.tile.length = 64 * s.coreW n) (hr : (s.part n k).tq.length < 8) :
    execTileQueuePush n k s = .next (s.setPart n k { s.part n k with
      tq := (s.part n k).tq ++ [{ status := BitVec.ofNat 32 d.tileSt, words := d.tile }]
      drain := some { d with tile := [], tileSt := 0 } }) := by
  simp only [execTileQueuePush, hd, hq, ht, hr, decide_true, Bool.and_self, if_true]

/-- R137: the first tile leaves the queue for the instruction that has still to pop it. -/
theorem execTileQueuePop_due {s : State} {n k : Nat} {c : Ctx} {f : VecFly} {x : Tile} {xs : List Tile}
    (hc : (s.part n k).ctx = some c) (hf : c.fly = some f) (ho : f.out.pop = true) (hp : f.popped = false)
    (hq : (s.part n k).tq = x :: xs) :
    execTileQueuePop n k s = .next (s.setPart n k { s.part n k with tq := xs, ctx := some { c with fly := some f.readAll } }) := by
  have hdue : f.popDue = true := by simp [VecFly.popDue, ho, hp]
  simp only [execTileQueuePop, hc, hf, hdue, hq, List.isEmpty_cons, Bool.not_false, Bool.and_self, if_true, List.drop_one, List.tail_cons]

/-! ### Ghost-light operations -/

theorem ghostDuty_eq (rows : Nat) : ghostDuty rows = (min 4096 rows + 32) / 64 := by
  have hcap : capAt 4096 rows = min 4096 rows := by
    unfold capAt
    split <;> omega
  rw [ghostDuty, hcap]

theorem Ghost.predicted_of_shorter {g : Ghost} {hor : Nat} (h : ∀ ns, g.pred = some ns → ns < hor) : g.predicted hor = false := by
  unfold Ghost.predicted
  split
  · rfl
  next ns hns => exact decide_eq_false (Nat.not_le.mpr (h ns hns))

/-- R89, R91: ghost-light rows begin in a gap within its horizon. -/
theorem execGhostLightStart_gap {s : State} {n k : Nat} (rows : Nat) {g : Nat × Nat} (hg : (s.part n k).ghost.gap = some g)
    (h0 : g.2 ≠ 0) (hl : s.reefLevel ≤ 5) (hp : ∀ ns, (s.part n k).ghost.pred = some ns → ns < g.2)
    (hs : (s.part n k).streaming = false) (hr : (s.part n k).ghost.running = false) (hsp : (s.part n k).ghost.spent = false)
    (ht : s.clk < g.1 + g.2) :
    execGhostLightStart n k rows s = .next (s.setPart n k { s.part n k with
      ghost := { (s.part n k).ghost with running := true, spent := false, gap := some g, duty := (min 4096 rows + 32) / 64 } }) := by
  have hmay : (s.part n k).ghostMay s g = true := by
    simp [Part.ghostMay, h0, hl, Ghost.predicted_of_shorter hp, hs, hr, hsp, ht]
  simp only [execGhostLightStart, hg, Option.getD_some, hmay, if_true, ghostDuty_eq]

/-- R92: running ghost-light operations end where a row is ready or the horizon has passed. -/
theorem execGhostLightEnd_running {s : State} {n k : Nat} {g : Nat × Nat} (hr : (s.part n k).ghost.running = true)
    (hg : (s.part n k).ghost.gap = some g) (he : (s.part n k).rowReady = true ∨ g.1 + g.2 ≤ s.clk) :
    execGhostLightEnd n k s = .next (s.setPart n k { s.part n k with
      ghost := { (s.part n k).ghost with running := false, spent := true } }) := by
  have hend : ((s.part n k).rowReady || decide (g.1 + g.2 ≤ s.clk)) = true := by simpa using he
  simp only [execGhostLightEnd, hg, hr, hend, Bool.and_self, if_true, Part.endGhost]

end Sys2Proof.Machine

namespace Sys2Proof.Proofs

open Sys2Proof Sys2Proof.Machine

/-! ### DRAIN_ENTRY_READ of an entry that no earlier row is owed to (R78, R119) -/

section
variable {s : State} {n k : Nat} {d : Drain} {c : Ctx} (hd : (s.part n k).drain = some d) (hc : (s.part n k).ctx = some c)
  (hn : d.next < Iw.drCount d.word)
  (ho : (s.part n k).owes (slotRange (Iw.drExact d.word) (Iw.drBase d.word + d.next) 1).1
    (slotRange (Iw.drExact d.word) (Iw.drBase d.word + d.next) 1).2 = false)
include hd hc

/-- Whatever the drain's target, register space and granule table stay. -/
theorem exec_drainEntryRead_keeps :
    ∃ t, exec (.drainEntryRead n k) s = .next t ∧ t.regs = s.regs ∧ t.grans = s.grans :=
  ⟨_, execDrainEntryRead_drain hd hc,
    drainStep_keeps State.regs State.writeBytes_regs State.setPart_regs ..,
    drainStep_keeps State.grans State.writeBytes_grans State.setPart_grans ..⟩

include hn ho

theorem exec_drainEntryRead_stage (hq : Iw.drQueue d.word = false) (hf : Iw.drFmt d.word ≠ 0xC) :
    ∃ t, exec (.drainEntryRead n k) s = .next t ∧
      t.mem = s.mem.writeN (c.stageAt n (Iw.drAddr d.word) + 4 * s.coreW n * d.next)
        (wordBytes ((List.range (s.coreW n)).map fun i => (drainWord (s.part n k) d.word (Iw.drBase d.word + d.next) i).1)) ∧
      (t.part n k).drain.map (·.next) = some (d.next + 1) := by
  refine ⟨_, (execDrainEntryRead_drain hd hc).trans (congrArg _ (drainStep_stage hn ho hq hf)), ?_, ?_⟩
  · rw [State.setPart_mem, map_fst_drainOuts]
    rfl
  · rw [State.part_setPart_self]
    rfl

theorem exec_drainEntryRead_queue (hq : Iw.drQueue d.word = true) (ht : d.tile.length ≠ 64 * s.coreW n) :
    ∃ t, exec (.drainEntryRead n k) s = .next t ∧ t.mem = s.mem ∧
      (t.part n k).drain.map (·.tile) = some (d.tile ++ (List.range (s.coreW n)).map fun i =>
        (drainWord (s.part n k) d.word (Iw.drBase d.word + d.next) i).1) := by
  refine ⟨_, (execDrainEntryRead_drain hd hc).trans (congrArg _ (drainStep_queue hn ho hq ht)), State.setPart_mem _ _ _ _, ?_⟩
  rw [State.part_setPart_self, map_fst_drainOuts]
  rfl

end

/-- Settles O9: each command from the lemma on its own operation. -/
theorem matrixStartsAndProgress : Obligations.MatrixStartsAndProgress := by
  unfold Obligations.MatrixStartsAndProgress
  refine ⟨fun s l c q => ?starts, fun s n k c r row r1 => part_issueRow, fun s n k => ?progress⟩
  case starts =>
    exact ⟨execMxLds_ready, execMxSwap_ready, fun pl => execMxMac_ready, execMxDrain_ready, execMxGhost_ready⟩
  case progress =>
    exact ⟨fun r rs => execSliceAccumulate_oldest,
      fun d c hd hc hn ho => ⟨exec_drainEntryRead_stage hd hc hn ho, fun _ _ => exec_drainEntryRead_keeps hd hc,
        exec_drainEntryRead_queue hd hc hn ho⟩,
      fun d => execTileQueuePush_full, fun c f x xs => execTileQueuePop_due,
      fun rows g => execGhostLightStart_gap rows, fun g => execGhostLightEnd_running⟩

end Sys2Proof.Proofs

/-! Items of the near-memory units (R95, R96, R169). -/

namespace Sys2Proof.Machine

/-! ### Counters of a context touch the cores alone -/

theorem addNmv_eq_cores (s : State) (n p id : Nat) (up : Bool) :
    addNmv s n p id up = { s with cores := (addNmv s n p id up).cores } := by
  unfold addNmv
  split
  · rfl
  · split <;> rfl

theorem nmvDeliver_eq_cores (s : State) (x : Option (Nat × Nat × Nat × Nat)) :
    nmvDeliver s x = { s with cores := (nmvDeliver s x).cores } := by
  unfold nmvDeliver
  split
  · rfl
  · split
    · rfl
    · dsimp only
      split <;> rfl

theorem nmvFault_of_ok {s : State} {w : NmvItem} (hf : w.status ≠ 0x0F) (hd : w.status ≠ 0x09) : nmvFault s w = s := by
  simp [nmvFault, hf, hd]

/-! ### Acceptance and completion -/

/-- R95: the state in which unit `unit` holds item `w` behind its other work, before a context is told to wait for it. -/
def nmvQueued (s : State) (unit : Nat) (w : NmvItem) : State :=
  { s with nmv := Tab.set [] s.nmv unit (Tab.get [] s.nmv unit ++ [w]) }

/-- R95: an item in shared SRAM of the unit's die is taken; only the cores learn more of it. -/
theorem execNmvWorkItem_onDie {s : State} {unit item : Nat} (slot : Option Nat) (hu : unit < 16)
    (hlo : State.sramBase + unit / 4 * 0x10000000 ≤ item)
    (hhi : item + 64 ≤ State.sramBase + unit / 4 * 0x10000000 + 0x10000000) :
    ∃ t, execNmvWorkItem unit item slot s = .next t ∧
      t = { nmvQueued s unit (nmvWork s item slot) with cores := t.cores } := by
  have hout : ¬ (16 ≤ unit || item < State.sramBase + unit / 4 * 0x10000000 ||
      State.sramBase + unit / 4 * 0x10000000 + 0x10000000 < item + 64) = true := by
    simp only [Bool.or_eq_true, decide_eq_true_eq]
    omega
  refine ⟨_, by rw [execNmvWorkItem, if_neg hout], ?_⟩
  split
  · rfl
  · exact addNmv_eq_cores _ _ _ _ _

/-- R96: the state after unit `unit` with the work `ws` left has written the outputs, the status and the flags of item `w`. -/
def nmvWritten (s : State) (unit : Nat) (w : NmvItem) (ws : List NmvItem) : State :=
  (({ s with nmv := Tab.set [] s.nmv unit ws } : State).writeBytes w.yaddr w.y).writeBytes (w.item + 56)
    (leBytes 1 w.status ++ leBytes 1 w.sflags)

/-- A write of no bytes covers no marked word. -/
theorem State.writeBytes_nil (s : State) (a : Nat) : s.writeBytes a [] = s := by
  have hkeep : s.poison.filter (fun w => !decide (a ≤ 64 * w ∧ 64 * w + 64 ≤ a + 0)) = s.poison := by
    refine List.filter_eq_self.mpr fun w _ => ?_
    simp only [Bool.not_eq_true', decide_eq_false_iff_not]
    omega
  simp only [State.writeBytes, State.clearPoison, List.length_nil, hkeep, Memory.writeN]

theorem execNmvComplete_written {s : State} {unit : Nat} {w : NmvItem} {ws : List NmvItem} (hw : Tab.get [] s.nmv unit = w :: ws)
    (hm : nmvMayWrite s w = true) (hf : w.status ≠ 0x0F) (hd : w.status ≠ 0x09) :
    execNmvComplete unit s = .next (nmvDeliver (nmvWritten s unit w ws) w.signal) := by
  simp only [execNmvComplete, hw, hm, nmvFault_of_ok hf hd, nmvWritten, Bool.not_true, Bool.or_false, List.isEmpty_iff]
  split
  next hy => rw [hy, State.writeBytes_nil]
  · rfl

end Sys2Proof.Machine

namespace Sys2Proof.Proofs

open Sys2Proof Sys2Proof.Machine

theorem exec_nmvWorkItem_onDie {s : State} {unit item : Nat} {slot : Option Nat} (hu : unit < 16)
    (hlo : State.sramBase + unit / 4 * 0x10000000 ≤ item)
    (hhi : item + 64 ≤ State.sramBase + unit / 4 * 0x10000000 + 0x10000000) :
    ∃ t, exec (.nmvWorkItem unit item slot) s = .next t ∧
      Tab.get [] t.nmv unit = Tab.get [] s.nmv unit ++ [nmvWork s item slot] ∧ t.mem = s.mem ∧ t.regs = s.regs := by
  obtain ⟨t, he, ht⟩ := execNmvWorkItem_onDie (s := s) slot hu hlo hhi
  refine ⟨t, he, ?_⟩
  rw [ht]
  exact ⟨Tab.get_set_self _ _ _ _, rfl, rfl⟩

theorem exec_nmvComplete_written {s : State} {unit : Nat} {w : NmvItem} {ws : List NmvItem} (hw : Tab.get [] s.nmv unit = w :: ws)
    (hm : nmvMayWrite s w = true) (hf : w.status ≠ 0x0F) (hd : w.status ≠ 0x09) :
    ∃ t, exec (.nmvComplete unit) s = .next t ∧ Tab.get [] t.nmv unit = ws ∧
      t.mem = (s.mem.writeN w.yaddr w.y).writeN (w.item + 56) (leBytes 1 w.status ++ leBytes 1 w.sflags) ∧ t.regs = s.regs := by
  refine ⟨_, execNmvComplete_written hw hm hf hd, ?_⟩
  rw [nmvDeliver_eq_cores]
  exact ⟨Tab.get_set_self _ _ _ _, rfl, rfl⟩

/-- Settles O18: acceptance and completion of an item. -/
theorem nmvItems : Obligations.NmvItems :=
  ⟨fun _ _ _ _ => exec_nmvWorkItem_onDie, fun _ _ _ _ => exec_nmvComplete_written⟩

end Sys2Proof.Proofs

/-! The slice sum of the float kind (R106, R107): the exact sum of the products in units of a power of two, and the sign of
a zero sum. -/

namespace Sys2Proof.Num

/-- A finite value whose exponent is at least `low`: a multiple of `2^low` as it is written. -/
def FinFrom (low : Int) (x : Num) : Prop := ∃ n m e, x = .fin n m e ∧ low ≤ e

/-- A finite value in units of `2^low`; 0 for NaN and the infinities. -/
def units (low : Int) : Num → Int
  | .fin n m e => atExp n m e low
  | _ => 0

def IsNegZero (x : Num) : Prop := ∃ e, x = .fin true 0 e

/-! ### Integers at an exponent -/

theorem atExp_eq_sign_mul (n : Bool) (m : Nat) (e0 e : Int) :
    atExp n m e0 e = (if n then -1 else 1) * (m * 2 ^ (e0 - e).toNat : Int) := by
  cases n <;> simp [atExp]

/-- The same value in a smaller unit. -/
theorem atExp_rescale (n : Bool) (m : Nat) {low e e0 : Int} (hlow : low ≤ e) (he : e ≤ e0) :
    atExp n m e0 low = atExp n m e0 e * 2 ^ (e - low).toNat := by
  have hexp : (e0 - low).toNat = (e0 - e).toNat + (e - low).toNat := by omega
  rw [atExp_eq_sign_mul, atExp_eq_sign_mul, hexp, Int.pow_add, Int.mul_assoc, Int.mul_assoc]

/-- Sign and magnitude of an integer give the integer back. -/
theorem atExp_natAbs (i e low : Int) : atExp (decide (i < 0)) i.natAbs e low = i * 2 ^ (e - low).toNat := by
  rw [atExp_eq_sign_mul, ← Int.mul_assoc]
  by_cases hi : i < 0
  · rw [if_pos (decide_eq_true hi), Int.ofNat_natAbs_of_nonpos (Int.le_of_lt hi), Int.neg_one_mul, Int.neg_neg]
  · rw [if_neg (by simpa using hi), Int.natAbs_of_nonneg (Int.not_lt.mp hi), Int.one_mul]

theorem atExp_eq_zero_iff {n : Bool} {m : Nat} {e0 e : Int} : atExp n m e0 e = 0 ↔ m = 0 := by
  have hsign : (if n then (-1 : Int) else 1) ≠ 0 := by cases n <;> decide
  have hpow : (2 : Int) ^ (e0 - e).toNat ≠ 0 := Int.pow_ne_zero (by decide)
  rw [atExp_eq_sign_mul, Int.mul_eq_zero, Int.mul_eq_zero, or_iff_right hsign, or_iff_left hpow, Int.natCast_eq_zero]

theorem units_rescale {low unit : Int} {x : Num} (hx : FinFrom unit x) (hlow : low ≤ unit) :
    units low x = units unit x * 2 ^ (unit - low).toNat := by
  obtain ⟨n, m, e, rfl, he⟩ := hx
  exact atExp_rescale n m hlow he

theorem FinFrom.mono {low unit : Int} {x : Num} (hx : FinFrom unit x) (hlow : low ≤ unit) : FinFrom low x := by
  obtain ⟨n, m, e, rfl, he⟩ := hx
  exact ⟨n, m, e, rfl, Int.le_trans hlow he⟩

/-! ### One addition

An exact zero is written with exponent 0, so a sum stays a multiple of the unit only where the unit's exponent is not
positive. -/

theorem finFrom_add {low : Int} (h0 : low ≤ 0) {x y : Num} (hx : FinFrom low x) (hy : FinFrom low y) : FinFrom low (add x y) := by
  obtain ⟨n, m, e, rfl, he⟩ := hx
  obtain ⟨k, p, f, rfl, hf⟩ := hy
  simp only [add]
  split
  · exact ⟨_, _, _, rfl, h0⟩
  · exact ⟨_, _, _, rfl, Int.le_min.mpr ⟨he, hf⟩⟩

theorem units_add {low : Int} {x y : Num} (hx : FinFrom low x) (hy : FinFrom low y) :
    units low (add x y) = units low x + units low y := by
  obtain ⟨n, m, e, rfl, he⟩ := hx
  obtain ⟨k, p, f, rfl, hf⟩ := hy
  have hle : low ≤ min e f := Int.le_min.mpr ⟨he, hf⟩
  have hmin : units low (.fin n m e) + units low (.fin k p f) =
      (atExp n m e (min e f) + atExp k p f (min e f)) * 2 ^ (min e f - low).toNat := by
    rw [Int.add_mul, ← atExp_rescale n m hle (Int.min_le_left e f), ← atExp_rescale k p hle (Int.min_le_right e f)]
    rfl
  rw [hmin]
  simp only [add]
  split
  next hz => rw [hz, Int.zero_mul]; exact atExp_eq_zero_iff.mpr rfl
  next => exact atExp_natAbs _ _ _

/-- R107, for two operands: cancellation never gives minus zero. -/
theorem isNegZero_add_iff {low : Int} {x y : Num} (hx : FinFrom low x) (hy : FinFrom low y) :
    IsNegZero (add x y) ↔ IsNegZero x ∧ IsNegZero y := by
  obtain ⟨n, m, e, rfl, -⟩ := hx
  obtain ⟨k, p, f, rfl, -⟩ := hy
  simp only [add]
  split
  next => simp [IsNegZero, and_assoc, and_left_comm]
  next hz =>
    refine iff_of_false (fun ⟨_, hsum⟩ => hz ?_) fun ⟨⟨_, hx⟩, ⟨_, hy⟩⟩ => hz ?_
    · injection hsum with _ hi
      exact Int.natAbs_eq_zero.mp hi
    · cases hx
      cases hy
      rw [atExp_eq_zero_iff.mpr rfl, atExp_eq_zero_iff.mpr rfl, Int.add_zero]

/-! ### A sum of many -/

theorem finFrom_foldl_add {low : Int} (h0 : low ≤ 0) {x : Num} {xs : List Num} (hx : FinFrom low x) (hxs : ∀ y ∈ xs, FinFrom low y) :
    FinFrom low (xs.foldl add x) := by
  induction xs generalizing x with
  | nil => exact hx
  | cons y ys ih =>
    rw [List.forall_mem_cons] at hxs
    exact ih (finFrom_add h0 hx hxs.1) hxs.2

theorem units_foldl_add {low : Int} (h0 : low ≤ 0) {x : Num} {xs : List Num} (hx : FinFrom low x) (hxs : ∀ y ∈ xs, FinFrom low y) :
    units low (xs.foldl add x) = ((x :: xs).map (units low)).sum := by
  induction xs generalizing x with
  | nil => simp
  | cons y ys ih =>
    rw [List.forall_mem_cons] at hxs
    rw [List.foldl_cons, ih (finFrom_add h0 hx hxs.1) hxs.2]
    simp only [List.map_cons, List.sum_cons, units_add hx hxs.1, Int.add_assoc]

theorem isNegZero_foldl_add_iff {low : Int} (h0 : low ≤ 0) {x : Num} {xs : List Num} (hx : FinFrom low x)
    (hxs : ∀ y ∈ xs, FinFrom low y) : IsNegZero (xs.foldl add x) ↔ ∀ y ∈ x :: xs, IsNegZero y := by
  induction xs generalizing x with
  | nil => simp
  | cons y ys ih =>
    rw [List.forall_mem_cons] at hxs
    rw [List.foldl_cons, ih (finFrom_add h0 hx hxs.1) hxs.2]
    simp only [List.forall_mem_cons, isNegZero_add_iff hx hxs.1, and_assoc]

theorem sum_units_rescale {low unit : Int} {xs : List Num} (hxs : ∀ x ∈ xs, FinFrom unit x) (hlow : low ≤ unit) :
    (xs.map (units low)).sum = (xs.map (units unit)).sum * 2 ^ (unit - low).toNat := by
  induction xs with
  | nil => exact (Int.zero_mul _).symm
  | cons y ys ih =>
    rw [List.forall_mem_cons] at hxs
    rw [List.map_cons, List.sum_cons, List.map_cons, List.sum_cons, Int.add_mul, ih hxs.2, units_rescale hxs.1 hlow]

/-- A list that sums to zero in one unit sums to zero in every smaller one. -/
theorem sum_units_eq_zero_of_le {low unit : Int} {xs : List Num} (hxs : ∀ x ∈ xs, FinFrom unit x) (hlow : low ≤ unit)
    (hsum : (xs.map (units unit)).sum = 0) : (xs.map (units low)).sum = 0 := by
  rw [sum_units_rescale hxs hlow, hsum, Int.zero_mul]

/-! ### The FP32 word of a zero -/

theorem toF32_zero_bits (hold n : Bool) (e : Int) : (toF32 hold (.fin n 0 e)).bits = if n then 0x80000000#32 else 0#32 := by
  cases n <;> rfl

theorem toF32_bits_of_units_eq_zero {low : Int} {x : Num} (hold : Bool) (hx : FinFrom low x) (hz : units low x = 0) :
    (IsNegZero x → (toF32 hold x).bits = 0x80000000#32) ∧ (¬ IsNegZero x → (toF32 hold x).bits = 0#32) := by
  obtain ⟨n, m, e, rfl, -⟩ := hx
  obtain rfl : m = 0 := atExp_eq_zero_iff.mp hz
  rw [toF32_zero_bits]
  cases n <;> simp [IsNegZero]

end Sys2Proof.Num

namespace Sys2Proof.Machine

theorem sliceSum_v_float {w : IWord} (hex : Iw.macExact w = false) (hk : fmtIntKind (Iw.macFmt w) = false) (x : Num) (xs : List Num) :
    (sliceSum w (x :: xs)).v = ((toF32 true (xs.foldl Num.add x)).bits.toNat : Int) := by
  simp [sliceSum, hex, hk]

/-- R107: a zero slice sum. The fold works in units of `2^(min low 0)`, since an exact zero has exponent 0. -/
theorem sliceSum_v_of_sum_eq_zero {w : IWord} {ps : List Num} {low : Int} (hex : Iw.macExact w = false)
    (hk : fmtIntKind (Iw.macFmt w) = false) (hne : ps ≠ []) (hps : ∀ x ∈ ps, Num.FinFrom low x)
    (hsum : (ps.map (Num.units low)).sum = 0) :
    ((∀ x ∈ ps, Num.IsNegZero x) → (sliceSum w ps).v = 0x80000000) ∧
    ((¬ ∀ x ∈ ps, Num.IsNegZero x) → (sliceSum w ps).v = 0) := by
  obtain ⟨x, xs, rfl⟩ := List.exists_cons_of_ne_nil hne
  have h0 : min low 0 ≤ 0 := Int.min_le_right low 0
  obtain ⟨hx, hxs⟩ := List.forall_mem_cons.mp fun y hy => (hps y hy).mono (Int.min_le_left low 0)
  have hz : Num.units (min low 0) (xs.foldl Num.add x) = 0 := by
    rw [Num.units_foldl_add h0 hx hxs]
    exact Num.sum_units_eq_zero_of_le hps (Int.min_le_left low 0) hsum
  obtain ⟨hneg, hpos⟩ := Num.toF32_bits_of_units_eq_zero true (Num.finFrom_foldl_add h0 hx hxs) hz
  rw [sliceSum_v_float hex hk, ← Num.isNegZero_foldl_add_iff h0 hx hxs]
  exact ⟨fun h => by rw [hneg h]; rfl, fun h => by rw [hpos h]; rfl⟩

theorem macRow_sums_getElem? (p : Part) (w : IWord) (pl : MacPlan) (rows : List (List Byte)) (m : Nat) (late : Bool) {wd col : Nat}
    (h : col < wd) : (macRow p w pl rows m wd late).sums[col]? = some (sliceSum w (products p w pl rows col)) := by
  simp [macRow, h]

end Sys2Proof.Machine

namespace Sys2Proof.Proofs

open Sys2Proof Sys2Proof.Machine

/-- Settles O13: the sign of a zero slice sum, and the columns of an issued row. -/
theorem zeroSliceSumSign : Obligations.ZeroSliceSumSign := by
  refine ⟨fun w ps low hex hk hne hps hsum => ?_, fun p w pl rows m wd col late h => macRow_sums_getElem? p w pl rows m late h⟩
  have hunits : (ps.map (Num.units low)).sum = 0 := by
    rw [← hsum]
    refine congrArg List.sum (List.map_congr_left fun x hx => ?_)
    obtain ⟨n, m, e, rfl, -⟩ := hps x hx
    exact Num.atExp_eq_sign_mul n m e low
  obtain ⟨hneg, hpos⟩ := sliceSum_v_of_sum_eq_zero hex hk hne hps hunits
  exact ⟨hneg, fun ⟨x, hx, hx'⟩ => hpos fun h => (h x hx).elim hx'⟩

end Sys2Proof.Proofs

/-! The vector engine: starts of its instructions (R139, R140, R191), sources in registers (R131, R132), the retirement that
writes registers alone (R149, R169); the predicates on FP32 values (R141). -/

namespace Sys2Proof.Machine

/-! ### Starts of vector instructions -/

section
variable {s : State} {l : Loc} {c : Ctx} {op : Nat} {sem : VecEnv → Run VecOut} {o : VecOut}

theorem beginVec_ok {q : QEnt} {k : Nat} (h : sem (vecEnv s l c q.word k) = .ok o) :
    (.next (beginVec sem l.core l.part l.stream k s c q) : Result) = vecLeaves s l c q.word q.pc k o := by
  rw [vecEnv] at h
  rw [beginVec, h]
  rfl

theorem VecTurn.startGuard (ht : VecTurn s l) :
    (s.vecBusy l.core || s.vecNext l.core != some (3 * l.part + l.stream) || decide (3 ≤ l.stream)) = false := by
  obtain ⟨hidle, hturn, hstream⟩ := ht
  simp [hidle, hturn, hstream]

/-- R168: the head of the share starts where nothing of the context is suspended. -/
theorem startVec_head {q : QEnt} (ht : VecTurn s l) (hq : HeadReady s l 2 op c q) (hs : c.susp = none)
    (ho : sem (vecEnv s l (c.take l.stream 2) q.word 0) = .ok o) :
    (.next (startVec op sem l.core l.part l.stream s) : Result) = vecLeaves s l (c.take l.stream 2) q.word q.pc 0 o := by
  simp only [startVec, ht.startGuard, hq.ctx, Option.bind_some, hs, Bool.false_eq_true, if_false]
  rw [startHead_ready hq, beginVec_ok ho]

/-- R191: the suspended instruction of a restored context comes first, from its completed elements on. -/
theorem startVec_susp {x : Susp} (ht : VecTurn s l) (hc : s.ctx l.core l.part = some c) (hs : c.susp = some x)
    (hop : Iw.opcode x.word = op) (ho : sem (vecEnv s l { c with susp := none } x.word x.done) = .ok o) :
    (.next (startVec op sem l.core l.part l.stream s) : Result) = vecLeaves s l { c with susp := none } x.word 0#48 x.done o := by
  simp only [startVec, ht.startGuard, hc, Option.bind_some, hs, hop, Bool.false_eq_true, if_false, if_true]
  exact beginVec_ok ho

end

theorem vxStarts_of_startVec {i : Loc → Instr} {op : Nat} {sem : VecEnv → Run VecOut}
    (h : ∀ l s, exec (i l) s = .next (startVec op sem l.core l.part l.stream s)) : VxStarts i op sem :=
  fun s l _ ht => ⟨fun _ _ hq hs ho => (h l s).trans (startVec_head ht hq hs ho),
    fun _ _ hc hs hop ho => (h l s).trans (startVec_susp ht hc hs hop ho)⟩

theorem vxStarts_vxAdd : VxStarts .vxAdd 0x10 (elem2 fadd) := vxStarts_of_startVec fun _ _ => rfl

/-! ### Sources in registers -/

/-- R131, R132: a register with tag 32 is read up to the count, +0 beyond its valid elements. -/
theorem readSrc_reg {e : VecEnv} {spec i : Nat} (isInt : Bool) (hsrc : srcOf spec = .reg i) (htag : (e.ctx.vreg i).tag = 32) :
    readSrc e spec isInt = .ok { words := padWords e.count (e.ctx.vreg i).elems } := by
  have hfits : (e.ctx.vreg i).fits 32 = true := by simp [VReg.fits, htag]
  simp only [readSrc, hsrc, readReg32, hfits, if_true]
  rfl

/-- R128, R140: a two-operand instruction over registers, from its first element on. -/
theorem elem2_regs {op : Word32 → Word32 → Word32} {e : VecEnv} {i j : Nat} (hk : e.k = 0)
    (ha : srcOf (Iw.a e.w) = .reg i) (hb : srcOf (Iw.bb e.w) = .reg j)
    (hi : (e.ctx.vreg i).tag = 32) (hj : (e.ctx.vreg j).tag = 32) :
    let r := List.zipWith op (padWords e.count (e.ctx.vreg i).elems) (padWords e.count (e.ctx.vreg j).elems)
    elem2 op e = .ok (out32 e r (summF r 0 0) 0 false) := by
  simp only [elem2, readSrc_reg false ha hi, readSrc_reg false hb hj, VecEnv.resume, hk, bind, Except.bind, if_true]
  rfl

/-! ### Retirement -/

@[simp] theorem State.ctx_vecServed (s : State) (n p i : Nat) : (s.vecServed n i).ctx n p = s.ctx n p := by
  simp only [State.ctx, State.part, State.vecServed, State.core_setCore_self]

/-- R139: a context that has not stopped and awaits no shares holds the instruction in execution after its start. -/
theorem vecLeaves_ctx {s : State} {l : Loc} {c : Ctx} (hq : c.qsh = none) (hf : c.fault = none) (w : IWord) (pc : BitVec 48)
    (k : Nat) (o : VecOut) : ∃ t, vecLeaves s l c w pc k o = .next t ∧
      t.ctx l.core l.part = some { c with fly := some { word := w, pc := pc, stream := l.stream, done := k, out := o } } ∧
      t.mem = s.mem ∧ t.regs = s.regs := by
  refine ⟨_, rfl, ?_, rfl, rfl⟩
  rw [State.ctx_vecServed, State.putCtx_eq]
  · exact State.ctx_setCtx_self _ _ _ _
  · exact hq
  · exact hf

/-- R139: an instruction that writes no stage bytes and has no tile to pop retires in its context. -/
theorem retireVector_noStage {s : State} {n p : Nat} {c : Ctx} {f : VecFly} (hc : s.ctx n p = some c) (hf : c.fly = some f)
    (hpop : f.popDue = false) (hst : f.out.stage = []) : retireVector n p s = s.putCtx n p (c.retireVec f) := by
  simp only [retireVector, hc, hf, hpop, VecFly.stageBytes, hst, List.map_nil, List.foldl_nil, Bool.false_eq_true, if_false]

/-- R149, R169: without summary, status word and signal a retirement writes the registers alone. -/
theorem Ctx.retireVec_reg {c : Ctx} {f : VecFly} {i : Nat} {r : VecReg} (hr : f.out.regs = [(i, r)]) (ht : f.out.tsw = 0)
    (hsum : Iw.sumEn f.word = false) (hsig : Iw.sigEn f.word = false) :
    c.retireVec f = { c with fly := none }.setVreg i { tag := r.tag, elems := r.elems } := by
  simp [Ctx.retireVec, Ctx.signalOf, hr, ht, hsum, hsig]

/-- R139, R169: the instruction in execution retires into one vector register. -/
theorem exec_retire_reg {s : State} {n p : Nat} {c : Ctx} {f : VecFly} {i : Nat} {r : VecReg} (hc : s.ctx n p = some c)
    (hq : c.qsh = none) (hfault : c.fault = none) (hf : c.fly = some f) (hpop : f.popDue = false) (hst : f.out.stage = [])
    (hr : f.out.regs = [(i, r)]) (ht : f.out.tsw = 0) (hsum : Iw.sumEn f.word = false) (hsig : Iw.sigEn f.word = false) :
    exec (.instructionRetire n p 2) s =
      .next (s.setCtx n p ({ c with fly := none }.setVreg i { tag := r.tag, elems := r.elems })) := by
  refine congrArg Host.Outcome.next ((retireVector_noStage hc hf hpop hst).trans ?_)
  rw [Ctx.retireVec_reg hr ht hsum hsig]
  exact State.putCtx_eq _ _ _ _ hq hfault

end Sys2Proof.Machine

namespace Sys2Proof.Proofs

open Sys2Proof Sys2Proof.Machine

/-- Settles O10: every vector command is a start with its opcode and its computation. That the result is computed at the start
is the model's reading (log entry 36), as are the turn (91) and the restart (92). -/
theorem vectorStarts : Obligations.VectorStarts := by
  unfold Obligations.VectorStarts
  and_intros
  all_goals exact vxStarts_of_startVec fun _ _ => rfl

/-- Settles O11: the start of VX_ADD over registers, then its retirement. -/
theorem vectorAddOverRegisters : Obligations.VectorAddOverRegisters := by
  intro s l c q i j ht hq hsusp hfault hqsh ha hb hi hj hsig hsum
  have hsem := elem2_regs (op := fadd) (e := vecEnv s l (c.take l.stream 2) q.word 0) rfl ha hb hi hj
  obtain ⟨hstart, -⟩ := vxStarts_vxAdd s l c ht
  obtain ⟨t, hleaves, htctx, htmem, htregs⟩ := vecLeaves_ctx (s := s) (l := l) (c := c.take l.stream 2) hqsh hfault q.word q.pc 0 _
  refine ⟨t, _, _, (hstart q _ hq hsusp hsem).trans hleaves,
    exec_retire_reg htctx hqsh hfault rfl rfl rfl rfl rfl hsum hsig, State.ctx_setCtx_self _ _ _ _, Ctx.vreg_setVreg_self _ _ _,
    fun r hr => Ctx.vreg_setVreg_ne _ _ _ _ hr, fun _ => rfl, htmem, htregs⟩

end Sys2Proof.Proofs

namespace Sys2Proof

/-! ### FP32 words by exponent and mantissa -/

theorem f32Val_eq (w : Word32) : f32Val w =
    if w.toNat / 2 ^ 23 % 256 = 255 then (if w.toNat % 2 ^ 23 = 0 then .inf (tbit w.toNat 31) else .nan)
    else if w.toNat / 2 ^ 23 % 256 = 0 then .fin (tbit w.toNat 31) (w.toNat % 2 ^ 23) (-149)
    else .fin (tbit w.toNat 31) (2 ^ 23 + w.toNat % 2 ^ 23) ((w.toNat / 2 ^ 23 % 256 : Nat) - 127 - 23) := by
  simp [f32Val, decodeFp, fp32, field]

theorem isNan32_iff {w : Word32} : isNan32 w = true ↔ w.toNat / 2 ^ 23 % 256 = 255 ∧ w.toNat % 2 ^ 23 ≠ 0 := by
  rw [isNan32, f32Val_eq, beq_iff_eq]
  split
  next he => rw [and_iff_right he]; split <;> simp_all
  next he => simp only [he, false_and, iff_false]; split <;> simp

theorem isInf32_iff {w : Word32} : isInf32 w = true ↔ w.toNat / 2 ^ 23 % 256 = 255 ∧ w.toNat % 2 ^ 23 = 0 := by
  have hw : w.toNat < 2 ^ 32 := w.isLt
  simp only [isInf32, Bool.or_eq_true, beq_iff_eq, ← BitVec.toNat_inj, F32.negInf, F32.posInf, BitVec.toNat_ofNat]
  omega

theorem isNonfin32_iff {w : Word32} : isNonfin32 w = true ↔ w.toNat / 2 ^ 23 % 256 = 255 := by
  rw [isNonfin32, Bool.or_eq_true, isNan32_iff, isInf32_iff, ← and_or_left, and_iff_left (Decidable.em _).symm]

theorem exponent_ne_of_finite {w : Word32} (h : isNonfin32 w = false) : w.toNat / 2 ^ 23 % 256 ≠ 255 :=
  mt isNonfin32_iff.mpr (by simp [h])

theorem isNan32_of_finite {w : Word32} (h : isNonfin32 w = false) : isNan32 w = false := by
  rw [isNonfin32, Bool.or_eq_false_iff] at h
  exact h.1

/-- R37: the magnitude of an FP32 code below its sign bit, in units of `2^-149`. -/
def f32Units (mag : Nat) : Nat := if mag < 2 ^ 23 then mag else (2 ^ 23 + mag % 2 ^ 23) * 2 ^ (mag / 2 ^ 23 - 1)

theorem f32Units_lt_succ (n : Nat) : f32Units n < f32Units (n + 1) := by
  unfold f32Units
  by_cases hsub : n + 1 < 2 ^ 23
  · rw [if_pos (by omega), if_pos hsub]
    omega
  rw [if_neg hsub]
  by_cases hlast : n < 2 ^ 23
  · obtain rfl : n = 2 ^ 23 - 1 := by omega
    decide
  rw [if_neg hlast]
  by_cases hcarry : n % 2 ^ 23 + 1 < 2 ^ 23
  · obtain ⟨hdiv, hmod⟩ : (n + 1) / 2 ^ 23 = n / 2 ^ 23 ∧ (n + 1) % 2 ^ 23 = n % 2 ^ 23 + 1 := by omega
    rw [hdiv, hmod]
    exact Nat.mul_lt_mul_of_pos_right (by omega) (Nat.two_pow_pos _)
  · obtain ⟨hdiv, hmod⟩ : (n + 1) / 2 ^ 23 - 1 = (n / 2 ^ 23 - 1) + 1 ∧ (n + 1) % 2 ^ 23 = 0 := by omega
    rw [hdiv, hmod, @Nat.pow_succ' 2 (n / 2 ^ 23 - 1), ← Nat.mul_assoc]
    exact Nat.mul_lt_mul_of_pos_right (by omega) (Nat.two_pow_pos _)

/-- The codes of a sign are in the order of their magnitudes. -/
theorem f32Units_lt {m n : Nat} (h : m < n) : f32Units m < f32Units n := by
  induction h with
  | refl => exact f32Units_lt_succ m
  | step _ ih => exact Nat.lt_trans ih (f32Units_lt_succ _)

/-! ### The comparison key -/

theorem cmpKey_eq (w : Word32) : cmpKey w =
    if tbit w.toNat 31 then -((w.toNat % 2 ^ 31 : Nat) : Int) else ((w.toNat % 2 ^ 31 : Nat) : Int) := by
  have hw : w.toNat < 2 ^ 32 := w.isLt
  rw [cmpKey]
  split
  next => rfl
  next hs =>
    simp only [tbit, beq_iff_eq] at hs
    omega

theorem natAbs_cmpKey (w : Word32) : (cmpKey w).natAbs = w.toNat % 2 ^ 31 := by
  rw [cmpKey_eq]
  split <;> omega

/-- Every finite key lies strictly between those of the infinities. -/
theorem natAbs_cmpKey_lt_of_finite {w : Word32} (h : isNonfin32 w = false) : (cmpKey w).natAbs < 0x7F800000 := by
  have he := exponent_ne_of_finite h
  rw [natAbs_cmpKey]
  omega

/-- The value of the finite code with comparison key `k`, in units of `2^-149`. -/
def keyUnits (k : Int) : Int := if k < 0 then -(f32Units k.natAbs : Int) else f32Units k.natAbs

theorem keyUnits_lt {j k : Int} (h : j < k) : keyUnits j < keyUnits k := by
  unfold keyUnits
  by_cases hk : k < 0
  · have hmag := f32Units_lt (show k.natAbs < j.natAbs by omega)
    rw [if_pos hk, if_pos (by omega)]
    omega
  rw [if_neg hk]
  by_cases hj : j < 0
  · have hmag := f32Units_lt (show 0 < j.natAbs by omega)
    rw [if_pos hj]
    omega
  · have hmag := f32Units_lt (show j.natAbs < k.natAbs by omega)
    rw [if_neg hj]
    omega

theorem keyUnits_lt_iff {j k : Int} : keyUnits j < keyUnits k ↔ j < k := by
  refine ⟨fun h => ?_, keyUnits_lt⟩
  rcases Int.lt_trichotomy j k with hlt | rfl | hgt
  · exact hlt
  · exact absurd h (Int.lt_irrefl _)
  · exact absurd (keyUnits_lt hgt) (Int.lt_asymm h)

theorem keyUnits_natCast (n : Nat) : keyUnits n = f32Units n := by
  rw [keyUnits, if_neg (by omega), Int.natAbs_natCast]

theorem keyUnits_neg_natCast (n : Nat) : keyUnits (-n) = -f32Units n := by
  rw [keyUnits, Int.natAbs_neg, Int.natAbs_natCast]
  split
  next => rfl
  next hn =>
    obtain rfl : n = 0 := by omega
    rfl

namespace Machine

/-! ### Rational values -/

/-- The magnitude that `ratOf` gives `m * 2^e`, in units of `2^-149`. -/
theorem ratMag_mul_two_pow {m : Nat} {e : Int} (he : -149 ≤ e) :
    (if 0 ≤ e then ((m * 2 ^ e.toNat : Nat) : Rat) else (m : Rat) / ((2 ^ (-e).toNat : Nat) : Rat)) * ((2 ^ 149 : Nat) : Rat) =
      ((m * 2 ^ (e - -149).toNat : Nat) : Rat) := by
  split
  next hpos =>
    have hexp : (e - -149).toNat = e.toNat + 149 := by omega
    rw [hexp, ← Rat.natCast_mul, Nat.pow_add, Nat.mul_assoc]
  next hneg =>
    have hexp : 149 = (e - -149).toNat + (-e).toNat := by omega
    have hne : ((2 ^ (-e).toNat : Nat) : Rat) ≠ 0 :=
      fun h => Nat.ne_of_gt (Nat.two_pow_pos _) (Rat.natCast_eq_zero_iff.mp h)
    have hsplit : 2 ^ 149 = 2 ^ (-e).toNat * 2 ^ (e - -149).toNat := by
      rw [← Nat.pow_add, Nat.add_comm, ← hexp]
    rw [hsplit, Rat.natCast_mul, ← Rat.mul_assoc, Rat.div_mul_cancel hne, ← Rat.natCast_mul]

theorem ratOf_mul_two_pow {w : Word32} {n : Bool} {m : Nat} {e : Int} (h : f32Val w = .fin n m e) (he : -149 ≤ e) :
    ratOf w * ((2 ^ 149 : Nat) : Rat) = ((Num.atExp n m e (-149) : Int) : Rat) := by
  rw [ratOf, h]
  cases n
  · exact (ratMag_mul_two_pow he).trans (Rat.intCast_natCast _).symm
  · refine (Rat.neg_mul _ _).trans ?_
    rw [ratMag_mul_two_pow he, ← Rat.intCast_natCast, ← Rat.intCast_neg]
    rfl

/-- R37: the magnitude of a finite word. -/
theorem f32Val_of_finite {w : Word32} (h : isNonfin32 w = false) :
    ∃ m e, f32Val w = .fin (tbit w.toNat 31) m e ∧ -149 ≤ e ∧ m * 2 ^ (e - -149).toNat = f32Units (w.toNat % 2 ^ 31) := by
  have hmant : w.toNat % 2 ^ 31 % 2 ^ 23 = w.toNat % 2 ^ 23 := by omega
  have hexp : w.toNat % 2 ^ 31 / 2 ^ 23 = w.toNat / 2 ^ 23 % 256 := by omega
  rw [f32Val_eq, if_neg (exponent_ne_of_finite h), f32Units, hmant, hexp]
  split
  next hsub =>
    refine ⟨_, _, rfl, Int.le_refl _, ?_⟩
    rw [if_pos (by omega), show w.toNat % 2 ^ 31 = w.toNat % 2 ^ 23 by omega]
    exact Nat.mul_one _
  next hnorm =>
    refine ⟨_, _, rfl, by omega, ?_⟩
    rw [if_neg (by omega)]
    congr 2
    omega

/-- R36, R141: a finite word's value is that of its comparison key. -/
theorem ratOf_eq_keyUnits {w : Word32} (h : isNonfin32 w = false) :
    ratOf w * ((2 ^ 149 : Nat) : Rat) = ((keyUnits (cmpKey w) : Int) : Rat) := by
  obtain ⟨m, e, hval, he, hmag⟩ := f32Val_of_finite h
  rw [ratOf_mul_two_pow hval he, Num.atExp, hmag, cmpKey_eq]
  cases tbit w.toNat 31
  · exact congrArg _ (keyUnits_natCast _).symm
  · exact congrArg _ (keyUnits_neg_natCast _).symm

theorem ratOf_lt_iff_cmpKey {a b : Word32} (ha : isNonfin32 a = false) (hb : isNonfin32 b = false) :
    ratOf a < ratOf b ↔ cmpKey a < cmpKey b := by
  have hpow : 0 < ((2 ^ 149 : Nat) : Rat) := Rat.natCast_pos.mpr (Nat.two_pow_pos _)
  rw [← Rat.mul_lt_mul_right hpow, ratOf_eq_keyUnits ha, ratOf_eq_keyUnits hb, Rat.intCast_lt_intCast, keyUnits_lt_iff]

theorem ratOf_le_iff_cmpKey {a b : Word32} (ha : isNonfin32 a = false) (hb : isNonfin32 b = false) :
    ratOf a ≤ ratOf b ↔ cmpKey a ≤ cmpKey b := by
  rw [← Rat.not_lt, ratOf_lt_iff_cmpKey hb ha, Int.not_lt]

theorem ratOf_eq_iff_cmpKey {a b : Word32} (ha : isNonfin32 a = false) (hb : isNonfin32 b = false) :
    ratOf a = ratOf b ↔ cmpKey a = cmpKey b := by
  rw [Rat.le_antisymm_iff, ratOf_le_iff_cmpKey ha hb, ratOf_le_iff_cmpKey hb ha, Int.le_antisymm_iff]

section
variable {a b : Word32} (ha : isNonfin32 a = false) (hb : isNonfin32 b = false)
include ha hb

theorem flt_iff_ratOf_lt : flt a b = true ↔ ratOf a < ratOf b := by
  rw [ratOf_lt_iff_cmpKey ha hb]
  simp [flt, isNan32_of_finite ha, isNan32_of_finite hb]

theorem fle_iff_ratOf_le : fle a b = true ↔ ratOf a ≤ ratOf b := by
  rw [ratOf_le_iff_cmpKey ha hb]
  simp [fle, isNan32_of_finite ha, isNan32_of_finite hb]

theorem feq_iff_ratOf_eq : feq a b = true ↔ ratOf a = ratOf b := by
  rw [ratOf_eq_iff_cmpKey ha hb]
  simp [feq, isNan32_of_finite ha, isNan32_of_finite hb]

end

/-! ### Comparisons with NaN and with the infinities -/

section
variable {a b : Word32}

theorem flt_of_nan (h : isNan32 a = true ∨ isNan32 b = true) : flt a b = false := by
  rcases h with h | h <;> simp [flt, h]

theorem fle_of_nan (h : isNan32 a = true ∨ isNan32 b = true) : fle a b = false := by
  rcases h with h | h <;> simp [fle, h]

theorem feq_of_nan (h : isNan32 a = true ∨ isNan32 b = true) : feq a b = false := by
  rcases h with h | h <;> simp [feq, h]

theorem flt_negInf_of_finite (h : isNonfin32 a = false) : flt F32.negInf a = true := by
  have hnan : isNan32 F32.negInf = false := by decide
  have hkey : cmpKey F32.negInf < cmpKey a := by
    have hinf : cmpKey F32.negInf = -0x7F800000 := by decide
    have hlt := natAbs_cmpKey_lt_of_finite h
    omega
  simp [flt, hnan, isNan32_of_finite h, hkey]

theorem flt_posInf_of_finite (h : isNonfin32 a = false) : flt a F32.posInf = true := by
  have hnan : isNan32 F32.posInf = false := by decide
  have hkey : cmpKey a < cmpKey F32.posInf := by
    have hinf : cmpKey F32.posInf = 0x7F800000 := by decide
    have hlt := natAbs_cmpKey_lt_of_finite h
    omega
  simp [flt, hnan, isNan32_of_finite h, hkey]

end

end Machine

end Sys2Proof

namespace Sys2Proof.Proofs

open Sys2Proof Sys2Proof.Machine

/-- Settles O12: the predicates with NaN, on finite values by their rational values, and with the infinities. That the
non-finite predicate is of the first operand is log entry 96. -/
theorem predicatesFollowIeee : Obligations.PredicatesFollowIeee := by
  refine fun a b => ⟨fun h => ?_, fun ha hb => ?_, fun ha => ⟨flt_negInf_of_finite ha, flt_posInf_of_finite ha⟩,
    by decide, isNonfin32_iff⟩
  · have heq : (!feq a b) = true := by rw [feq_of_nan h]; rfl
    exact ⟨flt_of_nan h, fle_of_nan h, feq_of_nan h, heq, fle_of_nan h.symm, flt_of_nan h.symm⟩
  · have hne : (!feq a b) = true ↔ ratOf a ≠ ratOf b := by
      rw [Bool.not_eq_true', ← Bool.not_eq_true, feq_iff_ratOf_eq ha hb]
    exact ⟨flt_iff_ratOf_lt ha hb, fle_iff_ratOf_le ha hb, feq_iff_ratOf_eq ha hb, hne, fle_iff_ratOf_le hb ha,
      flt_iff_ratOf_lt hb ha⟩

end Sys2Proof.Proofs

/-! Control instructions (R181): those that write register d alone, and CP.LD and CP.ST, which move eight stage bytes. -/

namespace Sys2Proof.Machine

/-! ### Effects that do not halt -/

section
variable {s t : State} {l : Loc} {w : IWord} {op a : Nat} {c k : Ctx} {sem : CpSem}

theorem CpReady.issued_qsh (h : CpReady s l w op c) : (c.issued l.stream).qsh = none := (mayIssue_qsh h.issues :)

theorem CpReady.issued_fault (h : CpReady s l w op c) : (c.issued l.stream).fault = none := (mayIssue_fault h.issues :)

/-- R181: where the effect does not halt, its machine and its context remain, and the signal follows. -/
theorem cpExec_of_ok (h : CpReady s l w op c) (hs : sem l w s (c.issued l.stream) = .ok (t, k)) (hq : k.qsh = none)
    (hf : k.fault = none) : cpExec op sem l w s = t.setCtx l.core l.part (k.signalOf w) := by
  rw [cpExec_ready sem h, hs]
  exact State.putCtx_eq _ _ _ _ ((Ctx.signalOf_qsh _ _).trans hq) ((Ctx.signalOf_fault _ _).trans hf)

/-- R181: register d gets a value that the context gives, and nothing else changes but the stream and the signal. -/
theorem cpExec_setReg {f : IWord → Ctx → Word64} {v : Word64} (hv : f w (c.issued l.stream) = v) (h : CpReady s l w op c) :
    (.next (cpExec op (cpCtx fun w k => k.setReg (Iw.cd w) (f w k)) l w s) : Result) =
      cpLeaves s l w c fun k => k.setReg (Iw.cd w) v := by
  rw [cpExec_ctx _ h ((Ctx.setReg_qsh _ _ _).trans h.issued_qsh) ((Ctx.setReg_fault _ _ _).trans h.issued_fault),
    cpLeaves, hv, cpLeaves]

/-- R181: a two-operand integer instruction works on the registers as they stood before it. -/
theorem cpExec_alu (f : Word64 → Word64 → Word64) (h : CpReady s l w op c) :
    (.next (cpExec op (cpAlu f) l w s) : Result) =
      cpLeaves s l w c fun k => k.setReg (Iw.cd w) (f (c.reg (Iw.ca w)) (c.reg (Iw.cb w) + Iw.imm w)) :=
  cpExec_setReg rfl h

theorem execCpLih_ready (h : CpReady s l w 0x02 c) :
    execCpLih l w s = cpLeaves s l w c fun k =>
      k.setReg (Iw.cd w) (BitVec.ofNat 64 (putField (c.reg (Iw.cd w)).toNat 48 16 (Iw.immU w 0 16))) :=
  cpExec_setReg (by rw [Ctx.issued_reg]) h

/-! ### Stage memory -/

theorem cpStage_of_aligned (ha : a = (k.reg (Iw.ca w) + Iw.imm w).toNat) (h8 : a % 8 = 0) : cpStage w k = .ok a := by
  subst ha
  simp only [cpStage, h8, ne_eq, not_true_eq_false, if_false]

theorem Ctx.inStage_iff (c : Ctx) (off len : Nat) : c.inStage off len = true ↔ off + len ≤ c.len := decide_eq_true_iff

theorem State.stageRead_of_unmarked {n off len : Nat} (hin : off + len ≤ c.len) (hp : s.poisonedIn (c.stageAt n off) len = false) :
    s.stageRead n c off len = .ok (s.readN (c.stageAt n off) len) := by
  simp only [State.stageRead, (c.inStage_iff _ _).mpr hin, hp, Bool.not_true, Bool.false_eq_true, if_false]

theorem Ctx.stageRoom_of_le {off len : Nat} (hin : off + len ≤ c.len) : c.stageRoom off len = .ok () := by
  simp only [Ctx.stageRoom, (c.inStage_iff _ _).mpr hin, if_true]

section
variable (ha : a = (k.reg (Iw.ca w) + Iw.imm w).toNat) (h8 : a % 8 = 0) (hin : a + 8 ≤ k.len)
include ha h8 hin

theorem semLd_of_unmarked (hp : s.poisonedIn (k.stageAt l.core a) 8 = false) :
    semLd l w s k = .ok (s, k.setReg (Iw.cd w) (BitVec.ofNat 64 (s.readLe (k.stageAt l.core a) 8))) := by
  simp only [semLd, cpStage_of_aligned ha h8, State.stageRead_of_unmarked hin hp, bind, Except.bind]
  rfl

theorem semSt_of_room :
    semSt l w s k = .ok (s.writeBytes (k.stageAt l.core a) (leBytes 8 (k.reg (Iw.cb w)).toNat), k) := by
  simp only [semSt, cpStage_of_aligned ha h8, Ctx.stageRoom_of_le hin, bind, Except.bind]

end

end

end Sys2Proof.Machine

namespace Sys2Proof.Proofs

open Sys2Proof Sys2Proof.Machine

/-- Settles O5: each instruction writes register d alone. -/
theorem controlArithmetic : Obligations.ControlArithmetic := by
  intro s l w c x y sets
  exact ⟨cpExec_setReg rfl, execCpLih_ready, cpExec_alu fun a y => a + y, cpExec_alu fun a y => a - y,
    cpExec_alu fun a y => a * y, cpExec_alu fun a y => a &&& y, cpExec_alu fun a y => a ||| y, cpExec_alu fun a y => a ^^^ y,
    cpExec_alu fun a y => a <<< shAmt y, cpExec_alu fun a y => a >>> shAmt y, cpExec_alu fun a y => a.sshiftRight (shAmt y),
    cpExec_setReg rfl⟩

section
variable {s : State} {l : Loc} {w : IWord} {c : Ctx} {a : Nat} (ha : a = (c.reg (Iw.ca w) + Iw.imm w).toNat) (h8 : a % 8 = 0)
  (hin : a + 8 ≤ c.len)
include ha h8 hin

theorem exec_cpLd_unmarked (h : CpReady s l w 0x10 c) (hp : s.poisonedIn (c.stageAt l.core a) 8 = false) :
    exec (.cpLd l w) s = cpLeaves s l w c fun k =>
      k.setReg (Iw.cd w) (BitVec.ofNat 64 (s.readLe (c.stageAt l.core a) 8)) :=
  congrArg Host.Outcome.next (cpExec_of_ok h (semLd_of_unmarked (k := c.issued l.stream) ha h8 hin hp)
    ((Ctx.setReg_qsh _ _ _).trans h.issued_qsh) ((Ctx.setReg_fault _ _ _).trans h.issued_fault))

theorem exec_cpSt_room (h : CpReady s l w 0x11 c) :
    ∃ t, exec (.cpSt l w) s = .next t ∧
      t.readN (c.stageAt l.core a) 8 = leBytes 8 (c.reg (Iw.cb w)).toNat ∧
      (∀ b, b < c.stageAt l.core a ∨ c.stageAt l.core a + 8 ≤ b → t.read8 b = s.read8 b) ∧
      t.regs = s.regs ∧ t.ctx l.core l.part = some ((c.issued l.stream).signalOf w) := by
  have hlen : (leBytes 8 (c.reg (Iw.cb w)).toNat).length = 8 := leBytes_length _ _
  refine ⟨_, congrArg Host.Outcome.next (cpExec_of_ok h (semSt_of_room (k := c.issued l.stream) ha h8 hin)
    h.issued_qsh h.issued_fault), ?_, fun b hb => ?_, rfl, State.ctx_setCtx_self _ _ _ _⟩
  · have hread := State.readN_writeBytes_self s (c.stageAt l.core a) (leBytes 8 (c.reg (Iw.cb w)).toNat)
    rwa [hlen] at hread
  · exact State.read8_writeBytes_out _ _ _ (leBytes 8 (c.reg (Iw.cb w)).toNat) (by rwa [hlen])

end

/-- Settles O7: CP.LD and CP.ST on eight stage bytes inside the allocation. -/
theorem controlLoadStore : Obligations.ControlLoadStore :=
  fun _ _ _ _ _ ha h8 hin => ⟨exec_cpLd_unmarked ha h8 hin, exec_cpSt_room ha h8 hin⟩

end Sys2Proof.Proofs

/-! Issue (R171, R174, R182, R48) and the retirement of matrix and vector instructions and of moves (R139, R149, R151,
R161, R169). -/

namespace Sys2Proof.Machine

/-! ### Issue -/

section
variable {s : State} {l : Loc} {ext : FetchExt} {w : IWord} {c : Ctx}

/-- R171: an engine instruction issues exactly where its share has an entry free. -/
theorem wordIssues_engine (he : Iw.engine w < 4) :
    wordIssues s l c w = decide ((c.queue l.stream (Iw.engine w)).length < (c.stream l.stream).share) := by
  have h4 : ¬ Iw.engine w = 4 := by omega
  have hgt : ¬ 4 < Iw.engine w := by omega
  simp only [wordIssues, h4, hgt, if_false, decide_false, Bool.false_or]

/-- R171: the command of a stream that may issue, in its turn. -/
theorem exec_instructionIssue_turn (hc : s.ctx l.core l.part = some c) (hm : mayIssue c l.stream = true)
    (ht : itsTurn s l c = true) : exec (.instructionIssue l ext) s = .next (issue l ext s c) := by
  change execInstructionIssue l ext s = _
  simp only [execInstructionIssue, hc, hm, ht, Bool.and_self, if_true]

/-- R171: a control command of a stream that may issue, in its turn, on a word of its own opcode. -/
theorem cpExec_turn (sem : CpSem) (hc : s.ctx l.core l.part = some c) (hm : mayIssue c l.stream = true)
    (ht : itsTurn s l c = true) (he : Iw.engine w = 4) : cpExec (Iw.opcode w) sem l w s = cpRun sem l w s c := by
  simp only [cpExec, hc, hm, ht, he, beq_self_eq_true, Bool.and_self, if_true]

section
variable (hf : fetch s c l.stream (some ext) = .ok w)
include hf

theorem issue_waits (hw : wordIssues s l c w = false) : issue l ext s c = s.setCtx l.core l.part (c.running l.stream 2) := by
  simp only [issue, hf, hw, Bool.not_false, if_true]

theorem issue_control (hw : wordIssues s l c w = true) (he : Iw.engine w = 4) :
    issue l ext s c = cpRun (cpSem (Iw.opcode w)) l w s c := by
  simp only [issue, hf, hw, he, Bool.not_true, Bool.false_eq_true, if_false, if_true]

theorem issue_engine (hw : wordIssues s l c w = true) (he : Iw.engine w < 4) (ho : issueOk (s.coreP l.core) l.stream w = true)
    (ha : fmtsAllowed (s.fmtMask c.tenant) w = true) : issue l ext s c = enqueue l w s c := by
  have h4 : ¬ Iw.engine w = 4 := by omega
  simp only [issue, hf, hw, h4, ho, ha, Bool.not_true, Bool.false_eq_true, if_false]

end

end

/-- R171: the context once `w` stands last in its stream's share. -/
def Ctx.enqueued (c : Ctx) (i : Nat) (w : IWord) : Ctx :=
  Ctx.setStream { c.setQueue i (Iw.engine w) (c.queue i (Iw.engine w) ++ [{ word := w, pc := (c.stream i).pc }]) with
    turn := (i + 1) % 3 } i { c.stream i with st := 1, pc := (c.stream i).pc + 16#48 }

theorem enqueue_eq (l : Loc) (w : IWord) (s : State) (c : Ctx) :
    enqueue l w s c = s.setCtx l.core l.part (c.enqueued l.stream w) := rfl

theorem Ctx.queue_enqueued (c : Ctx) (i : Nat) (w : IWord) : (c.enqueued i w).queue i (Iw.engine w) =
    c.queue i (Iw.engine w) ++ [{ word := w, pc := (c.stream i).pc }] := Tab.get_set_self _ _ _ _

theorem Ctx.stream_enqueued (c : Ctx) (i : Nat) (w : IWord) : (c.enqueued i w).stream i =
    { c.stream i with st := 1, pc := (c.stream i).pc + 16#48 } := Ctx.stream_setStream_self _ _ _

/-- R181: the control commands by their opcodes. -/
def controlRows : List (Nat × (Loc → IWord → Instr)) :=
  [(0x01, .cpLi), (0x02, .cpLih), (0x03, .cpAdd), (0x04, .cpSub), (0x05, .cpMul), (0x06, .cpAnd), (0x07, .cpOr), (0x08, .cpXor),
    (0x09, .cpShl), (0x0A, .cpShr), (0x0B, .cpSra), (0x0C, .cpCmp), (0x10, .cpLd), (0x11, .cpSt), (0x20, .cpBr), (0x21, .cpJ),
    (0x30, .cpRss), (0x31, .cpScr), (0x32, .cpScw), (0x33, .cpGset), (0x40, .cpFork), (0x41, .cpEnd), (0x42, .cpPark),
    (0x43, .cpQsh), (0x44, .cpEvt), (0x45, .cpNop)]

/-- R181: each control command has the effect of its opcode. -/
theorem exec_controlRows : ∀ x ∈ controlRows, ∀ l w s, exec (x.2 l w) s = .next (cpExec x.1 (cpSem x.1) l w s) := by
  unfold controlRows
  repeat refine List.forall_mem_cons.mpr ⟨fun _ _ _ => rfl, ?_⟩
  exact List.forall_mem_nil _

/-! ### Retirement -/

theorem State.setCtx_setPart (s : State) (n p : Nat) (x : Part) (c : Ctx) :
    (s.setPart n p x).setCtx n p c = s.setPart n p { x with ctx := some c } := by
  simp only [State.setCtx, State.part_setPart_self, State.setPart_setPart]

/-- R172, R183: a context that has not stopped and awaits no shares is put back with its signal. -/
theorem State.putCtx_signalOf (s : State) (n p : Nat) {c : Ctx} (w : IWord) (hq : c.qsh = none) (hf : c.fault = none) :
    s.putCtx n p (c.signalOf w) = s.setCtx n p (c.signalOf w) :=
  State.putCtx_eq _ _ _ _ ((Ctx.signalOf_qsh _ _).trans hq) ((Ctx.signalOf_fault _ _).trans hf)

theorem Ctx.signalOf_of_quiet (c : Ctx) {w : IWord} (h : Iw.sigEn w = false) : c.signalOf w = c := by
  simp only [Ctx.signalOf, h, Bool.false_eq_true, if_false]

theorem takeDone_cons_done {r : MxRun} (rs : List MxRun) (h : r.done = true) : takeDone (r :: rs) = some (r, rs) := if_pos h

/-- R72: without a matrix instruction no load is in progress. -/
theorem finishLoad_of_noRuns {s : State} {n p : Nat} (h : (s.part n p).runs = []) : ∀ k, finishLoad n p k s = s
  | 0 => rfl
  | k + 1 => by simp only [finishLoad, h, List.any_nil, Bool.false_eq_true, if_false]

section
variable {s : State} {n p : Nat} {c : Ctx} (hc : s.ctx n p = some c)
include hc

/-- R169: the first complete instruction of the matrix engine leaves the list and signals. -/
theorem retireMatrix_done {r : MxRun} {rs : List MxRun} (hr : (s.part n p).runs = r :: rs) (hd : r.done = true) :
    retireMatrix n p s = (s.setPart n p { s.part n p with runs := rs }).putCtx n p (c.signalOf r.word) := by
  have hctx : (s.part n p).ctx = some c := hc
  simp only [retireMatrix, hr, takeDone_cons_done rs hd, Option.isNone_some, Bool.false_eq_true, if_false, hctx]

/-- R105, R151: a drain that has delivered everything ends; one to stage memory ORs its status into SS7. -/
theorem retireMatrix_drained {d : Drain} (hr : (s.part n p).runs = []) (hd : (s.part n p).drain = some d)
    (hfin : d.finished = true) :
    retireMatrix n p s = (s.setPart n p { s.part n p with drain := none }).putCtx n p
      ((if Iw.drQueue d.word then c else c.orSS7 d.status).signalOf d.word) := by
  have hctx : (s.part n p).ctx = some c := hc
  have hnone : takeDone (s.part n p).runs = none := congrArg takeDone hr
  simp only [retireMatrix, hnone, Option.isNone_none, if_true, finishLoad_of_noRuns hr, hctx, hd, hfin, Bool.not_true,
    Bool.false_eq_true, if_false]

/-- R139: with the tile popped, the stage bytes are written and the context takes the results. -/
theorem retireVector_popped {f : VecFly} (hf : c.fly = some f) (hpop : f.popDue = false) :
    retireVector n p s =
      ((f.stageBytes (Iw.n f.word)).foldl (fun s x => s.writeBytes (c.stageAt n x.1) x.2) s).putCtx n p (c.retireVec f) := by
  simp only [retireVector, hc, hf, hpop, Bool.false_eq_true, if_false]

/-- R161, R169: a move that waits for nothing retires with its signal. -/
theorem execMoveComplete_of_noAwaits {k : Nat} {m : Move} (hm : c.moves[k]? = some m) (ha : m.awaits = []) :
    execMoveComplete n p k s = .next (s.putCtx n p ({ c with moves := dropNth c.moves k }.signalOf m.word)) := by
  simp only [execMoveComplete, hc, hm, ha, List.filter_nil, List.isEmpty_nil, if_true]

end

theorem Drain.finished_of_delivered {d : Drain} (hn : d.next = Iw.drCount d.word) (ht : d.tile = []) (he : d.erf = []) :
    d.finished = true := by
  simp only [Drain.finished, hn, ht, he, beq_self_eq_true, List.isEmpty_nil, Bool.and_self]

theorem VecFly.popDue_of_popped {f : VecFly} (h : f.out.pop = true → f.popped = true) : f.popDue = false := by
  cases hp : f.out.pop with
  | false => simp [VecFly.popDue, hp]
  | true => simp [VecFly.popDue, h hp]

/-- R149, R169: without summary, status word and signal only the registers change. -/
theorem Ctx.retireVec_eq_regs {c : Ctx} {f : VecFly} (hsum : Iw.sumEn f.word = false) (ht : f.out.tsw = 0)
    (hsig : Iw.sigEn f.word = false) :
    c.retireVec f = f.out.regs.foldl (fun k x => k.setVreg x.1 { tag := x.2.tag, elems := x.2.elems }) { c with fly := none } := by
  simp only [Ctx.retireVec, hsum, ht, Ctx.signalOf_of_quiet _ hsig, beq_self_eq_true, Bool.false_eq_true, if_false, if_true]

/-- What no write of a vector register changes, writing several does not change. -/
theorem Ctx.foldl_setVreg_keeps {α : Type} (f : Ctx → α) (hf : ∀ k i x, f (Ctx.setVreg k i x) = f k) (l : List (Nat × VecReg)) (c : Ctx) :
    f (l.foldl (fun k x => k.setVreg x.1 { tag := x.2.tag, elems := x.2.elems }) c) = f c :=
  foldl_of (p := fun k => f k = f c) (fun _ _ h => (hf _ _ _).trans h) rfl

/-- What no write of bytes changes, writing several pieces of stage memory does not change. -/
theorem State.foldl_writeBytes_keeps {α : Type} (f : State → α) (hf : ∀ s a bs, f (State.writeBytes s a bs) = f s) (at_ : Nat → Nat)
    (l : List (Nat × List Byte)) (s : State) : f (l.foldl (fun s x => s.writeBytes (at_ x.1) x.2) s) = f s :=
  foldl_of (p := fun t => f t = f s) (fun _ _ h => (hf _ _ _).trans h) rfl

end Sys2Proof.Machine

namespace Sys2Proof.Proofs

open Sys2Proof Sys2Proof.Machine

/-! ### INSTRUCTION_ISSUE of a stream that may issue, in its turn, with its word fetched -/

section
variable {s : State} {l : Loc} {ext : FetchExt} {w : IWord} {c : Ctx} (hc : s.ctx l.core l.part = some c)
  (hm : mayIssue c l.stream = true) (ht : itsTurn s l c = true) (hf : fetch s c l.stream (some ext) = .ok w)
include hc hm ht hf

theorem exec_instructionIssue_enqueues (he : Iw.engine w < 4) (ho : issueOk (s.coreP l.core) l.stream w = true)
    (ha : fmtsAllowed (s.fmtMask c.tenant) w = true)
    (hroom : (c.queue l.stream (Iw.engine w)).length < (c.stream l.stream).share) :
    ∃ t k, exec (.instructionIssue l ext) s = .next t ∧ t = { s with cores := t.cores } ∧ t.ctx l.core l.part = some k ∧
      k.queue l.stream (Iw.engine w) = c.queue l.stream (Iw.engine w) ++ [{ word := w, pc := (c.stream l.stream).pc }] ∧
      k.stream l.stream = { c.stream l.stream with st := 1, pc := (c.stream l.stream).pc + 16#48 } ∧ k.turn = (l.stream + 1) % 3 := by
  have hw : wordIssues s l c w = true := (wordIssues_engine he).trans (decide_eq_true hroom)
  have hi := (exec_instructionIssue_turn hc hm ht).trans (congrArg Host.Outcome.next (issue_engine hf hw he ho ha))
  rw [enqueue_eq] at hi
  exact ⟨_, _, hi, rfl, State.ctx_setCtx_self _ _ _ _, Ctx.queue_enqueued _ _ _, Ctx.stream_enqueued _ _ _, rfl⟩

theorem exec_instructionIssue_full (he : Iw.engine w < 4)
    (hfull : (c.stream l.stream).share ≤ (c.queue l.stream (Iw.engine w)).length) :
    exec (.instructionIssue l ext) s =
      .next (s.setCtx l.core l.part (c.setStream l.stream { c.stream l.stream with st := 2 })) := by
  have hw : wordIssues s l c w = false := (wordIssues_engine he).trans (decide_eq_false (Nat.not_lt.mpr hfull))
  exact (exec_instructionIssue_turn hc hm ht).trans (congrArg Host.Outcome.next (issue_waits hf hw))

theorem exec_instructionIssue_control (he : Iw.engine w = 4) (hw : wordIssues s l c w = true) :
    ∀ x ∈ controlRows, Iw.opcode w = x.1 → exec (.instructionIssue l ext) s = exec (x.2 l w) s := by
  intro x hx hop
  rw [exec_instructionIssue_turn hc hm ht, issue_control hf hw he, exec_controlRows x hx, ← hop, cpExec_turn _ hc hm ht he]

end

/-! ### Retirement in a context that has not stopped and awaits no change of shares -/

section
variable {s : State} {n p : Nat} {c : Ctx} (hc : s.ctx n p = some c) (hf : c.fault = none) (hq : c.qsh = none)
include hc hf hq

theorem exec_instructionRetire_done {r : MxRun} {rs : List MxRun} (hr : (s.part n p).runs = r :: rs) (hd : r.done = true) :
    exec (.instructionRetire n p 1) s = .next (s.setPart n p { s.part n p with
      runs := rs, ctx := some (if Iw.sigEn r.word then c.setCount (Iw.sigCtr r.word) (c.count (Iw.sigCtr r.word) + 1#16) else c) }) := by
  refine congrArg Host.Outcome.next ((retireMatrix_done hc hr hd).trans ?_)
  rw [State.putCtx_signalOf _ _ _ _ hq hf, State.setCtx_setPart]
  rfl

theorem exec_instructionRetire_drained {d : Drain} (hr : (s.part n p).runs = []) (hd : (s.part n p).drain = some d)
    (hn : d.next = Iw.drCount d.word) (ht : d.tile = []) (he : d.erf = []) (hs : Iw.sigEn d.word = false) :
    exec (.instructionRetire n p 1) s = .next (s.setPart n p { s.part n p with
      drain := none, ctx := some (if Iw.drQueue d.word then c else c.orSS7 d.status) }) := by
  refine congrArg Host.Outcome.next ((retireMatrix_drained hc hr hd (Drain.finished_of_delivered hn ht he)).trans ?_)
  have hput : ∀ k : Ctx, k.qsh = none → k.fault = none →
      (s.setPart n p { s.part n p with drain := none }).putCtx n p (k.signalOf d.word) =
        s.setPart n p { s.part n p with drain := none, ctx := some k } := fun k hkq hkf => by
    rw [State.putCtx_signalOf _ _ _ _ hkq hkf, State.setCtx_setPart, Ctx.signalOf_of_quiet _ hs]
  split
  · exact hput _ hq hf
  · exact hput _ hq hf

theorem exec_instructionRetire_vector {f : VecFly} (hfly : c.fly = some f) (hpop : f.out.pop = true → f.popped = true)
    (hsum : Iw.sumEn f.word = false) (ht : f.out.tsw = 0) (hs : Iw.sigEn f.word = false) :
    ∃ t k, exec (.instructionRetire n p 2) s = .next t ∧ t.ctx n p = some k ∧ k.fly = none ∧
      k = f.out.regs.foldl (fun k x => k.setVreg x.1 { tag := x.2.tag, elems := x.2.elems }) { c with fly := none } ∧
      t.mem = ((f.stageBytes (Iw.n f.word)).foldl (fun s x => s.writeBytes (c.stageAt n x.1) x.2) s).mem ∧
      t.regs = s.regs ∧ t.grans = s.grans := by
  have hk := Ctx.retireVec_eq_regs (c := c) hsum ht hs
  have hkq : (c.retireVec f).qsh = none := by
    rw [hk, Ctx.foldl_setVreg_keeps Ctx.qsh fun _ _ _ => rfl]; exact hq
  have hkf : (c.retireVec f).fault = none := by
    rw [hk, Ctx.foldl_setVreg_keeps Ctx.fault fun _ _ _ => rfl]; exact hf
  have hret := retireVector_popped hc hfly (VecFly.popDue_of_popped hpop)
  rw [State.putCtx_eq _ _ _ _ hkq hkf] at hret
  refine ⟨_, c.retireVec f, congrArg Host.Outcome.next hret, State.ctx_setCtx_self _ _ _ _, ?_, hk, State.setCtx_mem _ _ _ _,
    State.foldl_writeBytes_keeps State.regs State.writeBytes_regs (c.stageAt n) _ _,
    State.foldl_writeBytes_keeps State.grans State.writeBytes_grans (c.stageAt n) _ _⟩
  rw [hk, Ctx.foldl_setVreg_keeps Ctx.fly fun _ _ _ => rfl]

theorem exec_moveComplete_noAwaits {k : Nat} {m : Move} (hm : c.moves[k]? = some m) (ha : m.awaits = []) :
    exec (.moveComplete n p k) s = .next (s.setCtx n p
      (if Iw.sigEn m.word then { c with moves := c.moves.take k ++ c.moves.drop (k + 1) }.setCount (Iw.sigCtr m.word) (c.count (Iw.sigCtr m.word) + 1#16)
        else { c with moves := c.moves.take k ++ c.moves.drop (k + 1) })) :=
  (execMoveComplete_of_noAwaits hc hm ha).trans (congrArg Host.Outcome.next
    (State.putCtx_signalOf _ _ _ (c := { c with moves := dropNth c.moves k }) _ hq hf))

end

/-- Settles O8: issue with its three outcomes, then each kind of retirement. -/
theorem issueAndRetirement : Obligations.IssueAndRetirement :=
  ⟨fun _ _ _ _ _ hc hm ht hf => ⟨exec_instructionIssue_enqueues hc hm ht hf, exec_instructionIssue_full hc hm ht hf,
      exec_instructionIssue_control hc hm ht hf⟩,
    fun _ _ _ _ _ _ hc hf hq => exec_instructionRetire_done hc hf hq,
    fun _ _ _ _ _ hc hf hq => exec_instructionRetire_drained hc hf hq,
    fun _ _ _ _ _ hc hf hq => exec_instructionRetire_vector hc hf hq,
    fun _ _ _ _ _ _ hc hf hq => exec_moveComplete_noAwaits hc hf hq⟩

end Sys2Proof.Proofs

/-! Stops of a context (R183, R184), the end of a partition's matrix work (R86), parity errors (R85, R516). -/

namespace Sys2Proof.Machine

/-! ### What a stop leaves of a context -/

/-- R183: a stream of a stopped context. Idle and ended ones stay. -/
def Strm.stopped (x : Strm) : Strm := if x.st = 0 ∨ x.st = 4 then x else { x with st := 5 }

/-- R183: the context with stream `i` stopped. -/
def Ctx.stopStream (c : Ctx) (i : Nat) : Ctx :=
  if (c.stream i).st == 0 || (c.stream i).st == 4 then c else c.setStream i { c.stream i with st := 5 }

theorem Ctx.stopStreams_eq (c : Ctx) : c.stopStreams = ((c.stopStream 0).stopStream 1).stopStream 2 := rfl

theorem Ctx.stream_stopStream_self (c : Ctx) (i : Nat) : (c.stopStream i).stream i = (c.stream i).stopped := by
  by_cases h : (c.stream i).st = 0 ∨ (c.stream i).st = 4
  · simp [Ctx.stopStream, Strm.stopped, h]
  · simp [Ctx.stopStream, Strm.stopped, h]

theorem Ctx.stream_stopStream_ne (c : Ctx) {i j : Nat} (h : j ≠ i) : (c.stopStream i).stream j = c.stream j := by
  unfold Ctx.stopStream
  split
  · rfl
  · exact Ctx.stream_setStream_ne _ _ _ _ h

theorem Ctx.stream_stopStreams (c : Ctx) {i : Nat} (h : i < 3) : c.stopStreams.stream i = (c.stream i).stopped := by
  rw [Ctx.stopStreams_eq]
  match i, h with
  | 0, _ => rw [Ctx.stream_stopStream_ne _ (by decide), Ctx.stream_stopStream_ne _ (by decide), Ctx.stream_stopStream_self]
  | 1, _ => rw [Ctx.stream_stopStream_ne _ (by decide), Ctx.stream_stopStream_self, Ctx.stream_stopStream_ne _ (by decide)]
  | 2, _ => rw [Ctx.stream_stopStream_self, Ctx.stream_stopStream_ne _ (by decide), Ctx.stream_stopStream_ne _ (by decide)]

/-- R183.2: settling touches the queues alone. -/
theorem Part.settle_keeps {α : Type} (f : Ctx → α) (hf : ∀ c : Ctx, f { c with queues := [] } = f c) (p : Part) (c : Ctx) :
    f (p.settle c) = f c := by
  unfold Part.settle
  split
  · exact hf c
  · rfl

/-- R86: a context without queued matrix instructions. -/
def Ctx.matrixEmptied (c : Ctx) : Ctx := ((c.setQueue 0 1 []).setQueue 1 1 []).setQueue 2 1 []

theorem Ctx.stream_matrixEmptied (c : Ctx) (i : Nat) : c.matrixEmptied.stream i = c.stream i := rfl

theorem Ctx.stream_withFault (c : Ctx) (r : FaultRec) (i : Nat) : { c with fault := some r }.stream i = c.stream i := rfl

/-- R183, R184: context `c` of a place after its stop with record `r`. -/
def State.stoppedCtx (s : State) (l : Loc) (c : Ctx) (r : FaultRec) : Ctx :=
  (s.endMatrix (s.part l.core l.part)).settle { c.matrixEmptied.stopStreams with fault := some r }

theorem State.stoppedCtx_fault (s : State) (l : Loc) (c : Ctx) (r : FaultRec) : (s.stoppedCtx l c r).fault = some r := by
  rw [State.stoppedCtx, Part.settle_keeps Ctx.fault fun _ => rfl]

theorem State.stream_stoppedCtx (s : State) (l : Loc) (c : Ctx) (r : FaultRec) {i : Nat} (h : i < 3) :
    (s.stoppedCtx l c r).stream i = (c.stream i).stopped := by
  rw [State.stoppedCtx, Part.settle_keeps (fun k => k.stream i) (fun _ => rfl), Ctx.stream_withFault,
    Ctx.stream_stopStreams _ h, Ctx.stream_matrixEmptied]

/-- R86, R183: the partition after the stop of its context. -/
def State.stoppedPart (s : State) (l : Loc) (c : Ctx) (r : FaultRec) : Part :=
  { s.endMatrix (s.part l.core l.part) with ctx := some (s.stoppedCtx l c r) }

/-- R505: the state after the stop and its event, before the tenant is charged. -/
def State.stoppedState (s : State) (l : Loc) (c : Ctx) (r : FaultRec) : State :=
  (s.setPart l.core l.part (s.stoppedPart l c r)).raise (128 + l.core) (r.cause * 256 + r.part + 4 * r.shape)

theorem State.part_stoppedState (s : State) (l : Loc) (c : Ctx) (r : FaultRec) :
    (s.stoppedState l c r).part l.core l.part = s.stoppedPart l c r := by
  rw [State.stoppedState, State.part_congr (State.raise_cores _ _ _), State.part_setPart_self]

theorem State.core_congr {s t : State} (h : t.cores = s.cores) (n : Nat) : t.core n = s.core n := by
  simp only [State.core, h]

theorem State.core_stoppedState_ne (s : State) (l : Loc) (c : Ctx) (r : FaultRec) {m : Nat} (h : m ≠ l.core) :
    (s.stoppedState l c r).core m = s.core m := by
  rw [State.stoppedState, State.core_congr (State.raise_cores _ _ _), State.core_setPart_ne _ _ _ h]

section
variable {s : State} {l : Loc} {c : Ctx} (hc : s.ctx l.core l.part = some c)
include hc

/-- R183: the first fault of a context is recorded and charged. -/
theorem State.stopCtx_first (eng cause : Nat) (w : IWord) (pc : BitVec 48) (va : Nat) (hf : c.fault = none) :
    s.stopCtx l.core l.part eng l.stream cause w pc va =
      (s.stoppedState l c (stopRecord s l eng cause w pc va)).itemFault c.tenant c.slot l.stream
        (stopRecord s l eng cause w pc va).status (stopRecord s l eng cause w pc va).bytes := by
  have hctx : (s.part l.core l.part).ctx = some c := hc
  simp only [State.stopCtx, hc, hf, Option.isSome_none, Bool.false_eq_true, if_false, State.stoppedState, State.stoppedPart,
    State.stoppedCtx, State.endMatrix, hctx, Option.map_some, Ctx.matrixEmptied]
  rfl

/-- R184: a later fault only sets MORE. -/
theorem State.stopCtx_again (eng i cause : Nat) (w : IWord) (pc : BitVec 48) (va : Nat) {r : FaultRec} (hf : c.fault = some r) :
    s.stopCtx l.core l.part eng i cause w pc va = s.setCtx l.core l.part { c with more := true } := by
  simp only [State.stopCtx, hc, hf, Option.isSome_some, if_true]

theorem State.stopCtx_stopsWith (eng cause : Nat) (w : IWord) (pc : BitVec 48) (va : Nat) (hf : c.fault = none) :
    StopsWith s (s.stopCtx l.core l.part eng l.stream cause w pc va) l c (stopRecord s l eng cause w pc va) := by
  have hpart := s.part_stoppedState l c (stopRecord s l eng cause w pc va)
  refine ⟨s.stoppedState l c _, s.stoppedCtx l c _, State.stopCtx_first hc eng cause w pc va hf, ?_, s.stoppedCtx_fault l c _,
    fun i hi => s.stream_stoppedCtx l c _ hi, ?_, ?_, ?_, ?_, State.raise_mem _ _ _, fun m hm => s.core_stoppedState_ne l c _ hm⟩
  · exact congrArg Part.ctx hpart
  all_goals
    rw [hpart]
    rfl

end

/-! ### Stops after a change that keeps the context's work -/

/-- The changes before a stop of a context of core `n`: memory, time, the other cores and this core's shape stay. -/
structure State.KeepsWork (s t : State) (n : Nat) : Prop where
  mem    : t.mem = s.mem
  now    : t.now = s.now
  shape  : (t.core n).shape = (s.core n).shape
  others : ∀ m, m ≠ n → t.core m = s.core m

theorem State.KeepsWork.trans {s t u : State} {n : Nat} (h : s.KeepsWork t n) (k : t.KeepsWork u n) : s.KeepsWork u n :=
  ⟨k.mem.trans h.mem, k.now.trans h.now, k.shape.trans h.shape, fun m hm => (k.others m hm).trans (h.others m hm)⟩

theorem State.KeepsWork.of_cores {s t : State} (n : Nat) (hm : t.mem = s.mem) (hn : t.now = s.now) (hc : t.cores = s.cores) :
    s.KeepsWork t n :=
  ⟨hm, hn, congrArg CoreSt.shape (State.core_congr hc n), fun m _ => State.core_congr hc m⟩

theorem State.keepsWork_setCore (s : State) {n : Nat} {k : CoreSt} (h : k.shape = (s.core n).shape) : s.KeepsWork (s.setCore n k) n :=
  ⟨rfl, rfl, by rw [State.core_setCore_self, h], fun m hm => State.core_setCore_ne s n m k hm⟩

theorem State.KeepsWork.stopRecord_eq {s t : State} {l : Loc} (h : s.KeepsWork t l.core) (eng cause : Nat) (w : IWord)
    (pc : BitVec 48) (va : Nat) : stopRecord t l eng cause w pc va = stopRecord s l eng cause w pc va := by
  simp only [stopRecord, h.shape, h.now]

/-- A stop in `t`, where the context `k` has tenant, item and streams of `c` in `s`, is the same stop seen from `s`. -/
theorem State.KeepsWork.stopsWith {s t v : State} {l : Loc} {c k : Ctx} {r : FaultRec} (h : s.KeepsWork t l.core)
    (ht : k.tenant = c.tenant) (hs : k.slot = c.slot) (hi : ∀ i, k.stream i = c.stream i) (hv : StopsWith t v l k r) :
    StopsWith s v l c r := by
  obtain ⟨u, x, hfault, hctx, hrec, hstr, hstop, hrows, hruns, hdrain, hmem, hcores⟩ := hv
  rw [ht, hs] at hfault
  simp only [hi] at hstr
  exact ⟨u, x, hfault, hctx, hrec, hstr, hstop, hrows, hruns, hdrain, hmem.trans h.mem,
    fun m hm => (hcores m hm).trans (h.others m hm)⟩

/-- R86: the end of a partition's matrix work. -/
theorem State.keepsWork_endMatrix (s : State) (n p : Nat) : s.KeepsWork (s.setPart n p (s.endMatrix (s.part n p))) n :=
  s.keepsWork_setCore rfl

theorem State.ctx_setPart_endMatrix {s : State} {n p : Nat} {c : Ctx} (hc : s.ctx n p = some c) :
    (s.setPart n p (s.endMatrix (s.part n p))).ctx n p = some c.matrixEmptied := by
  have hctx : (s.part n p).ctx = some c := hc
  rw [State.ctx, State.part_setPart_self]
  simp only [State.endMatrix, hctx, Option.map_some, Ctx.matrixEmptied]

/-! ### A parity error -/

theorem State.showIst_cores (s : State) : s.showIst.cores = s.cores := State.setField_cores ..
theorem State.showIst_mem (s : State) : s.showIst.mem = s.mem := State.setField_mem ..
theorem State.showIst_now (s : State) : s.showIst.now = s.now := State.setField_now ..

/-- R516: core `n` once it is retired. -/
def State.retiredCore (s : State) (n : Nat) : CoreSt := { s.core n with retired := true, testing := none }

/-- R516: a retirement changes nothing of the core but its mark and its test slice. -/
theorem State.retireCore_eq_or (s : State) (n : Nat) : s.retireCore n = s ∨
    ((s.retireCore n).cores = (s.setCore n (s.retiredCore n)).cores ∧ (s.retireCore n).mem = s.mem ∧
      (s.retireCore n).now = s.now) := by
  unfold State.retireCore
  dsimp only
  split
  · exact .inl rfl
  · refine .inr ⟨?_, ?_, ?_⟩
    · rw [State.showIst_cores, State.setField_cores, State.setField_cores]
      rfl
    · rw [State.showIst_mem, State.setField_mem, State.setField_mem, State.setCore_mem]
    · rw [State.showIst_now, State.setField_now, State.setField_now, State.setCore_now]

theorem State.keepsWork_retireCore (s : State) (n : Nat) : s.KeepsWork (s.retireCore n) n := by
  obtain h | ⟨hcores, hmem, hnow⟩ := s.retireCore_eq_or n
  · rw [h]
    exact .of_cores n rfl rfl rfl
  · exact (s.keepsWork_setCore (k := s.retiredCore n) rfl).trans (.of_cores n hmem hnow hcores)

theorem State.part_retireCore (s : State) (n p : Nat) : (s.retireCore n).part n p = s.part n p := by
  obtain h | ⟨hcores, -, -⟩ := s.retireCore_eq_or n
  · rw [h]
  · rw [State.part_congr hcores, State.part, State.core_setCore_self]
    rfl

/-- R85, R516: core `n` once it has counted a parity error. -/
def State.parityCore (s : State) (n : Nat) : CoreSt :=
  { s.core n with
    parityAt := s.clk :: (s.core n).parityAt.filter fun t => decide (s.clk < t + 86400000000000)
    parity := BitVec.ofNat 32 (capAt (2 ^ 32 - 1) ((s.core n).parity.toNat + 1)) }

/-- R85: the state in which core `n` has counted a parity error of partition `p`, before the core is judged (R516). -/
def State.parityCounted (s : State) (n p : Nat) : State := (s.setCore n (s.parityCore n)).raise (256 + n) p

/-- R516: the count may retire the core. -/
theorem State.countParity_eq_or (s : State) (n p : Nat) :
    s.countParity n p = s.parityCounted n p ∨ s.countParity n p = (s.parityCounted n p).retireCore n := by
  unfold State.countParity
  dsimp only
  split
  · exact .inr rfl
  · exact .inl rfl

theorem State.keepsWork_parityCounted (s : State) (n p : Nat) : s.KeepsWork (s.parityCounted n p) n :=
  (s.keepsWork_setCore (k := s.parityCore n) rfl).trans (.of_cores n (State.raise_mem _ _ _) (State.raise_now _ _ _) (State.raise_cores _ _ _))

theorem State.part_parityCounted (s : State) (n p q : Nat) : (s.parityCounted n p).part n q = s.part n q := by
  rw [State.parityCounted, State.part_congr (State.raise_cores _ _ _), State.part, State.core_setCore_self]
  rfl

theorem State.keepsWork_countParity (s : State) (n p : Nat) : s.KeepsWork (s.countParity n p) n := by
  obtain h | h := s.countParity_eq_or n p
  · rw [h]
    exact s.keepsWork_parityCounted n p
  · rw [h]
    exact (s.keepsWork_parityCounted n p).trans (State.keepsWork_retireCore _ n)

theorem State.ctx_countParity (s : State) (n p q : Nat) : (s.countParity n p).ctx n q = s.ctx n q := by
  refine congrArg Part.ctx ?_
  obtain h | h := s.countParity_eq_or n p
  · rw [h, State.part_parityCounted]
  · rw [h, State.part_retireCore, State.part_parityCounted]

/-! ### The commands -/

theorem execContextStop_of_cause (l : Loc) (eng : Nat) {cause : Nat} (w : IWord) (pc : BitVec 48) (va : Nat) (s : State)
    (hlo : 1 ≤ cause) (hhi : cause ≤ 6) :
    execContextStop l eng cause w pc va s = .next (s.stopCtx l.core l.part eng l.stream cause w pc va) := by
  simp only [execContextStop, hlo, hhi, decide_true, Bool.and_self, if_true]

theorem execPartitionFault_of_cause (l : Loc) {cause : Nat} (w : IWord) (pc : BitVec 48) (s : State)
    (hlo : 1 ≤ cause) (hhi : cause ≤ 5) :
    execPartitionFault l cause w pc s = .next
      ((s.setPart l.core l.part (s.endMatrix (s.part l.core l.part))).stopCtx l.core l.part 1 l.stream cause w pc 0) := by
  simp only [execPartitionFault, hlo, hhi, decide_true, Bool.and_self, if_true]

end Sys2Proof.Machine

namespace Sys2Proof.Proofs

open Sys2Proof Sys2Proof.Machine

section
variable {s : State} {l : Loc} {c : Ctx} (hc : s.ctx l.core l.part = some c)
include hc

section
variable (w : IWord) (pc : BitVec 48) (hf : c.fault = none)
include hf

theorem exec_contextStop_first (eng va : Nat) {cause : Nat} (hlo : 1 ≤ cause) (hhi : cause ≤ 6) :
    ∃ t, exec (.contextStop l eng cause w pc va) s = .next t ∧ StopsWith s t l c (stopRecord s l eng cause w pc va) :=
  ⟨_, execContextStop_of_cause l eng w pc va s hlo hhi, State.stopCtx_stopsWith hc eng cause w pc va hf⟩

theorem exec_partitionFault_first {cause : Nat} (hlo : 1 ≤ cause) (hhi : cause ≤ 5) :
    ∃ t, exec (.partitionFault l cause w pc) s = .next t ∧ StopsWith s t l c (stopRecord s l 1 cause w pc 0) := by
  have hkeep := s.keepsWork_endMatrix l.core l.part
  have hstop := State.stopCtx_stopsWith (State.ctx_setPart_endMatrix hc) 1 cause w pc 0 hf
  rw [hkeep.stopRecord_eq] at hstop
  exact ⟨_, execPartitionFault_of_cause l w pc s hlo hhi, hkeep.stopsWith rfl rfl (fun _ => rfl) hstop⟩

theorem exec_parityError_first :
    ∃ t, exec (.parityError l w pc) s = .next t ∧ StopsWith s t l c (stopRecord s l 1 causeParity w pc 0) := by
  have hkeep := s.keepsWork_countParity l.core l.part
  have hstop := State.stopCtx_stopsWith ((s.ctx_countParity l.core l.part l.part).trans hc) 1 causeParity w pc 0 hf
  rw [hkeep.stopRecord_eq] at hstop
  exact ⟨_, rfl, hkeep.stopsWith rfl rfl (fun _ => rfl) hstop⟩

theorem exec_poisonConsumption_first (eng : Nat) :
    ∃ t, exec (.poisonConsumption l eng w pc) s = .next t ∧ StopsWith s t l c (stopRecord s l eng causePoison w pc 0) :=
  ⟨_, rfl, State.stopCtx_stopsWith hc eng causePoison w pc 0 hf⟩

end

theorem exec_stop_again {r : FaultRec} (hf : c.fault = some r) (eng va : Nat) {cause : Nat} (w : IWord) (pc : BitVec 48)
    (hlo : 1 ≤ cause) (hhi : cause ≤ 6) :
    exec (.contextStop l eng cause w pc va) s = .next (s.setCtx l.core l.part { c with more := true }) ∧
      exec (.poisonConsumption l eng w pc) s = .next (s.setCtx l.core l.part { c with more := true }) :=
  ⟨(execContextStop_of_cause l eng w pc va s hlo hhi).trans
      (congrArg Host.Outcome.next (State.stopCtx_again hc eng l.stream cause w pc va hf)),
    congrArg Host.Outcome.next (State.stopCtx_again hc eng l.stream causePoison w pc 0 hf)⟩

end

/-- Settles O16: the first stop of each command, then a later one. -/
theorem contextStops : Obligations.ContextStops := by
  unfold Obligations.ContextStops
  refine ⟨fun s l c cause w pc => ?first, fun s l c r eng cause va w pc hc hf hlo hhi => ?again⟩
  case first =>
    intro p hc hf hlo hhi
    exact ⟨fun eng va => exec_contextStop_first hc w pc hf eng va hlo hhi, exec_partitionFault_first hc w pc hf hlo,
      exec_parityError_first hc w pc hf, exec_poisonConsumption_first hc w pc hf⟩
  case again => exact exec_stop_again hc hf eng va w pc hlo hhi

end Sys2Proof.Proofs

/-! Moves and atomics of the load and store engines (R163 to R166, R177, R224, R385 to R387). -/

namespace Sys2Proof.Machine

/-! ### Sending a frame touches registers, the fabric's state and what goes out -/

section
variable {α : Type} (f : State → α) (hreg : ∀ s o v, f (State.setReg s o v) = f s) (hfab : ∀ s x, f (State.setFab s x) = f s)
  (hemit : ∀ s o, f (State.emit s o) = f s)

include hemit in
theorem State.resolve_keeps (s : State) (p a : Nat) : f (s.resolve p a) = f s := by
  unfold State.resolve
  split
  · rfl
  · exact hemit _ _

include hreg hemit in
theorem State.sendOn_keeps (s : State) (p : Nat) (x : Frame) : f (s.sendOn p x) = f s :=
  ((hemit _ _).trans (hreg _ _ _)).trans (State.resolve_keeps f hemit _ _ _)

include hreg hfab hemit in
theorem State.sendPlain_keeps (s : State) (x : Frame) : f (s.sendPlain x) = f s := by
  unfold State.sendPlain
  dsimp only
  split
  · rfl
  · exact (State.sendOn_keeps f hreg hemit _ _ _).trans (hfab _ _)

include hreg hemit in
theorem State.pumpList_keeps (k : Nat) (ports : List Nat) (fep : Nat) : ∀ (n : Nat) (xs done : List SentFrame) (last : Nat) (s : State),
    f (State.pumpList k ports fep n xs done last s).2.2 = f s
  | _, [], _, _, _ => by rw [State.pumpList]
  | 0, _ :: _, _, _, _ => rfl
  | n + 1, x :: xs, done, last, s => by
    rw [State.pumpList]
    split
    · exact (State.pumpList_keeps k ports fep n xs _ _ _).trans (State.sendOn_keeps f hreg hemit _ _ _)
    · exact State.pumpList_keeps k ports fep n xs _ _ _

include hreg hfab hemit in
theorem State.pump_keeps (s : State) (k : Nat) : f (s.pump k) = f s := by
  unfold State.pump
  split
  · rfl
  · exact (hfab _ _).trans (State.pumpList_keeps f hreg hemit _ _ _ _ _ _ _ _)

include hfab in
theorem State.startRate_keeps (s : State) (m : Nat) : f (s.startRate m) = f s := by
  unfold State.startRate
  split
  · rfl
  · exact hfab _ _

include hreg hfab hemit in
/-- R382: numbering and sending a sequenced frame. -/
theorem State.issue_keeps (s : State) (x : Frame) : f (s.issue x).2 = f s := by
  unfold State.issue
  dsimp only
  refine (State.pump_keeps f hreg hfab hemit _ _).trans ?_
  have hopen : ∀ b : Bool, f (if b then s.sendResync x.src x.dst x.cls 1 (s.roleEpoch x.src) else s) = f s := fun b => by
    split
    · exact State.sendPlain_keeps f hreg hfab hemit _ _
    · rfl
  split
  · exact ((State.startRate_keeps f hfab _ _).trans (hfab _ _)).trans (hopen _)
  · exact (hfab _ _).trans (hopen _)

end

theorem State.issue_mem (s : State) (x : Frame) : (s.issue x).2.mem = s.mem :=
  State.issue_keeps State.mem State.setReg_mem State.setFab_mem State.emit_mem s x

theorem State.issue_grans (s : State) (x : Frame) : (s.issue x).2.grans = s.grans :=
  State.issue_keeps State.grans State.setReg_grans State.setFab_grans State.emit_grans s x

/-! ### A context without the head of a share -/

@[simp] theorem Ctx.take_reg (c : Ctx) (i e j : Nat) : (c.take i e).reg j = c.reg j := rfl
@[simp] theorem Ctx.take_tenant (c : Ctx) (i e : Nat) : (c.take i e).tenant = c.tenant := rfl
@[simp] theorem Ctx.take_moves (c : Ctx) (i e : Nat) : (c.take i e).moves = c.moves := rfl
@[simp] theorem Ctx.take_stageAt (c : Ctx) (i e n off : Nat) : (c.take i e).stageAt n off = c.stageAt n off := rfl

/-- R161, R168: the context whose head of a share has become move `m`. -/
def Ctx.withMove (c : Ctx) (i e : Nat) (m : Move) : Ctx := { c.take i e with moves := c.moves ++ [m] }

theorem Ctx.withMove_moves (c : Ctx) (i e : Nat) (m : Move) : (c.withMove i e m).moves = c.moves ++ [m] := rfl

/-- R172, R183: a context that awaits no shares and has not stopped stays as it is. -/
theorem Part.settle_applyShares_eq (p : Part) {c : Ctx} (hq : c.qsh = none) (hf : c.fault = none) : p.settle c.applyShares = c := by
  have hshares : c.applyShares = c := by simp only [Ctx.applyShares, hq]
  simp only [hshares, Part.settle, hf, Option.isSome_none, Bool.false_and, Bool.false_eq_true, if_false]

theorem State.ctx_putCtx (s : State) (n p : Nat) (c : Ctx) : (s.putCtx n p c).ctx n p = some ((s.part n p).settle c.applyShares) :=
  State.ctx_setCtx_self _ _ _ _

/-! ### Moves -/

/-- R161, R163: the move of the head of a share, its pieces under way. -/
def pieceMove (eng : Nat) (l : Loc) (q : QEnt) (gs : List (Nat × Seg)) (awaits : List Await) : Move :=
  { eng := eng, word := q.word, pc := q.pc, stream := l.stream, segs := gs.map Prod.snd, awaits := awaits, isAtom := false }

theorem moveLeaves_eq (r : List Await × State) (l : Loc) (eng : Nat) (c : Ctx) (q : QEnt) (gs : List (Nat × Seg)) :
    moveLeaves r l eng c q gs = .next (r.2.putCtx l.core l.part (c.withMove l.stream eng (pieceMove eng l q gs r.1))) := rfl

/-- R163: the start of one piece on an engine. -/
def startPiece (eng : Nat) (l : Loc) (c : Ctx) (r : List Await × State) (x : Nat × Seg) : List Await × State :=
  if eng == 3 then State.startStore l.core l.part l.stream c.tenant (c.stageAt l.core 0) x r
  else State.startLoad l.core l.part l.stream c.tenant (c.stageAt l.core 0) x r

/-- R166, R230: nothing holds back a store: no repair of a local piece, no marked stage byte. -/
def storeClear (s : State) (l : Loc) (c : Ctx) (gs : List (Nat × Seg)) : Prop :=
  ∀ g ∈ gs, (g.2.kind = 0 → s.repairHolds g.2.addr g.2.len = false) ∧ s.poisonedIn (c.stageAt l.core 0 + g.2.stage) g.2.len = false

section
variable {s : State} {l : Loc} {c : Ctx} {gs : List (Nat × Seg)}

theorem reachable.find?_eq_none (h : reachable s gs) :
    gs.find? (fun x => x.2.kind == 1 && s.peerFails (x.2.addr / 2 ^ 44)) = none := by
  refine List.find?_eq_none.mpr fun x hx => ?_
  by_cases hk : x.2.kind = 1
  · rw [h x hx hk, Bool.and_false]
    exact Bool.false_ne_true
  · simp [hk]

theorem storeClear.any_repair (h : storeClear s l c gs) :
    gs.any (fun x => x.2.kind == 0 && s.repairHolds x.2.addr x.2.len) = false := by
  refine List.any_eq_false.mpr fun x hx => ?_
  by_cases hk : x.2.kind = 0
  · simp [(h x hx).1 hk]
  · simp [hk]

theorem storeClear.any_marked (h : storeClear s l c gs) :
    gs.any (fun x => s.poisonedIn (c.stageAt l.core 0 + x.2.stage) x.2.len) = false := by
  refine List.any_eq_false.mpr fun x hx => ?_
  simp [(h x hx).2]

/-- R163 to R166: a move whose pieces all translate, lie where they can be reached and are not held back starts them in order. -/
theorem startMove_ready {eng : Nat} {q : QEnt} {b : List Byte} (h : MoveReady s l eng c q b)
    (hf : State.firstFault (moveOf s eng c q b) = none) (hr : reachable s (State.goodSegs (moveOf s eng c q b)))
    (hs : (eng == 3) = true → storeClear s l c (State.goodSegs (moveOf s eng c q b))) :
    (.next (startMove eng l s) : Result) =
      moveLeaves ((State.goodSegs (moveOf s eng c q b)).foldl (startPiece eng l c) ([], s)) l eng c q
        (State.goodSegs (moveOf s eng c q b)) := by
  have hsegs : s.moveSegs c.tenant (eng == 3) (MoveDesc.parse b) ((c.reg (Iw.mvReg q.word)).toNat % 2 ^ 48) (Iw.mvAddr q.word) =
    moveOf s eng c q b := rfl
  have hrepair : ((eng == 3) && (State.goodSegs (moveOf s eng c q b)).any fun x => x.2.kind == 0 && s.repairHolds x.2.addr x.2.len) = false := by
    cases he : eng == 3 with
    | false => rfl
    | true => exact (hs he).any_repair
  have hmark : ((eng == 3) && (State.goodSegs (moveOf s eng c q b)).any fun x => s.poisonedIn (c.stageAt l.core 0 + x.2.stage) x.2.len) = false := by
    cases he : eng == 3 with
    | false => rfl
    | true => exact (hs he).any_marked
  simp only [startMove, startHead_ready h.head, h.room, h.desc, h.range, h.stage, Ctx.take_reg, Ctx.take_tenant, Ctx.take_moves,
    Ctx.take_stageAt, hsegs, hrepair, hmark, hf, hr.find?_eq_none, Bool.not_true, Bool.false_eq_true, if_false]
  rfl

/-- R166: a local piece is copied with its bytes and its marks. -/
theorem startLoad_local {n p i t base va : Nat} {g : Seg} (hk : g.kind = 0) (r : List Await × State) :
    State.startLoad n p i t base (va, g) r = (r.1, r.2.loadSeg base g) := if_pos hk

/-- What no mark changes, the marks of a copied piece do not change. -/
theorem State.loadSeg_keeps {α : Type} (f : State → α) (hm : ∀ s a n, f (State.markPoison s a n) = f s) (s : State) (base : Nat) (g : Seg) :
    f (s.loadSeg base g) = f (s.writeBytes (base + g.stage) (s.readN g.addr g.len)) :=
  foldl_of (p := fun t => f t = f _) (fun _ _ h => (hm _ _ _).trans h) rfl

theorem State.loadSeg_mem (s : State) (base : Nat) (g : Seg) :
    (s.loadSeg base g).mem = (s.writeBytes (base + g.stage) (s.readN g.addr g.len)).mem :=
  State.loadSeg_keeps State.mem State.markPoison_mem s base g

end

@[simp] theorem Memory.readN_length (m : Memory) : ∀ n a : Nat, (m.readN a n).length = n
  | 0, _ => rfl
  | n + 1, a => by rw [Memory.readN, List.length_cons, Memory.readN_length m n]

@[simp] theorem State.readN_length (s : State) (a n : Nat) : (s.readN a n).length = n := Memory.readN_length _ _ _

/-- R163: the bytes of a copied piece. -/
theorem State.readN_loadSeg (s : State) (base : Nat) (g : Seg) : (s.loadSeg base g).readN (base + g.stage) g.len = s.readN g.addr g.len := by
  have hread := State.readN_writeBytes_self s (base + g.stage) (s.readN g.addr g.len)
  rw [State.readN_length] at hread
  rw [State.readN, State.loadSeg_mem]
  exact hread

theorem State.read8_loadSeg_out (s : State) (base : Nat) (g : Seg) {a : Nat} (h : a < base + g.stage ∨ base + g.stage + g.len ≤ a) :
    (s.loadSeg base g).read8 a = s.read8 a := by
  rw [State.read8, State.loadSeg_mem]
  exact State.read8_writeBytes_out _ _ _ _ (by rwa [State.readN_length])

/-! ### Atomics -/

/-- R387: the ATOMIC frame of an atomic on global address `g`. -/
def atomFrame (s : State) (l : Loc) (c : Ctx) (w : IWord) (g : Nat) : Frame :=
  { type := frAtomic, flags := 2, cls := l.stream, src := s.roleOf c.tenant, dst := g / 2 ^ 44, tenant := c.tenant % 256
    area := leBytes 8 (g % 2 ^ 44) ++ leBytes 1 (Iw.atOp w) ++ leBytes 1 (bit (Iw.atWide w))
    payload := leBytes 8 (c.reg (Iw.atReg w)).toNat ++ leBytes 8 (c.reg (Iw.atCmp w)).toNat }

/-- R387: what the module notes of an atomic that it has sent as frame `psn`. -/
def atomRun (s : State) (l : Loc) (c : Ctx) (w : IWord) (n g psn : Nat) : AtomRun :=
  { dst := s.opDst (s.roleOf c.tenant) (g / 2 ^ 44), cls := l.stream, psn := psn, core := l.core, part := l.part
    stage := c.stageAt l.core (Iw.atAddr w), width := n, va := (c.reg (Iw.mvReg w)).toNat % 2 ^ 48 }

/-- R387: the state once the atomic is on its way. -/
def atomSent (s : State) (l : Loc) (c : Ctx) (w : IWord) (n g : Nat) : State :=
  let x := s.issue (atomFrame s l c w g)
  x.2.setFab { x.2.fab with atoms := x.2.fab.atoms ++ [atomRun s l c w n g x.1] }

/-- R177: an atomic of the head of a share that waits for `awaits`. -/
def atomMove (l : Loc) (q : QEnt) (seg : Seg) (awaits : List Await) : Move :=
  { eng := 3, word := q.word, pc := q.pc, stream := l.stream, segs := [seg], awaits := awaits, isAtom := true }

/-- R177, R387: the atomic as it waits for its answer. -/
def atomAway (s : State) (l : Loc) (c : Ctx) (q : QEnt) (n g : Nat) : Move :=
  atomMove l q { stage := Iw.atAddr q.word, kind := 1, addr := g, len := n }
    [.atom l.stream (s.opDst (s.roleOf c.tenant) (g / 2 ^ 44)) (s.issue (atomFrame s l c q.word g)).1
      ((c.reg (Iw.mvReg q.word)).toNat % 2 ^ 48)]

theorem atomSent_mem (s : State) (l : Loc) (c : Ctx) (w : IWord) (n g : Nat) : (atomSent s l c w n g).mem = s.mem :=
  State.issue_mem _ _

theorem atomSent_grans (s : State) (l : Loc) (c : Ctx) (w : IWord) (n g : Nat) : (atomSent s l c w n g).grans = s.grans :=
  State.issue_grans _ _

/-- R177, R224: an atomic on a local address is done at once. -/
theorem startAtom_local {s : State} {l : Loc} {c : Ctx} {q : QEnt} {n a : Nat} (h : AtomReady s l c q n a) :
    let new := leBytes n (atomicNew (Iw.atOp q.word) (8 * n) (s.readLe a n) (c.reg (Iw.atReg q.word)).toNat (c.reg (Iw.atCmp q.word)).toNat)
    let r := (s.writeBytes a new).mirrorWrite a new
    startAtom l s = (r.2.writeBytes (c.stageAt l.core (Iw.atAddr q.word)) (leBytes n (s.readLe a n))).putCtx l.core l.part
      (c.withMove l.stream 3 (atomMove l q { stage := Iw.atAddr q.word, kind := 0, addr := a, len := n } (r.1.map .mirror))) := by
  obtain ⟨hhead, hroom, rfl, halign, hstage, hplace, hrepair, hmarks⟩ := h
  simp only [startAtom, startHead_ready hhead, hroom, Ctx.take_reg, Ctx.take_tenant, Ctx.take_moves, Ctx.take_stageAt, halign,
    hstage, hplace, hrepair, hmarks, ne_eq, not_true_eq_false, Bool.not_true, Bool.false_eq_true, if_false, atomMove, Ctx.withMove]

section
variable {s : State} {l : Loc} {c : Ctx} {q : QEnt} {n g : Nat} (hhead : HeadReady s l 3 2 c q)
  (hroom : s.moveRoom l.core (c.take l.stream 3) 3 = true) (hn : n = if Iw.atWide q.word then 8 else 4)
  (halign : (c.reg (Iw.mvReg q.word)).toNat % 2 ^ 48 % n = 0)
  (hstage : (c.take l.stream 3).inStage (Iw.atAddr q.word) n = true)
  (hplace : s.translate c.tenant ((c.reg (Iw.mvReg q.word)).toNat % 2 ^ 48) true = some (.remote g))
  (hpeer : s.peerFails (g / 2 ^ 44) = false)
  (hcap : (s.fab.atoms.filter fun x => x.dst == s.opDst (s.roleOf c.tenant) (g / 2 ^ 44)).length < 64)
include hhead hroom hn halign hstage hplace hpeer hcap

/-- R387: an atomic on an address of another module goes out, and waits for its answer. -/
theorem startAtom_remote :
    startAtom l s = (atomSent s l c q.word n g).putCtx l.core l.part
      (c.withMove l.stream 3 (atomAway s l c q n g)) := by
  have hfree := Nat.not_le.mpr hcap
  subst hn
  simp only [startAtom, startHead_ready hhead, hroom, Ctx.take_reg, Ctx.take_tenant, Ctx.take_moves, Ctx.take_stageAt, halign,
    hstage, hplace, hpeer, hfree, ne_eq, not_true_eq_false, Bool.not_true, Bool.false_eq_true, if_false]
  rfl

/-- R177, R387: memory and granule table stay, and the atomic stands behind the moves of a context that awaits no shares. -/
theorem exec_stAt_remote :
    ∃ t psn k, exec (.stAt l) s = .next t ∧ t.ctx l.core l.part = some k ∧ t.mem = s.mem ∧ t.grans = s.grans ∧
      (c.qsh = none → c.fault = none → ∃ m, k.moves = c.moves ++ [m] ∧ m.isAtom = true ∧
        m.awaits = [.atom l.stream (s.opDst (s.roleOf c.tenant) (g / 2 ^ 44)) psn ((c.reg (Iw.mvReg q.word)).toNat % 2 ^ 48)]) := by
  refine ⟨_, (s.issue (atomFrame s l c q.word g)).1, _,
    congrArg Host.Outcome.next (startAtom_remote hhead hroom hn halign hstage hplace hpeer hcap), State.ctx_putCtx _ _ _ _,
    atomSent_mem s l c q.word n g, atomSent_grans s l c q.word n g, fun hq hf => ⟨atomAway s l c q n g, ?_, rfl, rfl⟩⟩
  exact congrArg Ctx.moves (Part.settle_applyShares_eq _ (c := c.withMove l.stream 3 _) hq hf)

end

end Sys2Proof.Machine

namespace Sys2Proof.Proofs

open Sys2Proof Sys2Proof.Machine

section
variable {s : State} {l : Loc} {c : Ctx} {q : QEnt} {b : List Byte}

theorem exec_ldT_ready (h : MoveReady s l 0 c q b) (hf : State.firstFault (moveOf s 0 c q b) = none)
    (hr : reachable s (State.goodSegs (moveOf s 0 c q b))) :
    exec (.ldT l) s = moveLeaves ((State.goodSegs (moveOf s 0 c q b)).foldl (fun r x =>
      State.startLoad l.core l.part l.stream c.tenant (c.stageAt l.core 0) x r) ([], s)) l 0 c q (State.goodSegs (moveOf s 0 c q b)) :=
  startMove_ready h hf hr nofun

theorem exec_stT_ready (h : MoveReady s l 3 c q b) (hf : State.firstFault (moveOf s 3 c q b) = none)
    (hr : reachable s (State.goodSegs (moveOf s 3 c q b))) (hs : storeClear s l c (State.goodSegs (moveOf s 3 c q b))) :
    exec (.stT l) s = moveLeaves ((State.goodSegs (moveOf s 3 c q b)).foldl (fun r x =>
      State.startStore l.core l.part l.stream c.tenant (c.stageAt l.core 0) x r) ([], s)) l 3 c q (State.goodSegs (moveOf s 3 c q b)) :=
  startMove_ready h hf hr fun _ => hs

end

/-- R163, R166: a load of one local piece copies it, and its move waits for nothing. -/
theorem exec_ldT_onePiece {s : State} {l : Loc} {c : Ctx} {q : QEnt} {b : List Byte} {va : Nat} {g : Seg}
    (h : MoveReady s l 0 c q b) (hone : moveOf s 0 c q b = [(va, .inl g)]) (hk : g.kind = 0) :
    exec (.ldT l) s = .next ((s.loadSeg (c.stageAt l.core 0) g).putCtx l.core l.part
      (c.withMove l.stream 0 (pieceMove 0 l q [(va, g)] []))) := by
  have hgood : State.goodSegs (moveOf s 0 c q b) = [(va, g)] := congrArg State.goodSegs hone
  have hnear : reachable s [(va, g)] := fun x hx hx1 => by
    rw [List.mem_singleton.mp hx, hk] at hx1
    exact absurd hx1 (by decide)
  have he := exec_ldT_ready h (congrArg State.firstFault hone) (hgood ▸ hnear)
  rwa [hgood, List.foldl_cons, List.foldl_nil, startLoad_local hk, moveLeaves_eq] at he

/-- Settles O15: the one piece is copied. That it is copied when the move starts is log entry 60. -/
theorem localLoadCopies : Obligations.LocalLoadCopies := by
  intro s l c q b va g h hone hk hq hf
  refine ⟨_, c.withMove l.stream 0 _, pieceMove 0 l q [(va, g)] [], exec_ldT_onePiece h hone hk, State.readN_loadSeg s _ g,
    fun a ha => State.read8_loadSeg_out s _ g ha, State.loadSeg_keeps State.regs State.markPoison_regs s _ g,
    State.loadSeg_keeps State.grans State.markPoison_grans s _ g, ?_, rfl, rfl⟩
  exact (State.ctx_putCtx _ _ _ _).trans
    (congrArg some (Part.settle_applyShares_eq _ (c := c.withMove l.stream 0 _) hq hf))

/-- Settles O14: loads, stores, local and remote atomics. That local bytes are copied when a move starts is log entry 60. -/
theorem movesAndAtomicsStart : Obligations.MovesAndAtomicsStart :=
  ⟨fun _ _ _ _ _ => ⟨exec_ldT_ready, exec_stT_ready⟩,
    fun _ _ _ _ _ _ h => congrArg Host.Outcome.next (startAtom_local h),
    fun _ _ _ _ _ _ => exec_stAt_remote⟩

end Sys2Proof.Proofs

/-! Buckets, overload windows and placement passes (R324, R325, R328). -/

namespace Sys2Proof.Machine

/-! ### Tables whose entries are replaced or left out -/

theorem Tab.find_put?_self {α : Type} (t : Tab α) (k : Nat) (v : Option α) : Tab.find? (Tab.put? t k v) k = v := by
  cases v with
  | none => exact Tab.find_drop_self k t
  | some x => exact Tab.find_setSome_self t k x

theorem Tab.find_put?_ne {α : Type} (t : Tab α) {k j : Nat} (v : Option α) (h : j ≠ k) :
    Tab.find? (Tab.put? t k v) j = Tab.find? t j := by
  cases v with
  | none => exact Tab.find_drop_ne k j h t
  | some x => exact Tab.find_setSome_ne t k j x h

theorem Tab.find_of_notin {α : Type} {k : Nat} {t : Tab α} (h : k ∉ t.map Prod.fst) : Tab.find? t k = none := by
  have hdrop : t.drop k = t := Tab.drop_of_notin k t fun x hx hk => h (List.mem_map.mpr ⟨x, hx, hk⟩)
  rw [← hdrop]
  exact Tab.find_drop_self k t

/-- Table `t` with what `g` makes of each entry of `l` in that entry's place, in turn. -/
def Tab.refresh {α : Type} (g : Nat → α → Option α) (l t : Tab α) : Tab α :=
  l.foldl (fun t e => Tab.put? t e.1 (g e.1 e.2)) t

theorem Tab.find_refresh {α : Type} (g : Nat → α → Option α) (k : Nat) (l t : Tab α) (h : (l.map Prod.fst).Nodup) :
    Tab.find? (Tab.refresh g l t) k = (Tab.find? l k).elim (Tab.find? t k) (g k) := by
  induction l generalizing t with
  | nil => rfl
  | cons e l ih =>
    obtain ⟨hnotin, hl⟩ := List.nodup_cons.mp h
    have hrest : Tab.find? (Tab.refresh g (e :: l) t) k =
      (Tab.find? l k).elim (Tab.find? (Tab.put? t e.1 (g e.1 e.2)) k) (g k) := ih _ hl
    rw [hrest, Tab.find?]
    by_cases hk : e.1 = k
    · subst hk
      rw [Tab.find_of_notin hnotin, if_pos rfl]
      exact Tab.find_put?_self t e.1 _
    · rw [if_neg hk, Tab.find_put?_ne t _ (Ne.symm hk)]

/-- R324: the entries of a table of buckets after one refill, at the rates and bursts of their tenants. -/
theorem Tab.find_refresh_refill (rate burst : Nat → Nat) {t : Tab Int} (h : (t.map Prod.fst).Nodup) (k : Nat) :
    Tab.find? (Tab.refresh (fun k x => refill (some x) (rate k) (burst k)) t t) k =
      (Tab.find? t k).bind fun x => refill (some x) (rate k) (burst k) := by
  rw [Tab.find_refresh _ k t t h]
  cases Tab.find? t k <;> rfl

/-! ### ADM_STATUS.OVERLOAD -/

theorem State.setAdm_eq_regs (s : State) (i : Nat) (on : Bool) : s.setAdm i on = { s with regs := (s.setAdm i on).regs } := by
  unfold State.setAdm
  split
  · rfl
  · dsimp only
    split
    · exact eq_regs_trans (State.setRegN_eq_regs _ _ _) (State.raise_eq_regs _ _ _)
    · exact State.setRegN_eq_regs _ _ _

theorem State.setAdm_serve (s : State) (i : Nat) (on : Bool) : (s.setAdm i on).serve = s.serve := by
  rw [State.setAdm_eq_regs]

theorem State.setAdm_mem (s : State) (i : Nat) (on : Bool) : (s.setAdm i on).mem = s.mem := by
  rw [State.setAdm_eq_regs]

theorem State.setAdm_host (s : State) (i : Nat) (on : Bool) : (s.setAdm i on).host = s.host := by
  rw [State.setAdm_eq_regs]

theorem State.regBit_congr {s t : State} {o : Nat} (h : t.reg o = s.reg o) (i : Nat) : t.regBit o i = s.regBit o i := by
  rw [State.regBit, State.regN, h, State.regBit, State.regN]

theorem State.regBit_setField_30 (s : State) (o : Nat) (on : Bool) : (s.setField o 30 1 (bit on)).regBit o 30 = on := by
  have hlt := State.regN_lt s o
  rw [State.regBit, State.setField, State.regN, State.reg_setRegN_self, BitVec.toNat_ofNat, tbit, putField, field]
  cases on <;> simp only [bit, Bool.false_eq_true, if_true, if_false, beq_eq_false_iff_ne, beq_iff_eq] <;> omega

theorem State.regBit_setAdm_30 (s : State) (on : Bool) : (s.setAdm 30 on).regBit Reg.ADM_STATUS 30 = on := by
  unfold State.setAdm
  split
  · assumption
  · dsimp only
    rw [if_pos (Nat.le_refl 30), State.regBit_congr (State.reg_raise_ne _ 812 _ Reg.ADM_STATUS (by decide) (by decide)) 30]
    exact State.regBit_setField_30 s Reg.ADM_STATUS on

/-! ### The end of an overload window -/

/-- R328: the backlog is the predicted work of the requests in ADMITTED and in PREFILL. -/
def State.backlog (s : State) : Rat := ((s.serve.reqs.filter fun r => r.2.st == 1 || r.2.st == 2).map fun r => r.2.work).sum

/-- R328: the sustained work of a window after one more window. -/
def State.sustained (s : State) (waited : Bool) : Rat :=
  if waited then (3 * s.serve.sust + s.serve.spent) / 4 else max s.serve.sust s.serve.spent

/-- R328: for how many windows the backlog has been below a twentieth of the sustained work. -/
def State.calmWindows (s : State) (waited : Bool) : Nat := if s.backlog < s.sustained waited / 20 then s.serve.calm + 1 else 0

/-- R328: the state in which a new window has begun, before ADM_STATUS changes. -/
def State.windowBegins (s : State) (waited : Bool) (quotas : List (Nat × Nat)) : State :=
  ((s.setServe { s.serve with
    sust := s.sustained waited, spent := 0, calm := s.calmWindows waited, workLast := s.serve.workNow, workNow := []
    budget := s.budgetNow, budgetAt := s.clk
    quota := quotas.foldl (fun l x => Tab.setSome l x.1 x.2) s.serve.quota }).setRegN
      Reg.ADM_SUST (ratReg (s.sustained waited))).setRegN Reg.ADM_BACKLOG (ratReg s.backlog)

theorem State.regBit_windowBegins (s : State) (waited : Bool) (quotas : List (Nat × Nat)) (i : Nat) :
    (s.windowBegins waited quotas).regBit Reg.ADM_STATUS i = s.regBit Reg.ADM_STATUS i := by
  refine State.regBit_congr ?_ i
  unfold State.windowBegins
  rw [State.reg_setRegN_ne _ _ _ _ (by decide), State.reg_setRegN_ne _ _ _ _ (by decide)]
  rfl

/-- R328: what a window leaves in a state, whatever becomes of ADM_STATUS. -/
structure State.WindowEnds (s t : State) (waited : Bool) : Prop where
  spent    : t.serve.spent = 0
  workNow  : t.serve.workNow = []
  workLast : t.serve.workLast = s.serve.workNow
  sust     : t.serve.sust = s.sustained waited
  reqs     : t.serve.reqs = s.serve.reqs
  queue    : t.serve.queue = s.serve.queue
  mem      : t.mem = s.mem
  host     : t.host = s.host

theorem State.windowEnds_begins (s : State) (waited : Bool) (quotas : List (Nat × Nat)) :
    s.WindowEnds (s.windowBegins waited quotas) waited := ⟨rfl, rfl, rfl, rfl, rfl, rfl, rfl, rfl⟩

theorem State.WindowEnds.setAdm {s t : State} {waited : Bool} (h : s.WindowEnds t waited) (i : Nat) (on : Bool) :
    s.WindowEnds (t.setAdm i on) waited := by
  rw [State.setAdm_eq_regs]
  exact ⟨h.spent, h.workNow, h.workLast, h.sust, h.reqs, h.queue, h.mem, h.host⟩

theorem State.WindowEnds.capped {s t : State} {waited : Bool} (h : s.WindowEnds t waited) (budget : Rat) (calm : Nat) :
    s.WindowEnds (t.setServe { t.serve with budget := budget, calm := calm }) waited :=
  ⟨h.spent, h.workNow, h.workLast, h.sust, h.reqs, h.queue, h.mem, h.host⟩

theorem State.two_le_calmWindows_iff (s : State) (waited : Bool) :
    2 ≤ s.calmWindows waited ↔ s.backlog < s.sustained waited / 20 ∧ 1 ≤ s.serve.calm := by
  unfold State.calmWindows
  split <;> simp [*]

/-- R328: OVERLOAD goes on, goes off, or stays. -/
theorem execOverloadWindow_eq (s : State) (waited : Bool) (quotas : List (Nat × Nat)) :
    execOverloadWindow waited quotas s = .next (
      if s.regBit Reg.ADM_STATUS 30 = false ∧ s.sustained waited / 5 < s.backlog then
        ((s.windowBegins waited quotas).setServe { (s.windowBegins waited quotas).serve with budget := 0, calm := 0 }).setAdm 30 true
      else if s.regBit Reg.ADM_STATUS 30 = true ∧ s.backlog < s.sustained waited / 20 ∧ 1 ≤ s.serve.calm then
        (s.windowBegins waited quotas).setAdm 30 false
      else s.windowBegins waited quotas) := by
  simp only [← State.two_le_calmWindows_iff, ← Bool.not_eq_true']
  unfold execOverloadWindow
  simp only [Bool.and_eq_true, decide_eq_true_eq]
  rfl

end Sys2Proof.Machine

namespace Sys2Proof.Proofs

open Sys2Proof.Machine

/-- R324: BUCKET_REFILL. -/
theorem exec_bucketRefill (s : State) : ∃ rq tk, exec .bucketRefill s = .next { s with serve := { s.serve with rq := rq, tk := tk } } ∧
    ((s.serve.rq.map Prod.fst).Nodup → ∀ k, Tab.find? rq k = (Tab.find? s.serve.rq k).bind fun x =>
      refill (some x) (s.regN (Reg.ADM_RQRATE (k % 256))) (s.regField (Reg.ADM_RQBURST (k % 256)) 0 16)) ∧
    ((s.serve.tk.map Prod.fst).Nodup → ∀ k, Tab.find? tk k = (Tab.find? s.serve.tk k).bind fun x =>
      refill (some x) (s.regN (Reg.ADM_TKRATE (k % 256))) (s.regN (Reg.ADM_TKBURST (k % 256)))) :=
  ⟨Tab.refresh _ s.serve.rq s.serve.rq, Tab.refresh _ s.serve.tk s.serve.tk, rfl,
    Tab.find_refresh_refill (fun k => s.regN (Reg.ADM_RQRATE (k % 256))) fun k => s.regField (Reg.ADM_RQBURST (k % 256)) 0 16,
    Tab.find_refresh_refill (fun k => s.regN (Reg.ADM_TKRATE (k % 256))) fun k => s.regN (Reg.ADM_TKBURST (k % 256))⟩

/-- R328: OVERLOAD_WINDOW. -/
theorem exec_overloadWindow (s : State) (waited : Bool) (quotas : List (Nat × Nat)) :
    ∃ t, exec (.overloadWindow waited quotas) s = .next t ∧ s.WindowEnds t waited ∧ t.regBit Reg.ADM_STATUS 30 =
      (if s.regBit Reg.ADM_STATUS 30 = false ∧ s.sustained waited / 5 < s.backlog then true
       else if s.regBit Reg.ADM_STATUS 30 = true ∧ s.backlog < s.sustained waited / 20 ∧ 1 ≤ s.serve.calm then false
       else s.regBit Reg.ADM_STATUS 30) := by
  have hbegins := s.windowEnds_begins waited quotas
  refine ⟨_, execOverloadWindow_eq s waited quotas, ?_⟩
  split
  · exact ⟨(hbegins.capped 0 0).setAdm 30 true, State.regBit_setAdm_30 _ true⟩
  · split
    · exact ⟨hbegins.setAdm 30 false, State.regBit_setAdm_30 _ false⟩
    · exact ⟨hbegins, s.regBit_windowBegins waited quotas 30⟩

/-- R325: PLACEMENT_PASS over an empty queue tries nothing. -/
theorem exec_placementPass_empty {s : State} (h : s.serve.queue = []) :
    exec .placementPass s = .next { s with boot := { s.boot with passed := true } } := by
  have hpass : exec .placementPass s =
    .next (State.passItems s.serve.queue.length s.serve.queue { s with boot := { s.boot with passed := true } }) := rfl
  rw [hpass, h]
  rfl

/-- Settles O31, clause by clause: the refilled tables, the window's end, the pass. -/
theorem bucketsAndWindows : Obligations.BucketsAndWindows := by
  refine ⟨fun s => ?_, fun s waited quotas => ?_, fun s => ⟨rfl, exec_placementPass_empty⟩⟩
  · obtain ⟨rq, tk, hexec, hrq, htk⟩ := exec_bucketRefill s
    refine ⟨rq, tk, hexec, fun h k => (hrq h k).trans ?_, fun h k => (htk h k).trans ?_⟩
    · cases Tab.find? s.serve.rq k <;> rfl
    · cases Tab.find? s.serve.tk k <;> rfl
  · obtain ⟨t, hexec, hends, hoverload⟩ := exec_overloadWindow s waited quotas
    exact ⟨t, hexec, hends.spent, hends.workNow, hends.workLast, hends.sust, hends.reqs, hends.queue, hends.mem, hends.host, hoverload⟩

end Sys2Proof.Proofs

/-! Requests to serve: GENERATE, RESUME, PAUSE and CANCEL (R315 to R323, R335). -/

namespace Sys2Proof.Machine

/-! ### Sending leaves all but the counts of frames sent, the fabric's state and what goes out -/

/-- R382, R393: what sending a frame does to the state does not change `f`. -/
structure SendKeeps {α : Type} (f : State → α) : Prop where
  count : ∀ s p, f (State.bump s (Reg.FAB_PTX p) 1) = f s
  fab   : ∀ s x, f (State.setFab s x) = f s
  emit  : ∀ s o, f (State.emit s o) = f s

namespace SendKeeps

variable {α : Type} {f : State → α} (h : SendKeeps f)
include h

theorem sendOn (s : State) (p : Nat) (x : Frame) : f (s.sendOn p x) = f s :=
  ((h.emit _ _).trans (h.count _ _)).trans (State.resolve_keeps f h.emit _ _ _)

theorem sendPlain (s : State) (x : Frame) : f (s.sendPlain x) = f s := by
  unfold State.sendPlain
  dsimp only
  split
  · rfl
  · exact (h.sendOn _ _ _).trans (h.fab _ _)

theorem pumpList (k : Nat) (ports : List Nat) (fep n : Nat) (xs done : List SentFrame) (last : Nat) (s : State) :
    f (State.pumpList k ports fep n xs done last s).2.2 = f s := by
  induction n generalizing xs done last s with
  | zero => cases xs <;> rfl
  | succ n ih =>
    cases xs with
    | nil => rfl
    | cons x xs =>
      rw [State.pumpList]
      split
      · exact (ih _ _ _ _).trans (h.sendOn _ _ _)
      · exact ih _ _ _ _

theorem pump (s : State) (k : Nat) : f (s.pump k) = f s := by
  unfold State.pump
  split
  · rfl
  · exact (h.fab _ _).trans (h.pumpList _ _ _ _ _ _ _ _)

/-- R382: numbering and sending a sequenced frame. -/
theorem issue (s : State) (x : Frame) : f (s.issue x).2 = f s := by
  have hopen : ∀ b : Bool, f (if b then s.sendResync x.src x.dst x.cls 1 (s.roleEpoch x.src) else s) = f s := fun b => by
    cases b with
    | false => rfl
    | true => exact h.sendPlain _ _
  have hrate : ∀ (c : Prop) [Decidable c] (u : State), f (if c then u.startRate x.dst else u) = f u := fun c _ u => by
    split
    · exact State.startRate_keeps f h.fab _ _
    · rfl
  exact (((h.pump _ _).trans (hrate _ _)).trans (h.fab _ _)).trans (hopen _)

/-- R428: a STATE record to the partner. -/
theorem roleRec (s : State) (role kind : Nat) (bs : List Byte) : f (s.roleRec role kind bs) = f s := by
  unfold State.roleRec
  split
  · rfl
  · exact foldl_of (p := fun t => f t = f s) (fun _ _ ht => (h.issue _ _).trans ht) rfl

/-- R428: the records of the admission queue and of a tenant's buckets. -/
theorem queueRec (s : State) (t : Nat) : f (s.queueRec t) = f s := (h.roleRec _ _ _ _).trans (h.roleRec _ _ _ _)

end SendKeeps

theorem sendKeeps_serve : SendKeeps State.serve := ⟨fun _ _ => rfl, State.setFab_serve, State.emit_serve⟩

theorem sendKeeps_mem : SendKeeps State.mem := ⟨fun _ _ => rfl, State.setFab_mem, State.emit_mem⟩

theorem State.reg_congr {s t : State} (h : t.regs = s.regs) (o : Nat) : t.reg o = s.reg o := by
  rw [State.reg, h, State.reg]

/-- A register below those that count frames sent. -/
theorem sendKeeps_reg {o : Nat} (h : o < Reg.FAB_PTX 0) : SendKeeps fun s => s.reg o where
  count s p := State.reg_bump_ne s _ _ _ (by simp only [Reg.FAB_PTX] at h ⊢; omega)
  fab s x := State.reg_congr (State.setFab_regs s x) o
  emit s x := State.reg_congr (State.emit_regs s x) o

/-! ### A descriptor's command on the first item of its row -/

/-- R266: the command does to the first startable item what its row does. -/
theorem State.runRow_startable {s : State} {t q row : Nat} {i : Item} (k : State → Item → State) (h : startableItem s t q row = some i) :
    s.runRow t q row k = k (itemStarts s t q row i) i := by
  unfold State.runRow
  dsimp only
  rw [show State.startable t row [] ((s.takeRow t q row).hq t q).items = some i from h]
  rfl

section
variable {s : State} {tn q : Nat} {i : Item}

theorem exec_generate_startable (h : startableItem s tn q 1 = some i) :
    exec (.generate tn q) s = .next (generateAsk (itemStarts s tn q 1 i) tn q i) :=
  congrArg Host.Outcome.next (State.runRow_startable _ h)

theorem exec_resume_startable (h : startableItem s tn q 2 = some i) :
    exec (.resume tn q) s = .next (resumeAsk (itemStarts s tn q 2 i) tn q i) :=
  congrArg Host.Outcome.next (State.runRow_startable _ h)

theorem exec_pause_startable (h : startableItem s tn q 3 = some i) :
    exec (.pause tn q) s = .next (steerAsk 3 (itemStarts s tn q 3 i) tn q i) :=
  congrArg Host.Outcome.next (State.runRow_startable _ h)

theorem exec_cancel_startable (h : startableItem s tn q 4 = some i) :
    exec (.cancel tn q) s = .next (steerAsk 4 (itemStarts s tn q 4 i) tn q i) :=
  congrArg Host.Outcome.next (State.runRow_startable _ h)

end

/-! ### The receive path (R323) -/

theorem State.keyOf_own {t : Nat} (h : t < 256) (k : Nat) : State.keyOf t k = k := if_pos h

theorem State.roleOf_own (s : State) {t : Nat} (h : t < 256) : s.roleOf t = s.self := if_pos h

/-- R323: an item of a tenant of this module's role as it enters the admission queue. -/
def queueItem (s : State) (tn q : Nat) (i : Item) : QItem :=
  { tenant := tn, q := q, seq := i.seq, prio := Desc.prio i.desc, order := s.serve.order + 1 }

/-- R323: an item enters the admission queue, its tenant's buckets debited for the request and `new` tokens. -/
def State.admitted (s : State) (tn q : Nat) (i : Item) (new : Nat) : State :=
  (s.setServe { s.serve with
    order := s.serve.order + 1, queue := s.serve.queue ++ [queueItem s tn q i]
    rq := Tab.setSome s.serve.rq tn (s.rqLevel tn - 1000000)
    tk := Tab.setSome s.serve.tk tn (max (s.tkLevel tn - (new : Int) * 1000000) (-(2 ^ 31 * 1000000))) }).showQueue.queueRec tn

theorem State.serve_queue_admitted (s : State) (tn q : Nat) (i : Item) (new : Nat) :
    (s.admitted tn q i new).serve.queue = s.serve.queue ++ [queueItem s tn q i] :=
  congrArg ServeSt.queue (sendKeeps_serve.queueRec _ _)

theorem State.mem_admitted (s : State) (tn q : Nat) (i : Item) (new : Nat) : (s.admitted tn q i new).mem = s.mem :=
  sendKeeps_mem.queueRec _ _

theorem State.regN_ADM_QLEN_admitted (s : State) (tn q : Nat) (i : Item) (new : Nat) (h : s.serve.queue.length + 1 < 2 ^ 32) :
    (s.admitted tn q i new).regN Reg.ADM_QLEN = s.serve.queue.length + 1 := by
  have hreg := (sendKeeps_reg (o := Reg.ADM_QLEN) (by decide)).queueRec
  rw [State.regN, State.admitted, hreg, State.showQueue, State.reg_setRegN_self, BitVec.toNat_ofNat, State.setServe_serve,
    List.length_append, List.length_singleton, Nat.mod_eq_of_lt h]

/-- R323: a GENERATE of a tenant of this module's role passes every check of the receive path. -/
structure PassesReceive (s : State) (tn : Nat) (i : Item) (m : Model) (prompt maxnew : Nat) : Prop where
  own      : tn < 256
  deadline : Desc.deadline i.desc = 0
  rqRate   : s.regN (Reg.ADM_RQRATE tn) = 0xFFFFFFFF
  tkRate   : s.regN (Reg.ADM_TKRATE tn) = 0xFFFFFFFF
  slots    : s.regField (Reg.TNT_SLOTS tn) 0 16 + (s.serve.queue.filter fun x => x.tenant == tn).length <
    s.regField (Reg.TNT_SLOTS tn) 16 16
  places   : (s.serve.queue.filter fun x => s.roleOf x.tenant == s.self).length <
    32768 - (s.serve.reqs.filter fun r => s.roleOf r.2.tenant == s.self).length
  limit    : s.regField (Reg.TNT_GRANUSE tn) 0 19 + s.granulesFor tn (s.resvPages m none prompt maxnew) ≤
    s.regField (Reg.TNT_GRANLIM tn) 0 19
  quota    : s.granulesFor tn (s.resvPages m none prompt maxnew) ≤ s.quotaOf (Desc.model i.desc)
  room     : s.serve.queue.length < s.regField Reg.ADM_QDEPTH 0 16

theorem State.receive_passes {s : State} {tn : Nat} {i : Item} {m : Model} {prompt maxnew : Nat} (q new : Nat)
    (h : PassesReceive s tn i m prompt maxnew) :
    s.receive tn q i (some m) none new prompt maxnew = s.admitted tn q i new := by
  have hmod : tn % 256 = tn := Nat.mod_eq_of_lt h.own
  have hroom : s.makeRoom tn = (true, s) := if_pos h.room
  unfold State.receive
  simp only [hmod, State.keyOf_own h.own, State.roleOf_own s h.own, h.deadline, h.rqRate, h.tkRate, Nat.not_le.mpr h.slots,
    Nat.not_le.mpr h.places, Nat.not_lt.mpr h.limit, Nat.not_lt.mpr h.quota, hroom, ne_eq, not_true_eq_false, decide_false,
    Bool.false_and, Bool.not_true, Bool.false_eq_true, if_false]
  rfl

theorem State.regField_lt (s : State) (o lo n : Nat) : s.regField o lo n < 2 ^ n := Nat.mod_lt _ (Nat.two_pow_pos n)

/-! ### The rows' operations, case by case -/

section
variable {u : State} {tn q : Nat} {i : Item}

theorem generateAsk_malformed (h : u.generateOk tn i = false) : generateAsk u tn q i = u.finish tn q i.seq { status := stMalformed } := by
  simp only [generateAsk, h, Bool.not_false, if_true]

theorem generateAsk_closed (h : u.generateOk tn i = true) (hc : u.regBit Reg.ADM_STATUS 31 = false) :
    generateAsk u tn q i = u.refuseBusy tn q i.seq 100000000 false := by
  simp only [generateAsk, h, hc, Bool.not_true, Bool.not_false, Bool.false_eq_true, if_false, if_true]

theorem generateAsk_open (h : u.generateOk tn i = true) (ho : u.regBit Reg.ADM_STATUS 31 = true) :
    generateAsk u tn q i = u.receive tn q i (u.model? (State.keyOf tn (Desc.model i.desc))) none (fieldAt (Desc.body i.desc) 0 4)
      (fieldAt (Desc.body i.desc) 0 4) (fieldAt (Desc.body i.desc) 4 4) := by
  simp only [generateAsk, h, ho, Bool.not_true, Bool.false_eq_true, if_false]

/-- R323: a GENERATE within its rules that passes every check enters the admission queue. -/
theorem generateAsk_passes {m : Model} (h : u.generateOk tn i = true) (ho : u.regBit Reg.ADM_STATUS 31 = true)
    (hm : u.model? (Desc.model i.desc) = some m)
    (hp : PassesReceive u tn i m (fieldAt (Desc.body i.desc) 0 4) (fieldAt (Desc.body i.desc) 4 4)) :
    generateAsk u tn q i = u.admitted tn q i (fieldAt (Desc.body i.desc) 0 4) := by
  rw [generateAsk_open h ho, State.keyOf_own hp.own, hm, State.receive_passes q _ hp]

theorem resumeAsk_malformed (h : u.resumeForm tn i = false) : resumeAsk u tn q i = u.finish tn q i.seq { status := stMalformed } := by
  simp only [resumeAsk, h, Bool.not_false, if_true]

theorem resumeAsk_ended (h : u.resumeForm tn i = true) (hn : u.namedReq tn (Desc.body i.desc) = none) :
    resumeAsk u tn q i = u.finish tn q i.seq { status := u.namedEnd tn (Desc.body i.desc) } := by
  simp only [resumeAsk, h, hn, Bool.not_true, Bool.false_eq_true, if_false]

theorem resumeAsk_paused {slot : Nat} {r : Req} (h : u.resumeForm tn i = true)
    (hn : u.namedReq tn (Desc.body i.desc) = some (slot, r)) (hst : r.st = 4) (hok : u.resumeOk tn i r = true)
    (ho : u.regBit Reg.ADM_STATUS 31 = true) :
    resumeAsk u tn q i = u.receive tn q i (u.model? r.model) (some slot) (fieldAt (Desc.body i.desc) 16 4)
      (r.context.length + fieldAt (Desc.body i.desc) 16 4) (fieldAt (Desc.body i.desc) 20 4) := by
  simp [resumeAsk, h, hn, hst, hok, ho]

section
variable {slot : Nat} {r : Req} (hb : fieldAt (Desc.body i.desc) 1 7 = 0) (hn : u.namedReq tn (Desc.body i.desc) = some (slot, r))
include hb hn

/-- R335: a PAUSE or CANCEL of a request that runs stands behind what the request was asked before. -/
theorem steerAsk_running (kind : Nat) (hst : r.st = 2 ∨ r.st = 3) :
    steerAsk kind u tn q i = u.putReq slot { r with asked := r.asked ++ [(kind, q, i.seq)] } := by
  obtain hst | hst := hst <;> simp [steerAsk, hb, hn, hst]

theorem steerAsk_pause_admitted (hst : r.st = 1) : steerAsk 3 u tn q i = u.finishBusy tn q i.seq 1000000 := by
  simp [steerAsk, hb, hn, hst]

theorem steerAsk_cancel_admitted (hst : r.st = 1) :
    steerAsk 4 u tn q i = (u.endReq slot stOk 2 false 0).finish tn q i.seq { status := stOk } := by
  simp [steerAsk, hb, hn, hst]

end

end

end Sys2Proof.Machine

namespace Sys2Proof.Proofs

open Sys2Proof Sys2Proof.Machine

/-- Settles O30, row by row: each command does to the item what its row's operation does in that case. -/
theorem servingRequests : Obligations.ServingRequests := by
  intro s tn q i htn _ b
  refine ⟨fun hi => ⟨fun h => ?_, fun h hc => ?_, ?_⟩, fun hi => ⟨fun h => ?_, fun h hn => ?_, fun slot r h hn hst hok ho => ?_⟩,
    fun hi => ?_, fun hi => ?_⟩
  · rw [exec_generate_startable hi, generateAsk_malformed h]
  · rw [exec_generate_startable hi, generateAsk_closed h hc]
  · intro m hm hok hopen hdl hrq htk hslots hplaces hmem hroom
    have hdepth := State.regField_lt (itemStarts s tn q 1 i) Reg.ADM_QDEPTH 0 16
    refine ⟨_, (exec_generate_startable hi).trans (congrArg Host.Outcome.next
      (generateAsk_passes hok hopen hm ⟨htn, hdl, hrq, htk, hslots, hplaces, hmem.1, hmem.2, hroom⟩)),
      State.serve_queue_admitted _ _ _ _ _, State.regN_ADM_QLEN_admitted _ _ _ _ _ (by omega), State.mem_admitted _ _ _ _ _⟩
  · rw [exec_resume_startable hi, resumeAsk_malformed h]
  · rw [exec_resume_startable hi, resumeAsk_ended h hn]
  · rw [exec_resume_startable hi, resumeAsk_paused h hn hst hok ho]
  · intro u slot r hb hn
    rw [exec_pause_startable hi]
    exact ⟨fun hst => congrArg Host.Outcome.next (steerAsk_pause_admitted hb hn hst),
      fun hst => congrArg Host.Outcome.next (steerAsk_running hb hn 3 hst)⟩
  · intro u slot r hb hn
    rw [exec_cancel_startable hi]
    exact ⟨fun hst => congrArg Host.Outcome.next (steerAsk_cancel_admitted hb hn hst),
      fun hst => congrArg Host.Outcome.next (steerAsk_running hb hn 4 hst)⟩

end Sys2Proof.Proofs

/-! Training: a step item is accepted, its step begins under its cue, the entries of its pipeline table begin (R344 to R364). -/

namespace Sys2Proof.Machine

/-! ### What a record to the partner and a taken cue leave -/

theorem sendKeeps_train : SendKeeps State.train := ⟨fun _ _ => rfl, State.setFab_train, State.emit_train⟩

theorem sendKeeps_curtain : SendKeeps State.curtain := ⟨fun _ _ => rfl, State.setFab_curtain, State.emit_curtain⟩

theorem sendKeeps_now : SendKeeps State.now := ⟨fun _ _ => rfl, State.setFab_now, State.emit_now⟩

theorem State.model?_congr {s t : State} (h : t.curtain = s.curtain) (k : Nat) : t.model? k = s.model? k := by
  rw [State.model?, h, State.model?]

/-- R473: taking a cue touches the cue sheet, its registers, and what tells the partner of it. -/
theorem State.takeCue_keeps {α : Type} {f : State → α} (h : SendKeeps f) (hboot : ∀ (s : State) x, f { s with boot := x } = f s)
    (htime : ∀ s x, f (State.setTime s x) = f s) (hreg : ∀ s o v, f (State.setReg s o v) = f s) {s u : State} {action sub arg : Nat}
    {role : Option Nat} (hu : s.takeCue action sub arg role = some u) : f u = f s := by
  unfold State.takeCue at hu
  split at hu
  · cases hu
  next c _ =>
    split at hu
    · obtain rfl := Option.some.inj hu
      have hshown : ∀ t : State, f (t.showCues) = f t := fun t => hreg _ _ _
      split
      · exact (hreg _ _ _).trans ((h.roleRec _ _ _ _).trans ((hshown _).trans ((htime _ _).trans (hboot _ _))))
      · exact (h.roleRec _ _ _ _).trans ((hshown _).trans ((htime _ _).trans (hboot _ _)))
    · cases hu

theorem State.takeCue_mem {s u : State} {action sub arg : Nat} {role : Option Nat} (hu : s.takeCue action sub arg role = some u) :
    u.mem = s.mem :=
  State.takeCue_keeps sendKeeps_mem (fun _ _ => rfl) State.setTime_mem State.setReg_mem hu

theorem State.takeCue_curtain {s u : State} {action sub arg : Nat} {role : Option Nat} (hu : s.takeCue action sub arg role = some u) :
    u.curtain = s.curtain :=
  State.takeCue_keeps sendKeeps_curtain (fun _ _ => rfl) State.setTime_curtain State.setReg_curtain hu

/-! ### The table of jobs -/

@[simp] theorem State.job?_setJob_self (s : State) (k : Nat) (j : Job) : (s.setJob k j).job? k = some j := by
  rw [State.job?, State.setJob, sendKeeps_train.roleRec, State.setTrain_train]
  exact Tab.find_setSome_self _ _ _

theorem State.job?_emit (s : State) (o : Out) (k : Nat) : (s.emit o).job? k = s.job? k := by
  rw [State.job?, State.emit_train, State.job?]

@[simp] theorem State.setJob_mem (s : State) (k : Nat) (j : Job) : (s.setJob k j).mem = s.mem := sendKeeps_mem.roleRec _ _ _ _

@[simp] theorem State.setJob_curtain (s : State) (k : Nat) (j : Job) : (s.setJob k j).curtain = s.curtain :=
  sendKeeps_curtain.roleRec _ _ _ _

@[simp] theorem State.setJob_now (s : State) (k : Nat) (j : Job) : (s.setJob k j).now = s.now := sendKeeps_now.roleRec _ _ _ _

theorem State.stepRun_eq_some_iff {s : State} {k : Nat} {j : Job} {x : StepItem} :
    s.stepRun k = some (j, x) ↔ s.job? k = some j ∧ j.run = some x := by
  simp only [State.stepRun, Option.bind_eq_some_iff, Option.map_eq_some_iff, Prod.mk.injEq]
  constructor
  · rintro ⟨_, hj, _, hx, rfl, rfl⟩
    exact ⟨hj, hx⟩
  · rintro ⟨hj, hx⟩
    exact ⟨j, hj, x, hx, rfl, rfl⟩

theorem State.closing_eq_some_iff {s : State} {k : Nat} {j : Job} {x : StepItem} :
    s.closing k = some (j, x) ↔ s.job? k = some j ∧ j.tail.or j.run = some x := by
  simp only [State.closing, Option.bind_eq_some_iff, Option.map_eq_some_iff, Prod.mk.injEq]
  constructor
  · rintro ⟨_, hj, _, hx, rfl, rfl⟩
    exact ⟨hj, hx⟩
  · rintro ⟨hj, hx⟩
    exact ⟨j, hj, x, hx, rfl, rfl⟩

theorem State.stepRun_emit (s : State) (o : Out) (k : Nat) : (s.emit o).stepRun k = s.stepRun k := by
  rw [State.stepRun, State.job?_emit, State.stepRun]

theorem State.closing_emit (s : State) (o : Out) (k : Nat) : (s.emit o).closing k = s.closing k := by
  rw [State.closing, State.job?_emit, State.closing]

theorem State.putStep_of_job {s : State} {k : Nat} {j : Job} (h : s.job? k = some j) (y : StepItem) :
    s.putStep k y = s.setJob k { j with run := some y } := by
  simp only [State.putStep, h]

/-- R362: the job whose step that closes next is `y`. -/
def Job.withClosing (j : Job) (y : StepItem) : Job := if j.tail.isSome then { j with tail := some y } else { j with run := some y }

theorem Job.anchors_withClosing (j : Job) (y : StepItem) : (j.withClosing y).anchors = j.anchors := by unfold Job.withClosing; split <;> rfl

theorem Job.model_withClosing (j : Job) (y : StepItem) : (j.withClosing y).model = j.model := by unfold Job.withClosing; split <;> rfl

theorem Job.closing_withClosing (j : Job) (y : StepItem) : (j.withClosing y).tail.or (j.withClosing y).run = some y := by
  cases h : j.tail <;> simp [Job.withClosing, h]

theorem State.putClosing_of_job {s : State} {k : Nat} {j : Job} (h : s.job? k = some j) (y : StepItem) :
    s.putClosing k y = s.setJob k (j.withClosing y) := by
  simp only [State.putClosing, h, Job.withClosing]

section
variable {s : State} {k : Nat} {j : Job} {x : StepItem}

theorem State.stepRun_putStep (h : s.stepRun k = some (j, x)) (y : StepItem) :
    (s.putStep k y).stepRun k = some ({ j with run := some y }, y) := by
  rw [State.putStep_of_job (State.stepRun_eq_some_iff.mp h).1]
  exact State.stepRun_eq_some_iff.mpr ⟨State.job?_setJob_self _ _ _, rfl⟩

theorem State.closing_putClosing (h : s.closing k = some (j, x)) (y : StepItem) :
    (s.putClosing k y).closing k = some (j.withClosing y, y) := by
  rw [State.putClosing_of_job (State.closing_eq_some_iff.mp h).1]
  exact State.closing_eq_some_iff.mpr ⟨State.job?_setJob_self _ _ _, j.closing_withClosing y⟩

end

/-- Writing a step back touches the job table alone, besides the record to the partner. -/
theorem State.putStep_keeps {α : Type} {f : State → α} (h : ∀ s k j, f (State.setJob s k j) = f s) (s : State) (k : Nat) (y : StepItem) :
    f (s.putStep k y) = f s := by
  unfold State.putStep
  split
  · rfl
  · exact h _ _ _

theorem State.putClosing_keeps {α : Type} {f : State → α} (h : ∀ s k j, f (State.setJob s k j) = f s) (s : State) (k : Nat)
    (y : StepItem) : f (s.putClosing k y) = f s := by
  unfold State.putClosing
  split
  · rfl
  · exact h _ _ _

/-! ### TRAIN_STEP (R344, R346) -/

theorem State.model?_itemStarts (s : State) (tn q row : Nat) (i : Item) (k : Nat) :
    (itemStarts s tn q row i).model? k = (s.takeRow tn q row).model? k := rfl

section
variable {s : State} {tn q : Nat} {i : Item} {m : Model} (fits : Bool) (hi : startableItem s tn q 0x10 = some i)
include hi

/-- R297: while the model drains toward generation, nothing but the parsing happens. -/
theorem exec_trainStep_held (hm : (s.takeRow tn q 0x10).model? (State.keyOf tn (Desc.model i.desc)) = some m) (hh : m.holdTrain = true) :
    exec (.trainStep tn q fits) s = .next (s.takeRow tn q 0x10) := by
  have hi' : State.startable tn 0x10 [] ((s.takeRow tn q 0x10).hq tn q).items = some i := hi
  show execTrainStep tn q fits s = _
  simp only [execTrainStep, hi', hm, Option.any_some, hh, if_true]

theorem exec_trainStep_free (hm : (itemStarts s tn q 0x10 i).model? (State.keyOf tn (Desc.model i.desc)) = some m)
    (hh : m.holdTrain = false) : exec (.trainStep tn q fits) s = .next (trainStep fits tn q (itemStarts s tn q 0x10 i) i) := by
  have hi' : State.startable tn 0x10 [] ((s.takeRow tn q 0x10).hq tn q).items = some i := hi
  rw [State.model?_itemStarts] at hm
  show execTrainStep tn q fits s = _
  simp only [execTrainStep, hi', hm, Option.any_some, hh, Bool.false_eq_true, if_false]
  rfl

end

/-- R347: the step of item `i` of a queue. -/
def itemStep (tn q : Nat) (i : Item) : StepItem := stepOf (some (tn, q, i.seq)) (Desc.seed i.desc) (Desc.body i.desc) (i.payload.getD [])

/-- R344, R345: item `i` is within the rules for a step of model `m`, which is in training. -/
structure StepWithinRules (u : State) (tn q : Nat) (i : Item) (m : Model) : Prop where
  model   : u.model? (State.keyOf tn (Desc.model i.desc)) = some m
  tenant  : m.tenant = tn
  kind    : m.kind = 1
  member  : u.roleOf tn ∈ m.members
  adapter : Desc.adapter i.desc = 0
  epoch   : Desc.epoch i.desc = 0
  fmt     : Desc.fmt i.desc = 0
  fmtSet  : Desc.fmtSet i.desc = false
  body    : stepBodyOk m (Desc.body i.desc) = true
  table   : seqTableOk (i.payload.getD []) (fieldAt (Desc.body i.desc) 16 4) (fieldAt (Desc.body i.desc) 20 4) = true
  micros  : (itemStep tn q i).micros.length ≤ 4096
  trains  : m.gen = false

/-- R346: the job that a START creates, with its first step waiting. -/
def startedJob (tn q : Nat) (i : Item) (m : Model) : Job :=
  { startJob tn (State.keyOf tn (Desc.model i.desc)) m (Desc.body i.desc) with waiting := [itemStep tn q i] }

/-- R344, R346: a START within its rules creates its job; the item goes to the stage manager. -/
theorem trainStep_start {u : State} {tn q : Nat} {i : Item} {m : Model} (h : StepWithinRules u tn q i m)
    (hnew : u.job? (State.keyOf tn (fieldAt (Desc.body i.desc) 0 4)) = none) (hstart : startBit (Desc.body i.desc) = true) :
    trainStep true tn q u i = (u.setJob (State.keyOf tn (fieldAt (Desc.body i.desc) 0 4)) (startedJob tn q i m)).emit
      (.toManager (u.roleOf tn) (i.desc ++ i.payload.getD [])) := by
  have hnew' : Tab.find? u.train.jobs (State.keyOf tn (fieldAt (Desc.body i.desc) 0 4)) = none := hnew
  have hmicros : ¬ 4096 < (stepOf (some (tn, q, i.seq)) (Desc.seed i.desc) (Desc.body i.desc) (i.payload.getD [])).micros.length :=
    Nat.not_lt.mpr h.micros
  have hmember : m.members.elem (u.roleOf tn) = true := List.elem_eq_true_of_mem h.member
  unfold trainStep
  simp only [h.model, h.tenant, h.kind, hmember, h.adapter, h.epoch, h.fmt, h.fmtSet, h.body, h.table, hmicros, h.trains, hnew', hstart,
    bne_self_eq_false, Bool.not_true, decide_false, Bool.or_self, Bool.false_eq_true, if_false]
  rfl

/-- R344: TRAIN_STEP whose first item is a START within its rules creates the job with the step waiting. -/
theorem exec_trainStep_start {s : State} {tn q : Nat} {i : Item} {m : Model} (hi : startableItem s tn q 0x10 = some i)
    (hh : m.holdTrain = false) (h : StepWithinRules (itemStarts s tn q 0x10 i) tn q i m)
    (hnew : (itemStarts s tn q 0x10 i).job? (State.keyOf tn (fieldAt (Desc.body i.desc) 0 4)) = none)
    (hstart : startBit (Desc.body i.desc) = true) :
    ∃ t, exec (.trainStep tn q true) s = .next t ∧ t.mem = (itemStarts s tn q 0x10 i).mem ∧
      t.job? (State.keyOf tn (fieldAt (Desc.body i.desc) 0 4)) = some (startedJob tn q i m) :=
  ⟨_, (exec_trainStep_free true hi h.model hh).trans (congrArg Host.Outcome.next (trainStep_start h hnew hstart)),
    (State.emit_mem _ _).trans (State.setJob_mem _ _ _), (State.job?_emit _ _ _).trans (State.job?_setJob_self _ _ _)⟩

/-! ### PIPELINE (R354, R362) -/

/-- R346: the job that a plan is for, as a START makes it anew. -/
def State.plannedJob (u : State) (job tn id : Nat) (m : Model) (b : List Byte) : Job :=
  match u.job? job with
  | none => startJob tn id m b
  | some j => if startBit b then { startJob tn id m b with waiting := j.waiting } else j

/-- R354: the step that a plan begins, its table read from memory. -/
def State.plannedStep (u : State) (job t0 addr : Nat) (d tbl table : List Byte) (parts : List TensorPart) : StepItem :=
  { stepOf (((u.job? job).bind fun j => j.waiting.head?).bind (·.submit)) (Desc.seed d) (Desc.body d) tbl with
    t0 := some t0, table := (List.range (table.length / 32)).map fun i => pipeEnt (u.readN (addr + 32 * i) 32), parts := parts }

/-- R351: the parts of products that a plan within its rules gives this member. -/
def plannedParts (m : Model) (d tbl table : List Byte) (ps : List TensorPart) : List TensorPart :=
  if planOk m (Desc.body d) (pipeEnts table) ps &&
      (stepOf none 0 (Desc.body d) tbl).unitsOk ((stepWidth m (Desc.body d)).getD 1) (pipeEnts table) then ps else []

/-- The job once step `x` runs: the step that ran updates still, and an item no longer waits. -/
def Job.begins (j : Job) (x : StepItem) : Job := { j with tail := j.run, run := some x, waiting := j.waiting.drop 1 }

/-- R362: a step of the job may begin: no step updates still, and the one that runs, if any, has its norm. -/
def State.stepMayBegin (u : State) (job : Nat) (b : List Byte) : Prop :=
  ∀ j, u.job? job = some j → j.tail = none ∧ ∀ r, j.run = some r → startBit b = false ∧ r.normed = true

section
variable {u : State} {job : Nat} {b : List Byte} (h : u.stepMayBegin job b)
include h

theorem State.stepMayBegin.tail_plannedJob (tn id : Nat) (m : Model) : (u.plannedJob job tn id m b).tail = none := by
  unfold State.plannedJob
  split
  · rfl
  next j hj =>
    split
    · rfl
    · exact (h j hj).1

theorem State.stepMayBegin.run_plannedJob (tn id : Nat) (m : Model) : (u.plannedJob job tn id m b).run = (u.job? job).bind (·.run) := by
  unfold State.plannedJob
  split
  next hj => rw [hj]; rfl
  next j hj =>
    rw [hj]
    cases hs : startBit b with
    | false => rfl
    | true =>
      cases hr : j.run with
      | none => exact hr.symm
      | some r => exact absurd hs (Bool.eq_false_iff.mp ((h j hj).2 r hr).1)

theorem State.stepMayBegin.no_blocking_run : (((u.job? job).bind (·.run)).any fun r => startBit b || !r.normed) = false := by
  cases hj : u.job? job with
  | none => rfl
  | some j =>
    cases hr : j.run with
    | none => simp [hr]
    | some r =>
      obtain ⟨hstart, hnormed⟩ := (h j hj).2 r hr
      simp [hr, hstart, hnormed]

end

/-- R354, R362: under its due cue the step of a known plan begins. -/
theorem exec_pipeline_taken {s u : State} {job tn id t0 addr : Nat} {d tbl table : List Byte} {ps : List TensorPart} {m : Model}
    (hknown : ∃ c ∈ s.time.cues, c.action = cuePipeline ∧ c.arg = addr ∧ c.role = s.roleAt job)
    (hu : s.takeCue cuePipeline 0 addr (some (s.roleAt job)) = some u) (hm : u.model? id = some m) (hh : m.holdTrain = false)
    (hmay : u.stepMayBegin job (Desc.body d)) :
    exec (.pipeline job tn id t0 addr d tbl table ps) s = .next (u.setJob job
      ((u.plannedJob job tn id m (Desc.body d)).begins (u.plannedStep job t0 addr d tbl table (plannedParts m d tbl table ps)))) := by
  have hcue : (s.time.cues.any fun c => c.action == cuePipeline && c.arg == addr && c.role == s.roleAt job) = true := by
    simpa [List.any_eq_true, and_assoc] using hknown
  have hms : s.model? id = some m := (State.model?_congr (State.takeCue_curtain hu) id).symm.trans hm
  have hbusy : ((u.plannedJob job tn id m (Desc.body d)).tail.isSome ||
      ((u.job? job).bind (·.run)).any fun r => startBit (Desc.body d) || !r.normed) = false := by
    rw [hmay.tail_plannedJob, hmay.no_blocking_run]; rfl
  show execPipeline job tn id t0 addr d tbl table ps s = _
  simp only [execPipeline, hcue, Bool.true_or, if_true, hu, hms, Option.any_some]
  exact (if_neg (Bool.eq_false_iff.mp hbusy)).trans (if_neg (Bool.eq_false_iff.mp hh))

/-! ### Entries that start work on the cores (R352, R353) -/

theorem State.work_mem_out_emit (s : State) (w : TrainWork) : Out.work w ∈ (s.emit (.work w)).out := by
  rw [State.emit_out_inward s rfl rfl]
  exact List.mem_append_right _ (List.mem_singleton_self _)

/-- R355: the step with one more entry begun. -/
def StepItem.begins (x : StepItem) (e : PipeEnt) : StepItem := { x with begun := e :: x.begun }

section
variable {s : State} {job : Nat} {j : Job} {x : StepItem} {e : PipeEnt} (hx : s.stepRun job = some (j, x))
include hx

theorem startEntry_due {act : Nat} {ok : Job → StepItem → PipeEnt → Bool} {att : List (List Word32)}
    (he : dueEntry s x act (ok j x) = some e) : startEntry act ok job s att = startWork s job j x e att := by
  simp only [startEntry, hx, he]

theorem stepRun_startWork (att : List (List Word32)) : (startWork s job j x e att).stepRun job =
    some ({ j with run := some (x.begins e) }, x.begins e) :=
  (State.stepRun_emit _ _ _).trans (State.stepRun_putStep hx (x.begins e))

end

theorem startWork_mem (s : State) (job : Nat) (j : Job) (x : StepItem) (e : PipeEnt) (att : List (List Word32)) :
    (startWork s job j x e att).mem = s.mem :=
  (State.emit_mem _ _).trans (State.putStep_keeps State.setJob_mem _ _ _)

/-- R350, R352: may the forward of a unit run with these keys: none lies behind the unit's last position. -/
def fwdMayRun (att : List (List (Word32 × List Word32))) (x : StepItem) (e : PipeEnt) : Bool :=
  (att.all fun q => decide (q.length ≤ (e.chunk + 1) * fieldAt x.body 20 4)) && x.forward e

/-- R349, R352: may the backward of a unit run: its forward has, and the backward of the later chunks of its micro-batch. -/
def bwdMayRun (x : StepItem) (e : PipeEnt) : Bool :=
  (x.begun.any fun g => g.action == 1 && g.lchunk == e.lchunk && g.mb == e.mb && g.chunk == e.chunk) &&
  !(x.table.any fun g => g.action == 2 && g.lchunk == e.lchunk && g.mb == e.mb && decide (e.chunk < g.chunk) && !x.begun.elem g)

theorem exec_gather (job : Nat) (s : State) : exec (.gather job) s = .next (startEntry 0 (fun j _ e => j.updated e.lchunk) job s) := rfl

theorem exec_fwd (job : Nat) (att : List (List (Word32 × List Word32))) (s : State) :
    exec (.fwd job att) s = .next (startEntry 1 (fun _ => fwdMayRun att) job s (att.map attend)) := rfl

theorem exec_bwd (job : Nat) (s : State) : exec (.bwd job) s = .next (startEntry 2 (fun _ => bwdMayRun) job s) := rfl

/-- R352, R353: GATHER, FWD and BWD of a due entry mark it begun and give its work to the cores. -/
theorem exec_startEntry_due {c : Instr} {s : State} {job act : Nat} {ok : Job → StepItem → PipeEnt → Bool} {att : List (List Word32)}
    {j : Job} {x : StepItem} {e : PipeEnt} (hc : exec c s = .next (startEntry act ok job s att)) (hx : s.stepRun job = some (j, x))
    (he : dueEntry s x act (ok j x) = some e) :
    ∃ t, exec c s = .next t ∧
      t.stepRun job = some ({ j with run := some (x.begins e) }, x.begins e) ∧
      Out.work (workOf s job j x e att) ∈ t.out ∧ t.mem = s.mem :=
  ⟨_, hc.trans (congrArg Host.Outcome.next (startEntry_due hx he)), stepRun_startWork hx att, State.work_mem_out_emit _ _,
    startWork_mem _ _ _ _ _ _⟩

/-! ### UPDATE (R362, R363) -/

section
variable {s : State} {job : Nat} {j : Job} {x : StepItem} {e : PipeEnt}

/-- R362, R363: an UPDATE may begin: every one of a lower layer chunk has, and its mask (EARLY) or the result of NORM is there. -/
structure UpdateReady (s : State) (job : Nat) (j : Job) (x : StepItem) (e : PipeEnt) : Prop where
  step  : s.closing job = some (j, x)
  due   : dueEntry s x 4 = some e
  order : ∀ g ∈ x.table, g.action = 4 → g.lchunk < e.lchunk → g ∈ x.begun
  gated : if tbit (fieldAt x.body 4 2) 3 then Tab.find? x.masks e.lchunk ≠ none else x.norm ≠ none ∧ x.maxima ≠ none

namespace UpdateReady

variable (h : UpdateReady s job j x e)
include h

theorem no_earlier : (x.table.any fun g => g.action == 4 && decide (g.lchunk < e.lchunk) && !x.begun.elem g) = false := by
  simpa [List.any_eq_false] using h.order

theorem gate_open : (if tbit (fieldAt x.body 4 2) 3 then (Tab.find? x.masks e.lchunk).isSome else x.norm.isSome && x.maxima.isSome) = true := by
  have hg := h.gated
  split at hg
  next hearly => simpa [hearly, Option.isSome_iff_ne_none] using hg
  next hlate => simpa [hlate, Option.isSome_iff_ne_none] using hg

theorem not_blocked : (!!(x.table.any fun g => g.action == 4 && decide (g.lchunk < e.lchunk) && !x.begun.elem g) ||
    !if tbit (fieldAt x.body 4 2) 3 then (Tab.find? x.masks e.lchunk).isSome else x.norm.isSome && x.maxima.isSome) = false := by
  rw [h.no_earlier, h.gate_open]
  rfl

/-- R362: a step whose norm was not finite updates nothing. -/
theorem exec_skipped (hs : x.skipped = true) : exec (.updateEntry job) s = .next (s.putClosing job (x.begins e)) := by
  show execUpdateEntry job s = _
  simp only [execUpdateEntry, h.step, h.due]
  exact (if_neg (Bool.eq_false_iff.mp h.not_blocked)).trans (if_pos hs)

theorem exec_unsealed (hs : x.skipped = false) (hc : ∀ c ∈ s.curtain.runs, c.2.model = j.model → c.2.sealed = []) :
    exec (.updateEntry job) s = .next ((s.putClosing job (x.begins e)).emit (.work (workOf s job j x e []))) := by
  have hsealed : (s.curtain.runs.any fun c => c.2.model == j.model && !c.2.sealed.isEmpty) = false := by
    simpa [List.any_eq_false] using hc
  show execUpdateEntry job s = _
  simp only [execUpdateEntry, h.step, h.due]
  exact (if_neg (Bool.eq_false_iff.mp h.not_blocked)).trans
    ((if_neg (Bool.eq_false_iff.mp hs)).trans (if_neg (Bool.eq_false_iff.mp hsealed)))

/-- R362: an UPDATE of a step that is not skipped, where no page of the model is sealed, gives its work to the cores. -/
theorem exec_works (hs : x.skipped = false) (hc : ∀ c ∈ s.curtain.runs, c.2.model = j.model → c.2.sealed = []) :
    ∃ t, exec (.updateEntry job) s = .next t ∧ t.mem = s.mem ∧ t.closing job = (s.putClosing job (x.begins e)).closing job ∧
      Out.work (workOf s job j x e []) ∈ t.out :=
  ⟨_, h.exec_unsealed hs hc, (State.emit_mem _ _).trans (State.putClosing_keeps State.setJob_mem _ _ _),
    State.closing_emit _ _ _, State.work_mem_out_emit _ _⟩

end UpdateReady

end

/-! ### Entries that open slots (R355, R356, R361, R364) -/

/-- R355, R359: the slots of those plans open that step `x` of job `j` allows. -/
def State.openPlans (s : State) (job : Nat) (j : Job) (x : StepItem) (ps : List CollPlan) (ready : Bool) : State :=
  ((ps.filter (stepPlanOk s job j x)).foldl (fun s p =>
    (s.holdPlan (s.roleAt job) (s.planned p)).openSlot (State.collKey (s.roleAt job) p.cid) true ready) s).collLoop 64

/-- What a step allows of a plan rests on the model, the anchors and the body alone. -/
theorem stepPlanOk_congr {s t : State} {j k : Job} {x y : StepItem} (hc : t.curtain = s.curtain) (hm : k.model = j.model)
    (ha : k.anchors = j.anchors) (hb : y.body = x.body) (job : Nat) : stepPlanOk t job k y = stepPlanOk s job j x := by
  funext p
  unfold stepPlanOk
  rw [State.model?_congr hc, hm, ha, hb]

/-- Steps with the same start, table, entries begun and body. -/
structure SameEntries (x y : StepItem) : Prop where
  t0    : y.t0 = x.t0
  table : y.table = x.table
  begun : y.begun = x.begun
  body  : y.body = x.body

section
variable {s t : State} {x y : StepItem} (hxy : SameEntries x y)
include hxy

theorem SameEntries.dueEntry_eq (hnow : t.now = s.now) (act : Nat) (ok : PipeEnt → Bool) : dueEntry t y act ok = dueEntry s x act ok := by
  unfold dueEntry
  rw [hnow, hxy.t0, hxy.table, hxy.begun]

theorem SameEntries.openPlans_eq {j k : Job} (hm : k.model = j.model) (ha : k.anchors = j.anchors) (job : Nat) (ps : List CollPlan)
    (ready : Bool) : s.openPlans job k y ps ready = s.openPlans job j x ps ready := by
  unfold State.openPlans
  rw [stepPlanOk_congr rfl hm ha hxy.body]

end

section
variable {s : State} {job : Nat} {j : Job} {x : StepItem} {e : PipeEnt}

theorem openEntry_step {act : Nat} (ha : act ≠ 6) (hx : s.stepRun job = some (j, x)) (he : dueEntry s x act = some e)
    (ps : List CollPlan) (ready : Bool) : openEntry act job ps ready s = (s.putStep job (x.begins e)).openPlans job j x ps ready := by
  rw [State.openPlans, stepPlanOk_congr (State.putStep_keeps State.setJob_curtain s job (x.begins e)) rfl rfl rfl]
  simp only [openEntry, if_neg ha, hx, he]
  rfl

theorem openEntry_closing (hx : s.closing job = some (j, x)) (he : dueEntry s x 6 = some e) (ps : List CollPlan) (ready : Bool) :
    openEntry 6 job ps ready s = (s.putClosing job (x.begins e)).openPlans job j x ps ready := by
  rw [State.openPlans, stepPlanOk_congr (State.putClosing_keeps State.setJob_curtain s job (x.begins e)) rfl rfl rfl]
  simp only [openEntry, if_true, hx, he]
  rfl

/-- What else the running step holds may be written anew before: neither its entries nor its plans depend on it. -/
theorem openEntry_putStep {act : Nat} {y : StepItem} (hxy : SameEntries x y) (ha : act ≠ 6) (hx : s.stepRun job = some (j, x))
    (he : dueEntry s x act = some e) (ps : List CollPlan) (ready : Bool) : openEntry act job ps ready (s.putStep job y) =
      ((s.putStep job y).putStep job (y.begins e)).openPlans job j x ps ready := by
  have hdue := (hxy.dueEntry_eq (State.putStep_keeps State.setJob_now s job y) act fun _ => true).trans he
  rw [openEntry_step ha (State.stepRun_putStep hx y) hdue]
  exact hxy.openPlans_eq rfl rfl _ _ _

theorem openEntry_putClosing {y : StepItem} (hxy : SameEntries x y) (hx : s.closing job = some (j, x))
    (he : dueEntry s x 6 = some e) (ps : List CollPlan) (ready : Bool) : openEntry 6 job ps ready (s.putClosing job y) =
      ((s.putClosing job y).putClosing job (y.begins e)).openPlans job j x ps ready := by
  have hdue := (hxy.dueEntry_eq (State.putClosing_keeps State.setJob_now s job y) 6 fun _ => true).trans he
  rw [openEntry_closing (State.closing_putClosing hx y) hdue]
  exact hxy.openPlans_eq (j.model_withClosing y) (j.anchors_withClosing y) _ _ _

/-- R361: NORM notes the next step's token count first. -/
theorem exec_norm_due (hx : s.stepRun job = some (j, x)) (he : dueEntry s x 5 = some e) (ps : List CollPlan) (ready : Bool)
    (n : Option Nat) : let y := { x with tnext := n }
    exec (.norm job ps ready n) s = .next (((s.putStep job y).putStep job (y.begins e)).openPlans job j x ps ready) := by
  intro y
  have hxy : SameEntries x y := ⟨rfl, rfl, rfl, rfl⟩
  rw [← openEntry_putStep hxy (by decide) hx he]
  show execNorm job ps ready n s = _
  simp only [execNorm, hx]
  rfl

/-- R364: DONE notes the other members' report entries first. -/
theorem exec_doneEntry_due (hx : s.closing job = some (j, x)) (he : dueEntry s x 6 = some e) (ps : List CollPlan) (ready : Bool)
    (os : List (Nat × Nat × List Bool)) : let y := { x with others := os }
    exec (.doneEntry job ps ready os) s = .next (((s.putClosing job y).putClosing job (y.begins e)).openPlans job j x ps ready) := by
  intro y
  have hxy : SameEntries x y := ⟨rfl, rfl, rfl, rfl⟩
  rw [← openEntry_putClosing hxy hx he]
  show execDoneEntry job ps ready os s = _
  simp only [execDoneEntry, hx]
  rfl

end

end Sys2Proof.Machine

namespace Sys2Proof.Proofs

open Sys2Proof Sys2Proof.Machine

/-- Settles O37, command by command. That PIPELINE may begin a step while the one before still updates is log entry 112. -/
theorem trainingStepAndPipeline : Obligations.TrainingStepAndPipeline := by
  refine ⟨fun s tn q fits i m hi => ⟨exec_trainStep_held fits hi, ?start⟩, ?pipeline,
    fun s job j x e ps ready => ⟨fun hx => ?running, fun hx => ?closing⟩⟩
  case start =>
    intro u b f tbl x k hm hh ht hk hmem hada hep hfmt hset hbody htbl hmic hgen hnew hstart hfits
    subst hfits
    exact exec_trainStep_start hi hh ⟨hm, ht, hk, hmem, hada, hep, hfmt, hset, hbody, htbl, hmic, hgen⟩ hnew hstart
  case pipeline =>
    intro s u job tn id t0 addr d tbl table ps m hknown hu hm hh hmay
    have hread : ∀ a n, u.readN a n = s.readN a n := fun a n => by rw [State.readN, State.takeCue_mem hu, State.readN]
    refine ⟨_, _, u.plannedStep job t0 addr d tbl table (plannedParts m d tbl table ps), exec_pipeline_taken hknown hu hm hh hmay,
      State.job?_setJob_self _ _ _, rfl, State.stepMayBegin.run_plannedJob hmay tn id m, rfl, rfl, rfl, ?_,
      (State.setJob_mem _ _ _).trans (State.takeCue_mem hu)⟩
    simp only [State.plannedStep, hread]
  case running =>
    refine ⟨fun he => exec_startEntry_due (exec_gather job s) hx he,
      fun att he => exec_startEntry_due (exec_fwd job att s) hx he, fun he => exec_startEntry_due (exec_bwd job s) hx he,
      fun he => congrArg Host.Outcome.next (openEntry_step (by decide) hx he ps ready), fun he n => exec_norm_due hx he ps ready n⟩
  case closing =>
    refine ⟨fun he hord hgate => ?_, fun he os => exec_doneEntry_due hx he ps ready os⟩
    have hready : UpdateReady s job j x e := ⟨hx, he, hord, hgate⟩
    exact ⟨hready.exec_skipped, hready.exec_works⟩

end Sys2Proof.Proofs
